-- ==== Sys2Proof/Word.lean ====
section
/-!
DEFINITION. The machine words of the Nerza and their plainest arithmetic: a byte, a 32-bit word (the width of
every hub register, R39, and of every vent lane) and the two ways of reading a word as a number.
-/
namespace Sys2Proof

/-- One byte of memory. -/
abbrev Byte := BitVec 8
/-- One 32-bit word: a register, a lane, a memory word (R8: little-endian in memory). -/
abbrev Word := BitVec 32

/-- The word that holds a number modulo 2^32. -/
abbrev Word.ofNat (n : Nat) : Word := BitVec.ofNat 32 n
/-- The word that holds an integer modulo 2^32. -/
abbrev Word.ofInt (i : Int) : Word := BitVec.ofInt 32 i

end Sys2Proof
end

