-- ==== Sys2Proof/Syntax.lean ====
section
/-!
DEFINITION. The commands of the Nerza: one constructor per row of spec/opcode_table.json. The table gives a row no
operand fields, so the operands are this model's: the processor and register fields of a QSIS instruction (R83), the
unit, the value written, or what arrives from outside at an event (a frame, a temperature, a random word).
-/
namespace Sys2Proof

/-- A scalar register g0 to g31 (R83). -/
abbrev GReg := BitVec 5
/-- A vector register v0 to v15. -/
abbrev VReg := BitVec 4
/-- A predicate register p0 to p7. -/
abbrev PReg := BitVec 3
/-- A scalar register g0 to g15, as opcode 0x3E names it (R113). -/
abbrev SReg := BitVec 4
/-- A logical vent number (R33). -/
abbrev VentNo := BitVec 10

/-- A processor that executes QSIS: a vent, service core n, or the management core. -/
inductive Proc where
  | vent (n : VentNo)
  | svc (n : BitVec 3)
  | mgmt
  deriving DecidableEq, Repr

/-- A master of registers (R41): the host, whose access level its sessions give (R377), a core and the world it is in, the
Langal engine, or the LG-16 host bus, which reaches only its own sixteen registers (R335). -/
inductive Master where
  | host
  | mgmt (secure : Bool)
  | svc (n : BitVec 3) (secure : Bool)
  | langal
  | lhb
  deriving DecidableEq, Repr

/-- A 64b/66b block: whether it is a control block, and its 8 payload bytes (R254, R468). -/
structure Block where
  ctl : Bool
  bytes : List Byte
  deriving DecidableEq, Repr

/-- What the two lanes of a chain port have received when a message has arrived (R468). -/
structure ChainRx where
  lane0 : List Block
  lane1 : List Block
  deriving DecidableEq, Repr

/-- A register access: a write or a read of some bytes, or a frame on the LG-16 host bus in its SPI form, most significant
bit first (R334). -/
inductive RegAccess where
  | write (size : Nat) (w : Word)
  | read (size : Nat)
  | spi (bits : List Bool)
  deriving DecidableEq, Repr

/-- The commands, in the order of the opcode table. -/
inductive Instr where
  /-- `POWER_ON_RESET` (R451): The main rails rise or HIBERNATE/OFF ends; the straps are sampled, volatile state is cleared and boot follows. -/
  | powerOnReset (mode boot : BitVec 2) (lhbSpi : Bool)
  /-- `RST_N_RESET` (R451): RST_N is held low for at least 100 ns; the straps are sampled, volatile state is cleared and boot follows. -/
  | rstNReset (mode boot : BitVec 2) (lhbSpi : Bool)
  /-- `WARM_RESET` (R451): A warm reset clears the cores, key slots, QUE and sessions, keeps DRAM and NVS, and increments every core epoch. -/
  | warmReset
  /-- `SYS_RESET_WARM` (R451): A write of 1 to SYS_RESET.warm by the secure management core starts a warm reset. -/
  | sysResetWarm (who : Master) (w : Word)
  /-- `DRST_SERVICE_CORE` (R453): A SYS_DRST bit resets service core n for 1 us, increments its epoch and leaves it halted. -/
  | drstServiceCore (n : BitVec 3)
  /-- `DRST_LANGAL` (R453): A SYS_DRST bit resets the Langal engine for 1 us and leaves it halted. -/
  | drstLangal
  /-- `DRST_CDIE` (R453): A SYS_DRST bit resets C-die d and cancels its calderas' tasks; it is refused with E_STATE while frames run. -/
  | drstCdie (d : BitVec 2)
  /-- `DRST_SCN_HEAD` (R453): A SYS_DRST bit resets SCN head h, whose four lanes pass through DOWN. -/
  | drstScnHead (n : BitVec 3)
  /-- `SPRING_RESET` (R396): VSPR and VBAT both fail; the Spring domain resets and the root is lost. -/
  | springReset
  /-- `RAIL_OUT_OF_RANGE` (R505): A main rail leaves its range while RST_N is high; an internal power-on reset starts within 5 us. -/
  | railOutOfRange
  /-- `WATCHDOG_EXPIRY` (R454): The watchdog count reaches timeout_ms; a warm reset follows and SYS_RSTCAUSE.wdog is set. -/
  | watchdogExpiry
  /-- `PWC_WDKICK_WRITE` (R454): A write of 0xA5C3 restarts the watchdog count; any other value is ignored. -/
  | pwcWdkickWrite (w : Word)
  /-- `PWC_WDOG_ENABLE` (R454): Setting PWC_WDOG.en starts the watchdog count; only a reset clears it. -/
  | pwcWdogEnable (w : Word)
  /-- `REGISTER_WRITE` (R9): A write to a register with no behaviour of its own acts by its access code (RW, W1C, W1S, RL and the rest). -/
  | registerWrite (who : Master) (a : Nat) (acc : RegAccess)
  /-- `TSU_COMMIT` (R517): A write to TSU_COMMIT.commit clears valid, sets pending and takes the increment and step shadows. -/
  | tsuCommit
  /-- `TSU_COMMIT_APPLY` (R171): At the fourth TBC tick the increment is clamped and applied and the step is added; a step is refused with E_STATE while frames run. -/
  | tsuCommitApply
  /-- `TSU_CAP_GO` (R173): A write of 1 to TSU_CAP.go requests a capture of the accumulator and clears valid. -/
  | tsuCapGo
  /-- `TSU_CAPTURE` (R173): At the first TBC tick after the request reaches TBC, the accumulator is captured and valid is set. -/
  | tsuCapture
  /-- `FLK_COMMIT` (R517): A write to FLK_COMMIT.commit takes the FLK shadows and sets pending. -/
  | flkCommit
  /-- `FLK_COMMIT_APPLY` (R199): The FLK shadows are checked (rate range, enable anchor) and applied at the first frame start at least 1 us later, or at the fourth tick when disabled. -/
  | flkCommitApply
  /-- `FRAME_START` (R186): At the first TBC tick past the target, frame start k fires: FLK_FRAME, FSYNC_OUT, crater timers, event 0x308, and the outputs take frame k-1. -/
  | frameStart
  /-- `FLK_SEAL_WRITE` (R187): A write of k to FLK_SEAL seals every frame up to and including k. -/
  | flkSealWrite (w : Word)
  /-- `FRAME_COMMIT` (R187): Once frame k has started, is sealed, has no live task and k-1 has committed, it commits, fires event 0x309 and sends a NOTICE. -/
  | frameCommit
  /-- `FRAME_ANNOUNCE` (R189): The master fixes S_{k+1} from the schedule and the commit notices and announces it at S_{k+1} - lead or earlier. -/
  | frameAnnounce
  /-- `LATE_DEADLINE` (R193): At sigma - lead the master lacks a commit notice, or E exceeds sigma; the frame is late. -/
  | lateDeadline
  /-- `FRAME_LAG` (R197): Frame start k+1 is still overdue past N_{k+1} + lag_max x P_int; FRAME_LAG is raised with its backlog. -/
  | frameLag
  /-- `ORPHAN_FIRE` (R190): A non-master package has no announcement of frame k by N_k + lead and fires from its own schedule. -/
  | orphanFire
  /-- `LTC_SYNC_WORD` (R185): The LTC decoder completes a sync word, loads FLK_LTC and raises a class E event. -/
  | ltcSyncWord (ltc user : Word)
  /-- `FSYNC_IN_EDGE` (R184): An active FSYNC_IN edge raises source 0x00C for the steering of the schedule. -/
  | fsyncInEdge
  /-- `WCLK_EVENT` (R184): Every FLK_WCLK.div-th word-clock edge raises source 0x00E. -/
  | wclkEvent
  /-- `ILLEGAL_INSTRUCTION` (R84): An undefined encoding, non-zero unused field or instruction not run on this processor raises ILLEGAL. -/
  | illegalInstruction (p : Proc) (w : Word)
  /-- `ADD` (R88): Scalar add modulo 2^32. -/
  | add (p : Proc) (d a b : GReg)
  /-- `SUB` (R88): Scalar subtract modulo 2^32. -/
  | sub (p : Proc) (d a b : GReg)
  /-- `ADDS` (R88): Saturating s32 add. -/
  | adds (p : Proc) (d a b : GReg)
  /-- `SUBS` (R88): Saturating s32 subtract. -/
  | subs (p : Proc) (d a b : GReg)
  /-- `ADDUS` (R88): Saturating u32 add. -/
  | addus (p : Proc) (d a b : GReg)
  /-- `SUBUS` (R88): Saturating u32 subtract. -/
  | subus (p : Proc) (d a b : GReg)
  /-- `AND` (R88): Bitwise AND. -/
  | and (p : Proc) (d a b : GReg)
  /-- `OR` (R88): Bitwise OR. -/
  | or (p : Proc) (d a b : GReg)
  /-- `XOR` (R88): Bitwise XOR. -/
  | xor (p : Proc) (d a b : GReg)
  /-- `ANDN` (R88): a AND NOT b. -/
  | andn (p : Proc) (d a b : GReg)
  /-- `NOR` (R88): Bitwise NOR. -/
  | nor (p : Proc) (d a b : GReg)
  /-- `SLL` (R88): Shift left by register amount. -/
  | sll (p : Proc) (d a b : GReg)
  /-- `SRL` (R88): Logical shift right by register amount. -/
  | srl (p : Proc) (d a b : GReg)
  /-- `SRA` (R88): Arithmetic shift right by register amount. -/
  | sra (p : Proc) (d a b : GReg)
  /-- `ROR` (R88): Rotate right by register amount. -/
  | ror (p : Proc) (d a b : GReg)
  /-- `SLLI` (R88): Shift left by field amount. -/
  | slli (p : Proc) (d a : GReg) (n : BitVec 5)
  /-- `SRLI` (R88): Logical shift right by field amount. -/
  | srli (p : Proc) (d a : GReg) (n : BitVec 5)
  /-- `SRAI` (R88): Arithmetic shift right by field amount. -/
  | srai (p : Proc) (d a : GReg) (n : BitVec 5)
  /-- `RORI` (R88): Rotate right by field amount. -/
  | rori (p : Proc) (d a : GReg) (n : BitVec 5)
  /-- `SLT` (R88): Signed less-than. -/
  | slt (p : Proc) (d a b : GReg)
  /-- `SLTU` (R88): Unsigned less-than. -/
  | sltu (p : Proc) (d a b : GReg)
  /-- `SEQ` (R88): Equality test. -/
  | seq (p : Proc) (d a b : GReg)
  /-- `MIN` (R88): Signed minimum. -/
  | min (p : Proc) (d a b : GReg)
  /-- `MAX` (R88): Signed maximum. -/
  | max (p : Proc) (d a b : GReg)
  /-- `MINU` (R88): Unsigned minimum. -/
  | minu (p : Proc) (d a b : GReg)
  /-- `MAXU` (R88): Unsigned maximum. -/
  | maxu (p : Proc) (d a b : GReg)
  /-- `CLZ` (R88): Count leading zeros. -/
  | clz (p : Proc) (d a : GReg)
  /-- `POPC` (R88): Count of ones. -/
  | popc (p : Proc) (d a : GReg)
  /-- `SEXTB` (R88): Sign-extend byte. -/
  | sextb (p : Proc) (d a : GReg)
  /-- `SEXTH` (R88): Sign-extend halfword. -/
  | sexth (p : Proc) (d a : GReg)
  /-- `ADDX` (R88): fx16 saturating add. -/
  | addx (p : Proc) (d a b : GReg)
  /-- `SUBX` (R88): fx16 saturating subtract. -/
  | subx (p : Proc) (d a b : GReg)
  /-- `ADDL` (R88): lum20 saturating add. -/
  | addl (p : Proc) (d a b : GReg)
  /-- `SUBL` (R88): lum20 saturating subtract. -/
  | subl (p : Proc) (d a b : GReg)
  /-- `MULL` (R55): lum20 multiply with rounding. -/
  | mull (p : Proc) (d a b : GReg)
  /-- `MUL` (R89): Low 32 bits of a product. -/
  | mul (p : Proc) (d a b : GReg)
  /-- `MULHS` (R89): High 32 bits of a signed product. -/
  | mulhs (p : Proc) (d a b : GReg)
  /-- `MULHU` (R89): High 32 bits of an unsigned product. -/
  | mulhu (p : Proc) (d a b : GReg)
  /-- `MADD` (R89): Multiply-accumulate, low 32 bits. -/
  | madd (p : Proc) (d a b : GReg)
  /-- `DIVS` (R89): Signed division under R53. -/
  | divs (p : Proc) (d a b : GReg)
  /-- `DIVU` (R89): Unsigned division. -/
  | divu (p : Proc) (d a b : GReg)
  /-- `REMS` (R89): Signed remainder. -/
  | rems (p : Proc) (d a b : GReg)
  /-- `REMU` (R89): Unsigned remainder. -/
  | remu (p : Proc) (d a b : GReg)
  /-- `MULX` (R54): fx16 multiply, rounded and saturated. -/
  | mulx (p : Proc) (d a b : GReg)
  /-- `DIVX` (R54): fx16 divide, truncated. -/
  | divx (p : Proc) (d a b : GReg)
  /-- `MADDX` (R89): fx16 multiply-add, saturated twice. -/
  | maddx (p : Proc) (d a b : GReg)
  /-- `FADD` (R91): fp32 add. -/
  | fadd (p : Proc) (d a b : GReg)
  /-- `FSUB` (R91): fp32 subtract. -/
  | fsub (p : Proc) (d a b : GReg)
  /-- `FMUL` (R91): fp32 multiply. -/
  | fmul (p : Proc) (d a b : GReg)
  /-- `FMADD` (R91): fp32 fused multiply-add. -/
  | fmadd (p : Proc) (d a b : GReg)
  /-- `FMIN` (R91): fp32 minimum with the NaN rules. -/
  | fmin (p : Proc) (d a b : GReg)
  /-- `FMAX` (R91): fp32 maximum with the NaN rules. -/
  | fmax (p : Proc) (d a b : GReg)
  /-- `FABS` (R91): Clear the sign bit. -/
  | fabs (p : Proc) (d a : GReg)
  /-- `FNEG` (R91): Invert the sign bit. -/
  | fneg (p : Proc) (d a : GReg)
  /-- `FDIV` (R91): fp32 divide, correctly rounded. -/
  | fdiv (p : Proc) (d a b : GReg)
  /-- `FSQRT` (R91): fp32 square root. -/
  | fsqrt (p : Proc) (d a : GReg)
  /-- `FEQ` (R91): fp32 equality. -/
  | feq (p : Proc) (d a b : GReg)
  /-- `FLT` (R91): fp32 less-than. -/
  | flt (p : Proc) (d a b : GReg)
  /-- `FLE` (R91): fp32 less-or-equal. -/
  | fle (p : Proc) (d a b : GReg)
  /-- `FCVT_S_W` (R91): s32 to fp32. -/
  | fcvtSW (p : Proc) (d a : GReg)
  /-- `FCVT_W_S` (R91): fp32 to s32. -/
  | fcvtWS (p : Proc) (d a : GReg)
  /-- `FCVT_S_X` (R58): fx16 to fp32. -/
  | fcvtSX (p : Proc) (d a : GReg)
  /-- `FCVT_X_S` (R58): fp32 to fx16. -/
  | fcvtXS (p : Proc) (d a : GReg)
  /-- `FCVT_S_L` (R58): lum20 to fp32. -/
  | fcvtSL (p : Proc) (d a : GReg)
  /-- `FCVT_L_S` (R58): fp32 to lum20. -/
  | fcvtLS (p : Proc) (d a : GReg)
  /-- `ADDI` (R90): Add a sign-extended immediate. -/
  | addi (p : Proc) (d a : GReg) (imm : BitVec 16)
  /-- `ANDI` (R90): AND with a zero-extended immediate. -/
  | andi (p : Proc) (d a : GReg) (imm : BitVec 16)
  /-- `ORI` (R90): OR with a zero-extended immediate. -/
  | ori (p : Proc) (d a : GReg) (imm : BitVec 16)
  /-- `XORI` (R90): XOR with a zero-extended immediate. -/
  | xori (p : Proc) (d a : GReg) (imm : BitVec 16)
  /-- `LUI` (R90): Load the immediate into the upper half. -/
  | lui (p : Proc) (d : GReg) (imm : BitVec 16)
  /-- `SLTI` (R90): Signed compare with an immediate. -/
  | slti (p : Proc) (d a : GReg) (imm : BitVec 16)
  /-- `SLTIU` (R90): Unsigned compare with an immediate. -/
  | sltiu (p : Proc) (d a : GReg) (imm : BitVec 16)
  /-- `LW` (R92): Load a word, checking alignment, then reach. -/
  | lw (p : Proc) (d base : GReg) (off : BitVec 16)
  /-- `LH` (R92): Load a sign-extended halfword. -/
  | lh (p : Proc) (d base : GReg) (off : BitVec 16)
  /-- `LHU` (R92): Load a zero-extended halfword. -/
  | lhu (p : Proc) (d base : GReg) (off : BitVec 16)
  /-- `LB` (R92): Load a sign-extended byte. -/
  | lb (p : Proc) (d base : GReg) (off : BitVec 16)
  /-- `LBU` (R92): Load a zero-extended byte. -/
  | lbu (p : Proc) (d base : GReg) (off : BitVec 16)
  /-- `SW` (R92): Store a word. -/
  | sw (p : Proc) (d base : GReg) (off : BitVec 16)
  /-- `SH` (R92): Store a halfword; a partial scratch store checks the word first. -/
  | sh (p : Proc) (d base : GReg) (off : BitVec 16)
  /-- `SB` (R92): Store a byte; a partial scratch store checks the word first. -/
  | sb (p : Proc) (d base : GReg) (off : BitVec 16)
  /-- `LHF` (R92): Load fp16 and convert it to fp32. -/
  | lhf (p : Proc) (d base : GReg) (off : BitVec 16)
  /-- `SHF` (R92): Convert fp32 to fp16 and store it. -/
  | shf (p : Proc) (d base : GReg) (off : BitVec 16)
  /-- `VLW` (R93): Contiguous vector word load. -/
  | vlw (n : VentNo) (vd : VReg) (base : GReg) (pm : PReg) (off : BitVec 13)
  /-- `VSW` (R93): Contiguous vector word store. -/
  | vsw (n : VentNo) (vd : VReg) (base : GReg) (pm : PReg) (off : BitVec 13)
  /-- `VLH` (R93): Contiguous fp16 vector load, converted to fp32. -/
  | vlh (n : VentNo) (vd : VReg) (base : GReg) (pm : PReg) (off : BitVec 13)
  /-- `VSH` (R93): Contiguous fp16 vector store, converted from fp32. -/
  | vsh (n : VentNo) (vd : VReg) (base : GReg) (pm : PReg) (off : BitVec 13)
  /-- `VGLW` (R94): Gather words. -/
  | vglw (n : VentNo) (vd va : VReg) (pm : PReg)
  /-- `VSCW` (R94): Scatter words. -/
  | vscw (n : VentNo) (va vb : VReg) (pm : PReg)
  /-- `VGLH` (R94): Gather fp16 values to fp32. -/
  | vglh (n : VentNo) (vd va : VReg) (pm : PReg)
  /-- `VSCH` (R94): Scatter fp32 values as fp16. -/
  | vsch (n : VentNo) (va vb : VReg) (pm : PReg)
  /-- `VADD` (R95): Per-lane ADD. -/
  | vadd (n : VentNo) (vd va vb : VReg) (pm : PReg)
  /-- `VSUB` (R95): Per-lane SUB. -/
  | vsub (n : VentNo) (vd va vb : VReg) (pm : PReg)
  /-- `VADDS` (R95): Per-lane ADDS. -/
  | vadds (n : VentNo) (vd va vb : VReg) (pm : PReg)
  /-- `VSUBS` (R95): Per-lane SUBS. -/
  | vsubs (n : VentNo) (vd va vb : VReg) (pm : PReg)
  /-- `VADDUS` (R95): Per-lane ADDUS. -/
  | vaddus (n : VentNo) (vd va vb : VReg) (pm : PReg)
  /-- `VSUBUS` (R95): Per-lane SUBUS. -/
  | vsubus (n : VentNo) (vd va vb : VReg) (pm : PReg)
  /-- `VAND` (R95): Per-lane AND. -/
  | vand (n : VentNo) (vd va vb : VReg) (pm : PReg)
  /-- `VOR` (R95): Per-lane OR. -/
  | vor (n : VentNo) (vd va vb : VReg) (pm : PReg)
  /-- `VXOR` (R95): Per-lane XOR. -/
  | vxor (n : VentNo) (vd va vb : VReg) (pm : PReg)
  /-- `VANDN` (R95): Per-lane ANDN. -/
  | vandn (n : VentNo) (vd va vb : VReg) (pm : PReg)
  /-- `VSLL` (R95): Per-lane shift left by lane amount. -/
  | vsll (n : VentNo) (vd va vb : VReg) (pm : PReg)
  /-- `VSRL` (R95): Per-lane logical shift right by lane amount. -/
  | vsrl (n : VentNo) (vd va vb : VReg) (pm : PReg)
  /-- `VSRA` (R95): Per-lane arithmetic shift right by lane amount. -/
  | vsra (n : VentNo) (vd va vb : VReg) (pm : PReg)
  /-- `VMIN` (R95): Per-lane signed minimum. -/
  | vmin (n : VentNo) (vd va vb : VReg) (pm : PReg)
  /-- `VMAX` (R95): Per-lane signed maximum. -/
  | vmax (n : VentNo) (vd va vb : VReg) (pm : PReg)
  /-- `VMINU` (R95): Per-lane unsigned minimum. -/
  | vminu (n : VentNo) (vd va vb : VReg) (pm : PReg)
  /-- `VMAXU` (R95): Per-lane unsigned maximum. -/
  | vmaxu (n : VentNo) (vd va vb : VReg) (pm : PReg)
  /-- `VMUL` (R95): Per-lane MUL. -/
  | vmul (n : VentNo) (vd va vb : VReg) (pm : PReg)
  /-- `VMULHS` (R95): Per-lane MULHS. -/
  | vmulhs (n : VentNo) (vd va vb : VReg) (pm : PReg)
  /-- `VMULHU` (R95): Per-lane MULHU. -/
  | vmulhu (n : VentNo) (vd va vb : VReg) (pm : PReg)
  /-- `VMADD` (R95): Per-lane MADD. -/
  | vmadd (n : VentNo) (vd va vb : VReg) (pm : PReg)
  /-- `VADDX` (R95): Per-lane ADDX. -/
  | vaddx (n : VentNo) (vd va vb : VReg) (pm : PReg)
  /-- `VSUBX` (R95): Per-lane SUBX. -/
  | vsubx (n : VentNo) (vd va vb : VReg) (pm : PReg)
  /-- `VMULX` (R95): Per-lane MULX. -/
  | vmulx (n : VentNo) (vd va vb : VReg) (pm : PReg)
  /-- `VMADDX` (R95): Per-lane MADDX. -/
  | vmaddx (n : VentNo) (vd va vb : VReg) (pm : PReg)
  /-- `VADDL` (R95): Per-lane ADDL. -/
  | vaddl (n : VentNo) (vd va vb : VReg) (pm : PReg)
  /-- `VSUBL` (R95): Per-lane SUBL. -/
  | vsubl (n : VentNo) (vd va vb : VReg) (pm : PReg)
  /-- `VMULL` (R95): Per-lane MULL. -/
  | vmull (n : VentNo) (vd va vb : VReg) (pm : PReg)
  /-- `VMADDL` (R95): Per-lane lum20 blend, ADDL(vd, MULL(va, vb)). -/
  | vmaddl (n : VentNo) (vd va vb : VReg) (pm : PReg)
  /-- `VSLLI` (R95): Per-lane shift left by an immediate. -/
  | vslli (n : VentNo) (vd va : VReg) (pm : PReg) (k : BitVec 5)
  /-- `VSRLI` (R95): Per-lane logical shift right by an immediate. -/
  | vsrli (n : VentNo) (vd va : VReg) (pm : PReg) (k : BitVec 5)
  /-- `VSRAI` (R95): Per-lane arithmetic shift right by an immediate. -/
  | vsrai (n : VentNo) (vd va : VReg) (pm : PReg) (k : BitVec 5)
  /-- `VFADD` (R96): Per-lane FADD. -/
  | vfadd (n : VentNo) (vd va vb : VReg) (pm : PReg)
  /-- `VFSUB` (R96): Per-lane FSUB. -/
  | vfsub (n : VentNo) (vd va vb : VReg) (pm : PReg)
  /-- `VFMUL` (R96): Per-lane FMUL. -/
  | vfmul (n : VentNo) (vd va vb : VReg) (pm : PReg)
  /-- `VFMADD` (R96): Per-lane fused multiply-add. -/
  | vfmadd (n : VentNo) (vd va vb : VReg) (pm : PReg)
  /-- `VFMIN` (R96): Per-lane FMIN. -/
  | vfmin (n : VentNo) (vd va vb : VReg) (pm : PReg)
  /-- `VFMAX` (R96): Per-lane FMAX. -/
  | vfmax (n : VentNo) (vd va vb : VReg) (pm : PReg)
  /-- `VFABS` (R96): Per-lane FABS. -/
  | vfabs (n : VentNo) (vd va : VReg) (pm : PReg)
  /-- `VFNEG` (R96): Per-lane FNEG. -/
  | vfneg (n : VentNo) (vd va : VReg) (pm : PReg)
  /-- `VFDIV` (R96): Per-lane FDIV. -/
  | vfdiv (n : VentNo) (vd va vb : VReg) (pm : PReg)
  /-- `VFSQRT` (R96): Per-lane FSQRT. -/
  | vfsqrt (n : VentNo) (vd va : VReg) (pm : PReg)
  /-- `VCVT_S_W` (R96): Per-lane s32 to fp32. -/
  | vcvtSW (n : VentNo) (vd va : VReg) (pm : PReg)
  /-- `VCVT_W_S` (R96): Per-lane fp32 to s32. -/
  | vcvtWS (n : VentNo) (vd va : VReg) (pm : PReg)
  /-- `VCVT_S_X` (R96): Per-lane fx16 to fp32. -/
  | vcvtSX (n : VentNo) (vd va : VReg) (pm : PReg)
  /-- `VCVT_X_S` (R96): Per-lane fp32 to fx16. -/
  | vcvtXS (n : VentNo) (vd va : VReg) (pm : PReg)
  /-- `VCVT_S_L` (R96): Per-lane lum20 to fp32. -/
  | vcvtSL (n : VentNo) (vd va : VReg) (pm : PReg)
  /-- `VCVT_L_S` (R96): Per-lane fp32 to lum20. -/
  | vcvtLS (n : VentNo) (vd va : VReg) (pm : PReg)
  /-- `VCEQ` (R97): Per-lane equality into a predicate. -/
  | vceq (n : VentNo) (pd : PReg) (va vb : VReg) (pm : PReg)
  /-- `VCNE` (R97): Per-lane inequality into a predicate. -/
  | vcne (n : VentNo) (pd : PReg) (va vb : VReg) (pm : PReg)
  /-- `VCLT` (R97): Per-lane signed less-than into a predicate. -/
  | vclt (n : VentNo) (pd : PReg) (va vb : VReg) (pm : PReg)
  /-- `VCLE` (R97): Per-lane signed less-or-equal into a predicate. -/
  | vcle (n : VentNo) (pd : PReg) (va vb : VReg) (pm : PReg)
  /-- `VCLTU` (R97): Per-lane unsigned less-than into a predicate. -/
  | vcltu (n : VentNo) (pd : PReg) (va vb : VReg) (pm : PReg)
  /-- `VCLEU` (R97): Per-lane unsigned less-or-equal into a predicate. -/
  | vcleu (n : VentNo) (pd : PReg) (va vb : VReg) (pm : PReg)
  /-- `VFCEQ` (R97): Per-lane fp equality into a predicate. -/
  | vfceq (n : VentNo) (pd : PReg) (va vb : VReg) (pm : PReg)
  /-- `VFCLT` (R97): Per-lane fp less-than into a predicate. -/
  | vfclt (n : VentNo) (pd : PReg) (va vb : VReg) (pm : PReg)
  /-- `VFCLE` (R97): Per-lane fp less-or-equal into a predicate. -/
  | vfcle (n : VentNo) (pd : PReg) (va vb : VReg) (pm : PReg)
  /-- `PAND` (R98): Predicate AND. -/
  | pand (n : VentNo) (pd pa pb : PReg)
  /-- `POR` (R98): Predicate OR. -/
  | por (n : VentNo) (pd pa pb : PReg)
  /-- `PXOR` (R98): Predicate XOR. -/
  | pxor (n : VentNo) (pd pa pb : PReg)
  /-- `PANDN` (R98): Predicate AND-NOT. -/
  | pandn (n : VentNo) (pd pa pb : PReg)
  /-- `PNOT` (R98): Predicate NOT. -/
  | pnot (n : VentNo) (pd pa : PReg)
  /-- `PFROMG` (R98): Predicate from the low byte of a scalar. -/
  | pfromg (n : VentNo) (pd : PReg) (g : GReg)
  /-- `PTOG` (R98): Scalar from a predicate. -/
  | ptog (n : VentNo) (g : GReg) (pa : PReg)
  /-- `PCNT` (R98): Count of predicate ones into a scalar. -/
  | pcnt (n : VentNo) (g : GReg) (pa : PReg)
  /-- `VMOV` (R99): Lane copy, or lane select under a predicate. -/
  | vmov (n : VentNo) (vd va : VReg) (pm : PReg)
  /-- `VBCAST` (R99): Broadcast a scalar to lanes. -/
  | vbcast (n : VentNo) (vd : VReg) (g : GReg) (pm : PReg)
  /-- `VINS` (R99): Insert a scalar into one lane. -/
  | vins (n : VentNo) (vd : VReg) (g : GReg) (lane : BitVec 3)
  /-- `VEXT` (R99): Extract one lane to a scalar. -/
  | vext (n : VentNo) (g : GReg) (va : VReg) (lane : BitVec 3)
  /-- `VPERM` (R99): Permute lanes by index. -/
  | vperm (n : VentNo) (vd va vb : VReg) (pm : PReg)
  /-- `VROT` (R99): Rotate lanes. -/
  | vrot (n : VentNo) (vd va : VReg) (rot : BitVec 3) (pm : PReg)
  /-- `VRADD` (R100): Sum of active lanes modulo 2^32. -/
  | vradd (n : VentNo) (g : GReg) (va : VReg) (pm : PReg)
  /-- `VRADDX` (R100): Saturating fx16 sum in lane order. -/
  | vraddx (n : VentNo) (g : GReg) (va : VReg) (pm : PReg)
  /-- `VRFADD` (R100): fp32 sum in a fixed tree. -/
  | vrfadd (n : VentNo) (g : GReg) (va : VReg) (pm : PReg)
  /-- `VRMIN` (R100): Signed minimum of active lanes. -/
  | vrmin (n : VentNo) (g : GReg) (va : VReg) (pm : PReg)
  /-- `VRMAX` (R100): Signed maximum of active lanes. -/
  | vrmax (n : VentNo) (g : GReg) (va : VReg) (pm : PReg)
  /-- `VRMINU` (R100): Unsigned minimum of active lanes. -/
  | vrminu (n : VentNo) (g : GReg) (va : VReg) (pm : PReg)
  /-- `VRMAXU` (R100): Unsigned maximum of active lanes. -/
  | vrmaxu (n : VentNo) (g : GReg) (va : VReg) (pm : PReg)
  /-- `DMAGO` (R103): Read a descriptor, take the next slot and a ticket, and queue or refuse the transfer, stalling on a busy slot or a full queue. -/
  | dmago (n : VentNo) (d a : GReg)
  /-- `DMAWAIT` (R103): Wait for a ticket's transfer to end and return its byte count, setting tr when short. -/
  | dmawait (n : VentNo) (d a : GReg)
  /-- `DMAPOLL` (R103): Return whether a ticket's transfer has ended. -/
  | dmapoll (n : VentNo) (d a : GReg)
  /-- `DMASTAT` (R103): Return a ticket's status code. -/
  | dmastat (n : VentNo) (d a : GReg)
  /-- `DMA_QUEUE_ADMIT` (R23): A crater DMA queue entry frees and the earliest stalled DMAGO is admitted. -/
  | dmaQueueAdmit (c : BitVec 6)
  /-- `DMA_TRANSFER_END` (R104): A crater DMA transfer ends with OK, E_ABSENT or E_FAULT and its count. -/
  | dmaTransferEnd (c : BitVec 6) (k : Nat)
  /-- `BR` (R107): Unconditional branch. -/
  | br (p : Proc) (off : BitVec 21)
  /-- `BAL` (R107): Branch and link. -/
  | bal (p : Proc) (off : BitVec 21)
  /-- `BZ` (R107): Branch if zero. -/
  | bz (p : Proc) (c : GReg) (off : BitVec 21)
  /-- `BNZ` (R107): Branch if not zero. -/
  | bnz (p : Proc) (c : GReg) (off : BitVec 21)
  /-- `BLTZ` (R107): Branch if negative. -/
  | bltz (p : Proc) (c : GReg) (off : BitVec 21)
  /-- `BGEZ` (R107): Branch if not negative. -/
  | bgez (p : Proc) (c : GReg) (off : BitVec 21)
  /-- `BP` (R107): Branch on a predicate test. -/
  | bp (n : VentNo) (test : BitVec 2) (pr : PReg) (off : BitVec 21)
  /-- `JR` (R108): Jump to a register; the end address ends the task DONE. -/
  | jr (p : Proc) (a : GReg)
  /-- `JALR` (R108): Jump to a register and link. -/
  | jalr (p : Proc) (d a : GReg)
  /-- `MFS` (R109): Read a special register. -/
  | mfs (p : Proc) (d : GReg) (num : BitVec 16)
  /-- `MTS` (R109): Write a special register. -/
  | mts (p : Proc) (a : GReg) (num : BitVec 16)
  /-- `NOP` (R110): No operation. -/
  | nop (p : Proc)
  /-- `FENCE` (R110): Complete once earlier stores are visible. -/
  | fence (p : Proc)
  /-- `ISYNC` (R110): Discard prefetched instructions. -/
  | isync (p : Proc)
  /-- `BRK` (R110): End the task FAULT with BREAK, or take a BREAK exception on a core. -/
  | brk (p : Proc)
  /-- `SCALL` (R110): System call exception into secure world. -/
  | scall (p : Proc)
  /-- `ERET` (R79): Restore ie and world and return to s_epc. -/
  | eret (p : Proc)
  /-- `WFI` (R111): Halt issue until an interrupt for the core is pending. -/
  | wfi (p : Proc)
  /-- `VBLEND` (R117): Blend source pixels into destination pixels by mode m and opacity. -/
  | vblend (n : VentNo) (m : BitVec 3) (vd va vb : VReg) (pm : PReg)
  /-- `VCURVE` (R118): Map lum20 lanes through a curve table. -/
  | vcurve (n : VentNo) (vd va : VReg) (g : GReg) (pm : PReg)
  /-- `VGAMMA` (R119): Map lum20 lanes through built-in curve k. -/
  | vgamma (n : VentNo) (k : BitVec 3) (vd va : VReg) (pm : PReg)
  /-- `VCMXF` (R120): Apply an fp32 colour matrix. -/
  | vcmxf (n : VentNo) (vd va : VReg) (g : GReg) (pm : PReg)
  /-- `VCMXL` (R121): Apply an s2.13 colour matrix to lum20 pixels. -/
  | vcmxl (n : VentNo) (vd va : VReg) (g : GReg) (pm : PReg)
  /-- `VPROJ` (R122): Projective map of coordinates. -/
  | vproj (n : VentNo) (vd va vb : VReg) (g : GReg) (pm : PReg)
  /-- `VSAMPA` (R124): Compute texel addresses from a sampler descriptor. -/
  | vsampa (n : VentNo) (dx dy : Bool) (vd va vb : VReg) (g : GReg) (pm : PReg)
  /-- `VFRACT` (R125): Fractional part per lane. -/
  | vfract (n : VentNo) (vd va : VReg) (pm : PReg)
  /-- `VLERPF` (R125): Linear interpolation per lane. -/
  | vlerpf (n : VentNo) (vd va vb : VReg) (pm : PReg)
  /-- `VFADE` (R129): Fade position and mix in one instruction. -/
  | vfade (n : VentNo) (vd va : VReg) (g : GReg) (pm : PReg)
  /-- `VFPOS` (R128): Fade progress with the record's curve. -/
  | vfpos (n : VentNo) (vd va : VReg) (g : GReg) (pm : PReg)
  /-- `VFMIX` (R129): Mix from and to by a progress value. -/
  | vfmix (n : VentNo) (vd va : VReg) (g : GReg) (pm : PReg)
  /-- `SPAWN` (R131): Queue a task descriptor in the target caldera, or refuse it, stalling when full. -/
  | spawn (n : VentNo) (d a : SReg)
  /-- `YIELD` (R133): End the run and return the task to READY, or CANCELLED if cancel is set. -/
  | yield (n : VentNo)
  /-- `DONE` (R133): End the task DONE. -/
  | done (n : VentNo)
  /-- `CANCEL` (R133): Cancel a task by handle under R66 and R69. -/
  | cancel (n : VentNo) (d a : SReg)
  /-- `WAITF` (R134): Wait for the frame start of a frame. -/
  | waitf (n : VentNo) (a : SReg)
  /-- `WAITE` (R134): Wait for an event. -/
  | waite (n : VentNo) (a : SReg)
  /-- `SIGNAL` (R136): Fire a software event in all calderas. -/
  | signal (n : VentNo) (d a : SReg)
  /-- `ECLASS` (R137): Declare the energy class of the rest of the run. -/
  | eclass (n : VentNo) (a : SReg)
  /-- `JSET` (R145): Arm a join gate with an expected count. -/
  | jset (n : VentNo) (d a b : SReg)
  /-- `JOIN` (R145): Add an arrival to a gate, firing its event at the last arrival. -/
  | join (n : VentNo) (d a : SReg)
  /-- `CADD` (R144): Atomically add to a crater counter and return the previous value. -/
  | cadd (n : VentNo) (d a b : SReg)
  /-- `MPOST` (R139): Post a word to a mailbox channel, stalling when full. -/
  | mpost (p : Proc) (d a b : SReg)
  /-- `MRECV` (R139): Receive a word from a mailbox channel, with epoch and underrun. -/
  | mrecv (p : Proc) (d a : SReg)
  /-- `QPUSH` (R140): Append an entry to a FIFO, stalling when full. -/
  | qpush (p : Proc) (d a b : SReg)
  /-- `QPOP` (R140): Pop the head entry of a FIFO, or repeat the last with underrun. -/
  | qpop (p : Proc) (d a b : SReg)
  /-- `QMARK` (R349): Mark the read position of a FIFO. -/
  | qmark (p : Proc) (d a : SReg)
  /-- `QREWIND` (R349): Return the read position to the mark. -/
  | qrewind (p : Proc) (d a : SReg)
  /-- `QREL` (R349): Release space up to the read position and clear the mark. -/
  | qrel (p : Proc) (d a : SReg)
  /-- `CRCI` (R142): Initialise a CRC state. -/
  | crci (p : Proc) (d a : SReg)
  /-- `CRCB` (R142): Process one byte into a CRC state. -/
  | crcb (p : Proc) (d a b : SReg)
  /-- `CRCW` (R142): Process four bytes into a CRC state. -/
  | crcw (p : Proc) (d a b : SReg)
  /-- `CRCM` (R142): Process a memory range into a CRC state. -/
  | crcm (p : Proc) (d a b : SReg)
  /-- `CRCF` (R142): Apply the final CRC step. -/
  | crcf (p : Proc) (d a : SReg)
  /-- `ALIVE` (R143): Check a received alive counter and update the state. -/
  | alive (p : Proc) (d a b : SReg)
  /-- `DISPATCH` (R151): A caldera with a free vent and a READY task chooses a head task by level, guard, eligibility and budget, charges it and dispatches it. -/
  | dispatch (k : BitVec 4)
  /-- `STARVE_GUARD` (R156): A level's starvation timer reaches starve_us and its guard becomes active. -/
  | starveGuard (k : BitVec 4) (level : BitVec 5)
  /-- `QUANTUM_CHARGE` (R154): Another q_us of run time passes and the quantum is charged again. -/
  | quantumCharge (n : VentNo)
  /-- `RUNLIMIT` (R138): A task runs past the run limit and ends FAULT with RUNLIMIT. -/
  | runlimit (n : VentNo)
  /-- `VENT_RELEASE` (R105): A finished run's DMA has drained; the vent is released and the unused quantum refunded. -/
  | ventRelease (n : VentNo)
  /-- `TASK_COMPLETION_POST` (R70): The 16-byte completion record is posted to its FIFO or mailbox once there is room, then the pool entry frees. -/
  | taskCompletionPost (key : Nat)
  /-- `SUBMIT_ADMIT` (R148): Room appears in a caldera and stalled submitters are admitted in order. -/
  | submitAdmit (k : BitVec 4)
  /-- `CRATER_GATE` (R25): A crater has been idle for 10 us; its island is gated and its counters cleared. -/
  | craterGate (c : BitVec 6)
  /-- `CRATER_OPEN_DONE` (R439): An opening crater island completes and the dispatched task fetches. -/
  | craterOpenDone (c : BitVec 6)
  /-- `REQUEST_PROMOTE` (R43): A normal DRAM request that has waited 4 us is promoted to urgent. -/
  | requestPromote (k : Nat)
  /-- `BUDGET_REFILL` (R157): Every microsecond BGT computes weights and refills each caldera's budget. -/
  | budgetRefill (temps : List Int)
  /-- `COST_LEARN` (R161): Every 1 ms BGT updates the learned cost per die and class. -/
  | costLearn (energy vus : List Nat)
  /-- `DVFS_EVALUATE` (R163): Every 1 ms BGT evaluates each die's temperature and budget and moves its operating point or grants boost. -/
  | dvfsEvaluate (temps : List Int)
  /-- `RAIL_NAK` (R507): A regulator fails to acknowledge; the write is retried twice, then the change is abandoned. -/
  | railNak (d : BitVec 2)
  /-- `VCK_SWITCH` (R506): 12 us after a voltage rise, or before a fall, VCK switches and the die's vents pause up to 2 us. -/
  | vckSwitch (d : BitVec 2)
  /-- `BGT_PKG_PERIOD` (R160): Each 1 ms period the package power is averaged and the over-limit rule is applied. -/
  | bgtPkgPeriod (pkgMw fixedMw : Nat)
  /-- `FUMAROLE_ROTATION` (R165): Every period_us BGT moves up to batch ROAM tasks from the hottest caldera. -/
  | fumaroleRotation
  /-- `CALDERA_COMMIT` (R166): A write to CAL_COMMIT takes the shadowed caldera registers together. -/
  | calderaCommit (k : BitVec 4)
  /-- `CALDERA_COMMIT_APPLY` (R166): The caldera commit applies between two dispatch decisions, raising bcap and resv as needed. -/
  | calderaCommitApply (k : BitVec 4)
  /-- `SCH_PORT_SUBMIT` (R167): A write to SCH_Pm_DESC7 submits the 32-byte descriptor through port m. -/
  | schPortSubmit (m : BitVec 4) (who : Master) (w : Word)
  /-- `SCH_PORT_CANCEL` (R167): A write to SCH_Pm_CANCEL cancels a task by handle and reports in SCH_Pm_CRES. -/
  | schPortCancel (m : BitVec 4) (who : Master) (h : Word)
  /-- `SCH_EVENT_WRITE` (R168): A write of a software event number to SCH_EVENT fires it in all calderas. -/
  | schEventWrite (w : Word)
  /-- `SCH_SNAP_GO` (R169): A write to SCH_SNAP.go requests a load snapshot and clears valid. -/
  | schSnapGo
  /-- `SCH_SNAP_CAPTURE` (R169): At the next microsecond boundary every caldera's wait, busy and max counters are captured. -/
  | schSnapCapture
  /-- `PERS_LOAD` (R204): Load a personality after its checks. -/
  | persLoad (net : Bool)
  /-- `CURVE_LOAD` (R205): Load or replace a user curve table, refused when in use. -/
  | curveLoad (net : Bool)
  /-- `PATCH` (R203): Patch a fixture record from frame A after the footprint checks. -/
  | patch (net : Bool)
  /-- `UNPATCH` (R203): Remove a fixture from frame A and clear its slots. -/
  | unpatch (net : Bool)
  /-- `CUE_STEP` (R207): Set a fixture's pending cue step for go_frame. -/
  | cueStep (net : Bool)
  /-- `CANVAS_SET` (R212): Set a canvas descriptor from frame A, within the pixel limits. -/
  | canvasSet (net : Bool)
  /-- `LAYER_SET` (R215): Set a layer descriptor from frame A. -/
  | layerSet (net : Bool)
  /-- `BUF_ALLOC` (R221): Make a FREE buffer id LIVE. -/
  | bufAlloc (net : Bool)
  /-- `BUF_FREE` (R221): Free a buffer at once, start it DRAINING, or refuse it. -/
  | bufFree (net : Bool)
  /-- `BUF_FREED` (R221): At frame start L+2 a DRAINING buffer becomes FREE and BUF_FREED is posted to the issuing session. -/
  | bufFreed (b : BitVec 12)
  /-- `GOV_SET` (R231): Edit light-governor settings for a named frame. -/
  | govSet (net : Bool)
  /-- `UNIV_SET` (R296): Edit the universe or stream tables, within the packet limits. -/
  | univSet (net : Bool)
  /-- `RATE_SET` (R198): Change the frame rate at a named frame, within the pixel and packet limits. -/
  | rateSet (net : Bool)
  /-- `TIME_SOURCE` (R184): Select the reference of the frame schedule. -/
  | timeSource (net : Bool)
  /-- `LGV_COMMIT` (R231): A write to LGV_COMMIT takes the governor shadows for at_frame, or is refused E_LATE. -/
  | lgvCommit
  /-- `LGV_COMPUTE` (R227): Within 8 us of frame F's commit, LGV predicts power and computes group and feed scales. -/
  | lgvCompute
  /-- `SCN_COMMIT` (R251): A write to SCN_COMMIT takes a head's shadowed registers for its four lanes. -/
  | scnCommit (h : BitVec 3)
  /-- `SCN_LANE_COMMIT_APPLY` (R251): A lane applies the head's commit at its frame boundary, or one frame later if the window closed. -/
  | scnLaneCommitApply (l : BitVec 5)
  /-- `SCAN_START` (R239): A grey lane begins the scan of frame F at the later of frame start and the end of blanking. -/
  | scanStart (l : BitVec 5)
  /-- `SCAN_END` (R241): A grey scan sends FRAME_END and the lane enters blanking. -/
  | scanEnd (l : BitVec 5)
  /-- `REPEAT_SCAN` (R241): BLANK_MAX passes with no new frame start; the lane resends its last frame flagged REPEAT. -/
  | repeatScan (l : BitVec 5)
  /-- `LINE_UNDERRUN` (R245): A LINE packet needs data not in the buffer; the lane aborts, idles and restarts the scan. -/
  | lineUnderrun (l : BitVec 5)
  /-- `SLOT_LATCH` (R246): At each spread-plane slot start the lane sends LATCH and the next slot's PLANE packet. -/
  | slotLatch (l : BitVec 5)
  /-- `PLANE_FILL_DONE` (R250): A spread-plane lane completes filling its inactive plane store with frame F. -/
  | planeFillDone (l : BitVec 5)
  /-- `LANE_TRAIN_DONE` (R253): A training lane finishes 65,536 IDLE blocks and sends ENUM. -/
  | laneTrainDone (l : BitVec 5)
  /-- `ENUM_WINDOW_END` (R265): 10 ms after ENUM the head counts IDENT replies and checks them against ntiles. -/
  | enumWindowEnd (l : BitVec 5)
  /-- `RETURN_PACKET` (R263): A return-lane packet arrives; valid ones are pushed to the return FIFO, others discarded. -/
  | returnPacket (l : BitVec 5) (groups : List (BitVec 10))
  /-- `TILE_CMD_SEND` (R264): The head pops a command entry and sends ENUM or CMD in the first gap that fits. -/
  | tileCmdSend (h : BitVec 3)
  /-- `SPD_COMMIT` (R266): A write to SPD_COMMIT takes the SPD shadows, refusing a bad period. -/
  | spdCommit
  /-- `SPD_PERIOD_START` (R268): At each period boundary SPD applies commits, frame values and fade steps and computes each channel's on-time. -/
  | spdPeriodStart
  /-- `SPD_FADE_GO` (R271): A write of 1 to SPD_CHn_FGO.go takes the fade registers and starts a fade. -/
  | spdFadeGo (n : BitVec 7)
  /-- `SPD_RELEASE` (R269): A write of 1 to SPD_CHn_FGO.release returns the channel to its rest source. -/
  | spdRelease (n : BitVec 7)
  /-- `SPD_LEVEL_WRITE` (R269): A write to SPD_CHn_LEVEL takes effect at the next period boundary for a channel holding LEVEL. -/
  | spdLevelWrite (n : BitVec 7) (w : Word)
  /-- `TRIGGER_EDGE` (R273): A filtered active edge of TRIGt applies snap row t, fires event 0x300+t and fires fast-path entries. -/
  | triggerEdge (t : BitVec 3)
  /-- `DERATE_UPDATE` (R277): Every 1 ms each derating group moves its factor towards its target. -/
  | derateUpdate
  /-- `SENSOR_PUBLISH` (R275): Every 1 ms each enabled sensor publishes its mean code and temperature. -/
  | sensorPublish (samples : List (List Nat))
  /-- `SNS_LOCK_WRITE` (R434): A write of 1 to SNS_LOCK fixes the RL sensor registers. -/
  | snsLockWrite (w : Word)
  /-- `RX_FRAME` (R281): A received Ethernet frame is checked and steered by the rule table to a ring, FIFO, UNV, video store or discard. -/
  | rxFrame (p : BitVec 4) (frame : List Byte) (fcsOk : Bool)
  /-- `PAUSE_EXPIRY` (R292): A received pause's time runs out and transmission resumes. -/
  | pauseExpiry (p : BitVec 4)
  /-- `SACN_SOURCE_TIMEOUT` (R306): An input source sends nothing for timeout_ms and leaves the universe. -/
  | sacnSourceTimeout (k : BitVec 10) (cid : List Byte)
  /-- `TX_FRAME_SELECT` (R291): At a frame boundary a port chooses its next frame by priority. -/
  | txFrameSelect (p : BitVec 4)
  /-- `TX_FRAME_DONE` (R290): A transmitted frame ends; its status is written back and HEAD advances. -/
  | txFrameDone (p : BitVec 4)
  /-- `RING_TAIL_WRITE` (R287): A write to a ring's TAIL passes descriptors to the device. -/
  | ringTailWrite (p : BitVec 4) (r : BitVec 4) (w : Word)
  /-- `PAUSE_SEND` (R293): A pause source crosses its high mark and the port sends PAUSE. -/
  | pauseSend (p : BitVec 4)
  /-- `PAUSE_REFRESH` (R293): While a source stays high the port repeats PAUSE every refresh_us. -/
  | pauseRefresh (p : BitVec 4)
  /-- `LINK_CHANGE` (R282): An Ethernet link goes up or down; rings resume or UNV packets are discarded. -/
  | linkChange (p : BitVec 4) (up : Bool) (badSpeed : Bool)
  /-- `MAC_COMMIT` (R517): A write to MAC_Pp_COMMIT takes the port's shadows. -/
  | macCommit (p : BitVec 4)
  /-- `MAC_COMMIT_APPLY` (R280): The port's shadows apply at the first inter-frame gap, retraining on a mode change. -/
  | macCommitApply (p : BitVec 4)
  /-- `MAC_RCOMMIT` (R286): A write to MAC_RCOMMIT applies the rule table to all ports, refused on a bad target. -/
  | macRcommit
  /-- `FP_ARM` (R304): A write to MAC_FPe_CTRL.arm copies the packet and arms the entry. -/
  | fpArm (e : BitVec 5)
  /-- `FP_FIRE` (R304): A write to MAC_FPe_CTRL.fire queues the armed packet. -/
  | fpFire (e : BitVec 5)
  /-- `FP_DISARM` (R304): A write to MAC_FPe_CTRL.disarm disarms the entry. -/
  | fpDisarm (e : BitVec 5)
  /-- `UNV_COMMIT` (R517): A write to UNV_COMMIT takes the UNV shadows for the next frame start. -/
  | unvCommit
  /-- `UNV_KEEPALIVE` (R300): UNV_KEEP.ms passes without a frame start; UNV resends the frame's data and sync packets. -/
  | unvKeepalive
  /-- `DMX_COMMIT` (R316): A write to DMX_Pn_COMMIT takes the port's shadows, refused on a bad value. -/
  | dmxCommit (p : BitVec 4)
  /-- `DMX_BREAK_START` (R311): A frame-locked packet starts its break at the later of its frame start and the previous packet's end. -/
  | dmxBreakStart (p : BitVec 4)
  /-- `DMX_FREE_PERIOD` (R312): A free-running port starts a packet every period_us. -/
  | dmxFreePeriod (p : BitVec 4)
  /-- `DMX_REPEAT` (R313): keep_ms passes with no frame start; the frame-locked port repeats its last packet. -/
  | dmxRepeat (p : BitVec 4)
  /-- `DMX_PACKET_END` (R314): A DMX packet's last slot ends. -/
  | dmxPacketEnd (p : BitVec 4)
  /-- `DMX_INPUT_PACKET` (R319): An input port receives a break and packet and keeps null-start-code slots. -/
  | dmxInputPacket (p : BitVec 4) (startCode : Byte) (data : List Byte) (framing : Bool)
  /-- `DMX_INPUT_LOSS` (R319): 1,250 ms pass without a packet and present reads 0. -/
  | dmxInputLoss (p : BitVec 4)
  /-- `DMX_RDMGO` (R321): A write to DMX_Pn_RDMGO.go sends the RDM request at the next packet boundary. -/
  | dmxRdmgo (p : BitVec 4)
  /-- `DMX_RDM_RESPONSE` (R322): An RDM response or discovery reply arrives and the transaction ends with its status. -/
  | dmxRdmResponse (p : BitVec 4) (data : List Byte) (framing : Bool)
  /-- `DMX_RDM_TIMEOUT` (R322): timeout_us passes without a response and the transaction ends E_ABSENT. -/
  | dmxRdmTimeout (p : BitVec 4)
  /-- `LANGAL_BOOT_CHECK` (R326): The Langal engine finishes its boot check; the spare takes over or LGL_ABSENT is recorded. -/
  | langalBootCheck (ok : Bool) (spareOk : Bool)
  /-- `LANGAL_TICK` (R329): At each 25 ms tick the slot region and port enables are snapshotted and mirrored. -/
  | langalTick
  /-- `LANGAL_PORT_PACKET` (R341): Port p starts its packet p x 100 us after the tick. -/
  | langalPortPacket (p : BitVec 4)
  /-- `LCI_NOP` (R331): LCI no-operation; undefined codes count undef. -/
  | lciNop
  /-- `LCI_HALT` (R331): Stop the engine and raise the halt interrupt. -/
  | lciHalt
  /-- `LCI_WAITT` (R330): Wait for the next tick. -/
  | lciWaitt
  /-- `LCI_WAITT_RESUME` (R330): A waiting engine resumes after the tick. -/
  | lciWaittResume
  /-- `LCI_RET` (R327): Return from the circular stack. -/
  | lciRet
  /-- `LCI_LDI` (R331): Load an 8-bit immediate. -/
  | lciLdi
  /-- `LCI_LDH` (R331): Load the high byte. -/
  | lciLdh
  /-- `LCI_ADD` (R331): 16-bit add with carry. -/
  | lciAdd
  /-- `LCI_SUB` (R331): 16-bit subtract with borrow. -/
  | lciSub
  /-- `LCI_AND` (R331): ALU AND. -/
  | lciAnd
  /-- `LCI_OR` (R331): ALU OR. -/
  | lciOr
  /-- `LCI_XOR` (R331): ALU XOR. -/
  | lciXor
  /-- `LCI_MOV` (R331): ALU move. -/
  | lciMov
  /-- `LCI_SHL` (R331): ALU shift left. -/
  | lciShl
  /-- `LCI_SHR` (R331): ALU shift right. -/
  | lciShr
  /-- `LCI_ADDS` (R331): Saturating add. -/
  | lciAdds
  /-- `LCI_SUBS` (R331): Saturating subtract. -/
  | lciSubs
  /-- `LCI_MULH` (R331): High half of an unsigned product. -/
  | lciMulh
  /-- `LCI_ADDI` (R331): Add a signed immediate. -/
  | lciAddi
  /-- `LCI_LD` (R331): Load a data word. -/
  | lciLd
  /-- `LCI_ST` (R332): Store a data word. -/
  | lciSt
  /-- `LCI_BZ` (R331): Branch if zero. -/
  | lciBz
  /-- `LCI_BNZ` (R331): Branch if not zero. -/
  | lciBnz
  /-- `LCI_BC` (R331): Branch on a flag condition. -/
  | lciBc
  /-- `LCI_JMP` (R331): Jump. -/
  | lciJmp
  /-- `LCI_CALL` (R327): Call, pushing the circular stack. -/
  | lciCall
  /-- `LCI_FADE` (R331): Interpolate between two registers by a14. -/
  | lciFade
  /-- `LCI_IN` (R331): Read LGL_HH2E or LGL_HTICK. -/
  | lciIn
  /-- `LCI_OUT` (R331): Write LGL_HE2H and raise the mbox interrupt. -/
  | lciOut
  /-- `LGL_RUN` (R338): Start the engine at an address. -/
  | lglRun
  /-- `LGL_STOP` (R338): Halt the engine after the current instruction. -/
  | lglStop
  /-- `LGL_STORE` (R338): Write the program and cue records to NVS after a checksum check. -/
  | lglStore
  /-- `LGL_TRIM` (R344): Accept a port's staged trim table after the plausibility test. -/
  | lglTrim
  /-- `LGL_AUTORUN` (R338): Set or clear autorun. -/
  | lglAutorun
  /-- `LGL_LOGIN` (R339): Check the password hash and open the LHB session. -/
  | lglLogin
  /-- `LGL_SETPW` (R339): Store the hash of a new password. -/
  | lglSetpw
  /-- `LGL_LOGOUT` (R338): Close the LHB session. -/
  | lglLogout
  /-- `LGL_COMMAND_DONE` (R336): An LHB command completes; busy clears, the result is valid and done is raised. -/
  | lglCommandDone
  /-- `LGL_HSTATUS_READ` (R336): A read of LGL_HSTATUS returns busy 1 at least once after each command. -/
  | lglHstatusRead
  /-- `LGL_HADDRH_WRITE` (R337): A write to LGL_HADDRH latches the pointer and prefetches. -/
  | lglHaddrhWrite (b : Byte)
  /-- `LGL_HSPACE_WRITE` (R337): A write to LGL_HSPACE selects the space and prefetches. -/
  | lglHspaceWrite (b : Byte)
  /-- `LGL_HDATA_ACCESS` (R337): An access to LGL_HDATA reads or writes a byte and advances the pointer. -/
  | lglHdataAccess (w : Option Byte)
  /-- `LOGIN_LOCKOUT_END` (R339): 10 s after a third failure, the LOGIN lockout ends. -/
  | loginLockoutEnd
  /-- `QUE_ENABLE` (R351): Setting QUE_Qn_CFG.en checks the configuration and empties the FIFO. -/
  | queEnable (n : BitVec 8) (cfg : Word)
  /-- `QUE_DISABLE` (R351): Clearing en discards the contents and ends stalled pushes. -/
  | queDisable (n : BitVec 8)
  /-- `QUE_PUSH_WORD` (R354): A host write to QUE_Qn_PUSH stages a word and appends the entry at its last word. -/
  | quePushWord (n : BitVec 8) (w : Word)
  /-- `QUE_POP_READ` (R354): A host read of QUE_Qn_POP returns the next word of the head entry. -/
  | quePopRead (n : BitVec 8)
  /-- `QUE_OP_MARK` (R349): QUE_Qn_OP 1 marks the read position. -/
  | queOpMark (n : BitVec 8)
  /-- `QUE_OP_REWIND` (R349): QUE_Qn_OP 2 rewinds to the mark. -/
  | queOpRewind (n : BitVec 8)
  /-- `QUE_OP_RELEASE` (R349): QUE_Qn_OP 3 releases space to the read position. -/
  | queOpRelease (n : BitVec 8)
  /-- `QUE_STALLED_PUSH_DONE` (R352): Room appears in a FIFO and stalled pushes complete in group order. -/
  | queStalledPushDone (n : BitVec 8)
  /-- `MBX_LOCK_WRITE` (R358): A write to MBX_LOCK fixes every channel configuration. -/
  | mbxLockWrite (who : Master) (w : Word)
  /-- `MBX_DATA_WRITE` (R362): A host write to MBX_Cn_DATA posts a word in the host's direction. -/
  | mbxDataWrite (ch : BitVec 9) (w : Word)
  /-- `MBX_DATA_READ` (R362): A host read of MBX_Cn_DATA receives a word and fills RINFO. -/
  | mbxDataRead (ch : BitVec 9)
  /-- `MBX_STALLED_POST_DONE` (R359): A receive makes room and a stalled post completes. -/
  | mbxStalledPostDone (ch : BitVec 9)
  /-- `ICU_SOURCE_EVENT` (R364): A source's edge or level sets its pending bit. -/
  | icuSourceEvent (src : BitVec 10) (level : Bool)
  /-- `ICU_DELIVER` (R365): A pending source is routed to the awake target with the lowest running priority, or a target is woken. -/
  | icuDeliver (src : BitVec 10)
  /-- `ICU_CLAIM` (R366): A core takes its delivered interrupt, or the host's MSI-X is sent, pushing the stack. -/
  | icuClaim (t : BitVec 4)
  /-- `ICU_EOI` (R368): A write to ICU_Tt_EOI completes the top source, or freezes the stack on a mismatch. -/
  | icuEoi (t : BitVec 4) (who : Master) (w : Word)
  /-- `ICU_HEOI` (R368): A host write to ICU_HEOI completes a host source. -/
  | icuHeoi (w : Word)
  /-- `ICU_UNFREEZE` (R368): A write to ICU_Tt_CTRL.unfreeze empties the stack. -/
  | icuUnfreeze (t : BitVec 4)
  /-- `ICU_SWSET` (R364): A write to ICU_SWSET sets a software source pending. -/
  | icuSwset (w : Word)
  /-- `ICU_SWCLR` (R364): A write to ICU_SWCLR clears a software source not in service. -/
  | icuSwclr (w : Word)
  /-- `ICU_SRC_WRITE` (R363): A write to ICU_SRCn sets a source, or is discarded into ICU_ERR. -/
  | icuSrcWrite (who : Master) (n : BitVec 10) (w : Word)
  /-- `SPRING_LATCH_EDGE` (R372): While clocks stop, a class L edge is caught by the Spring latch. -/
  | springLatchEdge (src : BitVec 10)
  /-- `PCIE_RESET` (R378): An FLR or conventional reset ends host sessions and resets BSH and HST. -/
  | pcieReset
  /-- `PCIE_LINK_CHANGE` (R373): The PCIe link returns and waiting MSI-X messages are sent. -/
  | pcieLinkChange (up msix : Bool)
  /-- `HST_APER_WRITE` (R379): A write to HST_APER moves the DRAM aperture. -/
  | hstAperWrite (w : Word)
  /-- `DRAM_APERTURE_ACCESS` (R379): A BAR4 access reads or writes DRAM at the aperture. -/
  | dramApertureAccess (off : Nat) (data : Option (List Byte)) (len : Nat)
  /-- `BSH_WINDOW_ARM` (R380): A write to BSH_Ww_CTRL.arm arms the window, or refuses E_ARG. -/
  | bshWindowArm (n : BitVec 3)
  /-- `BSH_WINDOW_DISARM` (R380): A write to BSH_Ww_CTRL.disarm disarms the window. -/
  | bshWindowDisarm (n : BitVec 3)
  /-- `BSH_WINDOW_ACCESS` (R381): A BAR2 access maps each byte and stops at the first failing check. -/
  | bshWindowAccess (n : BitVec 3) (off : Nat) (data : Option (List Byte)) (len : Nat)
  /-- `BSH_BURST_GO` (R382): A write to BSH_Bc_GO checks and starts a burst. -/
  | bshBurstGo (c : BitVec 2)
  /-- `BSH_BURST_END` (R382): A burst ends with its status and count and fires source 0x147. -/
  | bshBurstEnd (c : BitVec 2) (data : List Byte) (bad : Option Nat)
  /-- `HOST_DOORBELL` (R384): A write to HST_DOORBELL copies the command frame, or sets overrun. -/
  | hostDoorbell (w : Word)
  /-- `NET_COMMAND_FRAME` (R384): A command frame arrives over UDP from the network FIFO. -/
  | netCommandFrame
  /-- `COMMAND_RESPONSE` (R384): The firmware places the response in HST_RSPBUF and fires source 0x3F0, or sends it by UDP. -/
  | commandResponse (net : Bool)
  /-- `SESSION_OPEN` (R388): Open a pending session with a nonce. -/
  | sessionOpen (net : Bool)
  /-- `SESSION_AUTH` (R389): Check the HMAC and open the session. -/
  | sessionAuth (net : Bool)
  /-- `SESSION_CLOSE` (R390): End a session. -/
  | sessionClose (net : Bool)
  /-- `SESSION_AUTH_TIMEOUT` (R389): No SESSION_AUTH within 10 s frees the slot. -/
  | sessionAuthTimeout (sid : Word)
  /-- `SESSION_IDLE_TIMEOUT` (R390): idle_s passes without a request and the session ends. -/
  | sessionIdleTimeout (sid : Word)
  /-- `STATUS` (R393): Return the show state, frames and fault count. -/
  | status (net : Bool)
  /-- `IDENTIFY` (R393): Return SYS_ID, UID and ordering code. -/
  | identify (net : Bool)
  /-- `SHOW_LOAD` (R392): IDLE to LOADED. -/
  | showLoad (net : Bool)
  /-- `SHOW_ARM` (R392): LOADED to ARMED at frame A. -/
  | showArm (net : Bool)
  /-- `SHOW_GO` (R392): ARMED to RUNNING at frame A. -/
  | showGo (net : Bool)
  /-- `SHOW_HOLD` (R392): RUNNING to HELD at frame A. -/
  | showHold (net : Bool)
  /-- `SHOW_RESUME` (R392): HELD to RUNNING at frame A. -/
  | showResume (net : Bool)
  /-- `SHOW_STOP` (R392): Return to LOADED with A-1 the last frame. -/
  | showStop (net : Bool)
  /-- `SHOW_UNLOAD` (R392): Return to IDLE and reset the outputs. -/
  | showUnload (net : Bool)
  /-- `FAULT_CLEAR` (R392): FAULTED to LOADED. -/
  | faultClear (net : Bool)
  /-- `KEY_LOAD` (R408): Host command: load a key blob. -/
  | keyLoad (net : Bool)
  /-- `KEY_DERIVE` (R406): Host command: derive a key. -/
  | keyDerive (net : Bool)
  /-- `KEY_DESTROY` (R405): Host command: raise a parent's generation and evict its subtree. -/
  | keyDestroy (net : Bool)
  /-- `ATTEST` (R415): Host command: return a signed attestation statement. -/
  | attest (net : Bool)
  /-- `LIFECYCLE_PROVISION` (R401): Move to PROVISIONED, drawing a new root and optionally importing a transfer blob. -/
  | lifecycleProvision (net : Bool)
  /-- `LIFECYCLE_DEPLOY` (R400): Move to DEPLOYED and lock calibration. -/
  | lifecycleDeploy (net : Bool)
  /-- `LIFECYCLE_RMA` (R400): Move to RMA, zeroing the root and clearing slots. -/
  | lifecycleRma (net : Bool)
  /-- `LIFECYCLE_SCRAP` (R400): Move to SCRAPPED, blowing the fuse. -/
  | lifecycleScrap (net : Bool)
  /-- `LIFECYCLE_EVICT` (R412): After the LIFECYCLE response, slots whose lc lacks the new state are evicted and their sessions end. -/
  | lifecycleEvict
  /-- `UPD_STAGE_BEGIN` (R461): Start staging the inactive slot. -/
  | updStageBegin (net : Bool)
  /-- `UPD_STAGE_BLOCK` (R461): Copy one 64 KB block, optionally CRC-checked. -/
  | updStageBlock (net : Bool)
  /-- `UPD_STAGE_END` (R461): Mark the slot READY when all blocks are written. -/
  | updStageEnd (net : Bool)
  /-- `UPD_ACTIVATE` (R462): Schedule activation of the staged slot at frame A. -/
  | updActivate (net : Bool)
  /-- `UPD_ACTIVATE_VERIFIED` (R462): Verify the staged slot fully and schedule its activation. -/
  | updActivateVerified (net : Bool)
  /-- `UPD_ACTIVATION` (R463): At frame start A the cores halt, the boot word is written and the new images restart while outputs hold. -/
  | updActivation
  /-- `UPD_SEAL_RELEASE` (R463): The new firmware submits and seals frame A and seal_hold clears. -/
  | updSealRelease
  /-- `UPD_CONFIRM` (R465): A write to UPD_CONFIRM confirms the trial slot. -/
  | updConfirm
  /-- `UPD_CONFIRM_TIMEOUT` (R465): confirm_s passes on trial and the previous slot is restored. -/
  | updConfirmTimeout
  /-- `UPD_RECOVER` (R459): In recovery, a write to UPD_RECOVER checks and runs the images in DRAM. -/
  | updRecover
  /-- `BOOT_COMPLETE` (R460): The boot loads and measures the images and reaches show state IDLE. -/
  | bootComplete
  /-- `CAL_RUN_PIXEL_GAIN` (R430): Start a PIXEL_GAIN calibration run. -/
  | calRunPixelGain (net : Bool)
  /-- `CAL_RUN_SENSOR` (R432): Start a SENSOR calibration run. -/
  | calRunSensor (net : Bool)
  /-- `CAL_RUN_ADC_OFFSET` (R433): Start an ADC_OFFSET calibration run. -/
  | calRunAdcOffset (net : Bool)
  /-- `CAL_RUN_DONE` (R431): A calibration run ends, accepted or E_CHECK, and fires source 0x146. -/
  | calRunDone (a b : List (List Nat))
  /-- `NRG_READ` (R393): Return the energy accounts. -/
  | nrgRead (net : Bool)
  /-- `PAIR_CONFIG` (R479): Configure the pair, moving SOLO to PRIMARY or SYNCING. -/
  | pairConfig (net : Bool)
  /-- `PAIR_SWAP` (R486): Request a role swap at frame A. -/
  | pairSwap (net : Bool)
  /-- `SPARE_SWAP` (R493): Swap a named unit for a spare. -/
  | spareSwap (net : Bool)
  /-- `FAULT_READ` (R496): Return fault records from the log or NVS. -/
  | faultRead (net : Bool)
  /-- `POWER_STATE` (R440): Host command: request a power state through PWC_REQ. -/
  | powerState (net : Bool)
  /-- `WAKE_SCHEDULE` (R448): Edit the list of wake times. -/
  | wakeSchedule (net : Bool)
  /-- `RESET_WARM` (R451): Host command: warm reset. -/
  | resetWarm (net : Bool)
  /-- `KEY_OP_LOAD` (R408): KEY op 0x01: load a blob into a slot. -/
  | keyOpLoad
  /-- `KEY_OP_UNLOAD` (R408): KEY op 0x02: empty a slot. -/
  | keyOpUnload
  /-- `KEY_OP_DERIVE` (R406): KEY op 0x03: derive a key. -/
  | keyOpDerive
  /-- `KEY_OP_WRAP` (R413): KEY op 0x04: wrap a key under a parent. -/
  | keyOpWrap
  /-- `KEY_OP_DESTROY` (R405): KEY op 0x05: raise a generation and evict the subtree. -/
  | keyOpDestroy
  /-- `KEY_OP_HMAC` (R413): KEY op 0x06: HMAC-SHA-256. -/
  | keyOpHmac
  /-- `KEY_OP_SIGN` (R413): KEY op 0x07: ECDSA sign. -/
  | keyOpSign
  /-- `KEY_OP_VERIFY` (R413): KEY op 0x08: ECDSA verify. -/
  | keyOpVerify
  /-- `KEY_OP_GCM_ENC` (R413): KEY op 0x09: AES-GCM encrypt. -/
  | keyOpGcmEnc
  /-- `KEY_OP_GCM_DEC` (R413): KEY op 0x0A: AES-GCM decrypt. -/
  | keyOpGcmDec
  /-- `KEY_OP_ATTEST` (R415): KEY op 0x0B: build the attestation statement. -/
  | keyOpAttest
  /-- `KEY_OP_LIFECYCLE` (R400): KEY op 0x0C: move the life cycle. -/
  | keyOpLifecycle
  /-- `KEY_OP_SHA256` (R413): KEY op 0x0D: SHA-256. -/
  | keyOpSha256
  /-- `KEY_OP_DONE` (R413): A KEY operation ends, sets KEY_RES and fires source 0x144. -/
  | keyOpDone
  /-- `KEY_TRNG_READ` (R413): A read of KEY_TRNG pops a random word, or repeats the last with underrun. -/
  | keyTrngRead (entropy : Option Word)
  /-- `TAMPER_TRIP` (R397): A qualified tamper source zeroes the root and clears every key slot. -/
  | tamperTrip (source : Nat)
  /-- `PULSE_QUALIFY` (R417): An S0 pulse qualifies after its filter time and adds to the import or export accounts. -/
  | pulseQualify (n : BitVec 3) (dirHigh : Bool)
  /-- `ZONE_INTEGRATE` (R420): Every microsecond each zone adds P_g to its remainder and carries millijoules. -/
  | zoneIntegrate
  /-- `ZONE_TF_UPDATE` (R421): Every 1 ms each zone computes its temperature factor. -/
  | zoneTfUpdate
  /-- `MAINS_EDGE` (R422): A MAINS_SYNC edge counts a cycle, or is watched while sync is lost. -/
  | mainsEdge
  /-- `MAINS_SYNTHETIC_CYCLE` (R422): No edge by 1.25 T_nom, or the next synthetic instant, counts a synthetic cycle. -/
  | mainsSyntheticCycle
  /-- `NRG_LATCH` (R423): At the microsecond after the n-th counted cycle every account is latched and source 0x145 fires. -/
  | nrgLatch
  /-- `NRG_LO_READ` (R418): A read of a live _LO register captures the matching _HI word. -/
  | nrgLoRead (a : Nat)
  /-- `NRG_N_WRITE` (R423): A write to NRG_N changes the cycles per latch from the next counted cycle. -/
  | nrgNWrite (w : Word)
  /-- `CHK_START` (R435): A write to CHK_n_CTRL.start loads the init state. -/
  | chkStart (n : BitVec 4)
  /-- `CHK_FINISH` (R435): A write to CHK_n_CTRL.finish applies the final step and sets valid. -/
  | chkFinish (n : BitVec 4)
  /-- `CHK_STREAM` (R436): A write to CHK_n_CTRL.stream starts reading SLEN bytes into the CRC. -/
  | chkStream (n : BitVec 4)
  /-- `CHK_STREAM_END` (R436): A CRC stream ends with OK or E_ABSENT and clears busy. -/
  | chkStreamEnd (n : BitVec 4)
  /-- `CHK_DATA8` (R436): A write to CHK_n_DATA8 processes one byte. -/
  | chkData8 (n : BitVec 4) (w : Word)
  /-- `CHK_DATA32` (R436): A write to CHK_n_DATA32 processes four bytes. -/
  | chkData32 (n : BitVec 4) (w : Word)
  /-- `CHK_AV_IN` (R437): A write to CHK_AVk_IN applies the alive check and sets the verdict. -/
  | chkAvIn (k : BitVec 5) (w : Word)
  /-- `CHK_AV_STATE_WRITE` (R437): A write to CHK_AVk_STATE replaces the state and clears valid. -/
  | chkAvStateWrite (k : BitVec 5) (w : Word)
  /-- `PWC_REQ_RUN` (R440): A PWC_REQ write of target 0 starts the exit from DOZE. -/
  | pwcReqRun
  /-- `PWC_REQ_DOZE` (R440): A PWC_REQ write of DOZE begins entry. -/
  | pwcReqDoze
  /-- `PWC_REQ_SLEEP` (R440): A PWC_REQ write of SLEEP begins entry. -/
  | pwcReqSleep
  /-- `PWC_REQ_HIBERNATE` (R440): A PWC_REQ write of HIBERNATE begins entry. -/
  | pwcReqHibernate
  /-- `POWER_ENTRY_DONE` (R444): The entry sequence completes and PWC_STATE holds the new state. -/
  | powerEntryDone
  /-- `POWER_ENTRY_ABORT` (R445): A wake source fires before step 4 and the entry returns to its prior state. -/
  | powerEntryAbort (source : BitVec 10)
  /-- `DOZE_EXIT_DONE` (R441): The C-dies are back at P1 and PWC_STATE reads RUN. -/
  | dozeExitDone
  /-- `SLEEP_WAKE` (R445): A latched wake source restarts the hub, resumes DRAM, restores sinter and returns to RUN. -/
  | sleepWake
  /-- `WAKE_FILTER_MATCH` (R443): A matching frame in SLEEP fires source 0x01A and may start the wake. -/
  | wakeFilterMatch (mgt : Bool) (frame : List Byte) (fcsOk : Bool)
  /-- `RTC_ALARM` (R448): SPR_RTC_SEC reaches SPR_ALM_SEC; the alarm fires and may wake the device. -/
  | rtcAlarm
  /-- `RTC_TRIM_APPLY` (R447): Every 2^20 SPR ticks the RTC trim adds or skips ticks. -/
  | rtcTrimApply
  /-- `RTC_SEC_WRITE` (R448): A write to SPR_RTC_SEC sets the seconds, clears SUB and may fire or miss the alarm. -/
  | rtcSecWrite (w : Word)
  /-- `SPRING_WRITE_APPLY` (R450): A queued Spring register write takes effect within 3 SPR cycles. -/
  | springWriteApply
  /-- `SPRING_SUPPLY_SWITCH` (R446): VSPR falls below 1.70 V or returns and the Spring domain switches supply. -/
  | springSupplySwitch (onVbat vbatLow : Bool)
  /-- `CHAIN_PORT_CHANGE` (R469): A chain port comes up after ALIGN lock, or goes down; source 0x141 fires. -/
  | chainPortChange (west up : Bool)
  /-- `CHAIN_MESSAGE_FORWARD` (R472): A received message is forwarded out of the other port cut-through. -/
  | chainMessageForward (west : Bool) (rx : ChainRx)
  /-- `CHAIN_ANNOUNCE` (R190): An ANNOUNCE from the announcing package schedules frame k, or fires at once when late. -/
  | chainAnnounce (west : Bool) (rx : ChainRx)
  /-- `CHAIN_NOTICE` (R188): The master receives a commit notice with E and P_min. -/
  | chainNotice (west : Bool) (rx : ChainRx)
  /-- `CHAIN_DIGEST` (R484): The partner's DIGEST arrives and the records of frame F are compared. -/
  | chainDigest (west : Bool) (rx : ChainRx)
  /-- `DIGEST_TIMEOUT` (R484): A record whose partner copy has not arrived by frame start F+4 is dropped. -/
  | digestTimeout
  /-- `SELF_CHECK_DONE` (R485): The self-check ends; a fault found makes the package FAULTED. -/
  | selfCheckDone (found : Option (Nat × Nat))
  /-- `ROLE_PROPOSE` (R486): The standby receives PROPOSE S and answers ACCEPT or REFUSE. -/
  | rolePropose (west : Bool) (rx : ChainRx)
  /-- `ROLE_ACCEPT` (R486): The primary receives ACCEPT and schedules the swap at S. -/
  | roleAccept (west : Bool) (rx : ChainRx)
  /-- `ROLE_REFUSE` (R486): The primary receives REFUSE and the swap ends. -/
  | roleRefuse (west : Bool) (rx : ChainRx)
  /-- `ROLE_SNAP_REQ` (R490): The primary receives SNAP_REQ and takes a snapshot at the next commit. -/
  | roleSnapReq (west : Bool) (rx : ChainRx)
  /-- `ROLE_SWAP_BACK` (R488): SWAP_BACK S' makes the package on check FAULTED at frame start S'. -/
  | roleSwapBack (west : Bool) (rx : ChainRx)
  /-- `SWAP_LAPSE` (R486): No ACCEPT by frame start S-2; the swap ends E_LATE. -/
  | swapLapse
  /-- `PAIR_SWAPGO` (R486): A write to PAIR_SWAPGO.go proposes a swap at PAIR_SWAP.at_frame. -/
  | pairSwapgo
  /-- `PAIR_AUTO_SWAP` (R487): interval_s after the last role change the primary proposes a swap. -/
  | pairAutoSwap
  /-- `SWAP_CHECK_END` (R488): 1 s after a swap the check window closes. -/
  | swapCheckEnd
  /-- `CHAIN_STATUS_SEND` (R473): Every 1 ms CHN broadcasts STATUS. -/
  | chainStatusSend
  /-- `CHAIN_STATUS` (R477): A STATUS arrives; the announcer, partner role and duplicate IDs are updated. -/
  | chainStatus (west : Bool) (rx : ChainRx)
  /-- `PARTNER_LOSS_TIMEOUT` (R480): No message from the partner for loss_frames periods; the partner is lost. -/
  | partnerLossTimeout
  /-- `SNAP_COPY_DONE` (R490): The snapshot copy completes and SNAP messages are sent. -/
  | snapCopyDone
  /-- `CHAIN_SNAP` (R490): A SNAP message is written to its device address. -/
  | chainSnap (west : Bool) (rx : ChainRx)
  /-- `CHAIN_SNAP_END` (R490): SNAP_END arrives; the area's SHA-256 is checked and catch-up begins or SNAP_REQ repeats. -/
  | chainSnapEnd (west : Bool) (rx : ChainRx)
  /-- `CATCHUP_FRAME_START` (R491): In catch-up, frame start k+1 fires at the package's own commit of k. -/
  | catchupFrameStart
  /-- `INLOG_ENTRY` (R489): An INLOG sACN, DMX or firmware entry is placed in the input-log ring. -/
  | inlogEntry (west : Bool) (rx : ChainRx)
  /-- `INLOG_END` (R489): INLOG END for frame F arrives. -/
  | inlogEnd (west : Bool) (rx : ChainRx)
  /-- `INLOG_APPLY` (R489): At the later of frame start F and END F the entries are applied, PAIR_INDONE written and in_event fired. -/
  | inlogApply
  /-- `CHAIN_USER` (R476): A USER message is placed in the receive ring and noticed in CHN_RXQ. -/
  | chainUser (west : Bool) (rx : ChainRx)
  /-- `CHN_TXQ_SEND` (R476): CHN pops a CHN_TXQ entry and sends its message. -/
  | chnTxqSend
  /-- `CHN_RXREL_WRITE` (R476): A write to CHN_RXREL returns receive slots. -/
  | chnRxrelWrite (w : Word)
  /-- `SPARE_SWAP_AUTO` (R492): A unit meets its retirement condition and is replaced by a spare at its swap point. -/
  | spareSwapAuto (kind unit : Nat)
  /-- `SPA_SWAPGO` (R493): A write to SPA_SWAPGO swaps the unit in SPA_SWAPREQ. -/
  | spaSwapgo
  /-- `SPA_SELFTEST` (R493): Every period_s the spares manager self-tests spares and idle units. -/
  | spaSelftest (fails : List (Nat × Nat))
  /-- `DRM_UE` (R497): An uncorrectable DRAM error is recorded show-fatal. -/
  | drmUe (addr : Nat)
  /-- `CDIE_LOST` (R497): A C-die is lost and recorded show-fatal. -/
  | cdieLost (d : BitVec 2)
  /-- `RETURN_LANE_LOCK` (R261): A tile return lane gains or loses 8b/10b code-group lock, and SCN_Li_STAT.ret_lock follows. -/
  | returnLaneLock (l : BitVec 5) (locked : Bool)
  /-- `UPD_BLOCK_DONE` (R461): A staging BLOCK finishes its copy and optional CRC read-back within 4 ms, clears UPD_STAT.busy and reports OK or E_CHECK. -/
  | updBlockDone
  /-- `DMX_COMMIT_APPLY` (R316): On an idle or disabled DMX port, the shadowed registers apply at the eighth DCK cycle after the commit reaches DCK. -/
  | dmxCommitApply (p : BitVec 4)
  deriving DecidableEq, Repr

end Sys2Proof
end

