-- ==== Sys2Proof/WellFormed.lean ====
section
/-!
DEFINITION. Which commands are well formed: an operand names a unit that the Nerza has, and a list that arrives from
outside has the length its source gives it. A field of a QSIS encoding is well formed at every value: a register or
opcode that the spec refuses is the instruction's own business (R84). An ill-formed command is the sender's error; the
meanings answer it too, with no effect on what does not exist.
-/
namespace Sys2Proof

/-- The MAC has ports 0 to 9 (R280). -/
def macPort (p : BitVec 4) : Bool := decide (p.toNat < 10)
/-- Spread drive has channels 0 to 95 (R266). -/
def spdChannel (n : BitVec 7) : Bool := decide (n.toNat < 96)
/-- A list of n codes of the 12-bit converter (R275). -/
def adcCodes (n : Nat) (l : List Nat) : Bool := decide (l.length = n) && l.all fun x => decide (x < 4096)
/-- The samples of a calibration run's repeat (chapter 16): 12-bit codes. -/
def calSamples (l : List (List Nat)) : Bool := l.all fun x => x.all fun c => decide (c < 4096)
/-- A BAR access moves 1 to 4,096 bytes: those written, or the number read. -/
def accessLength (data : Option (List Byte)) (len : Nat) : Bool :=
  match data with
  | some l => decide (1 ≤ l.length ∧ l.length ≤ 4096)
  | none => decide (1 ≤ len ∧ len ≤ 4096)
/-- A host register address is an offset in BAR0 (64 MB, R375); any other master's is a device address of 40 bits. -/
def registerAddress (who : Master) (a : Nat) : Bool :=
  match who with
  | .host => decide (a < 2 ^ 26)
  | _ => decide (a < 2 ^ 40)

/-- A register access: 1, 2, 4 or 8 bytes, or on the LHB alone a frame of the SPI form. -/
def registerAccess (who : Master) : RegAccess → Bool
  | .write n _ => n ∈ [1, 2, 4, 8]
  | .read n => n ∈ [1, 2, 4, 8]
  | .spi _ => who = .lhb

/-- Well-formedness of a command. -/
def Instr.wf : Instr → Bool
  | .powerOnReset .. => true
  | .rstNReset .. => true
  | .warmReset => true
  | .sysResetWarm .. => true
  | .drstServiceCore .. => true
  | .drstLangal => true
  | .drstCdie .. => true
  | .drstScnHead .. => true
  | .springReset => true
  | .railOutOfRange => true
  | .watchdogExpiry => true
  | .pwcWdkickWrite .. => true
  | .pwcWdogEnable .. => true
  | .registerWrite who a acc => registerAddress who a && registerAccess who acc
  | .tsuCommit => true
  | .tsuCommitApply => true
  | .tsuCapGo => true
  | .tsuCapture => true
  | .flkCommit => true
  | .flkCommitApply => true
  | .frameStart => true
  | .flkSealWrite .. => true
  | .frameCommit => true
  | .frameAnnounce => true
  | .lateDeadline => true
  | .frameLag => true
  | .orphanFire => true
  | .ltcSyncWord .. => true
  | .fsyncInEdge => true
  | .wclkEvent => true
  | .illegalInstruction .. => true
  | .add .. => true
  | .sub .. => true
  | .adds .. => true
  | .subs .. => true
  | .addus .. => true
  | .subus .. => true
  | .and .. => true
  | .or .. => true
  | .xor .. => true
  | .andn .. => true
  | .nor .. => true
  | .sll .. => true
  | .srl .. => true
  | .sra .. => true
  | .ror .. => true
  | .slli .. => true
  | .srli .. => true
  | .srai .. => true
  | .rori .. => true
  | .slt .. => true
  | .sltu .. => true
  | .seq .. => true
  | .min .. => true
  | .max .. => true
  | .minu .. => true
  | .maxu .. => true
  | .clz .. => true
  | .popc .. => true
  | .sextb .. => true
  | .sexth .. => true
  | .addx .. => true
  | .subx .. => true
  | .addl .. => true
  | .subl .. => true
  | .mull .. => true
  | .mul .. => true
  | .mulhs .. => true
  | .mulhu .. => true
  | .madd .. => true
  | .divs .. => true
  | .divu .. => true
  | .rems .. => true
  | .remu .. => true
  | .mulx .. => true
  | .divx .. => true
  | .maddx .. => true
  | .fadd .. => true
  | .fsub .. => true
  | .fmul .. => true
  | .fmadd .. => true
  | .fmin .. => true
  | .fmax .. => true
  | .fabs .. => true
  | .fneg .. => true
  | .fdiv .. => true
  | .fsqrt .. => true
  | .feq .. => true
  | .flt .. => true
  | .fle .. => true
  | .fcvtSW .. => true
  | .fcvtWS .. => true
  | .fcvtSX .. => true
  | .fcvtXS .. => true
  | .fcvtSL .. => true
  | .fcvtLS .. => true
  | .addi .. => true
  | .andi .. => true
  | .ori .. => true
  | .xori .. => true
  | .lui .. => true
  | .slti .. => true
  | .sltiu .. => true
  | .lw .. => true
  | .lh .. => true
  | .lhu .. => true
  | .lb .. => true
  | .lbu .. => true
  | .sw .. => true
  | .sh .. => true
  | .sb .. => true
  | .lhf .. => true
  | .shf .. => true
  | .vlw .. => true
  | .vsw .. => true
  | .vlh .. => true
  | .vsh .. => true
  | .vglw .. => true
  | .vscw .. => true
  | .vglh .. => true
  | .vsch .. => true
  | .vadd .. => true
  | .vsub .. => true
  | .vadds .. => true
  | .vsubs .. => true
  | .vaddus .. => true
  | .vsubus .. => true
  | .vand .. => true
  | .vor .. => true
  | .vxor .. => true
  | .vandn .. => true
  | .vsll .. => true
  | .vsrl .. => true
  | .vsra .. => true
  | .vmin .. => true
  | .vmax .. => true
  | .vminu .. => true
  | .vmaxu .. => true
  | .vmul .. => true
  | .vmulhs .. => true
  | .vmulhu .. => true
  | .vmadd .. => true
  | .vaddx .. => true
  | .vsubx .. => true
  | .vmulx .. => true
  | .vmaddx .. => true
  | .vaddl .. => true
  | .vsubl .. => true
  | .vmull .. => true
  | .vmaddl .. => true
  | .vslli .. => true
  | .vsrli .. => true
  | .vsrai .. => true
  | .vfadd .. => true
  | .vfsub .. => true
  | .vfmul .. => true
  | .vfmadd .. => true
  | .vfmin .. => true
  | .vfmax .. => true
  | .vfabs .. => true
  | .vfneg .. => true
  | .vfdiv .. => true
  | .vfsqrt .. => true
  | .vcvtSW .. => true
  | .vcvtWS .. => true
  | .vcvtSX .. => true
  | .vcvtXS .. => true
  | .vcvtSL .. => true
  | .vcvtLS .. => true
  | .vceq .. => true
  | .vcne .. => true
  | .vclt .. => true
  | .vcle .. => true
  | .vcltu .. => true
  | .vcleu .. => true
  | .vfceq .. => true
  | .vfclt .. => true
  | .vfcle .. => true
  | .pand .. => true
  | .por .. => true
  | .pxor .. => true
  | .pandn .. => true
  | .pnot .. => true
  | .pfromg .. => true
  | .ptog .. => true
  | .pcnt .. => true
  | .vmov .. => true
  | .vbcast .. => true
  | .vins .. => true
  | .vext .. => true
  | .vperm .. => true
  | .vrot .. => true
  | .vradd .. => true
  | .vraddx .. => true
  | .vrfadd .. => true
  | .vrmin .. => true
  | .vrmax .. => true
  | .vrminu .. => true
  | .vrmaxu .. => true
  | .dmago .. => true
  | .dmawait .. => true
  | .dmapoll .. => true
  | .dmastat .. => true
  | .dmaQueueAdmit .. => true
  | .dmaTransferEnd _ i => decide (i < 64)
  | .br .. => true
  | .bal .. => true
  | .bz .. => true
  | .bnz .. => true
  | .bltz .. => true
  | .bgez .. => true
  | .bp .. => true
  | .jr .. => true
  | .jalr .. => true
  | .mfs .. => true
  | .mts .. => true
  | .nop .. => true
  | .fence .. => true
  | .isync .. => true
  | .brk .. => true
  | .scall .. => true
  | .eret .. => true
  | .wfi .. => true
  | .vblend .. => true
  | .vcurve .. => true
  | .vgamma .. => true
  | .vcmxf .. => true
  | .vcmxl .. => true
  | .vproj .. => true
  | .vsampa .. => true
  | .vfract .. => true
  | .vlerpf .. => true
  | .vfade .. => true
  | .vfpos .. => true
  | .vfmix .. => true
  | .spawn .. => true
  | .yield .. => true
  | .done .. => true
  | .cancel .. => true
  | .waitf .. => true
  | .waite .. => true
  | .signal .. => true
  | .eclass .. => true
  | .jset .. => true
  | .join .. => true
  | .cadd .. => true
  | .mpost .. => true
  | .mrecv .. => true
  | .qpush .. => true
  | .qpop .. => true
  | .qmark .. => true
  | .qrewind .. => true
  | .qrel .. => true
  | .crci .. => true
  | .crcb .. => true
  | .crcw .. => true
  | .crcm .. => true
  | .crcf .. => true
  | .alive .. => true
  | .dispatch .. => true
  | .starveGuard .. => true
  | .quantumCharge .. => true
  | .runlimit .. => true
  | .ventRelease .. => true
  | .taskCompletionPost key => decide (key < 65536)
  | .submitAdmit .. => true
  | .craterGate .. => true
  | .craterOpenDone .. => true
  | .requestPromote .. => true
  | .budgetRefill temps => decide (temps.length = 16)
  | .costLearn energy vus => decide (energy.length = 32 ∧ vus.length = 32)
  | .dvfsEvaluate temps => decide (temps.length = 4)
  | .railNak .. => true
  | .vckSwitch .. => true
  | .bgtPkgPeriod .. => true
  | .fumaroleRotation => true
  | .calderaCommit .. => true
  | .calderaCommitApply .. => true
  | .schPortSubmit m _ _ => decide (m.toNat < 10)
  | .schPortCancel m _ _ => decide (m.toNat < 10)
  | .schEventWrite .. => true
  | .schSnapGo => true
  | .schSnapCapture => true
  | .persLoad .. => true
  | .curveLoad .. => true
  | .patch .. => true
  | .unpatch .. => true
  | .cueStep .. => true
  | .canvasSet .. => true
  | .layerSet .. => true
  | .bufAlloc .. => true
  | .bufFree .. => true
  | .bufFreed .. => true
  | .govSet .. => true
  | .univSet .. => true
  | .rateSet .. => true
  | .timeSource .. => true
  | .lgvCommit => true
  | .lgvCompute => true
  | .scnCommit .. => true
  | .scnLaneCommitApply .. => true
  | .scanStart .. => true
  | .scanEnd .. => true
  | .repeatScan .. => true
  | .lineUnderrun .. => true
  | .slotLatch .. => true
  | .planeFillDone .. => true
  | .laneTrainDone .. => true
  | .enumWindowEnd .. => true
  | .returnPacket .. => true
  | .tileCmdSend .. => true
  | .spdCommit => true
  | .spdPeriodStart => true
  | .spdFadeGo n => spdChannel n
  | .spdRelease n => spdChannel n
  | .spdLevelWrite n _ => spdChannel n
  | .triggerEdge .. => true
  | .derateUpdate => true
  | .sensorPublish samples => decide (samples.length = 8) && samples.all (adcCodes 16)
  | .snsLockWrite .. => true
  | .rxFrame p frame _ => macPort p && decide (1 ≤ frame.length)
  | .pauseExpiry p => macPort p
  | .sacnSourceTimeout _ cid => decide (cid.length = 16)
  | .txFrameSelect p => macPort p
  | .txFrameDone p => macPort p
  | .ringTailWrite p _ _ => macPort p
  | .pauseSend p => macPort p
  | .pauseRefresh p => macPort p
  | .linkChange p _ _ => macPort p
  | .macCommit p => macPort p
  | .macCommitApply p => macPort p
  | .macRcommit => true
  | .fpArm .. => true
  | .fpFire .. => true
  | .fpDisarm .. => true
  | .unvCommit => true
  | .unvKeepalive => true
  | .dmxCommit .. => true
  | .dmxBreakStart .. => true
  | .dmxFreePeriod .. => true
  | .dmxRepeat .. => true
  | .dmxPacketEnd .. => true
  | .dmxInputPacket _ _ data _ => decide (data.length ≤ 512)
  | .dmxInputLoss .. => true
  | .dmxRdmgo .. => true
  | .dmxRdmResponse .. => true
  | .dmxRdmTimeout .. => true
  | .langalBootCheck .. => true
  | .langalTick => true
  | .langalPortPacket .. => true
  | .lciNop => true
  | .lciHalt => true
  | .lciWaitt => true
  | .lciWaittResume => true
  | .lciRet => true
  | .lciLdi => true
  | .lciLdh => true
  | .lciAdd => true
  | .lciSub => true
  | .lciAnd => true
  | .lciOr => true
  | .lciXor => true
  | .lciMov => true
  | .lciShl => true
  | .lciShr => true
  | .lciAdds => true
  | .lciSubs => true
  | .lciMulh => true
  | .lciAddi => true
  | .lciLd => true
  | .lciSt => true
  | .lciBz => true
  | .lciBnz => true
  | .lciBc => true
  | .lciJmp => true
  | .lciCall => true
  | .lciFade => true
  | .lciIn => true
  | .lciOut => true
  | .lglRun => true
  | .lglStop => true
  | .lglStore => true
  | .lglTrim => true
  | .lglAutorun => true
  | .lglLogin => true
  | .lglSetpw => true
  | .lglLogout => true
  | .lglCommandDone => true
  | .lglHstatusRead => true
  | .lglHaddrhWrite .. => true
  | .lglHspaceWrite .. => true
  | .lglHdataAccess .. => true
  | .loginLockoutEnd => true
  | .queEnable .. => true
  | .queDisable .. => true
  | .quePushWord .. => true
  | .quePopRead .. => true
  | .queOpMark .. => true
  | .queOpRewind .. => true
  | .queOpRelease .. => true
  | .queStalledPushDone .. => true
  | .mbxLockWrite .. => true
  | .mbxDataWrite .. => true
  | .mbxDataRead .. => true
  | .mbxStalledPostDone .. => true
  | .icuSourceEvent .. => true
  | .icuDeliver .. => true
  | .icuClaim t => decide (t.toNat < 11)
  | .icuEoi t _ _ => decide (t.toNat < 10)
  | .icuHeoi .. => true
  | .icuUnfreeze t => decide (t.toNat < 10)
  | .icuSwset .. => true
  | .icuSwclr .. => true
  | .icuSrcWrite .. => true
  | .springLatchEdge .. => true
  | .pcieReset => true
  | .pcieLinkChange .. => true
  | .hstAperWrite .. => true
  | .dramApertureAccess off data len => decide (off < 2 ^ 32) && accessLength data len
  | .bshWindowArm .. => true
  | .bshWindowDisarm .. => true
  | .bshWindowAccess _ off data len => decide (off < 2 ^ 16) && accessLength data len
  | .bshBurstGo .. => true
  | .bshBurstEnd .. => true
  | .hostDoorbell .. => true
  | .netCommandFrame => true
  | .commandResponse .. => true
  | .sessionOpen .. => true
  | .sessionAuth .. => true
  | .sessionClose .. => true
  | .sessionAuthTimeout .. => true
  | .sessionIdleTimeout .. => true
  | .status .. => true
  | .identify .. => true
  | .showLoad .. => true
  | .showArm .. => true
  | .showGo .. => true
  | .showHold .. => true
  | .showResume .. => true
  | .showStop .. => true
  | .showUnload .. => true
  | .faultClear .. => true
  | .keyLoad .. => true
  | .keyDerive .. => true
  | .keyDestroy .. => true
  | .attest .. => true
  | .lifecycleProvision .. => true
  | .lifecycleDeploy .. => true
  | .lifecycleRma .. => true
  | .lifecycleScrap .. => true
  | .lifecycleEvict => true
  | .updStageBegin .. => true
  | .updStageBlock .. => true
  | .updStageEnd .. => true
  | .updActivate .. => true
  | .updActivateVerified .. => true
  | .updActivation => true
  | .updSealRelease => true
  | .updConfirm => true
  | .updConfirmTimeout => true
  | .updRecover => true
  | .bootComplete => true
  | .calRunPixelGain .. => true
  | .calRunSensor .. => true
  | .calRunAdcOffset .. => true
  | .calRunDone a b => calSamples a && calSamples b
  | .nrgRead .. => true
  | .pairConfig .. => true
  | .pairSwap .. => true
  | .spareSwap .. => true
  | .faultRead .. => true
  | .powerState .. => true
  | .wakeSchedule .. => true
  | .resetWarm .. => true
  | .keyOpLoad => true
  | .keyOpUnload => true
  | .keyOpDerive => true
  | .keyOpWrap => true
  | .keyOpDestroy => true
  | .keyOpHmac => true
  | .keyOpSign => true
  | .keyOpVerify => true
  | .keyOpGcmEnc => true
  | .keyOpGcmDec => true
  | .keyOpAttest => true
  | .keyOpLifecycle => true
  | .keyOpSha256 => true
  | .keyOpDone => true
  | .keyTrngRead .. => true
  | .tamperTrip source => decide (source ≤ 6)
  | .pulseQualify .. => true
  | .zoneIntegrate => true
  | .zoneTfUpdate => true
  | .mainsEdge => true
  | .mainsSyntheticCycle => true
  | .nrgLatch => true
  | .nrgLoRead a => decide (a % 4 = 0 ∧ 0x3000130000 ≤ a ∧ a < 0x3000140000)
  | .nrgNWrite .. => true
  | .chkStart .. => true
  | .chkFinish .. => true
  | .chkStream .. => true
  | .chkStreamEnd .. => true
  | .chkData8 .. => true
  | .chkData32 .. => true
  | .chkAvIn .. => true
  | .chkAvStateWrite .. => true
  | .pwcReqRun => true
  | .pwcReqDoze => true
  | .pwcReqSleep => true
  | .pwcReqHibernate => true
  | .powerEntryDone => true
  | .powerEntryAbort .. => true
  | .dozeExitDone => true
  | .sleepWake => true
  | .wakeFilterMatch .. => true
  | .rtcAlarm => true
  | .rtcTrimApply => true
  | .rtcSecWrite .. => true
  | .springWriteApply => true
  | .springSupplySwitch .. => true
  | .chainPortChange .. => true
  | .chainMessageForward .. => true
  | .chainAnnounce .. => true
  | .chainNotice .. => true
  | .chainDigest .. => true
  | .digestTimeout => true
  | .selfCheckDone .. => true
  | .rolePropose .. => true
  | .roleAccept .. => true
  | .roleRefuse .. => true
  | .roleSnapReq .. => true
  | .roleSwapBack .. => true
  | .swapLapse => true
  | .pairSwapgo => true
  | .pairAutoSwap => true
  | .swapCheckEnd => true
  | .chainStatusSend => true
  | .chainStatus .. => true
  | .partnerLossTimeout => true
  | .snapCopyDone => true
  | .chainSnap .. => true
  | .chainSnapEnd .. => true
  | .catchupFrameStart => true
  | .inlogEntry .. => true
  | .inlogEnd .. => true
  | .inlogApply => true
  | .chainUser .. => true
  | .chnTxqSend => true
  | .chnRxrelWrite .. => true
  | .spareSwapAuto kind _ => decide (kind < 9)
  | .spaSwapgo => true
  | .spaSelftest fails => fails.all fun e => decide (e.1 < 9)
  | .drmUe addr => decide (addr < 2 ^ 35)
  | .cdieLost .. => true
  | .returnLaneLock .. => true
  | .updBlockDone => true
  | .dmxCommitApply .. => true

end Sys2Proof
end

