-- ==== Sys2Proof/Decode.lean ====
section
/-!
DEFINITION. Decoding. spec/opcode_table.json gives none of its rows bits: a command reaches the Nerza as an instruction
issued, a register written, a message or an event, and not as a word of the table. So no word spells a command.
-/
namespace Sys2Proof

/-- The command that a word spells by the table's bits: none, since no row of the table has bits. -/
def decodeTableWord (_nbits _w : Nat) : Option Instr := none

end Sys2Proof
end

