-- ==== Sys2Proof/Config.lean ====
section
/-!
DEFINITION. What one part or one board fixes (fuses, straps, identity) and the free values: constants with no body,
for the values the spec leaves open. Nothing can be proved of the value of any of them, so a statement that mentions
one holds for every value it could have.
-/
namespace Sys2Proof

/-! ### Fixed by fuses, by the board or by provisioning -/

/-- The grade field of SYS_ID as fused (chapter 00: 0 = NZ7100-C, 1 = NZ7100-I). -/
opaque Config.grade : BitVec 4
/-- The PCI vendor id as fused (HST_PCIID, chapter 14). -/
opaque Config.vendorId : BitVec 16
/-- The device UID, sixteen bytes, by index (R389, R393). -/
opaque Config.uidByte : Nat → Byte
/-- The fused device key, thirty-two bytes, by index (R395). -/
opaque Config.deviceKeyByte : Nat → Byte
/-- The two manifest public keys, X and Y, whose hashes are fused (R457). -/
opaque Config.manifestKey : Nat → Nat × Nat
/-- Whether the revocation fuse of a manifest key is blown (R457). -/
opaque Config.manifestRevoked : Nat → Bool
/-- The manufacturer code fused for IDCODE (R512). -/
opaque Config.jtagMaker : BitVec 11
/-- The voltage fused for a die and an operating point, µV (R506). -/
opaque Config.railUv : Nat → Nat → Nat
/-- The test access port's instruction register: its length, and the public instruction that a code names, 0 BYPASS, 1
IDCODE, 2 SAMPLE/PRELOAD, 3 EXTEST, 4 CLAMP, 5 HIGHZ, any other number one that is not public; and the boundary register's
length (R512 gives none of them). -/
opaque Config.tapBits : Nat
opaque Config.tapCode : Nat → Nat
opaque Config.boundaryCells : Nat
/-- Device address of the universe table of R210, which the firmware chooses and no register names (assumption 9). -/
opaque Config.universeBase : Nat
/-- Device addresses of the fixture (0), personality (1), canvas (2) and layer (3) tables of R200, which no register
names either. -/
opaque Config.tableBase : Nat → Nat

/-! ### Free values -/

/-- The registers and predicates of a vent that R68 leaves unspecified at dispatch: the value of word `i` in run
number `run` (assumption 4). -/
opaque Config.freeWord : Nat → Nat → Word
/-- The local-store bytes that R18 and R68 leave unspecified at dispatch: byte `a` in run number `run`. -/
opaque Config.freeByte : Nat → Nat → Byte
/-- Which free pool entry a new task takes (R64 gives the index no rule): a starting point for the search. -/
opaque Config.poolStart : Nat → Nat
/-- An unstated value, by a counter that never repeats and a tag that says which value it is. -/
opaque Config.freeNat : Nat → Nat → Nat

/-- Whether a fused multiply-add of zero, infinity and a quiet NaN addend sets nv, which IEEE 754 leaves to each
implementation (R56). -/
opaque Config.fmaInvalidQuiet : Bool
/-- VFRACT where v − floor(v) is not representable below 1.0 (R125 gives no result there), by the operand. -/
opaque Config.fractFree : Word → Word

end Sys2Proof
end

