-- ==== Sys2Proof/Machine/Maps.lean ====
section
/-!
DEFINITION. Sparse maps as canonical lists of (key, value), the words' bit fields, and the byte order of R8. Every
sparse piece of the state (registers, memory, pools, queues) is read and written through `mget` and `mset`.
-/
namespace Sys2Proof.Machine
open Sys2Proof

/-- The value of key `k`; `d k` where the map lists none. -/
def mget {α : Type} (d : Nat → α) : List (Nat × α) → Nat → α
  | [], k => d k
  | (k', v) :: t, k => if k' = k then v else mget d t k

/-- Remove every entry of key `k`. -/
def merase {α : Type} : List (Nat × α) → Nat → List (Nat × α)
  | [], _ => []
  | (k', v) :: t, k => if k' = k then merase t k else (k', v) :: merase t k

/-- Insert an entry before the first larger key. -/
def minsert {α : Type} : List (Nat × α) → Nat → α → List (Nat × α)
  | [], k, v => [(k, v)]
  | (k', v') :: t, k, v => if k < k' then (k, v) :: (k', v') :: t else (k', v') :: minsert t k v

/-- Set key `k` to `v`, keeping the canonical form: the value an unlisted key reads as is not listed. -/
def mset {α : Type} [DecidableEq α] (d : Nat → α) (m : List (Nat × α)) (k : Nat) (v : α) : List (Nat × α) :=
  if v = d k then merase m k else minsert (merase m k) k v

/-- The canonical form: keys strictly rising and no entry equal to the unlisted value. -/
def mwf {α : Type} [DecidableEq α] (d : Nat → α) : List (Nat × α) → Bool
  | [] => true
  | (k, v) :: t => decide (v ≠ d k) && (t.all fun e => decide (k < e.1)) && mwf d t

/-- Drop every entry whose key lies in `lo ≤ k < hi`. -/
def mdropRange {α : Type} (m : List (Nat × α)) (lo hi : Nat) : List (Nat × α) :=
  m.filter fun e => !(decide (lo ≤ e.1) && decide (e.1 < hi))

/-- Keep only the entries whose key lies in `lo ≤ k < hi`. -/
def mrange {α : Type} (m : List (Nat × α)) (lo hi : Nat) : List (Nat × α) :=
  m.filter fun e => decide (lo ≤ e.1) && decide (e.1 < hi)

/-- Add to `m` every entry of a second map, whose keys are not in `m`. -/
def mmerge {α : Type} : List (Nat × α) → List (Nat × α) → List (Nat × α)
  | m, [] => m
  | m, (k, v) :: t => mmerge (minsert (merase m k) k v) t

/-- A register file with entry `i` set; a list that is too short reads `d` beyond its end and is filled with it. -/
def lset {α : Type} (d : α) : List α → Nat → α → List α
  | [], 0, v => [v]
  | [], i + 1, v => d :: lset d [] i v
  | _ :: t, 0, v => v :: t
  | x :: t, i + 1, v => x :: lset d t i v

/-- Insert x into a queue whose last m entries arrived in one cycle: ascending rank among those m. -/
def insCycle {α : Type} (rank : α → Nat) (m : Nat) (l : List α) (x : α) : List α :=
  let old := l.take (l.length - m)
  let now := l.drop (l.length - m)
  old ++ now.takeWhile (fun y => rank y ≤ rank x) ++ x :: now.dropWhile (fun y => rank y ≤ rank x)

/-! ### Bit fields -/

/-- The number in bits [hi:lo] of a word. -/
def fldOf (w : Word) (hi lo : Nat) : Nat := w.toNat / 2 ^ lo % 2 ^ (hi - lo + 1)

/-- The word with bits [hi:lo] replaced by a number (modulo the field's size). -/
def setFld (w : Word) (hi lo v : Nat) : Word :=
  Word.ofNat (w.toNat - fldOf w hi lo * 2 ^ lo + v % 2 ^ (hi - lo + 1) * 2 ^ lo)

/-- Bit `i` of a word. -/
def bitOf (w : Word) (i : Nat) : Bool := w.getLsbD i

/-- 1 for true, 0 for false. -/
def b2n (b : Bool) : Nat := if b then 1 else 0

/-- The signed number in an n-bit field. -/
def sext (n v : Nat) : Int := if v % 2 ^ n < 2 ^ (n - 1) then (v % 2 ^ n : Nat) else (v % 2 ^ n : Nat) - (2 ^ n : Nat)

/-- The signed difference of two 32-bit counters, (s32)(a − b). -/
def sdiff (a b : Word) : Int := (a - b).toInt

/-! ### Byte order (R8) -/

/-- The number that little-endian bytes hold. -/
def leNat : List Byte → Nat
  | [] => 0
  | b :: t => b.toNat + 256 * leNat t

/-- `n` little-endian bytes of a number. -/
def leBytes : Nat → Nat → List Byte
  | 0, _ => []
  | n + 1, v => BitVec.ofNat 8 v :: leBytes n (v / 256)

/-- The number that big-endian bytes hold (network protocols keep their own order, R8). -/
def beNat (l : List Byte) : Nat := leNat l.reverse

/-- The little-endian words of a byte string (a short last word is padded with zeros). -/
def wordsOf : List Byte → List Word
  | a :: b :: c :: d :: t => Word.ofNat (leNat [a, b, c, d]) :: wordsOf t
  | [] => []
  | l => [Word.ofNat (leNat l)]

/-- The bytes of a list of words. -/
def bytesOfWords : List Word → List Byte
  | [] => []
  | w :: t => leBytes 4 w.toNat ++ bytesOfWords t

/-- The number in bytes [i, i+n) of a record, little-endian. -/
def leAt (l : List Byte) (i n : Nat) : Nat := leNat ((l.drop i).take n)

/-- Pad or cut a list of words to a length. -/
def padWords (n : Nat) (l : List Word) : List Word := (l ++ List.replicate n 0).take n

end Sys2Proof.Machine
end

