-- ==== Sys2Proof/Machine/Flags.lean ====
section
/-!
DEFINITION. The sticky flags of s_flags (R74) and the integer, fx16 and lum20 arithmetic with the flags each operation
sets (R53 to R55, R88, R89). Every operation answers its 32-bit result and the flags it raises; lanes and scalars
share them (R95).
-/
namespace Sys2Proof.Machine
open Sys2Proof

/-! ### s_flags bits (R74) -/
abbrev FL_DZ : Word := 0x01
abbrev FL_OV : Word := 0x02
abbrev FL_SAT : Word := 0x04
abbrev FL_NV : Word := 0x08
abbrev FL_OF : Word := 0x10
abbrev FL_UF : Word := 0x20
abbrev FL_TR : Word := 0x40

/-- A result with the flags the operation raises. -/
abbrev ResF := Word × Word

/-- A flag when a condition holds. -/
def flagIf (c : Bool) (f : Word) : Word := if c then f else 0

/-- An exact integer clamped to the s32 range, with sat (R53, R54). -/
def satS32 (x : Int) : ResF :=
  if x < -2147483648 then (0x80000000, FL_SAT) else if 2147483647 < x then (0x7FFFFFFF, FL_SAT)
  else (Word.ofInt x, 0)

/-- An exact integer clamped to the u32 range, with sat (R53). -/
def satU32 (x : Int) : ResF :=
  if x < 0 then (0, FL_SAT) else if 4294967295 < x then (0xFFFFFFFF, FL_SAT) else (Word.ofInt x, 0)

/-- A result that raises no flag. -/
def plain (w : Word) : ResF := (w, 0)

/-! ### R88 -/
def aluAdd (a b : Word) : ResF := plain (a + b)
def aluSub (a b : Word) : ResF := plain (a - b)
def aluAdds (a b : Word) : ResF := satS32 (a.toInt + b.toInt)
def aluSubs (a b : Word) : ResF := satS32 (a.toInt - b.toInt)
def aluAddus (a b : Word) : ResF := satU32 ((a.toNat : Int) + b.toNat)
def aluSubus (a b : Word) : ResF := satU32 ((a.toNat : Int) - b.toNat)
def aluAnd (a b : Word) : ResF := plain (a &&& b)
def aluOr (a b : Word) : ResF := plain (a ||| b)
def aluXor (a b : Word) : ResF := plain (a ^^^ b)
def aluAndn (a b : Word) : ResF := plain (a &&& ~~~b)
def aluNor (a b : Word) : ResF := plain (~~~(a ||| b))
/-- Shifts and rotates use b[4:0] (R88). -/
def aluSll (a b : Word) : ResF := plain (a <<< (b.toNat % 32))
def aluSrl (a b : Word) : ResF := plain (a >>> (b.toNat % 32))
def aluSra (a b : Word) : ResF := plain (a.sshiftRight (b.toNat % 32))
def aluRor (a b : Word) : ResF := plain (a.rotateRight (b.toNat % 32))
def aluSlt (a b : Word) : ResF := plain (if a.slt b then 1 else 0)
def aluSltu (a b : Word) : ResF := plain (if a.ult b then 1 else 0)
def aluSeq (a b : Word) : ResF := plain (if a = b then 1 else 0)
def aluMin (a b : Word) : ResF := plain (if a.slt b then a else b)
def aluMax (a b : Word) : ResF := plain (if a.slt b then b else a)
def aluMinu (a b : Word) : ResF := plain (if a.ult b then a else b)
def aluMaxu (a b : Word) : ResF := plain (if a.ult b then b else a)

/-- Count of leading zeros, 0 to 32. -/
def clz32 (w : Word) : Nat := if w.toNat = 0 then 32 else 31 - Nat.log2 w.toNat
/-- Count of ones among the low `n` bits. -/
def popcount : Nat → Nat → Nat
  | 0, _ => 0
  | n + 1, v => v % 2 + popcount n (v / 2)
def aluClz (a : Word) : ResF := plain (Word.ofNat (clz32 a))
def aluPopc (a : Word) : ResF := plain (Word.ofNat (popcount 32 a.toNat))
def aluSextb (a : Word) : ResF := plain (Word.ofInt (sext 8 a.toNat))
def aluSexth (a : Word) : ResF := plain (Word.ofInt (sext 16 a.toNat))

/-! ### R89 -/
def aluMul (a b : Word) : ResF := plain (a * b)
def aluMulhs (a b : Word) : ResF := plain (Word.ofInt ((a.toInt * b.toInt) / 4294967296))
def aluMulhu (a b : Word) : ResF := plain (Word.ofNat (a.toNat * b.toNat / 4294967296))
def aluMadd (d a b : Word) : ResF := plain (d + a * b)
/-- s32 division (R53): zero divisor gives 0 with dz, the most negative number by −1 gives itself with ov. -/
def aluDivs (a b : Word) : ResF :=
  if b = 0 then (0, FL_DZ) else if a = 0x80000000 ∧ b = 0xFFFFFFFF then (0x80000000, FL_OV)
  else plain (Word.ofInt (a.toInt.tdiv b.toInt))
def aluDivu (a b : Word) : ResF := if b = 0 then (0, FL_DZ) else plain (Word.ofNat (a.toNat / b.toNat))
def aluRems (a b : Word) : ResF := if b = 0 then (0, FL_DZ) else plain (Word.ofInt (a.toInt.tmod b.toInt))
def aluRemu (a b : Word) : ResF := if b = 0 then (0, FL_DZ) else plain (Word.ofNat (a.toNat % b.toNat))

/-! ### fx16 (R54) -/

/-- An integer divided by 2^n, rounded to nearest with ties to even. -/
def rneShift (x : Int) (n : Nat) : Int :=
  let q := x / (2 ^ n : Nat)
  let r := (x % (2 ^ n : Nat)) * 2
  if r < (2 ^ n : Nat) then q else if (2 ^ n : Nat) < r then q + 1 else if q % 2 = 0 then q else q + 1

def aluAddx (a b : Word) : ResF := satS32 (a.toInt + b.toInt)
def aluSubx (a b : Word) : ResF := satS32 (a.toInt - b.toInt)
def aluMulx (a b : Word) : ResF := satS32 (rneShift (a.toInt * b.toInt) 16)
def aluDivx (a b : Word) : ResF :=
  if b = 0 then (0, FL_DZ) else satS32 ((a.toInt * 65536).tdiv b.toInt)
/-- MULX followed by ADDX; sat when either step clamps (R89). -/
def aluMaddx (d a b : Word) : ResF :=
  let t := aluMulx a b
  let r := aluAddx d t.1
  (r.1, t.2 ||| r.2)

/-! ### lum20 (R55) -/

/-- The largest lum20 value, 1.0. -/
abbrev LUM1 : Nat := 0xFFFFF

/-- An operand before a lum20 operation: clamped to 0xF_FFFF, with sat, when bits [31:20] are not zero. -/
def lumClamp (a : Word) : Nat × Word := if a.toNat ≤ LUM1 then (a.toNat, 0) else (LUM1, FL_SAT)

/-- The product rule of R55. -/
def lumMulNat (a b : Nat) : Nat := let p := a * b; (p + p / 2 ^ 20 + 0x80000) / 2 ^ 20

def aluAddl (a b : Word) : ResF :=
  let x := lumClamp a; let y := lumClamp b
  if LUM1 < x.1 + y.1 then (Word.ofNat LUM1, FL_SAT) else (Word.ofNat (x.1 + y.1), x.2 ||| y.2)
def aluSubl (a b : Word) : ResF :=
  let x := lumClamp a; let y := lumClamp b
  if x.1 < y.1 then (0, FL_SAT) else (Word.ofNat (x.1 - y.1), x.2 ||| y.2)
def aluMull (a b : Word) : ResF :=
  let x := lumClamp a; let y := lumClamp b
  (Word.ofNat (lumMulNat x.1 y.1), x.2 ||| y.2)
/-- VMADDL = ADDL(d, MULL(a, b)) (R95). -/
def aluMaddl (d a b : Word) : ResF :=
  let t := aluMull a b
  let r := aluAddl d t.1
  (r.1, t.2 ||| r.2)

end Sys2Proof.Machine
end

