-- ==== Sys2Proof/Machine/Float.lean ====
section
/-!
DEFINITION. fp32 and fp16 (R56 to R58, R91): operands are read exactly (subnormals as zeros), an operation is computed
exactly over integers and rounded once to nearest, ties to even, as if the exponent range were unbounded; then it
overflows to infinity or is flushed to zero.
-/
namespace Sys2Proof.Machine
open Sys2Proof

/-- A floating-point operand: a NaN (signalling or not), an infinity with its sign (true is negative), or the exact
value ± m × 2^e. -/
inductive Fp where
  | nan (signalling : Bool)
  | inf (s : Bool)
  | fin (s : Bool) (m : Nat) (e : Int)
  deriving DecidableEq, Repr

/-- The canonical quiet NaN (R56). -/
abbrev QNAN : Word := 0x7FC00000

/-- Read an fp32 operand; a subnormal reads as zero of its sign (R56). -/
def fp32 (w : Word) : Fp :=
  let s := bitOf w 31
  let e := fldOf w 30 23
  let f := fldOf w 22 0
  if e = 255 then (if f = 0 then .inf s else .nan (decide (f < 0x400000)))
  else if e = 0 then .fin s 0 0
  else .fin s (f + 0x800000) ((e : Int) - 150)

/-- Read an fp16 value (R57). -/
def fp16 (h : Nat) : Fp :=
  let s := decide (0x8000 ≤ h % 65536)
  let e := h / 1024 % 32
  let f := h % 1024
  if e = 31 then (if f = 0 then .inf s else .nan (decide (f < 512)))
  else if e = 0 then .fin s 0 0
  else .fin s (f + 1024) ((e : Int) - 25)

/-- A mantissa cut to `p` bits, to nearest with ties to even: the new mantissa and exponent. -/
def roundTo (p m : Nat) (e : Int) : Nat × Int :=
  let n := Nat.log2 m + 1
  if n ≤ p then (m * 2 ^ (p - n), e - ((p - n : Nat) : Int))
  else
    let k := n - p
    let q := m / 2 ^ k
    let r := m % 2 ^ k * 2
    let q' := if r < 2 ^ k then q else if 2 ^ k < r then q + 1 else if q % 2 = 0 then q else q + 1
    if q' = 2 ^ p then (2 ^ (p - 1), e + ((k + 1 : Nat) : Int)) else (q', e + ((k : Nat) : Int))

/-- The fp32 word of ± m × 2^e, rounded once, with the flags of and uf (R56). -/
def pack32 (s : Bool) (m : Nat) (e : Int) : ResF :=
  let sg : Nat := if s then 0x80000000 else 0
  if m = 0 then (Word.ofNat sg, 0)
  else
    let r := roundTo 24 m e
    let x := r.2 + 150
    if 255 ≤ x then (Word.ofNat (sg + 0x7F800000), FL_OF)
    else if x ≤ 0 then (Word.ofNat sg, FL_UF)
    else (Word.ofNat (sg + x.toNat * 0x800000 + (r.1 - 0x800000)), 0)

/-- The fp16 halfword of ± m × 2^e, rounded once (R57). -/
def pack16 (s : Bool) (m : Nat) (e : Int) : Nat × Word :=
  let sg : Nat := if s then 0x8000 else 0
  if m = 0 then (sg, 0)
  else
    let r := roundTo 11 m e
    let x := r.2 + 25
    if 31 ≤ x then (sg + 0x7C00, FL_OF)
    else if x ≤ 0 then (sg, FL_UF)
    else (sg + x.toNat * 1024 + (r.1 - 1024), 0)

/-- The fp32 word of a value that needs no rounding or is a special. -/
def fpWord : Fp → ResF
  | .nan _ => (QNAN, 0)
  | .inf s => (if s then 0xFF800000 else 0x7F800000, 0)
  | .fin s m e => pack32 s m e

def Fp.sig : Fp → Bool
  | .nan x => x
  | _ => false
def Fp.isNan : Fp → Bool
  | .nan _ => true
  | _ => false
/-- The sign of a value; a NaN has none here. -/
def Fp.neg : Fp → Bool
  | .nan _ => false
  | .inf s => s
  | .fin s _ _ => s
def Fp.flip : Fp → Fp
  | .nan x => .nan x
  | .inf s => .inf (!s)
  | .fin s m e => .fin (!s) m e

/-- The signed mantissa. -/
def sgn (s : Bool) (m : Nat) : Int := if s then -(m : Int) else m

/-- Two exact values added, rounded once; an exact zero sum is +0 unless both are −0. -/
def addFin (s1 : Bool) (m1 : Nat) (e1 : Int) (s2 : Bool) (m2 : Nat) (e2 : Int) : ResF :=
  let e := min e1 e2
  let x := sgn s1 m1 * (2 ^ (e1 - e).toNat : Nat) + sgn s2 m2 * (2 ^ (e2 - e).toNat : Nat)
  if x = 0 then (if s1 && s2 && m1 = 0 && m2 = 0 then 0x80000000 else 0, 0)
  else pack32 (decide (x < 0)) x.natAbs e

def faddFp (a b : Fp) : ResF :=
  match a, b with
  | .fin s1 m1 e1, .fin s2 m2 e2 => addFin s1 m1 e1 s2 m2 e2
  | .inf s1, .inf s2 => if s1 = s2 then fpWord (.inf s1) else (QNAN, FL_NV)
  | .inf s, .fin _ _ _ => fpWord (.inf s)
  | .fin _ _ _, .inf s => fpWord (.inf s)
  | x, y => (QNAN, flagIf (x.sig || y.sig) FL_NV)

/-- d + a × b with one rounding (R91). -/
def fmaFp (d a b : Fp) : ResF :=
  match a, b with
  | .fin sa ma ea, .fin sb mb eb =>
    match d with
    | .fin sd md ed => addFin (sa != sb) (ma * mb) (ea + eb) sd md ed
    | .inf s => fpWord (.inf s)
    | .nan x => (QNAN, flagIf x FL_NV)
  | .nan x, y => (QNAN, flagIf (x || y.sig || d.sig) FL_NV)
  | x, .nan y => (QNAN, flagIf (y || x.sig || d.sig) FL_NV)
  | x, y =>
    let zeroInf := match x, y with
      | .fin _ m _, _ => decide (m = 0)
      | _, .fin _ m _ => decide (m = 0)
      | _, _ => false
    let s := x.neg != y.neg
    match d with
    | .nan sg => (QNAN, if sg then FL_NV else if zeroInf then flagIf Config.fmaInvalidQuiet FL_NV else 0)
    | .inf sd => if zeroInf || sd != s then (QNAN, FL_NV) else fpWord (.inf s)
    | .fin _ _ _ => if zeroInf then (QNAN, FL_NV) else fpWord (.inf s)

def fmulFp (a b : Fp) : ResF :=
  match a, b with
  | .fin sa ma ea, .fin sb mb eb => pack32 (sa != sb) (ma * mb) (ea + eb)
  | .nan x, y => (QNAN, flagIf (x || y.sig) FL_NV)
  | x, .nan y => (QNAN, flagIf (x.sig || y) FL_NV)
  | .inf s, .inf t => fpWord (.inf (s != t))
  | .inf s, .fin t m _ => if m = 0 then (QNAN, FL_NV) else fpWord (.inf (s != t))
  | .fin t m _, .inf s => if m = 0 then (QNAN, FL_NV) else fpWord (.inf (s != t))

/-- The quotient of two positive integers with 64 extra bits; its low bit is sticky. -/
def divSticky (a b : Nat) : Nat := let q := a * 2 ^ 64 / b; q * 2 + (if a * 2 ^ 64 % b = 0 then 0 else 1)

def fdivFp (a b : Fp) : ResF :=
  match a, b with
  | .nan x, y => (QNAN, flagIf (x || y.sig) FL_NV)
  | x, .nan y => (QNAN, flagIf (x.sig || y) FL_NV)
  | .inf _, .inf _ => (QNAN, FL_NV)
  | .inf s, .fin t _ _ => fpWord (.inf (s != t))
  | .fin s _ _, .inf t => fpWord (.fin (s != t) 0 0)
  | .fin s m e, .fin t n f =>
    if n = 0 then (if m = 0 then (QNAN, FL_NV) else ((fpWord (.inf (s != t))).1, FL_DZ))
    else pack32 (s != t) (if m = 0 then 0 else divSticky m n) (e - f - 65)

/-- Integer square root, from bit `n − 1` down. -/
def isqrt : Nat → Nat → Nat → Nat
  | 0, r, _ => r
  | n + 1, r, x => isqrt n (if (r + 2 ^ n) * (r + 2 ^ n) ≤ x then r + 2 ^ n else r) x

def fsqrtFp (a : Fp) : ResF :=
  match a with
  | .nan x => (QNAN, flagIf x FL_NV)
  | .inf s => if s then (QNAN, FL_NV) else fpWord (.inf false)
  | .fin s m e =>
    if m = 0 then fpWord (.fin s 0 0)
    else if s then (QNAN, FL_NV)
    else
      let k : Nat := if e % 2 = 0 then 64 else 65
      let x := m * 2 ^ k
      let r := isqrt 48 0 x
      pack32 false (r * 2 + (if r * r = x then 0 else 1)) ((e - (k : Int)) / 2 - 1)

/-- −1, 0 or 1 as the first of two non-NaN values is below, equal to or above the second; the zeros are equal. -/
def cmpFp (a b : Fp) : Int :=
  match a, b with
  | .inf s, .inf t => if s = t then 0 else if s then -1 else 1
  | .inf s, _ => if s then -1 else 1
  | _, .inf t => if t then 1 else -1
  | .fin s m e, .fin t n f =>
    let g := min e f
    let x := sgn s m * (2 ^ (e - g).toNat : Nat) - sgn t n * (2 ^ (f - g).toNat : Nat)
    if x < 0 then -1 else if x = 0 then 0 else 1
  | _, _ => 0

/-- An operand delivered as a result: subnormals are zeros of their sign. -/
def deliver (w : Word) : Word := (fpWord (fp32 w)).1

def fminmax (max : Bool) (a b : Word) : ResF :=
  let x := fp32 a; let y := fp32 b
  let f := flagIf (x.sig || y.sig) FL_NV
  if x.isNan && y.isNan then (QNAN, f)
  else if x.isNan then (deliver b, f)
  else if y.isNan then (deliver a, f)
  else
    let c := cmpFp x y
    let aLow := decide (c < 0) || (decide (c = 0) && x.neg)
    (if aLow != max then deliver a else deliver b, f)

/-! ### R91 -/
def fAdd (a b : Word) : ResF := faddFp (fp32 a) (fp32 b)
def fSub (a b : Word) : ResF := faddFp (fp32 a) (fp32 b).flip
def fMul (a b : Word) : ResF := fmulFp (fp32 a) (fp32 b)
def fMadd (d a b : Word) : ResF := fmaFp (fp32 d) (fp32 a) (fp32 b)
def fMin (a b : Word) : ResF := fminmax false a b
def fMax (a b : Word) : ResF := fminmax true a b
def fAbs (a : Word) : ResF := plain (a &&& 0x7FFFFFFF)
def fNeg (a : Word) : ResF := plain (a ^^^ 0x80000000)
def fDiv (a b : Word) : ResF := fdivFp (fp32 a) (fp32 b)
def fSqrt (a : Word) : ResF := fsqrtFp (fp32 a)
/-- FEQ: nv only for a signalling NaN. -/
def fEq (a b : Word) : ResF :=
  let x := fp32 a; let y := fp32 b
  if x.isNan || y.isNan then (0, flagIf (x.sig || y.sig) FL_NV) else plain (if cmpFp x y = 0 then 1 else 0)
/-- FLT and FLE: nv for any NaN. -/
def fLt (a b : Word) : ResF :=
  let x := fp32 a; let y := fp32 b
  if x.isNan || y.isNan then (0, FL_NV) else plain (if cmpFp x y < 0 then 1 else 0)
def fLe (a b : Word) : ResF :=
  let x := fp32 a; let y := fp32 b
  if x.isNan || y.isNan then (0, FL_NV) else plain (if cmpFp x y ≤ 0 then 1 else 0)

/-! ### Conversions (R57, R58, R91) -/

/-- ± m × 2^e rounded to an integer, to nearest with ties to even. -/
def rneInt (s : Bool) (m : Nat) (e : Int) : Int :=
  if 0 ≤ e then sgn s m * (2 ^ e.toNat : Nat) else rneShift (sgn s m) (-e).toNat

/-- ± m × 2^e rounded down to an integer. -/
def floorInt (s : Bool) (m : Nat) (e : Int) : Int :=
  if 0 ≤ e then sgn s m * (2 ^ e.toNat : Nat) else sgn s m / (2 ^ (-e).toNat : Nat)

def fcvtSW (a : Word) : ResF := ((pack32 (decide (a.toInt < 0)) a.toInt.natAbs 0).1, 0)
def fcvtWS (a : Word) : ResF :=
  match fp32 a with
  | .nan _ => (0, FL_NV)
  | .inf s => (if s then 0x80000000 else 0x7FFFFFFF, FL_NV)
  | .fin s m e => let r := satS32 (rneInt s m e); (r.1, flagIf (r.2 ≠ 0) FL_NV)
def fcvtSX (a : Word) : ResF := ((pack32 (decide (a.toInt < 0)) a.toInt.natAbs (-16)).1, 0)
def fcvtXS (a : Word) : ResF :=
  match fp32 a with
  | .nan _ => (0, FL_NV)
  | .inf s => (if s then 0x80000000 else 0x7FFFFFFF, FL_SAT)
  | .fin s m e => satS32 (rneInt s m (e + 16))
def fcvtSL (a : Word) : ResF :=
  let x := lumClamp a
  ((pack32 false (if x.1 = 0 then 0 else divSticky x.1 LUM1) (-65)).1, x.2)
def fcvtLS (a : Word) : ResF :=
  match fp32 a with
  | .nan _ => plain 0
  | .inf s => plain (if s then 0 else Word.ofNat LUM1)
  | .fin s m e =>
    if s || m = 0 then plain 0
    else if 0 ≤ cmpFp (.fin s m e) (.fin false 1 0) then plain (Word.ofNat LUM1)
    else plain (Word.ofInt (rneInt false (m * LUM1) e))

/-- fp16 to fp32 (R57). -/
def f16to32 (h : Nat) : ResF :=
  match fp16 h with
  | .nan x => (QNAN, flagIf x FL_NV)
  | x => ((fpWord x).1, 0)

/-- fp32 to fp16 (R57). An infinity converts to infinity and sets no flag (DESIGN CHOICE, assumption 70). -/
def f32to16 (w : Word) : Nat × Word :=
  match fp32 w with
  | .nan x => (0x7E00, flagIf x FL_NV)
  | .inf s => (if s then 0xFC00 else 0x7C00, 0)
  | .fin s m e => pack16 s m e

/-- floor, saturated to s32; NaN reads as 0 (R124). -/
def floorS32 (w : Word) : Int :=
  match fp32 w with
  | .nan _ => 0
  | .inf s => if s then -2147483648 else 2147483647
  | .fin s m e => max (-2147483648) (min 2147483647 (floorInt s m e))

/-- v − floor(v) (R125). The difference is rounded as R56 gives where fp32 cannot hold it (assumption 20); where that
rounding would reach 1.0, which R125 excludes, the result is a free value below 1.0. -/
def fFract (w : Word) : ResF :=
  match fp32 w with
  | .nan _ => (0, FL_NV)
  | .inf _ => (0, FL_NV)
  | .fin s m e =>
    if 0 ≤ e then plain 0
    else
      let d := sgn s m - floorInt s m e * (2 ^ (-e).toNat : Nat)
      let r := pack32 false d.toNat e
      plain (if r.1 = 0x3F800000 then deliver (Word.ofNat ((Config.fractFree w).toNat % 0x3F800000)) else r.1)

end Sys2Proof.Machine
end

