-- ==== Sys2Proof/Machine/RegMap.lean ====
section
/-!
DEFINITION. The register map of the Nerza: the device address of every register that the spec tables (R37, R38),
and one descriptor per register (or array of registers) with its access masks (R9) and its reset value. A register
array has up to two index dimensions. Names are the manual's, with the index letters dropped: `MAC_Pp_Rr_CFG` is
`R.MAC_P_R_CFG p r`. A reset value that the spec takes from fuses, straps or NVS is not in the descriptor: see
`regReset` in Ops.lean.
-/
namespace Sys2Proof.Machine

/-- One register or array of registers (R9): base address, the two dimensions (count, stride), the masks of bits with
access RW, WO, W1C, W1S and RL (every other bit is RO or reserved), and the reset value. -/
structure RegDesc where
  base : Nat
  n1 : Nat
  s1 : Nat
  n2 : Nat
  s2 : Nat
  rw : Nat
  wo : Nat
  w1c : Nat
  w1s : Nat
  rl : Nat
  rst : Nat
  deriving DecidableEq, Repr


/-! ### SYS (spec chapter R9, 00 and 17) -/

def R.SYS_ID : Nat := 0x3000000000
def R.SYS_STRAP : Nat := 0x3000000004
def R.SYS_RSTCAUSE : Nat := 0x3000000008
def R.SYS_RESET : Nat := 0x300000000c
def R.SYS_DRST : Nat := 0x3000000010

/-- The register descriptors of SYS. -/
def regsSYS : List RegDesc := [
  ⟨0x3000000000, 1, 4, 1, 4, 0x0, 0x0, 0x0, 0x0, 0x0, 0x71002000⟩,
  ⟨0x3000000004, 1, 4, 1, 4, 0x0, 0x0, 0x0, 0x0, 0x0, 0x0⟩,
  ⟨0x3000000008, 1, 4, 1, 4, 0x0, 0x0, 0xff, 0x0, 0x0, 0x0⟩,
  ⟨0x300000000c, 1, 4, 1, 4, 0x0, 0x1, 0x0, 0x0, 0x0, 0x0⟩,
  ⟨0x3000000010, 1, 4, 1, 4, 0x0, 0x0, 0x0, 0xfff1ff, 0x0, 0x80000000⟩]

/-! ### PWC (spec chapter 17) -/

def R.PWC_STATE : Nat := 0x3000010000
def R.PWC_REQ : Nat := 0x3000010004
def R.PWC_REQRES : Nat := 0x3000010008
def R.PWC_WDOG : Nat := 0x300001000c
def R.PWC_WDKICK : Nat := 0x3000010010
def R.PWC_WFCFG : Nat := 0x3000010014
def R.PWC_WPAT0 : Nat := 0x3000010018
def R.PWC_WPAT1 : Nat := 0x300001001c
def R.PWC_WTIME : Nat := 0x3000010020
def R.PWC_CGATE_LO : Nat := 0x3000010024
def R.PWC_CGATE_HI : Nat := 0x3000010028

/-- The register descriptors of PWC. -/
def regsPWC : List RegDesc := [
  ⟨0x3000010000, 1, 4, 1, 4, 0x0, 0x0, 0x100, 0x0, 0x0, 0x0⟩,
  ⟨0x3000010004, 1, 4, 1, 4, 0x0, 0x7, 0x0, 0x0, 0x0, 0x0⟩,
  ⟨0x3000010008, 1, 4, 1, 4, 0x0, 0x0, 0x0, 0x0, 0x0, 0x80000000⟩,
  ⟨0x300001000c, 1, 4, 1, 4, 0xffff, 0x0, 0x0, 0x80000000, 0x0, 0x7d0⟩,
  ⟨0x3000010010, 1, 4, 1, 4, 0x0, 0xffff, 0x0, 0x0, 0x0, 0x0⟩,
  ⟨0x3000010014, 1, 4, 1, 4, 0x8003ffff, 0x0, 0x0, 0x0, 0x0, 0x0⟩,
  ⟨0x3000010018, 1, 4, 1, 4, 0xffffffff, 0x0, 0x0, 0x0, 0x0, 0x0⟩,
  ⟨0x300001001c, 1, 4, 1, 4, 0xffffffff, 0x0, 0x0, 0x0, 0x0, 0x0⟩,
  ⟨0x3000010020, 1, 4, 1, 4, 0x0, 0x0, 0x0, 0x0, 0x0, 0x0⟩,
  ⟨0x3000010024, 1, 4, 1, 4, 0x0, 0x0, 0x0, 0x0, 0x0, 0x0⟩,
  ⟨0x3000010028, 1, 4, 1, 4, 0x0, 0x0, 0x0, 0x0, 0x0, 0x0⟩]

/-! ### BGT (spec chapter 05) -/

def R.BGT_CTRL : Nat := 0x3000020000
def R.BGT_LIMIT : Nat := 0x3000020004
def R.BGT_FIXED : Nat := 0x3000020008
def R.BGT_PKG : Nat := 0x300002000c
def R.BGT_POOL : Nat := 0x3000020010
def R.BGT_THERM : Nat := 0x3000020014
def R.BGT_ROT : Nat := 0x3000020018
def R.BGT_LEARN : Nat := 0x300002001c
def R.BGT_STATUS : Nat := 0x3000020020
def R.BGT_DIE (i : Nat) : Nat := 0x3000020040 + 0x4 * i
def R.BGT_COST (i j : Nat) : Nat := 0x3000020100 + 0x20 * i + 0x4 * j

/-- The register descriptors of BGT. -/
def regsBGT : List RegDesc := [
  ⟨0x3000020000, 1, 4, 1, 4, 0x3f, 0x0, 0x0, 0x0, 0x0, 0x37⟩,
  ⟨0x3000020004, 1, 4, 1, 4, 0xff, 0x0, 0x0, 0x0, 0x0, 0xb4⟩,
  ⟨0x3000020008, 1, 4, 1, 4, 0x0, 0x0, 0x0, 0x0, 0x0, 0x0⟩,
  ⟨0x300002000c, 1, 4, 1, 4, 0x0, 0x0, 0x0, 0x0, 0x0, 0x0⟩,
  ⟨0x3000020010, 1, 4, 1, 4, 0x0, 0x0, 0x0, 0x0, 0x0, 0x0⟩,
  ⟨0x3000020014, 1, 4, 1, 4, 0xffffff, 0x0, 0x0, 0x0, 0x0, 0x200000⟩,
  ⟨0x3000020018, 1, 4, 1, 4, 0xffffffff, 0x0, 0x0, 0x0, 0x0, 0x8060064⟩,
  ⟨0x300002001c, 1, 4, 1, 4, 0xf, 0x0, 0x0, 0x0, 0x0, 0x6⟩,
  ⟨0x3000020020, 1, 4, 1, 4, 0x0, 0x0, 0x0, 0x0, 0x0, 0x0⟩,
  ⟨0x3000020040, 4, 4, 1, 4, 0x770, 0x0, 0x0, 0x0, 0x0, 0x511⟩,
  ⟨0x3000020100, 4, 32, 8, 4, 0xffffff, 0x0, 0x0, 0x0, 0x0, 0x8c⟩]

/-! ### SCH (spec chapter 05) -/

def R.SCH_CTRL : Nat := 0x3000030000
def R.SCH_RUNLIMIT : Nat := 0x3000030004
def R.SCH_STARVE : Nat := 0x3000030008
def R.SCH_EVENT : Nat := 0x300003000c
def R.SCH_SNAP : Nat := 0x3000030010
def R.SCH_P_DESC (i j : Nat) : Nat := 0x3000030100 + 0x40 * i + 0x4 * j
def R.SCH_P_SUB (i : Nat) : Nat := 0x3000030120 + 0x40 * i
def R.SCH_P_HANDLE (i : Nat) : Nat := 0x3000030124 + 0x40 * i
def R.SCH_P_CANCEL (i : Nat) : Nat := 0x3000030128 + 0x40 * i
def R.SCH_P_CRES (i : Nat) : Nat := 0x300003012c + 0x40 * i

/-- The register descriptors of SCH. -/
def regsSCH : List RegDesc := [
  ⟨0x3000030000, 1, 4, 1, 4, 0x3, 0x0, 0x0, 0x0, 0x0, 0x2⟩,
  ⟨0x3000030004, 1, 4, 1, 4, 0xffff, 0x0, 0x0, 0x0, 0x0, 0xfa0⟩,
  ⟨0x3000030008, 1, 4, 1, 4, 0xffff, 0x0, 0x0, 0x0, 0x0, 0x1f4⟩,
  ⟨0x300003000c, 1, 4, 1, 4, 0x0, 0x7ff, 0x0, 0x0, 0x0, 0x0⟩,
  ⟨0x3000030010, 1, 4, 1, 4, 0x0, 0x1, 0x0, 0x0, 0x0, 0x0⟩,
  ⟨0x3000030100, 10, 64, 8, 4, 0xffffffff, 0x0, 0x0, 0x0, 0x0, 0x0⟩,
  ⟨0x3000030120, 10, 64, 1, 4, 0x0, 0x0, 0x0, 0x0, 0x0, 0x0⟩,
  ⟨0x3000030124, 10, 64, 1, 4, 0x0, 0x0, 0x0, 0x0, 0x0, 0x0⟩,
  ⟨0x3000030128, 10, 64, 1, 4, 0x0, 0xffffffff, 0x0, 0x0, 0x0, 0x0⟩,
  ⟨0x300003012c, 10, 64, 1, 4, 0x0, 0x0, 0x0, 0x0, 0x0, 0x0⟩]

/-! ### ICU (spec chapter 13) -/

def R.ICU_SWSET : Nat := 0x3000040000
def R.ICU_SWCLR : Nat := 0x3000040004
def R.ICU_HEOI : Nat := 0x3000040008
def R.ICU_ERR : Nat := 0x300004000c
def R.ICU_PEND (i : Nat) : Nat := 0x3000040100 + 0x4 * i
def R.ICU_ISVC (i : Nat) : Nat := 0x3000040180 + 0x4 * i
def R.ICU_T_THRESH (i : Nat) : Nat := 0x3000040400 + 0x40 * i
def R.ICU_T_EOI (i : Nat) : Nat := 0x3000040404 + 0x40 * i
def R.ICU_T_STACK (i : Nat) : Nat := 0x3000040408 + 0x40 * i
def R.ICU_T_STAT (i : Nat) : Nat := 0x300004040c + 0x40 * i
def R.ICU_T_CTRL (i : Nat) : Nat := 0x3000040410 + 0x40 * i
def R.ICU_SRC (i : Nat) : Nat := 0x3000041000 + 0x4 * i

/-- The register descriptors of ICU. -/
def regsICU : List RegDesc := [
  ⟨0x3000040000, 1, 4, 1, 4, 0x0, 0x3ff, 0x0, 0x0, 0x0, 0x0⟩,
  ⟨0x3000040004, 1, 4, 1, 4, 0x0, 0x3ff, 0x0, 0x0, 0x0, 0x0⟩,
  ⟨0x3000040008, 1, 4, 1, 4, 0x0, 0x3ff, 0x0, 0x0, 0x0, 0x0⟩,
  ⟨0x300004000c, 1, 4, 1, 4, 0x0, 0x0, 0x0, 0x0, 0x0, 0x0⟩,
  ⟨0x3000040100, 32, 4, 1, 4, 0x0, 0x0, 0x0, 0x0, 0x0, 0x0⟩,
  ⟨0x3000040180, 32, 4, 1, 4, 0x0, 0x0, 0x0, 0x0, 0x0, 0x0⟩,
  ⟨0x3000040400, 10, 64, 1, 4, 0x1f, 0x0, 0x0, 0x0, 0x0, 0x0⟩,
  ⟨0x3000040404, 10, 64, 1, 4, 0x0, 0x3ff, 0x0, 0x0, 0x0, 0x0⟩,
  ⟨0x3000040408, 10, 64, 1, 4, 0x0, 0x0, 0x0, 0x0, 0x0, 0x0⟩,
  ⟨0x300004040c, 10, 64, 1, 4, 0x0, 0x0, 0x0, 0x0, 0x0, 0x1f0000⟩,
  ⟨0x3000040410, 10, 64, 1, 4, 0x2, 0x1, 0x0, 0x0, 0x0, 0x2⟩,
  ⟨0x3000041000, 1024, 4, 1, 4, 0x9fff07ff, 0x0, 0x0, 0x0, 0x0, 0x0⟩]

/-! ### MBX (spec chapter 13) -/

def R.MBX_LOCK : Nat := 0x3000050000
def R.MBX_EPOCH (i : Nat) : Nat := 0x3000050100 + 0x4 * i
def R.MBX_PEND (i j : Nat) : Nat := 0x3000050800 + 0x40 * i + 0x4 * j
def R.MBX_C_CFG (i : Nat) : Nat := 0x3000051000 + 0x10 * i
def R.MBX_C_STAT (i : Nat) : Nat := 0x3000051004 + 0x10 * i
def R.MBX_C_DATA (i : Nat) : Nat := 0x3000051008 + 0x10 * i
def R.MBX_C_RINFO (i : Nat) : Nat := 0x300005100c + 0x10 * i

/-- The register descriptors of MBX. -/
def regsMBX : List RegDesc := [
  ⟨0x3000050000, 1, 4, 1, 4, 0x0, 0x0, 0x0, 0x1, 0x0, 0x0⟩,
  ⟨0x3000050100, 32, 4, 1, 4, 0x0, 0x0, 0x0, 0x0, 0x0, 0x0⟩,
  ⟨0x3000050800, 32, 64, 16, 4, 0x0, 0x0, 0x0, 0x0, 0x0, 0x0⟩,
  ⟨0x3000051000, 512, 16, 1, 4, 0x0, 0x0, 0x0, 0x0, 0xe0003f3f, 0x0⟩,
  ⟨0x3000051004, 512, 16, 1, 4, 0x0, 0x0, 0x0, 0x0, 0x0, 0x0⟩,
  ⟨0x3000051008, 512, 16, 1, 4, 0xffffffff, 0x0, 0x0, 0x0, 0x0, 0x0⟩,
  ⟨0x300005100c, 512, 16, 1, 4, 0x0, 0x0, 0x0, 0x0, 0x0, 0x0⟩]

/-! ### QUE (spec chapter 13) -/

def R.QUE_FC : Nat := 0x3000060000
def R.QUE_FCSTATE : Nat := 0x3000060004
def R.QUE_FAULT : Nat := 0x3000060008
def R.QUE_Q_CFG (i : Nat) : Nat := 0x3000061000 + 0x40 * i
def R.QUE_Q_BASE (i : Nat) : Nat := 0x3000061004 + 0x40 * i
def R.QUE_Q_ACL (i : Nat) : Nat := 0x3000061008 + 0x40 * i
def R.QUE_Q_WM (i : Nat) : Nat := 0x300006100c + 0x40 * i
def R.QUE_Q_FLOW (i : Nat) : Nat := 0x3000061010 + 0x40 * i
def R.QUE_Q_PUSH (i : Nat) : Nat := 0x3000061014 + 0x40 * i
def R.QUE_Q_POP (i : Nat) : Nat := 0x3000061018 + 0x40 * i
def R.QUE_Q_OP (i : Nat) : Nat := 0x300006101c + 0x40 * i
def R.QUE_Q_OPRES (i : Nat) : Nat := 0x3000061020 + 0x40 * i
def R.QUE_Q_LEVEL (i : Nat) : Nat := 0x3000061024 + 0x40 * i
def R.QUE_Q_STAT (i : Nat) : Nat := 0x3000061028 + 0x40 * i
def R.QUE_Q_CNT (i : Nat) : Nat := 0x300006102c + 0x40 * i

/-- The register descriptors of QUE. -/
def regsQUE : List RegDesc := [
  ⟨0x3000060000, 1, 4, 1, 4, 0xffff, 0x0, 0x0, 0x0, 0x0, 0x0⟩,
  ⟨0x3000060004, 1, 4, 1, 4, 0x0, 0x0, 0x0, 0x0, 0x0, 0x0⟩,
  ⟨0x3000060008, 1, 4, 1, 4, 0x0, 0x0, 0x0, 0x0, 0x0, 0x0⟩,
  ⟨0x3000061000, 256, 64, 1, 4, 0xffc0ffff, 0x0, 0x0, 0x0, 0x0, 0x0⟩,
  ⟨0x3000061004, 256, 64, 1, 4, 0x3fffc0, 0x0, 0x0, 0x0, 0x0, 0x0⟩,
  ⟨0x3000061008, 256, 64, 1, 4, 0x1f1f, 0x0, 0x0, 0x0, 0x0, 0x0⟩,
  ⟨0x300006100c, 256, 64, 1, 4, 0xffffffff, 0x0, 0x0, 0x0, 0x0, 0x0⟩,
  ⟨0x3000061010, 256, 64, 1, 4, 0x878f0000, 0x0, 0x0, 0x0, 0x0, 0x0⟩,
  ⟨0x3000061014, 256, 64, 1, 4, 0x0, 0xffffffff, 0x0, 0x0, 0x0, 0x0⟩,
  ⟨0x3000061018, 256, 64, 1, 4, 0x0, 0x0, 0x0, 0x0, 0x0, 0x0⟩,
  ⟨0x300006101c, 256, 64, 1, 4, 0x0, 0x3, 0x0, 0x0, 0x0, 0x0⟩,
  ⟨0x3000061020, 256, 64, 1, 4, 0x0, 0x0, 0x0, 0x0, 0x0, 0x0⟩,
  ⟨0x3000061024, 256, 64, 1, 4, 0x0, 0x0, 0x0, 0x0, 0x0, 0x0⟩,
  ⟨0x3000061028, 256, 64, 1, 4, 0x0, 0x0, 0x7, 0x0, 0x0, 0x0⟩,
  ⟨0x300006102c, 256, 64, 1, 4, 0x0, 0x0, 0x0, 0x0, 0x0, 0x0⟩]

/-! ### BSH (spec chapter 14) -/

def R.BSH_W_CFG (i : Nat) : Nat := 0x3000070100 + 0x40 * i
def R.BSH_W_BASE_LO (i : Nat) : Nat := 0x3000070104 + 0x40 * i
def R.BSH_W_BASE_HI (i : Nat) : Nat := 0x3000070108 + 0x40 * i
def R.BSH_W_ROW (i : Nat) : Nat := 0x300007010c + 0x40 * i
def R.BSH_W_STRIDE (i : Nat) : Nat := 0x3000070110 + 0x40 * i
def R.BSH_W_EXT (i : Nat) : Nat := 0x3000070114 + 0x40 * i
def R.BSH_W_CTRL (i : Nat) : Nat := 0x3000070118 + 0x40 * i
def R.BSH_W_STAT (i : Nat) : Nat := 0x300007011c + 0x40 * i
def R.BSH_W_COUNT (i : Nat) : Nat := 0x3000070120 + 0x40 * i
def R.BSH_W_PTR (i : Nat) : Nat := 0x3000070124 + 0x40 * i
def R.BSH_B_HADDR_LO (i : Nat) : Nat := 0x3000070400 + 0x40 * i
def R.BSH_B_HADDR_HI (i : Nat) : Nat := 0x3000070404 + 0x40 * i
def R.BSH_B_DADDR_LO (i : Nat) : Nat := 0x3000070408 + 0x40 * i
def R.BSH_B_DADDR_HI (i : Nat) : Nat := 0x300007040c + 0x40 * i
def R.BSH_B_ROW (i : Nat) : Nat := 0x3000070410 + 0x40 * i
def R.BSH_B_ROWS (i : Nat) : Nat := 0x3000070414 + 0x40 * i
def R.BSH_B_DSTRIDE (i : Nat) : Nat := 0x3000070418 + 0x40 * i
def R.BSH_B_HSTRIDE (i : Nat) : Nat := 0x300007041c + 0x40 * i
def R.BSH_B_GO (i : Nat) : Nat := 0x3000070420 + 0x40 * i
def R.BSH_B_RES (i : Nat) : Nat := 0x3000070424 + 0x40 * i
def R.BSH_B_COUNT (i : Nat) : Nat := 0x3000070428 + 0x40 * i

/-- The register descriptors of BSH. -/
def regsBSH : List RegDesc := [
  ⟨0x3000070100, 8, 64, 1, 4, 0x3, 0x0, 0x0, 0x0, 0x0, 0x0⟩,
  ⟨0x3000070104, 8, 64, 1, 4, 0xffffffff, 0x0, 0x0, 0x0, 0x0, 0x0⟩,
  ⟨0x3000070108, 8, 64, 1, 4, 0xff, 0x0, 0x0, 0x0, 0x0, 0x0⟩,
  ⟨0x300007010c, 8, 64, 1, 4, 0x1ffff, 0x0, 0x0, 0x0, 0x0, 0x4⟩,
  ⟨0x3000070110, 8, 64, 1, 4, 0xffffffff, 0x0, 0x0, 0x0, 0x0, 0x0⟩,
  ⟨0x3000070114, 8, 64, 1, 4, 0xffffffff, 0x0, 0x0, 0x0, 0x0, 0x0⟩,
  ⟨0x3000070118, 8, 64, 1, 4, 0x0, 0x3, 0x0, 0x0, 0x0, 0x0⟩,
  ⟨0x300007011c, 8, 64, 1, 4, 0x0, 0x0, 0x0, 0x0, 0x0, 0x0⟩,
  ⟨0x3000070120, 8, 64, 1, 4, 0x0, 0x0, 0x0, 0x0, 0x0, 0x0⟩,
  ⟨0x3000070124, 8, 64, 1, 4, 0x0, 0x0, 0x0, 0x0, 0x0, 0x0⟩,
  ⟨0x3000070400, 4, 64, 1, 4, 0xffffffff, 0x0, 0x0, 0x0, 0x0, 0x0⟩,
  ⟨0x3000070404, 4, 64, 1, 4, 0xffffffff, 0x0, 0x0, 0x0, 0x0, 0x0⟩,
  ⟨0x3000070408, 4, 64, 1, 4, 0xffffffff, 0x0, 0x0, 0x0, 0x0, 0x0⟩,
  ⟨0x300007040c, 4, 64, 1, 4, 0xff, 0x0, 0x0, 0x0, 0x0, 0x0⟩,
  ⟨0x3000070410, 4, 64, 1, 4, 0x1ffff, 0x0, 0x0, 0x0, 0x0, 0x0⟩,
  ⟨0x3000070414, 4, 64, 1, 4, 0x8000ffff, 0x0, 0x0, 0x0, 0x0, 0x0⟩,
  ⟨0x3000070418, 4, 64, 1, 4, 0xffffffff, 0x0, 0x0, 0x0, 0x0, 0x0⟩,
  ⟨0x300007041c, 4, 64, 1, 4, 0xffffffff, 0x0, 0x0, 0x0, 0x0, 0x0⟩,
  ⟨0x3000070420, 4, 64, 1, 4, 0x0, 0x1, 0x0, 0x0, 0x0, 0x0⟩,
  ⟨0x3000070424, 4, 64, 1, 4, 0x0, 0x0, 0x0, 0x0, 0x0, 0x0⟩,
  ⟨0x3000070428, 4, 64, 1, 4, 0x0, 0x0, 0x0, 0x0, 0x0, 0x0⟩]

/-! ### HST (spec chapter 14) -/

def R.HST_PCIID : Nat := 0x3000080000
def R.HST_APER : Nat := 0x3000080004
def R.HST_CFG : Nat := 0x3000080008
def R.HST_NET : Nat := 0x300008000c
def R.HST_EVQ : Nat := 0x3000080010
def R.HST_DOORBELL : Nat := 0x3000080014
def R.HST_RSP : Nat := 0x3000080018
def R.HST_STATE : Nat := 0x300008001c
def R.HST_CMDERR : Nat := 0x3000080020
def R.HST_CMDERR_SES : Nat := 0x3000080024
def R.HST_CNT : Nat := 0x3000080028
def R.HST_CMDBUF (i : Nat) : Nat := 0x3000081000 + 0x4 * i
def R.HST_RSPBUF (i : Nat) : Nat := 0x3000082000 + 0x4 * i

/-- The register descriptors of HST. -/
def regsHST : List RegDesc := [
  ⟨0x3000080000, 1, 4, 1, 4, 0x0, 0x0, 0x0, 0x0, 0x0, 0x71000000⟩,
  ⟨0x3000080004, 1, 4, 1, 4, 0x1f, 0x0, 0x0, 0x0, 0x0, 0x0⟩,
  ⟨0x3000080008, 1, 4, 1, 4, 0xffff0fff, 0x0, 0x0, 0x0, 0x0, 0x2580010⟩,
  ⟨0x300008000c, 1, 4, 1, 4, 0xffff01ff, 0x0, 0x0, 0x0, 0x0, 0x541b0000⟩,
  ⟨0x3000080010, 1, 4, 1, 4, 0x1ff, 0x0, 0x0, 0x0, 0x0, 0x0⟩,
  ⟨0x3000080014, 1, 4, 1, 4, 0x0, 0x1fff, 0x0, 0x0, 0x0, 0x0⟩,
  ⟨0x3000080018, 1, 4, 1, 4, 0x0, 0x0, 0x40000000, 0x0, 0x0, 0x0⟩,
  ⟨0x300008001c, 1, 4, 1, 4, 0x0, 0x0, 0x0, 0x0, 0x0, 0x0⟩,
  ⟨0x3000080020, 1, 4, 1, 4, 0x0, 0x0, 0x0, 0x0, 0x0, 0x0⟩,
  ⟨0x3000080024, 1, 4, 1, 4, 0x0, 0x0, 0x0, 0x0, 0x0, 0x0⟩,
  ⟨0x3000080028, 1, 4, 1, 4, 0x0, 0x0, 0x0, 0x0, 0x0, 0x0⟩,
  ⟨0x3000081000, 1024, 4, 1, 4, 0xffffffff, 0x0, 0x0, 0x0, 0x0, 0x0⟩,
  ⟨0x3000082000, 1024, 4, 1, 4, 0x0, 0x0, 0x0, 0x0, 0x0, 0x0⟩]

/-! ### KEY (spec chapter 15) -/

def R.KEY_STATUS : Nat := 0x3000090000
def R.KEY_LC : Nat := 0x3000090004
def R.KEY_TRNG : Nat := 0x3000090008
def R.KEY_TRNGST : Nat := 0x300009000c
def R.KEY_OPCFG : Nat := 0x3000090010
def R.KEY_ARG : Nat := 0x3000090014
def R.KEY_IN_LO : Nat := 0x3000090018
def R.KEY_IN_HI : Nat := 0x300009001c
def R.KEY_INLEN : Nat := 0x3000090020
def R.KEY_OUT_LO : Nat := 0x3000090024
def R.KEY_OUT_HI : Nat := 0x3000090028
def R.KEY_OUTCAP : Nat := 0x300009002c
def R.KEY_GO : Nat := 0x3000090030
def R.KEY_RES : Nat := 0x3000090034
def R.KEY_RESV : Nat := 0x3000090038
def R.KEY_SLOT (i : Nat) : Nat := 0x3000090100 + 0x4 * i

/-- The register descriptors of KEY. -/
def regsKEY : List RegDesc := [
  ⟨0x3000090000, 1, 4, 1, 4, 0x0, 0x0, 0x200, 0x0, 0x0, 0x0⟩,
  ⟨0x3000090004, 1, 4, 1, 4, 0x0, 0x0, 0x0, 0x0, 0x0, 0x0⟩,
  ⟨0x3000090008, 1, 4, 1, 4, 0x0, 0x0, 0x0, 0x0, 0x0, 0x0⟩,
  ⟨0x300009000c, 1, 4, 1, 4, 0x0, 0x0, 0x1, 0x0, 0x0, 0x0⟩,
  ⟨0x3000090010, 1, 4, 1, 4, 0xff3f0701, 0x0, 0x0, 0x0, 0x0, 0x101⟩,
  ⟨0x3000090014, 1, 4, 1, 4, 0xffffffff, 0x0, 0x0, 0x0, 0x0, 0x0⟩,
  ⟨0x3000090018, 1, 4, 1, 4, 0xffffffff, 0x0, 0x0, 0x0, 0x0, 0x0⟩,
  ⟨0x300009001c, 1, 4, 1, 4, 0xff, 0x0, 0x0, 0x0, 0x0, 0x0⟩,
  ⟨0x3000090020, 1, 4, 1, 4, 0xffff, 0x0, 0x0, 0x0, 0x0, 0x0⟩,
  ⟨0x3000090024, 1, 4, 1, 4, 0xffffffff, 0x0, 0x0, 0x0, 0x0, 0x0⟩,
  ⟨0x3000090028, 1, 4, 1, 4, 0xff, 0x0, 0x0, 0x0, 0x0, 0x0⟩,
  ⟨0x300009002c, 1, 4, 1, 4, 0xffff, 0x0, 0x0, 0x0, 0x0, 0x0⟩,
  ⟨0x3000090030, 1, 4, 1, 4, 0x0, 0x1, 0x0, 0x0, 0x0, 0x0⟩,
  ⟨0x3000090034, 1, 4, 1, 4, 0x0, 0x0, 0x0, 0x0, 0x0, 0x80000000⟩,
  ⟨0x3000090038, 1, 4, 1, 4, 0x0, 0x0, 0x0, 0x0, 0x0, 0x0⟩,
  ⟨0x3000090100, 64, 4, 1, 4, 0x0, 0x0, 0x0, 0x0, 0x0, 0x0⟩]

/-! ### CHK (spec chapter 16) -/

def R.CHK_CFG (i : Nat) : Nat := 0x30000a0000 + 0x80 * i
def R.CHK_POLY_LO (i : Nat) : Nat := 0x30000a0004 + 0x80 * i
def R.CHK_INIT_LO (i : Nat) : Nat := 0x30000a000c + 0x80 * i
def R.CHK_XOR_LO (i : Nat) : Nat := 0x30000a0014 + 0x80 * i
def R.CHK_CTRL (i : Nat) : Nat := 0x30000a001c + 0x80 * i
def R.CHK_DATA8 (i : Nat) : Nat := 0x30000a0020 + 0x80 * i
def R.CHK_DATA32 (i : Nat) : Nat := 0x30000a0024 + 0x80 * i
def R.CHK_SADDR_LO (i : Nat) : Nat := 0x30000a0028 + 0x80 * i
def R.CHK_SADDR_HI (i : Nat) : Nat := 0x30000a002c + 0x80 * i
def R.CHK_SLEN (i : Nat) : Nat := 0x30000a0030 + 0x80 * i
def R.CHK_STAT (i : Nat) : Nat := 0x30000a0034 + 0x80 * i
def R.CHK_SCOUNT (i : Nat) : Nat := 0x30000a003c + 0x80 * i
def R.CHK_RESULT_LO (i : Nat) : Nat := 0x30000a0040 + 0x80 * i
def R.CHK_STATE_LO (i : Nat) : Nat := 0x30000a0048 + 0x80 * i
def R.CHK_AV_STATE (i : Nat) : Nat := 0x30000a1000 + 0x10 * i
def R.CHK_AV_IN (i : Nat) : Nat := 0x30000a1004 + 0x10 * i
def R.CHK_AV_RES (i : Nat) : Nat := 0x30000a1008 + 0x10 * i
def R.CHK_AV_CNT (i : Nat) : Nat := 0x30000a100c + 0x10 * i
def R.CHK_POLY_HI (i : Nat) : Nat := 0x30000a0008 + 0x80 * i
def R.CHK_INIT_HI (i : Nat) : Nat := 0x30000a0010 + 0x80 * i
def R.CHK_XOR_HI (i : Nat) : Nat := 0x30000a0018 + 0x80 * i
def R.CHK_RESULT_HI (i : Nat) : Nat := 0x30000a0044 + 0x80 * i
def R.CHK_STATE_HI (i : Nat) : Nat := 0x30000a004c + 0x80 * i

/-- The register descriptors of CHK. -/
def regsCHK : List RegDesc := [
  ⟨0x30000a0000, 16, 128, 1, 4, 0xf037f, 0x0, 0x0, 0x0, 0x0, 0x20⟩,
  ⟨0x30000a0004, 16, 128, 1, 4, 0xffffffff, 0x0, 0x0, 0x0, 0x0, 0x0⟩,
  ⟨0x30000a000c, 16, 128, 1, 4, 0xffffffff, 0x0, 0x0, 0x0, 0x0, 0x0⟩,
  ⟨0x30000a0014, 16, 128, 1, 4, 0xffffffff, 0x0, 0x0, 0x0, 0x0, 0x0⟩,
  ⟨0x30000a001c, 16, 128, 1, 4, 0x0, 0x7, 0x0, 0x0, 0x0, 0x0⟩,
  ⟨0x30000a0020, 16, 128, 1, 4, 0x0, 0xff, 0x0, 0x0, 0x0, 0x0⟩,
  ⟨0x30000a0024, 16, 128, 1, 4, 0x0, 0xffffffff, 0x0, 0x0, 0x0, 0x0⟩,
  ⟨0x30000a0028, 16, 128, 1, 4, 0xffffffff, 0x0, 0x0, 0x0, 0x0, 0x0⟩,
  ⟨0x30000a002c, 16, 128, 1, 4, 0xff, 0x0, 0x0, 0x0, 0x0, 0x0⟩,
  ⟨0x30000a0030, 16, 128, 1, 4, 0xffffffff, 0x0, 0x0, 0x0, 0x0, 0x0⟩,
  ⟨0x30000a0034, 16, 128, 1, 4, 0x0, 0x0, 0x20000000, 0x0, 0x0, 0x0⟩,
  ⟨0x30000a003c, 16, 128, 1, 4, 0x0, 0x0, 0x0, 0x0, 0x0, 0x0⟩,
  ⟨0x30000a0040, 16, 128, 1, 4, 0x0, 0x0, 0x0, 0x0, 0x0, 0x0⟩,
  ⟨0x30000a0048, 16, 128, 1, 4, 0x0, 0x0, 0x0, 0x0, 0x0, 0x0⟩,
  ⟨0x30000a1000, 32, 16, 1, 4, 0xffffffff, 0x0, 0x0, 0x0, 0x0, 0x30000⟩,
  ⟨0x30000a1004, 32, 16, 1, 4, 0x0, 0xffff, 0x0, 0x0, 0x0, 0x0⟩,
  ⟨0x30000a1008, 32, 16, 1, 4, 0x0, 0x0, 0x0, 0x0, 0x0, 0x0⟩,
  ⟨0x30000a100c, 32, 16, 1, 4, 0x0, 0x0, 0x0, 0x0, 0x0, 0x0⟩,
  ⟨0x30000a0008, 16, 128, 1, 4, 0xffffffff, 0x0, 0x0, 0x0, 0x0, 0x0⟩,
  ⟨0x30000a0010, 16, 128, 1, 4, 0xffffffff, 0x0, 0x0, 0x0, 0x0, 0x0⟩,
  ⟨0x30000a0018, 16, 128, 1, 4, 0xffffffff, 0x0, 0x0, 0x0, 0x0, 0x0⟩,
  ⟨0x30000a0044, 16, 128, 1, 4, 0x0, 0x0, 0x0, 0x0, 0x0, 0x0⟩,
  ⟨0x30000a004c, 16, 128, 1, 4, 0x0, 0x0, 0x0, 0x0, 0x0, 0x0⟩]

/-! ### TSU (spec chapter 06) -/

def R.TSU_NS : Nat := 0x30000b0000
def R.TSU_INC_FR : Nat := 0x30000b0004
def R.TSU_INC_NS : Nat := 0x30000b0008
def R.TSU_STEP : Nat := 0x30000b000c
def R.TSU_COMMIT : Nat := 0x30000b0010
def R.TSU_CAP : Nat := 0x30000b0014
def R.TSU_CAP_NS : Nat := 0x30000b0018
def R.TSU_CAP_FRAC : Nat := 0x30000b001c
def R.TSU_STATUS : Nat := 0x30000b0020
def R.TSU_SYNC : Nat := 0x30000b0024

/-- The register descriptors of TSU. -/
def regsTSU : List RegDesc := [
  ⟨0x30000b0000, 1, 4, 1, 4, 0x0, 0x0, 0x0, 0x0, 0x0, 0x0⟩,
  ⟨0x30000b0004, 1, 4, 1, 4, 0xffffffff, 0x0, 0x0, 0x0, 0x0, 0x80000000⟩,
  ⟨0x30000b0008, 1, 4, 1, 4, 0xff, 0x0, 0x0, 0x0, 0x0, 0x2⟩,
  ⟨0x30000b000c, 1, 4, 1, 4, 0x0, 0xffffffff, 0x0, 0x0, 0x0, 0x0⟩,
  ⟨0x30000b0010, 1, 4, 1, 4, 0x0, 0x1, 0x0, 0x0, 0x0, 0x0⟩,
  ⟨0x30000b0014, 1, 4, 1, 4, 0x0, 0x1, 0x0, 0x0, 0x0, 0x0⟩,
  ⟨0x30000b0018, 1, 4, 1, 4, 0x0, 0x0, 0x0, 0x0, 0x0, 0x0⟩,
  ⟨0x30000b001c, 1, 4, 1, 4, 0x0, 0x0, 0x0, 0x0, 0x0, 0x0⟩,
  ⟨0x30000b0020, 1, 4, 1, 4, 0x0, 0x0, 0x1, 0x0, 0x0, 0x0⟩,
  ⟨0x30000b0024, 1, 4, 1, 4, 0x3, 0x0, 0x0, 0x0, 0x0, 0x0⟩]

/-! ### FLK (spec chapter 06) -/

def R.FLK_CTRL : Nat := 0x30000c0000
def R.FLK_RATE_N : Nat := 0x30000c0004
def R.FLK_RATE_D : Nat := 0x30000c0008
def R.FLK_RCHG : Nat := 0x30000c000c
def R.FLK_ANCH_NS : Nat := 0x30000c0010
def R.FLK_ANCH_FRAME : Nat := 0x30000c0014
def R.FLK_TRIM : Nat := 0x30000c0018
def R.FLK_SHORTEN : Nat := 0x30000c001c
def R.FLK_LAG : Nat := 0x30000c0020
def R.FLK_COMMIT : Nat := 0x30000c0024
def R.FLK_SEAL : Nat := 0x30000c0028
def R.FLK_FRAME : Nat := 0x30000c002c
def R.FLK_COMMITTED : Nat := 0x30000c0030
def R.FLK_PHASE : Nat := 0x30000c0034
def R.FLK_PERIOD : Nat := 0x30000c0038
def R.FLK_PMIN : Nat := 0x30000c003c
def R.FLK_PMIN_CHAIN : Nat := 0x30000c0040
def R.FLK_STATUS : Nat := 0x30000c0044
def R.FLK_LATECNT : Nat := 0x30000c0048
def R.FLK_SHORTCNT : Nat := 0x30000c004c
def R.FLK_FSYNC : Nat := 0x30000c0050
def R.FLK_WCLK : Nat := 0x30000c0054
def R.FLK_LTCCFG : Nat := 0x30000c0058
def R.FLK_LTC : Nat := 0x30000c005c
def R.FLK_LTC_USER : Nat := 0x30000c0060

/-- The register descriptors of FLK. -/
def regsFLK : List RegDesc := [
  ⟨0x30000c0000, 1, 4, 1, 4, 0x77, 0x0, 0x0, 0x0, 0x0, 0x2⟩,
  ⟨0x30000c0004, 1, 4, 1, 4, 0xffffff, 0x0, 0x0, 0x0, 0x0, 0xc350⟩,
  ⟨0x30000c0008, 1, 4, 1, 4, 0xff, 0x0, 0x0, 0x0, 0x0, 0x3⟩,
  ⟨0x30000c000c, 1, 4, 1, 4, 0xffffffff, 0x0, 0x0, 0x0, 0x0, 0x0⟩,
  ⟨0x30000c0010, 1, 4, 1, 4, 0xffffffff, 0x0, 0x0, 0x0, 0x0, 0x0⟩,
  ⟨0x30000c0014, 1, 4, 1, 4, 0xffffffff, 0x0, 0x0, 0x0, 0x0, 0x0⟩,
  ⟨0x30000c0018, 1, 4, 1, 4, 0xffffffff, 0x0, 0x0, 0x0, 0x0, 0x0⟩,
  ⟨0x30000c001c, 1, 4, 1, 4, 0xffff01ff, 0x0, 0x0, 0x0, 0x0, 0x140040⟩,
  ⟨0x30000c0020, 1, 4, 1, 4, 0xffff000f, 0x0, 0x0, 0x0, 0x0, 0x320003⟩,
  ⟨0x30000c0024, 1, 4, 1, 4, 0x0, 0x1, 0x0, 0x0, 0x0, 0x0⟩,
  ⟨0x30000c0028, 1, 4, 1, 4, 0x0, 0xffffffff, 0x0, 0x0, 0x0, 0x0⟩,
  ⟨0x30000c002c, 1, 4, 1, 4, 0x0, 0x0, 0x0, 0x0, 0x0, 0x0⟩,
  ⟨0x30000c0030, 1, 4, 1, 4, 0x0, 0x0, 0x0, 0x0, 0x0, 0xffffffff⟩,
  ⟨0x30000c0034, 1, 4, 1, 4, 0x0, 0x0, 0x0, 0x0, 0x0, 0x0⟩,
  ⟨0x30000c0038, 1, 4, 1, 4, 0x0, 0x0, 0x0, 0x0, 0x0, 0x0⟩,
  ⟨0x30000c003c, 1, 4, 1, 4, 0x0, 0x0, 0x0, 0x0, 0x0, 0x0⟩,
  ⟨0x30000c0040, 1, 4, 1, 4, 0x0, 0x0, 0x0, 0x0, 0x0, 0x0⟩,
  ⟨0x30000c0044, 1, 4, 1, 4, 0x0, 0x0, 0x0, 0x0, 0x0, 0x1⟩,
  ⟨0x30000c0048, 1, 4, 1, 4, 0x0, 0x0, 0x0, 0x0, 0x0, 0x0⟩,
  ⟨0x30000c004c, 1, 4, 1, 4, 0x0, 0x0, 0x0, 0x0, 0x0, 0x0⟩,
  ⟨0x30000c0050, 1, 4, 1, 4, 0x1ffffff, 0x0, 0x0, 0x0, 0x0, 0x10190⟩,
  ⟨0x30000c0054, 1, 4, 1, 4, 0xffff, 0x0, 0x0, 0x0, 0x0, 0x320⟩,
  ⟨0x30000c0058, 1, 4, 1, 4, 0xf, 0x0, 0x0, 0x0, 0x0, 0x1⟩,
  ⟨0x30000c005c, 1, 4, 1, 4, 0x0, 0x0, 0x0, 0x0, 0x0, 0x0⟩,
  ⟨0x30000c0060, 1, 4, 1, 4, 0x0, 0x0, 0x0, 0x0, 0x0, 0x0⟩]

/-! ### SCN (spec chapter 08) -/

def R.SCN_CTRL (i : Nat) : Nat := 0x30000d0000 + 0x2000 * i
def R.SCN_COMMIT (i : Nat) : Nat := 0x30000d0004 + 0x2000 * i
def R.SCN_LEAD (i : Nat) : Nat := 0x30000d0008 + 0x2000 * i
def R.SCN_WM (i : Nat) : Nat := 0x30000d000c + 0x2000 * i
def R.SCN_FREC_LO (i : Nat) : Nat := 0x30000d0010 + 0x2000 * i
def R.SCN_FREC_HI (i : Nat) : Nat := 0x30000d0014 + 0x2000 * i
def R.SCN_RANCH_NS (i : Nat) : Nat := 0x30000d0018 + 0x2000 * i
def R.SCN_RANCH_IDX (i : Nat) : Nat := 0x30000d001c + 0x2000 * i
def R.SCN_EARLIEST (i : Nat) : Nat := 0x30000d0020 + 0x2000 * i
def R.SCN_RETQ (i : Nat) : Nat := 0x30000d0024 + 0x2000 * i
def R.SCN_CMDQ (i : Nat) : Nat := 0x30000d0028 + 0x2000 * i
def R.SCN_SEG (i j : Nat) : Nat := 0x30000d0200 + 0x2000 * i + 0x4 * j
def R.SCN_L_CFG (i j : Nat) : Nat := 0x30000d0100 + 0x2000 * i + 0x40 * j
def R.SCN_L_MAP_LO (i j : Nat) : Nat := 0x30000d0104 + 0x2000 * i + 0x40 * j
def R.SCN_L_MAP_HI (i j : Nat) : Nat := 0x30000d0108 + 0x2000 * i + 0x40 * j
def R.SCN_L_CURVE_LO (i j : Nat) : Nat := 0x30000d010c + 0x2000 * i + 0x40 * j
def R.SCN_L_CURVE_HI (i j : Nat) : Nat := 0x30000d0110 + 0x2000 * i + 0x40 * j
def R.SCN_L_BLANK (i j : Nat) : Nat := 0x30000d0114 + 0x2000 * i + 0x40 * j
def R.SCN_L_STAT (i j : Nat) : Nat := 0x30000d0118 + 0x2000 * i + 0x40 * j
def R.SCN_L_FRAME (i j : Nat) : Nat := 0x30000d011c + 0x2000 * i + 0x40 * j
def R.SCN_L_SCAN (i j : Nat) : Nat := 0x30000d0120 + 0x2000 * i + 0x40 * j
def R.SCN_L_CRC (i j : Nat) : Nat := 0x30000d0124 + 0x2000 * i + 0x40 * j
def R.SCN_L_CNT0 (i j : Nat) : Nat := 0x30000d0128 + 0x2000 * i + 0x40 * j
def R.SCN_L_CNT1 (i j : Nat) : Nat := 0x30000d012c + 0x2000 * i + 0x40 * j
def R.SCN_L_RCNT (i j : Nat) : Nat := 0x30000d0130 + 0x2000 * i + 0x40 * j

/-- The register descriptors of SCN. -/
def regsSCN : List RegDesc := [
  ⟨0x30000d0000, 8, 8192, 1, 4, 0xf, 0x0, 0x0, 0x0, 0x0, 0x0⟩,
  ⟨0x30000d0004, 8, 8192, 1, 4, 0x0, 0x1, 0x0, 0x0, 0x0, 0x0⟩,
  ⟨0x30000d0008, 8, 8192, 1, 4, 0x3ff, 0x0, 0x0, 0x0, 0x0, 0x10⟩,
  ⟨0x30000d000c, 8, 8192, 1, 4, 0xffff, 0x0, 0x0, 0x0, 0x0, 0x8040⟩,
  ⟨0x30000d0010, 8, 8192, 1, 4, 0xfffffe00, 0x0, 0x0, 0x0, 0x0, 0x0⟩,
  ⟨0x30000d0014, 8, 8192, 1, 4, 0xff, 0x0, 0x0, 0x0, 0x0, 0x0⟩,
  ⟨0x30000d0018, 8, 8192, 1, 4, 0xffffffff, 0x0, 0x0, 0x0, 0x0, 0x0⟩,
  ⟨0x30000d001c, 8, 8192, 1, 4, 0xffffffff, 0x0, 0x0, 0x0, 0x0, 0x0⟩,
  ⟨0x30000d0020, 8, 8192, 1, 4, 0x0, 0x0, 0x0, 0x0, 0x0, 0x0⟩,
  ⟨0x30000d0024, 8, 8192, 1, 4, 0x1ff, 0x0, 0x0, 0x0, 0x0, 0x0⟩,
  ⟨0x30000d0028, 8, 8192, 1, 4, 0x1ff, 0x0, 0x0, 0x0, 0x0, 0x0⟩,
  ⟨0x30000d0200, 8, 8192, 40, 4, 0xf1fff, 0x0, 0x0, 0x0, 0x0, 0x0⟩,
  ⟨0x30000d0100, 8, 8192, 4, 64, 0x17f01, 0x0, 0x0, 0x0, 0x0, 0x100⟩,
  ⟨0x30000d0104, 8, 8192, 4, 64, 0xffffffe0, 0x0, 0x0, 0x0, 0x0, 0x0⟩,
  ⟨0x30000d0108, 8, 8192, 4, 64, 0xff, 0x0, 0x0, 0x0, 0x0, 0x0⟩,
  ⟨0x30000d010c, 8, 8192, 4, 64, 0xfffffffc, 0x0, 0x0, 0x0, 0x0, 0x0⟩,
  ⟨0x30000d0110, 8, 8192, 4, 64, 0xff, 0x0, 0x0, 0x0, 0x0, 0x0⟩,
  ⟨0x30000d0114, 8, 8192, 4, 64, 0xffffffff, 0x0, 0x0, 0x0, 0x0, 0x4e200032⟩,
  ⟨0x30000d0118, 8, 8192, 4, 64, 0x0, 0x0, 0x10b00, 0x0, 0x0, 0x0⟩,
  ⟨0x30000d011c, 8, 8192, 4, 64, 0x0, 0x0, 0x0, 0x0, 0x0, 0xffffffff⟩,
  ⟨0x30000d0120, 8, 8192, 4, 64, 0x0, 0x0, 0x0, 0x0, 0x0, 0x0⟩,
  ⟨0x30000d0124, 8, 8192, 4, 64, 0x0, 0x0, 0x0, 0x0, 0x0, 0x0⟩,
  ⟨0x30000d0128, 8, 8192, 4, 64, 0x0, 0x0, 0x0, 0x0, 0x0, 0x0⟩,
  ⟨0x30000d012c, 8, 8192, 4, 64, 0x0, 0x0, 0x0, 0x0, 0x0, 0x0⟩,
  ⟨0x30000d0130, 8, 8192, 4, 64, 0x0, 0x0, 0x0, 0x0, 0x0, 0x0⟩]

/-! ### LGV (spec chapter 07) -/

def R.LGV_CTRL : Nat := 0x30000e0000
def R.LGV_SUMBASE_LO : Nat := 0x30000e0004
def R.LGV_SUMBASE_HI : Nat := 0x30000e0008
def R.LGV_APPLY : Nat := 0x30000e000c
def R.LGV_COMMIT : Nat := 0x30000e0010
def R.LGV_FRAME : Nat := 0x30000e0014
def R.LGV_STATUS : Nat := 0x30000e0018
def R.LGV_HARDCNT : Nat := 0x30000e001c
def R.LGV_FCAP (i : Nat) : Nat := 0x30000e0040 + 0x10 * i
def R.LGV_FCFG (i : Nat) : Nat := 0x30000e0044 + 0x10 * i
def R.LGV_FRATE (i : Nat) : Nat := 0x30000e0048 + 0x10 * i
def R.LGV_FSCALE (i : Nat) : Nat := 0x30000e004c + 0x10 * i
def R.LGV_GCAP (i : Nat) : Nat := 0x30000e1000 + 0x40 * i
def R.LGV_GIDLE (i : Nat) : Nat := 0x30000e1004 + 0x40 * i
def R.LGV_GCOEF (i j : Nat) : Nat := 0x30000e1008 + 0x40 * i + 0x4 * j
def R.LGV_GCFG (i : Nat) : Nat := 0x30000e1018 + 0x40 * i
def R.LGV_GRATE (i : Nat) : Nat := 0x30000e101c + 0x40 * i
def R.LGV_GPRED (i : Nat) : Nat := 0x30000e1020 + 0x40 * i
def R.LGV_GSCALE (i : Nat) : Nat := 0x30000e1024 + 0x40 * i
def R.LGV_GTF (i : Nat) : Nat := 0x30000e1028 + 0x40 * i

/-- The register descriptors of LGV. -/
def regsLGV : List RegDesc := [
  ⟨0x30000e0000, 1, 4, 1, 4, 0x3, 0x0, 0x0, 0x0, 0x0, 0x0⟩,
  ⟨0x30000e0004, 1, 4, 1, 4, 0xfffff000, 0x0, 0x0, 0x0, 0x0, 0x0⟩,
  ⟨0x30000e0008, 1, 4, 1, 4, 0xff, 0x0, 0x0, 0x0, 0x0, 0x0⟩,
  ⟨0x30000e000c, 1, 4, 1, 4, 0xffffffff, 0x0, 0x0, 0x0, 0x0, 0x0⟩,
  ⟨0x30000e0010, 1, 4, 1, 4, 0x0, 0x1, 0x0, 0x0, 0x0, 0x0⟩,
  ⟨0x30000e0014, 1, 4, 1, 4, 0x0, 0x0, 0x0, 0x0, 0x0, 0xffffffff⟩,
  ⟨0x30000e0018, 1, 4, 1, 4, 0x0, 0x0, 0x3, 0x0, 0x0, 0x0⟩,
  ⟨0x30000e001c, 1, 4, 1, 4, 0x0, 0x0, 0x0, 0x0, 0x0, 0x0⟩,
  ⟨0x30000e0040, 4, 16, 1, 4, 0xffffffff, 0x0, 0x0, 0x0, 0x0, 0x0⟩,
  ⟨0x30000e0044, 4, 16, 1, 4, 0xff, 0x0, 0x0, 0x0, 0x0, 0xe0⟩,
  ⟨0x30000e0048, 4, 16, 1, 4, 0xffffffff, 0x0, 0x0, 0x0, 0x0, 0x4000100⟩,
  ⟨0x30000e004c, 4, 16, 1, 4, 0x0, 0x0, 0x0, 0x0, 0x0, 0x10000⟩,
  ⟨0x30000e1000, 64, 64, 1, 4, 0xffffffff, 0x0, 0x0, 0x0, 0x0, 0x0⟩,
  ⟨0x30000e1004, 64, 64, 1, 4, 0xffffffff, 0x0, 0x0, 0x0, 0x0, 0x0⟩,
  ⟨0x30000e1008, 64, 64, 4, 4, 0xffffffff, 0x0, 0x0, 0x0, 0x0, 0x0⟩,
  ⟨0x30000e1018, 64, 64, 1, 4, 0x3ff, 0x0, 0x0, 0x0, 0x0, 0xe0⟩,
  ⟨0x30000e101c, 64, 64, 1, 4, 0xffffffff, 0x0, 0x0, 0x0, 0x0, 0x4000100⟩,
  ⟨0x30000e1020, 64, 64, 1, 4, 0x0, 0x0, 0x0, 0x0, 0x0, 0x0⟩,
  ⟨0x30000e1024, 64, 64, 1, 4, 0x0, 0x0, 0x0, 0x0, 0x0, 0x10000⟩,
  ⟨0x30000e1028, 64, 64, 1, 4, 0x0, 0x0, 0x0, 0x0, 0x0, 0x10000⟩]

/-! ### SPD (spec chapter 09) -/

def R.SPD_CTRL : Nat := 0x30000f0000
def R.SPD_COMMIT : Nat := 0x30000f0004
def R.SPD_PERIOD : Nat := 0x30000f0008
def R.SPD_ANCH_NS : Nat := 0x30000f000c
def R.SPD_ANCH_IDX : Nat := 0x30000f0010
def R.SPD_FTAB_LO : Nat := 0x30000f0014
def R.SPD_FTAB_HI : Nat := 0x30000f0018
def R.SPD_PIDX : Nat := 0x30000f001c
def R.SPD_STAT : Nat := 0x30000f0020
def R.SPD_TRIG (i : Nat) : Nat := 0x30000f0040 + 0x4 * i
def R.SPD_TRIGL (i : Nat) : Nat := 0x30000f0060 + 0x4 * i
def R.SPD_GRP_CFG (i : Nat) : Nat := 0x30000f0100 + 0x10 * i
def R.SPD_GRP_STEP (i : Nat) : Nat := 0x30000f0104 + 0x10 * i
def R.SPD_GRP_FACT (i : Nat) : Nat := 0x30000f0108 + 0x10 * i
def R.SPD_CH_CFG (i : Nat) : Nat := 0x30000f0400 + 0x20 * i
def R.SPD_CH_LEVEL (i : Nat) : Nat := 0x30000f0404 + 0x20 * i
def R.SPD_CH_FTO (i : Nat) : Nat := 0x30000f0408 + 0x20 * i
def R.SPD_CH_FLEN (i : Nat) : Nat := 0x30000f040c + 0x20 * i
def R.SPD_CH_FAT (i : Nat) : Nat := 0x30000f0410 + 0x20 * i
def R.SPD_CH_FGO (i : Nat) : Nat := 0x30000f0414 + 0x20 * i
def R.SPD_CH_STAT (i : Nat) : Nat := 0x30000f0418 + 0x20 * i
def R.SPD_SNAP (i j : Nat) : Nat := 0x30000f2000 + 0x200 * i + 0x4 * j

/-- The register descriptors of SPD. -/
def regsSPD : List RegDesc := [
  ⟨0x30000f0000, 1, 4, 1, 4, 0x1, 0x0, 0x0, 0x0, 0x0, 0x0⟩,
  ⟨0x30000f0004, 1, 4, 1, 4, 0x0, 0x1, 0x0, 0x0, 0x0, 0x0⟩,
  ⟨0x30000f0008, 1, 4, 1, 4, 0x73fffff, 0x0, 0x0, 0x0, 0x0, 0x4019640⟩,
  ⟨0x30000f000c, 1, 4, 1, 4, 0xffffffff, 0x0, 0x0, 0x0, 0x0, 0x0⟩,
  ⟨0x30000f0010, 1, 4, 1, 4, 0xffffffff, 0x0, 0x0, 0x0, 0x0, 0x0⟩,
  ⟨0x30000f0014, 1, 4, 1, 4, 0xfffffe00, 0x0, 0x0, 0x0, 0x0, 0x0⟩,
  ⟨0x30000f0018, 1, 4, 1, 4, 0xff, 0x0, 0x0, 0x0, 0x0, 0x0⟩,
  ⟨0x30000f001c, 1, 4, 1, 4, 0x0, 0x0, 0x0, 0x0, 0x0, 0x0⟩,
  ⟨0x30000f0020, 1, 4, 1, 4, 0x0, 0x0, 0x1, 0x0, 0x0, 0x0⟩,
  ⟨0x30000f0040, 8, 4, 1, 4, 0xcfff0000, 0x0, 0x0, 0x0, 0x0, 0x0⟩,
  ⟨0x30000f0060, 8, 4, 1, 4, 0xffffffff, 0x0, 0x0, 0x0, 0x0, 0x0⟩,
  ⟨0x30000f0100, 8, 16, 1, 4, 0xffffff07, 0x0, 0x0, 0x0, 0x0, 0x805a4600⟩,
  ⟨0x30000f0104, 8, 16, 1, 4, 0xffff, 0x0, 0x0, 0x0, 0x0, 0x100⟩,
  ⟨0x30000f0108, 8, 16, 1, 4, 0x0, 0x0, 0x0, 0x0, 0x0, 0x10000⟩,
  ⟨0x30000f0400, 96, 32, 1, 4, 0xff7f, 0x0, 0x0, 0x0, 0x0, 0x0⟩,
  ⟨0x30000f0404, 96, 32, 1, 4, 0xfffff, 0x0, 0x0, 0x0, 0x0, 0x0⟩,
  ⟨0x30000f0408, 96, 32, 1, 4, 0xffffff, 0x0, 0x0, 0x0, 0x0, 0x0⟩,
  ⟨0x30000f040c, 96, 32, 1, 4, 0xffffffff, 0x0, 0x0, 0x0, 0x0, 0x0⟩,
  ⟨0x30000f0410, 96, 32, 1, 4, 0xffffffff, 0x0, 0x0, 0x0, 0x0, 0x0⟩,
  ⟨0x30000f0414, 96, 32, 1, 4, 0x0, 0x3, 0x0, 0x0, 0x0, 0x0⟩,
  ⟨0x30000f0418, 96, 32, 1, 4, 0x0, 0x0, 0x0, 0x0, 0x0, 0x0⟩,
  ⟨0x30000f2000, 8, 512, 96, 4, 0xb00fffff, 0x0, 0x0, 0x0, 0x0, 0x0⟩]

/-! ### DMX (spec chapter 11) -/

def R.DMX_P_CFG (i : Nat) : Nat := 0x3000100000 + 0x100 * i
def R.DMX_P_COMMIT (i : Nat) : Nat := 0x3000100004 + 0x100 * i
def R.DMX_P_TIME (i : Nat) : Nat := 0x3000100008 + 0x100 * i
def R.DMX_P_TMIN (i : Nat) : Nat := 0x300010000c + 0x100 * i
def R.DMX_P_RATE (i : Nat) : Nat := 0x3000100010 + 0x100 * i
def R.DMX_P_IBUF_LO (i : Nat) : Nat := 0x3000100014 + 0x100 * i
def R.DMX_P_IBUF_HI (i : Nat) : Nat := 0x3000100018 + 0x100 * i
def R.DMX_P_STAT (i : Nat) : Nat := 0x300010001c + 0x100 * i
def R.DMX_P_FRAME (i : Nat) : Nat := 0x3000100020 + 0x100 * i
def R.DMX_P_CNT0 (i : Nat) : Nat := 0x3000100024 + 0x100 * i
def R.DMX_P_CNT1 (i : Nat) : Nat := 0x3000100028 + 0x100 * i
def R.DMX_P_CNT2 (i : Nat) : Nat := 0x300010002c + 0x100 * i
def R.DMX_P_RDMCFG (i : Nat) : Nat := 0x3000100030 + 0x100 * i
def R.DMX_P_RDMREQ (i : Nat) : Nat := 0x3000100034 + 0x100 * i
def R.DMX_P_RDMGO (i : Nat) : Nat := 0x3000100038 + 0x100 * i
def R.DMX_P_RDMRES (i : Nat) : Nat := 0x300010003c + 0x100 * i
def R.DMX_P_RDMUID_LO (i : Nat) : Nat := 0x3000100040 + 0x100 * i
def R.DMX_P_RDMUID_HI (i : Nat) : Nat := 0x3000100044 + 0x100 * i

/-- The register descriptors of DMX. -/
def regsDMX : List RegDesc := [
  ⟨0x3000100000, 16, 256, 1, 4, 0xfffffbff, 0x0, 0x0, 0x0, 0x0, 0x2200⟩,
  ⟨0x3000100004, 16, 256, 1, 4, 0x0, 0x1, 0x0, 0x0, 0x0, 0x0⟩,
  ⟨0x3000100008, 16, 256, 1, 4, 0xffffffc0, 0x0, 0x0, 0x0, 0x0, 0x2c040000⟩,
  ⟨0x300010000c, 16, 256, 1, 4, 0xffffc000, 0x0, 0x0, 0x0, 0x0, 0x17030000⟩,
  ⟨0x3000100010, 16, 256, 1, 4, 0xffcfffff, 0x0, 0x0, 0x0, 0x0, 0x64061a8⟩,
  ⟨0x3000100014, 16, 256, 1, 4, 0xfffff800, 0x0, 0x0, 0x0, 0x0, 0x0⟩,
  ⟨0x3000100018, 16, 256, 1, 4, 0xff, 0x0, 0x0, 0x0, 0x0, 0x0⟩,
  ⟨0x300010001c, 16, 256, 1, 4, 0x0, 0x0, 0x0, 0x0, 0x0, 0x0⟩,
  ⟨0x3000100020, 16, 256, 1, 4, 0x0, 0x0, 0x0, 0x0, 0x0, 0xffffffff⟩,
  ⟨0x3000100024, 16, 256, 1, 4, 0x0, 0x0, 0x0, 0x0, 0x0, 0x0⟩,
  ⟨0x3000100028, 16, 256, 1, 4, 0x0, 0x0, 0x0, 0x0, 0x0, 0x0⟩,
  ⟨0x300010002c, 16, 256, 1, 4, 0x0, 0x0, 0x0, 0x0, 0x0, 0x0⟩,
  ⟨0x3000100030, 16, 256, 1, 4, 0xffffffff, 0x0, 0x0, 0x0, 0x0, 0x17700af0⟩,
  ⟨0x3000100034, 16, 256, 1, 4, 0xffbfffff, 0x0, 0x0, 0x0, 0x0, 0x0⟩,
  ⟨0x3000100038, 16, 256, 1, 4, 0x0, 0x1, 0x0, 0x0, 0x0, 0x0⟩,
  ⟨0x300010003c, 16, 256, 1, 4, 0x0, 0x0, 0x0, 0x0, 0x0, 0x0⟩,
  ⟨0x3000100040, 16, 256, 1, 4, 0x0, 0x0, 0x0, 0x0, 0x0, 0x0⟩,
  ⟨0x3000100044, 16, 256, 1, 4, 0x0, 0x0, 0x0, 0x0, 0x0, 0x0⟩]

/-! ### MAC (spec chapter 10) -/

def R.MAC_P_CFG (i : Nat) : Nat := 0x3000110000 + 0x1000 * i
def R.MAC_P_COMMIT (i : Nat) : Nat := 0x3000110004 + 0x1000 * i
def R.MAC_P_ADDR_LO (i : Nat) : Nat := 0x3000110008 + 0x1000 * i
def R.MAC_P_ADDR_HI (i : Nat) : Nat := 0x300011000c + 0x1000 * i
def R.MAC_P_IP (i : Nat) : Nat := 0x3000110010 + 0x1000 * i
def R.MAC_P_VLAN (i : Nat) : Nat := 0x3000110014 + 0x1000 * i
def R.MAC_P_PAUSE (i : Nat) : Nat := 0x3000110018 + 0x1000 * i
def R.MAC_P_WM (i : Nat) : Nat := 0x300011001c + 0x1000 * i
def R.MAC_P_STAT (i : Nat) : Nat := 0x3000110020 + 0x1000 * i
def R.MAC_P_CNT (i j : Nat) : Nat := 0x3000110080 + 0x1000 * i + 0x4 * j
def R.MAC_P_R_BASE_LO (i j : Nat) : Nat := 0x3000110400 + 0x1000 * i + 0x20 * j
def R.MAC_P_R_BASE_HI (i j : Nat) : Nat := 0x3000110404 + 0x1000 * i + 0x20 * j
def R.MAC_P_R_CFG (i j : Nat) : Nat := 0x3000110408 + 0x1000 * i + 0x20 * j
def R.MAC_P_R_TAIL (i j : Nat) : Nat := 0x300011040c + 0x1000 * i + 0x20 * j
def R.MAC_P_R_HEAD (i j : Nat) : Nat := 0x3000110410 + 0x1000 * i + 0x20 * j
def R.MAC_P_R_CNT (i j : Nat) : Nat := 0x3000110414 + 0x1000 * i + 0x20 * j
def R.MAC_RULE_CTRL (i : Nat) : Nat := 0x300011a000 + 0x20 * i
def R.MAC_RULE_MATCH (i : Nat) : Nat := 0x300011a004 + 0x20 * i
def R.MAC_RULE_VP (i : Nat) : Nat := 0x300011a008 + 0x20 * i
def R.MAC_RULE_PORT (i : Nat) : Nat := 0x300011a00c + 0x20 * i
def R.MAC_RULE_DIP (i : Nat) : Nat := 0x300011a010 + 0x20 * i
def R.MAC_RULE_DMASK (i : Nat) : Nat := 0x300011a014 + 0x20 * i
def R.MAC_RULE_HITS (i : Nat) : Nat := 0x300011a018 + 0x20 * i
def R.MAC_FP_CFG (i : Nat) : Nat := 0x300011b100 + 0x10 * i
def R.MAC_FP_ADDR (i : Nat) : Nat := 0x300011b104 + 0x10 * i
def R.MAC_FP_CTRL (i : Nat) : Nat := 0x300011b108 + 0x10 * i
def R.MAC_VF_CFG (i : Nat) : Nat := 0x300011b400 + 0x20 * i
def R.MAC_VF_BASE_LO (i : Nat) : Nat := 0x300011b404 + 0x20 * i
def R.MAC_VF_BASE_HI (i : Nat) : Nat := 0x300011b408 + 0x20 * i
def R.MAC_VF_CNT0 (i : Nat) : Nat := 0x300011b40c + 0x20 * i
def R.MAC_VF_CNT1 (i : Nat) : Nat := 0x300011b410 + 0x20 * i
def R.MAC_VF_TS (i : Nat) : Nat := 0x300011b414 + 0x20 * i
def R.MAC_RCOMMIT : Nat := 0x300011b000

/-- The register descriptors of MAC. -/
def regsMAC : List RegDesc := [
  ⟨0x3000110000, 10, 4096, 1, 4, 0xff003fff, 0x0, 0x0, 0x0, 0x0, 0xc0005f2⟩,
  ⟨0x3000110004, 10, 4096, 1, 4, 0x0, 0x1, 0x0, 0x0, 0x0, 0x0⟩,
  ⟨0x3000110008, 10, 4096, 1, 4, 0xffffffff, 0x0, 0x0, 0x0, 0x0, 0x0⟩,
  ⟨0x300011000c, 10, 4096, 1, 4, 0xffff, 0x0, 0x0, 0x0, 0x0, 0x0⟩,
  ⟨0x3000110010, 10, 4096, 1, 4, 0xffffffff, 0x0, 0x0, 0x0, 0x0, 0x0⟩,
  ⟨0x3000110014, 10, 4096, 1, 4, 0x1efff, 0x0, 0x0, 0x0, 0x0, 0x0⟩,
  ⟨0x3000110018, 10, 4096, 1, 4, 0xffffffff, 0x0, 0x0, 0x0, 0x0, 0xffff0064⟩,
  ⟨0x300011001c, 10, 4096, 1, 4, 0xffffffff, 0x0, 0x0, 0x0, 0x0, 0x600020⟩,
  ⟨0x3000110020, 10, 4096, 1, 4, 0x0, 0x0, 0x8, 0x0, 0x0, 0x0⟩,
  ⟨0x3000110080, 10, 4096, 18, 4, 0x0, 0x0, 0x0, 0x0, 0x0, 0x0⟩,
  ⟨0x3000110400, 10, 4096, 16, 32, 0xfffffff0, 0x0, 0x0, 0x0, 0x0, 0x0⟩,
  ⟨0x3000110404, 10, 4096, 16, 32, 0xff, 0x0, 0x0, 0x0, 0x0, 0x0⟩,
  ⟨0x3000110408, 10, 4096, 16, 32, 0x800fffff, 0x0, 0x0, 0x0, 0x0, 0x40800⟩,
  ⟨0x300011040c, 10, 4096, 16, 32, 0xfff, 0x0, 0x0, 0x0, 0x0, 0x0⟩,
  ⟨0x3000110410, 10, 4096, 16, 32, 0x0, 0x0, 0x0, 0x0, 0x0, 0x0⟩,
  ⟨0x3000110414, 10, 4096, 16, 32, 0x0, 0x0, 0x0, 0x0, 0x0, 0x0⟩,
  ⟨0x300011a000, 128, 32, 1, 4, 0xffffffff, 0x0, 0x0, 0x0, 0x0, 0x0⟩,
  ⟨0x300011a004, 128, 32, 1, 4, 0xf800ffff, 0x0, 0x0, 0x0, 0x0, 0x0⟩,
  ⟨0x300011a008, 128, 32, 1, 4, 0xfff00ff, 0x0, 0x0, 0x0, 0x0, 0x0⟩,
  ⟨0x300011a00c, 128, 32, 1, 4, 0xffffffff, 0x0, 0x0, 0x0, 0x0, 0x0⟩,
  ⟨0x300011a010, 128, 32, 1, 4, 0xffffffff, 0x0, 0x0, 0x0, 0x0, 0x0⟩,
  ⟨0x300011a014, 128, 32, 1, 4, 0xffffffff, 0x0, 0x0, 0x0, 0x0, 0x0⟩,
  ⟨0x300011a018, 128, 32, 1, 4, 0x0, 0x0, 0x0, 0x0, 0x0, 0x0⟩,
  ⟨0x300011b100, 32, 16, 1, 4, 0xff8007ff, 0x0, 0x0, 0x0, 0x0, 0x4400003c⟩,
  ⟨0x300011b104, 32, 16, 1, 4, 0x3fffff, 0x0, 0x0, 0x0, 0x0, 0x0⟩,
  ⟨0x300011b108, 32, 16, 1, 4, 0x0, 0x7, 0x0, 0x0, 0x0, 0x0⟩,
  ⟨0x300011b400, 16, 32, 1, 4, 0xe7ffcfff, 0x0, 0x0, 0x0, 0x0, 0x0⟩,
  ⟨0x300011b404, 16, 32, 1, 4, 0xfffff000, 0x0, 0x0, 0x0, 0x0, 0x0⟩,
  ⟨0x300011b408, 16, 32, 1, 4, 0xff, 0x0, 0x0, 0x0, 0x0, 0x0⟩,
  ⟨0x300011b40c, 16, 32, 1, 4, 0x0, 0x0, 0x0, 0x0, 0x0, 0x0⟩,
  ⟨0x300011b410, 16, 32, 1, 4, 0x0, 0x0, 0x0, 0x0, 0x0, 0x0⟩,
  ⟨0x300011b414, 16, 32, 1, 4, 0x0, 0x0, 0x0, 0x0, 0x0, 0x0⟩,
  ⟨0x300011b000, 1, 4, 1, 4, 0x0, 0x1, 0x0, 0x0, 0x0, 0x0⟩]

/-! ### UNV (spec chapter 10) -/

def R.UNV_CTRL : Nat := 0x3000120000
def R.UNV_UTAB_LO : Nat := 0x3000120008
def R.UNV_STAB_LO : Nat := 0x3000120010
def R.UNV_ITAB_LO : Nat := 0x3000120018
def R.UNV_IBUF_LO : Nat := 0x3000120020
def R.UNV_UCOUNT : Nat := 0x3000120028
def R.UNV_IPCFG : Nat := 0x300012002c
def R.UNV_NFP : Nat := 0x3000120030
def R.UNV_KEEP : Nat := 0x3000120034
def R.UNV_CID (i : Nat) : Nat := 0x3000120038 + 0x4 * i
def R.UNV_NAME_LO : Nat := 0x3000120048
def R.UNV_NAME_HI : Nat := 0x300012004c
def R.UNV_IN_CFG : Nat := 0x3000120050
def R.UNV_STAT : Nat := 0x3000120054
def R.UNV_FRAME : Nat := 0x3000120058
def R.UNV_CNT (i : Nat) : Nat := 0x3000120080 + 0x4 * i
def R.UNV_COMMIT : Nat := 0x3000120004
def R.UNV_UTAB_HI : Nat := 0x300012000c
def R.UNV_STAB_HI : Nat := 0x3000120014
def R.UNV_ITAB_HI : Nat := 0x300012001c
def R.UNV_IBUF_HI : Nat := 0x3000120024

/-- The register descriptors of UNV. -/
def regsUNV : List RegDesc := [
  ⟨0x3000120000, 1, 4, 1, 4, 0x7, 0x0, 0x0, 0x0, 0x0, 0x0⟩,
  ⟨0x3000120008, 1, 4, 1, 4, 0xffffffe0, 0x0, 0x0, 0x0, 0x0, 0x0⟩,
  ⟨0x3000120010, 1, 4, 1, 4, 0xffffffe0, 0x0, 0x0, 0x0, 0x0, 0x0⟩,
  ⟨0x3000120018, 1, 4, 1, 4, 0xffffffe0, 0x0, 0x0, 0x0, 0x0, 0x0⟩,
  ⟨0x3000120020, 1, 4, 1, 4, 0xffffffe0, 0x0, 0x0, 0x0, 0x0, 0x0⟩,
  ⟨0x3000120028, 1, 4, 1, 4, 0xffffffff, 0x0, 0x0, 0x0, 0x0, 0x0⟩,
  ⟨0x300012002c, 1, 4, 1, 4, 0xff00ffff, 0x0, 0x0, 0x0, 0x0, 0x400015c0⟩,
  ⟨0x3000120030, 1, 4, 1, 4, 0xffffffff, 0x0, 0x0, 0x0, 0x0, 0x541a⟩,
  ⟨0x3000120034, 1, 4, 1, 4, 0x7ff, 0x0, 0x0, 0x0, 0x0, 0x3e8⟩,
  ⟨0x3000120038, 4, 4, 1, 4, 0xffffffff, 0x0, 0x0, 0x0, 0x0, 0x0⟩,
  ⟨0x3000120048, 1, 4, 1, 4, 0xffffffc0, 0x0, 0x0, 0x0, 0x0, 0x0⟩,
  ⟨0x300012004c, 1, 4, 1, 4, 0xff, 0x0, 0x0, 0x0, 0x0, 0x0⟩,
  ⟨0x3000120050, 1, 4, 1, 4, 0xfffe07ff, 0x0, 0x0, 0x0, 0x0, 0x9c420000⟩,
  ⟨0x3000120054, 1, 4, 1, 4, 0x0, 0x0, 0x1, 0x0, 0x0, 0x0⟩,
  ⟨0x3000120058, 1, 4, 1, 4, 0x0, 0x0, 0x0, 0x0, 0x0, 0xffffffff⟩,
  ⟨0x3000120080, 10, 4, 1, 4, 0x0, 0x0, 0x0, 0x0, 0x0, 0x0⟩,
  ⟨0x3000120004, 1, 4, 1, 4, 0x0, 0x1, 0x0, 0x0, 0x0, 0x0⟩,
  ⟨0x300012000c, 1, 4, 1, 4, 0xff, 0x0, 0x0, 0x0, 0x0, 0x0⟩,
  ⟨0x3000120014, 1, 4, 1, 4, 0xff, 0x0, 0x0, 0x0, 0x0, 0x0⟩,
  ⟨0x300012001c, 1, 4, 1, 4, 0xff, 0x0, 0x0, 0x0, 0x0, 0x0⟩,
  ⟨0x3000120024, 1, 4, 1, 4, 0xff, 0x0, 0x0, 0x0, 0x0, 0x0⟩]

/-! ### NRG (spec chapter 16) -/

def R.NRG_CTRL : Nat := 0x3000130000
def R.NRG_N : Nat := 0x3000130004
def R.NRG_STAT : Nat := 0x3000130008
def R.NRG_LSEQ : Nat := 0x300013000c
def R.NRG_LTIME : Nat := 0x3000130010
def R.NRG_LFRAME : Nat := 0x3000130014
def R.NRG_LCYC : Nat := 0x3000130018
def R.NRG_PLS_CFG (i : Nat) : Nat := 0x3000130100 + 0x40 * i
def R.NRG_PLS_WT (i : Nat) : Nat := 0x3000130104 + 0x40 * i
def R.NRG_PLS_LIMP_LO (i : Nat) : Nat := 0x3000130108 + 0x40 * i
def R.NRG_PLS_LIMP_HI (i : Nat) : Nat := 0x300013010c + 0x40 * i
def R.NRG_PLS_LEXP_LO (i : Nat) : Nat := 0x3000130110 + 0x40 * i
def R.NRG_PLS_LEXP_HI (i : Nat) : Nat := 0x3000130114 + 0x40 * i
def R.NRG_PLS_LCNTI (i : Nat) : Nat := 0x3000130118 + 0x40 * i
def R.NRG_PLS_LCNTE (i : Nat) : Nat := 0x300013011c + 0x40 * i
def R.NRG_PLS_IMP_LO (i : Nat) : Nat := 0x3000130120 + 0x40 * i
def R.NRG_PLS_IMP_HI (i : Nat) : Nat := 0x3000130124 + 0x40 * i
def R.NRG_PLS_EXP_LO (i : Nat) : Nat := 0x3000130128 + 0x40 * i
def R.NRG_PLS_EXP_HI (i : Nat) : Nat := 0x300013012c + 0x40 * i
def R.NRG_ZCFG (i : Nat) : Nat := 0x3000131000 + 0x20 * i
def R.NRG_ZPWR (i : Nat) : Nat := 0x3000131004 + 0x20 * i
def R.NRG_ZLACC_LO (i : Nat) : Nat := 0x3000131008 + 0x20 * i
def R.NRG_ZLACC_HI (i : Nat) : Nat := 0x300013100c + 0x20 * i
def R.NRG_ZACC_LO (i : Nat) : Nat := 0x3000131010 + 0x20 * i
def R.NRG_ZACC_HI (i : Nat) : Nat := 0x3000131014 + 0x20 * i
def R.NRG_ZTF (i : Nat) : Nat := 0x3000131018 + 0x20 * i
def R.NRG_TF (i j : Nat) : Nat := 0x3000132000 + 0x80 * i + 0x4 * j

/-- The register descriptors of NRG. -/
def regsNRG : List RegDesc := [
  ⟨0x3000130000, 1, 4, 1, 4, 0xf, 0x0, 0x0, 0x0, 0x0, 0x4⟩,
  ⟨0x3000130004, 1, 4, 1, 4, 0xffff, 0x0, 0x0, 0x0, 0x0, 0xbb8⟩,
  ⟨0x3000130008, 1, 4, 1, 4, 0x0, 0x0, 0x2, 0x0, 0x0, 0x0⟩,
  ⟨0x300013000c, 1, 4, 1, 4, 0x0, 0x0, 0x0, 0x0, 0x0, 0x0⟩,
  ⟨0x3000130010, 1, 4, 1, 4, 0x0, 0x0, 0x0, 0x0, 0x0, 0x0⟩,
  ⟨0x3000130014, 1, 4, 1, 4, 0x0, 0x0, 0x0, 0x0, 0x0, 0x0⟩,
  ⟨0x3000130018, 1, 4, 1, 4, 0x0, 0x0, 0x0, 0x0, 0x0, 0x0⟩,
  ⟨0x3000130100, 8, 64, 1, 4, 0xf00000ff, 0x0, 0x0, 0x0, 0x0, 0x1000001e⟩,
  ⟨0x3000130104, 8, 64, 1, 4, 0xffffffff, 0x0, 0x0, 0x0, 0x0, 0x0⟩,
  ⟨0x3000130108, 8, 64, 1, 4, 0x0, 0x0, 0x0, 0x0, 0x0, 0x0⟩,
  ⟨0x300013010c, 8, 64, 1, 4, 0x0, 0x0, 0x0, 0x0, 0x0, 0x0⟩,
  ⟨0x3000130110, 8, 64, 1, 4, 0x0, 0x0, 0x0, 0x0, 0x0, 0x0⟩,
  ⟨0x3000130114, 8, 64, 1, 4, 0x0, 0x0, 0x0, 0x0, 0x0, 0x0⟩,
  ⟨0x3000130118, 8, 64, 1, 4, 0x0, 0x0, 0x0, 0x0, 0x0, 0x0⟩,
  ⟨0x300013011c, 8, 64, 1, 4, 0x0, 0x0, 0x0, 0x0, 0x0, 0x0⟩,
  ⟨0x3000130120, 8, 64, 1, 4, 0x0, 0x0, 0x0, 0x0, 0x0, 0x0⟩,
  ⟨0x3000130124, 8, 64, 1, 4, 0x0, 0x0, 0x0, 0x0, 0x0, 0x0⟩,
  ⟨0x3000130128, 8, 64, 1, 4, 0x0, 0x0, 0x0, 0x0, 0x0, 0x0⟩,
  ⟨0x300013012c, 8, 64, 1, 4, 0x0, 0x0, 0x0, 0x0, 0x0, 0x0⟩,
  ⟨0x3000131000, 64, 32, 1, 4, 0xc7ff0f00, 0x0, 0x0, 0x0, 0x0, 0x140500⟩,
  ⟨0x3000131004, 64, 32, 1, 4, 0x0, 0x0, 0x0, 0x0, 0x0, 0x0⟩,
  ⟨0x3000131008, 64, 32, 1, 4, 0x0, 0x0, 0x0, 0x0, 0x0, 0x0⟩,
  ⟨0x300013100c, 64, 32, 1, 4, 0x0, 0x0, 0x0, 0x0, 0x0, 0x0⟩,
  ⟨0x3000131010, 64, 32, 1, 4, 0x0, 0x0, 0x0, 0x0, 0x0, 0x0⟩,
  ⟨0x3000131014, 64, 32, 1, 4, 0x0, 0x0, 0x0, 0x0, 0x0, 0x0⟩,
  ⟨0x3000131018, 64, 32, 1, 4, 0x0, 0x0, 0x0, 0x0, 0x0, 0x10000⟩,
  ⟨0x3000132000, 64, 128, 32, 4, 0xffffff, 0x0, 0x0, 0x0, 0x0, 0x10000⟩]

/-! ### CAL (spec chapter 16) -/

def R.CAL_STAT : Nat := 0x3000140000
def R.CAL_RES : Nat := 0x3000140004
def R.CAL_NFAIL : Nat := 0x3000140008
def R.CAL_FIRST : Nat := 0x300014000c
def R.CAL_MAXDEV : Nat := 0x3000140010
def R.CAL_NCLAMP : Nat := 0x3000140014
def R.CAL_ADCOFF : Nat := 0x3000140018
def R.CAL_RUNCNT : Nat := 0x300014001c

/-- The register descriptors of CAL. -/
def regsCAL : List RegDesc := [
  ⟨0x3000140000, 1, 4, 1, 4, 0x0, 0x0, 0x0, 0x0, 0x0, 0x0⟩,
  ⟨0x3000140004, 1, 4, 1, 4, 0x0, 0x0, 0x0, 0x0, 0x0, 0x0⟩,
  ⟨0x3000140008, 1, 4, 1, 4, 0x0, 0x0, 0x0, 0x0, 0x0, 0x0⟩,
  ⟨0x300014000c, 1, 4, 1, 4, 0x0, 0x0, 0x0, 0x0, 0x0, 0x0⟩,
  ⟨0x3000140010, 1, 4, 1, 4, 0x0, 0x0, 0x0, 0x0, 0x0, 0x0⟩,
  ⟨0x3000140014, 1, 4, 1, 4, 0x0, 0x0, 0x0, 0x0, 0x0, 0x0⟩,
  ⟨0x3000140018, 1, 4, 1, 4, 0x0, 0x0, 0x0, 0x0, 0x0, 0x0⟩,
  ⟨0x300014001c, 1, 4, 1, 4, 0x0, 0x0, 0x0, 0x0, 0x0, 0x0⟩]

/-! ### UPD (spec chapter 18) -/

def R.UPD_STAT : Nat := 0x3000150000
def R.UPD_BCW : Nat := 0x3000150004
def R.UPD_AT : Nat := 0x3000150008
def R.UPD_CFG : Nat := 0x300015000c
def R.UPD_CONFIRM : Nat := 0x3000150010
def R.UPD_MINSV : Nat := 0x3000150014
def R.UPD_RENDER : Nat := 0x3000150018
def R.UPD_PAUSE : Nat := 0x300015001c
def R.UPD_CNT : Nat := 0x3000150020
def R.UPD_RECOVER : Nat := 0x3000150024
def R.UPD_BLKMAP (i : Nat) : Nat := 0x3000150040 + 0x4 * i

/-- The register descriptors of UPD. -/
def regsUPD : List RegDesc := [
  ⟨0x3000150000, 1, 4, 1, 4, 0x0, 0x0, 0x8, 0x0, 0x0, 0x0⟩,
  ⟨0x3000150004, 1, 4, 1, 4, 0x0, 0x0, 0x0, 0x0, 0x0, 0x0⟩,
  ⟨0x3000150008, 1, 4, 1, 4, 0x0, 0x0, 0x0, 0x0, 0x0, 0xffffffff⟩,
  ⟨0x300015000c, 1, 4, 1, 4, 0xffff, 0x0, 0x0, 0x0, 0x0, 0x1e⟩,
  ⟨0x3000150010, 1, 4, 1, 4, 0x0, 0x1, 0x0, 0x0, 0x0, 0x0⟩,
  ⟨0x3000150014, 1, 4, 1, 4, 0x0, 0x0, 0x0, 0x0, 0x0, 0x0⟩,
  ⟨0x3000150018, 1, 4, 1, 4, 0x0, 0x0, 0x0, 0x0, 0x0, 0x0⟩,
  ⟨0x300015001c, 1, 4, 1, 4, 0x0, 0x0, 0x0, 0x0, 0x0, 0x0⟩,
  ⟨0x3000150020, 1, 4, 1, 4, 0x0, 0x0, 0x0, 0x0, 0x0, 0x0⟩,
  ⟨0x3000150024, 1, 4, 1, 4, 0x0, 0x1, 0x0, 0x0, 0x0, 0x0⟩,
  ⟨0x3000150040, 6, 4, 1, 4, 0x0, 0x0, 0x0, 0x0, 0x0, 0x0⟩]

/-! ### PAIR (spec chapter 19) -/

def R.PAIR_CFG : Nat := 0x3000160000
def R.PAIR_IVAL : Nat := 0x3000160004
def R.PAIR_ROLE : Nat := 0x3000160008
def R.PAIR_SINCE : Nat := 0x300016000c
def R.PAIR_STAT : Nat := 0x3000160010
def R.PAIR_MATCH : Nat := 0x3000160014
def R.PAIR_CMPFRAME : Nat := 0x3000160018
def R.PAIR_CNT : Nat := 0x300016001c
def R.PAIR_SWAP : Nat := 0x3000160020
def R.PAIR_SWAPGO : Nat := 0x3000160024
def R.PAIR_SWAPRES : Nat := 0x3000160028
def R.PAIR_OWN_LANE : Nat := 0x3000160030
def R.PAIR_OWN_DMX : Nat := 0x3000160034
def R.PAIR_OWN_SPD (i : Nat) : Nat := 0x3000160038 + 0x4 * i
def R.PAIR_SNAPLIST : Nat := 0x3000160050
def R.PAIR_SNAPAREA : Nat := 0x3000160054
def R.PAIR_INLOG : Nat := 0x3000160058
def R.PAIR_INDONE : Nat := 0x300016005c

/-- The register descriptors of PAIR. -/
def regsPAIR : List RegDesc := [
  ⟨0x3000160000, 1, 4, 1, 4, 0xcfff07ff, 0x0, 0x0, 0x0, 0x0, 0x330000⟩,
  ⟨0x3000160004, 1, 4, 1, 4, 0xffffffff, 0x0, 0x0, 0x0, 0x0, 0x15180⟩,
  ⟨0x3000160008, 1, 4, 1, 4, 0x0, 0x0, 0x0, 0x0, 0x0, 0x0⟩,
  ⟨0x300016000c, 1, 4, 1, 4, 0x0, 0x0, 0x0, 0x0, 0x0, 0x0⟩,
  ⟨0x3000160010, 1, 4, 1, 4, 0x0, 0x0, 0x14, 0x0, 0x0, 0x0⟩,
  ⟨0x3000160014, 1, 4, 1, 4, 0x0, 0x0, 0x0, 0x0, 0x0, 0x0⟩,
  ⟨0x3000160018, 1, 4, 1, 4, 0x0, 0x0, 0x0, 0x0, 0x0, 0xffffffff⟩,
  ⟨0x300016001c, 1, 4, 1, 4, 0x0, 0x0, 0x0, 0x0, 0x0, 0x0⟩,
  ⟨0x3000160020, 1, 4, 1, 4, 0xffffffff, 0x0, 0x0, 0x0, 0x0, 0x0⟩,
  ⟨0x3000160024, 1, 4, 1, 4, 0x0, 0x1, 0x0, 0x0, 0x0, 0x0⟩,
  ⟨0x3000160028, 1, 4, 1, 4, 0x0, 0x0, 0x0, 0x0, 0x0, 0x80000000⟩,
  ⟨0x3000160030, 1, 4, 1, 4, 0xffffffff, 0x0, 0x0, 0x0, 0x0, 0x0⟩,
  ⟨0x3000160034, 1, 4, 1, 4, 0xffffff, 0x0, 0x0, 0x0, 0x0, 0x0⟩,
  ⟨0x3000160038, 3, 4, 1, 4, 0xffffffff, 0x0, 0x0, 0x0, 0x0, 0x0⟩,
  ⟨0x3000160050, 1, 4, 1, 4, 0xfffffff0, 0x0, 0x0, 0x0, 0x0, 0x0⟩,
  ⟨0x3000160054, 1, 4, 1, 4, 0xfffffff0, 0x0, 0x0, 0x0, 0x0, 0x0⟩,
  ⟨0x3000160058, 1, 4, 1, 4, 0xffffffff, 0x0, 0x0, 0x0, 0x0, 0x0⟩,
  ⟨0x300016005c, 1, 4, 1, 4, 0x3ffffc, 0x0, 0x0, 0x0, 0x0, 0x0⟩]

/-! ### SPA (spec chapter 19) -/

def R.SPA_CTRL : Nat := 0x3000170000
def R.SPA_STAT : Nat := 0x3000170004
def R.SPA_SWAPREQ : Nat := 0x3000170008
def R.SPA_SWAPGO : Nat := 0x300017000c
def R.SPA_SWAPRES : Nat := 0x3000170010
def R.SPA_KIND (i : Nat) : Nat := 0x3000170040 + 0x8 * i
def R.SPA_EVT (i : Nat) : Nat := 0x3000170044 + 0x8 * i
def R.SPA_CR (i : Nat) : Nat := 0x3000170100 + 0x4 * i
def R.SPA_NVSWEAR : Nat := 0x3000170200

/-- The register descriptors of SPA. -/
def regsSPA : List RegDesc := [
  ⟨0x3000170000, 1, 4, 1, 4, 0x8000ffff, 0x0, 0x0, 0x0, 0x0, 0x80000e10⟩,
  ⟨0x3000170004, 1, 4, 1, 4, 0x0, 0x0, 0x0, 0x0, 0x0, 0x0⟩,
  ⟨0x3000170008, 1, 4, 1, 4, 0xf00ffff, 0x0, 0x0, 0x0, 0x0, 0x0⟩,
  ⟨0x300017000c, 1, 4, 1, 4, 0x0, 0x1, 0x0, 0x0, 0x0, 0x0⟩,
  ⟨0x3000170010, 1, 4, 1, 4, 0x0, 0x0, 0x0, 0x0, 0x0, 0x80000000⟩,
  ⟨0x3000170040, 9, 8, 1, 4, 0x0, 0x0, 0x0, 0x0, 0x0, 0x0⟩,
  ⟨0x3000170044, 9, 8, 1, 4, 0x0, 0x0, 0x0, 0x0, 0x0, 0x0⟩,
  ⟨0x3000170100, 64, 4, 1, 4, 0x0, 0x0, 0x0, 0x0, 0x0, 0xf8000000⟩,
  ⟨0x3000170200, 1, 4, 1, 4, 0x0, 0x0, 0x0, 0x0, 0x0, 0x0⟩]

/-! ### LGL (spec chapter 12) -/

def R.LGL_CTRL : Nat := 0x3000180000
def R.LGL_STAT : Nat := 0x3000180004
def R.LGL_TICK : Nat := 0x3000180008
def R.LGL_TANCH : Nat := 0x300018000c
def R.LGL_PC : Nat := 0x3000180010
def R.LGL_MIRROR_LO : Nat := 0x3000180014
def R.LGL_MIRROR_HI : Nat := 0x3000180018
def R.LGL_NWIN : Nat := 0x300018001c
def R.LGL_CNT : Nat := 0x3000180020

/-- The register descriptors of LGL. -/
def regsLGL : List RegDesc := [
  ⟨0x3000180000, 1, 4, 1, 4, 0x7, 0x0, 0x0, 0x0, 0x0, 0x0⟩,
  ⟨0x3000180004, 1, 4, 1, 4, 0x0, 0x0, 0x200, 0x0, 0x0, 0x0⟩,
  ⟨0x3000180008, 1, 4, 1, 4, 0x0, 0x0, 0x0, 0x0, 0x0, 0x0⟩,
  ⟨0x300018000c, 1, 4, 1, 4, 0x0, 0x0, 0x0, 0x0, 0x0, 0x0⟩,
  ⟨0x3000180010, 1, 4, 1, 4, 0x0, 0x0, 0x0, 0x0, 0x0, 0x0⟩,
  ⟨0x3000180014, 1, 4, 1, 4, 0xffff8000, 0x0, 0x0, 0x0, 0x0, 0x0⟩,
  ⟨0x3000180018, 1, 4, 1, 4, 0xff, 0x0, 0x0, 0x0, 0x0, 0x0⟩,
  ⟨0x300018001c, 1, 4, 1, 4, 0x3ff000, 0x0, 0x0, 0x0, 0x0, 0x0⟩,
  ⟨0x3000180020, 1, 4, 1, 4, 0x0, 0x0, 0x0, 0x0, 0x0, 0x0⟩]

/-! ### CHN (spec chapter 19) -/

def R.CHN_CFG : Nat := 0x3000190000
def R.CHN_STAT : Nat := 0x3000190004
def R.CHN_TXQ : Nat := 0x3000190008
def R.CHN_RXQ : Nat := 0x300019000c
def R.CHN_RXBUF_LO : Nat := 0x3000190010
def R.CHN_RXBUF_HI : Nat := 0x3000190014
def R.CHN_RXREL : Nat := 0x3000190018
def R.CHN_RXFREE : Nat := 0x300019001c
def R.CHN_CNT (i : Nat) : Nat := 0x3000190080 + 0x4 * i

/-- The register descriptors of CHN. -/
def regsCHN : List RegDesc := [
  ⟨0x3000190000, 1, 4, 1, 4, 0xdf0fffff, 0x0, 0x0, 0x0, 0x0, 0x1004000⟩,
  ⟨0x3000190004, 1, 4, 1, 4, 0x0, 0x0, 0x200, 0x0, 0x0, 0x0⟩,
  ⟨0x3000190008, 1, 4, 1, 4, 0x1ff, 0x0, 0x0, 0x0, 0x0, 0x0⟩,
  ⟨0x300019000c, 1, 4, 1, 4, 0x1ff, 0x0, 0x0, 0x0, 0x0, 0x0⟩,
  ⟨0x3000190010, 1, 4, 1, 4, 0xfffff000, 0x0, 0x0, 0x0, 0x0, 0x0⟩,
  ⟨0x3000190014, 1, 4, 1, 4, 0xf00ff, 0x0, 0x0, 0x0, 0x0, 0x40000⟩,
  ⟨0x3000190018, 1, 4, 1, 4, 0x0, 0x1fff, 0x0, 0x0, 0x0, 0x0⟩,
  ⟨0x300019001c, 1, 4, 1, 4, 0x0, 0x0, 0x0, 0x0, 0x0, 0x0⟩,
  ⟨0x3000190080, 10, 4, 1, 4, 0x0, 0x0, 0x0, 0x0, 0x0, 0x0⟩]

/-! ### FLT (spec chapter 19) -/

def R.FLT_CTRL : Nat := 0x30001a0000
def R.FLT_NEXT : Nat := 0x30001a0004
def R.FLT_READ : Nat := 0x30001a0008
def R.FLT_STAT : Nat := 0x30001a000c
def R.FLT_LAST : Nat := 0x30001a0010
def R.FLT_REC (i j : Nat) : Nat := 0x30001a8000 + 0x20 * i + 0x4 * j

/-- The register descriptors of FLT. -/
def regsFLT : List RegDesc := [
  ⟨0x30001a0000, 1, 4, 1, 4, 0x3, 0x0, 0x0, 0x0, 0x0, 0x2⟩,
  ⟨0x30001a0004, 1, 4, 1, 4, 0x0, 0x0, 0x0, 0x0, 0x0, 0x0⟩,
  ⟨0x30001a0008, 1, 4, 1, 4, 0xffffffff, 0x0, 0x0, 0x0, 0x0, 0x0⟩,
  ⟨0x30001a000c, 1, 4, 1, 4, 0x0, 0x0, 0x1, 0x0, 0x0, 0x0⟩,
  ⟨0x30001a0010, 1, 4, 1, 4, 0x0, 0x0, 0x0, 0x0, 0x0, 0x0⟩,
  ⟨0x30001a8000, 1024, 32, 8, 4, 0x0, 0x0, 0x0, 0x0, 0x0, 0x0⟩]

/-! ### SNS (spec chapter 09) -/

def R.SNS_CTRL : Nat := 0x30001d0000
def R.SNS_LOCK : Nat := 0x30001d0008
def R.SNS_CFG (i : Nat) : Nat := 0x30001d0010 + 0x10 * i
def R.SNS_RAW (i : Nat) : Nat := 0x30001d0014 + 0x10 * i
def R.SNS_TEMP (i : Nat) : Nat := 0x30001d0018 + 0x10 * i
def R.SNS_LIN (i j : Nat) : Nat := 0x30001d0200 + 0x100 * i + 0x4 * j

/-- The register descriptors of SNS. -/
def regsSNS : List RegDesc := [
  ⟨0x30001d0000, 1, 4, 1, 4, 0xff, 0x0, 0x0, 0x0, 0x0, 0x0⟩,
  ⟨0x30001d0008, 1, 4, 1, 4, 0x0, 0x0, 0x0, 0x1, 0x0, 0x0⟩,
  ⟨0x30001d0010, 8, 16, 1, 4, 0x0, 0x0, 0x0, 0x0, 0xffffffff, 0xfc00407d⟩,
  ⟨0x30001d0014, 8, 16, 1, 4, 0x0, 0x0, 0x0, 0x0, 0x0, 0x0⟩,
  ⟨0x30001d0018, 8, 16, 1, 4, 0x0, 0x0, 0x0, 0x0, 0x0, 0x30000⟩,
  ⟨0x30001d0200, 8, 256, 33, 4, 0x0, 0x0, 0x0, 0x0, 0xffff, 0x0⟩]

/-! ### CALD (spec chapter 05) -/

def R.CAL_CTRL (i : Nat) : Nat := 0x3001000000 + 0x10000 * i
def R.CAL_COMMIT (i : Nat) : Nat := 0x3001000004 + 0x10000 * i
def R.CAL_RESV (i : Nat) : Nat := 0x3001000008 + 0x10000 * i
def R.CAL_BCAP (i : Nat) : Nat := 0x300100000c + 0x10000 * i
def R.CAL_QUANTUM (i : Nat) : Nat := 0x3001000010 + 0x10000 * i
def R.CAL_BUDGET (i : Nat) : Nat := 0x3001000014 + 0x10000 * i
def R.CAL_REFILL (i : Nat) : Nat := 0x3001000018 + 0x10000 * i
def R.CAL_THERM (i : Nat) : Nat := 0x300100001c + 0x10000 * i
def R.CAL_STATUS (i : Nat) : Nat := 0x3001000020 + 0x10000 * i
def R.CAL_GUARD (i : Nat) : Nat := 0x3001000024 + 0x10000 * i
def R.CAL_RCCNT (i : Nat) : Nat := 0x3001000028 + 0x10000 * i
def R.CAL_MIGCNT (i : Nat) : Nat := 0x300100002c + 0x10000 * i
def R.CAL_RETRYCNT (i : Nat) : Nat := 0x3001000030 + 0x10000 * i
def R.CAL_QCAP (i j : Nat) : Nat := 0x3001000100 + 0x10000 * i + 0x4 * j
def R.CAL_QDEP (i j : Nat) : Nat := 0x3001000200 + 0x10000 * i + 0x4 * j
def R.CAL_QWAIT_LO (i j : Nat) : Nat := 0x3001000300 + 0x10000 * i + 0x10 * j
def R.CAL_QWAIT_HI (i j : Nat) : Nat := 0x3001000304 + 0x10000 * i + 0x10 * j
def R.CAL_QWAIT_CNT (i j : Nat) : Nat := 0x3001000308 + 0x10000 * i + 0x10 * j
def R.CAL_VBUSY (i j : Nat) : Nat := 0x3001000500 + 0x10000 * i + 0x4 * j

/-- The register descriptors of CALD. -/
def regsCALD : List RegDesc := [
  ⟨0x3001000000, 16, 65536, 1, 4, 0x3, 0x0, 0x0, 0x0, 0x0, 0x3⟩,
  ⟨0x3001000004, 16, 65536, 1, 4, 0x0, 0x1, 0x0, 0x0, 0x0, 0x0⟩,
  ⟨0x3001000008, 16, 65536, 1, 4, 0xffff, 0x0, 0x0, 0x0, 0x0, 0x7d0⟩,
  ⟨0x300100000c, 16, 65536, 1, 4, 0x1ffff, 0x0, 0x0, 0x0, 0x0, 0x1770⟩,
  ⟨0x3001000010, 16, 65536, 1, 4, 0xff, 0x0, 0x0, 0x0, 0x0, 0x10⟩,
  ⟨0x3001000014, 16, 65536, 1, 4, 0x0, 0x0, 0x0, 0x0, 0x0, 0x5dc000⟩,
  ⟨0x3001000018, 16, 65536, 1, 4, 0x0, 0x0, 0x0, 0x0, 0x0, 0x0⟩,
  ⟨0x300100001c, 16, 65536, 1, 4, 0x0, 0x0, 0x0, 0x0, 0x0, 0x100⟩,
  ⟨0x3001000020, 16, 65536, 1, 4, 0x0, 0x0, 0x0, 0x0, 0x0, 0x10000000⟩,
  ⟨0x3001000024, 16, 65536, 1, 4, 0x0, 0x0, 0x0, 0x0, 0x0, 0x0⟩,
  ⟨0x3001000028, 16, 65536, 1, 4, 0x0, 0x0, 0x0, 0x0, 0x0, 0x0⟩,
  ⟨0x300100002c, 16, 65536, 1, 4, 0x0, 0x0, 0x0, 0x0, 0x0, 0x0⟩,
  ⟨0x3001000030, 16, 65536, 1, 4, 0x0, 0x0, 0x0, 0x0, 0x0, 0x0⟩,
  ⟨0x3001000100, 16, 65536, 32, 4, 0x1fff, 0x0, 0x0, 0x0, 0x0, 0x1000⟩,
  ⟨0x3001000200, 16, 65536, 32, 4, 0x0, 0x0, 0x0, 0x0, 0x0, 0x0⟩,
  ⟨0x3001000300, 16, 65536, 32, 16, 0x0, 0x0, 0x0, 0x0, 0x0, 0x0⟩,
  ⟨0x3001000304, 16, 65536, 32, 16, 0x0, 0x0, 0x0, 0x0, 0x0, 0x0⟩,
  ⟨0x3001000308, 16, 65536, 32, 16, 0x0, 0x0, 0x0, 0x0, 0x0, 0x0⟩,
  ⟨0x3001000500, 16, 65536, 64, 4, 0x0, 0x0, 0x0, 0x0, 0x0, 0x0⟩]

/-! ### SPR (spec chapter 15 and 17) -/

def R.SPR_TAMP_CFG : Nat := 0x3fffff0100
def R.SPR_TAMP_STAT : Nat := 0x3fffff0104
def R.SPR_TAMP_TIME : Nat := 0x3fffff0108
def R.SPR_STAT : Nat := 0x3fffff0000
def R.SPR_RTC_SEC : Nat := 0x3fffff0004
def R.SPR_RTC_SUB : Nat := 0x3fffff0008
def R.SPR_RTC_TRIM : Nat := 0x3fffff000c
def R.SPR_ALM_SEC : Nat := 0x3fffff0010
def R.SPR_WAKE_EN : Nat := 0x3fffff0014
def R.SPR_WAKE_GPIO : Nat := 0x3fffff0018
def R.SPR_WAKE_CAUSE : Nat := 0x3fffff001c
def R.SPR_SCRATCH (i : Nat) : Nat := 0x3fffff0040 + 0x4 * i

/-- The register descriptors of SPR. -/
def regsSPR : List RegDesc := [
  ⟨0x3fffff0100, 1, 4, 1, 4, 0x7ff, 0x0, 0x0, 0x80000000, 0x0, 0x0⟩,
  ⟨0x3fffff0104, 1, 4, 1, 4, 0x0, 0x0, 0x0, 0x0, 0x0, 0x0⟩,
  ⟨0x3fffff0108, 1, 4, 1, 4, 0x0, 0x0, 0x0, 0x0, 0x0, 0x0⟩,
  ⟨0x3fffff0000, 1, 4, 1, 4, 0x0, 0x0, 0xc, 0x0, 0x0, 0x0⟩,
  ⟨0x3fffff0004, 1, 4, 1, 4, 0xffffffff, 0x0, 0x0, 0x0, 0x0, 0x0⟩,
  ⟨0x3fffff0008, 1, 4, 1, 4, 0x0, 0x0, 0x0, 0x0, 0x0, 0x0⟩,
  ⟨0x3fffff000c, 1, 4, 1, 4, 0xff, 0x0, 0x0, 0x0, 0x0, 0x0⟩,
  ⟨0x3fffff0010, 1, 4, 1, 4, 0xffffffff, 0x0, 0x0, 0x0, 0x0, 0x0⟩,
  ⟨0x3fffff0014, 1, 4, 1, 4, 0xff07, 0x0, 0x0, 0x0, 0x0, 0x0⟩,
  ⟨0x3fffff0018, 1, 4, 1, 4, 0xffffffff, 0x0, 0x0, 0x0, 0x0, 0x0⟩,
  ⟨0x3fffff001c, 1, 4, 1, 4, 0x0, 0x0, 0x0, 0x0, 0x0, 0x0⟩,
  ⟨0x3fffff0040, 16, 4, 1, 4, 0xffffffff, 0x0, 0x0, 0x0, 0x0, 0x0⟩]

/-- The descriptors of the 64 KB block that holds an address (R37, R38). -/
def regsAt (a : Nat) : List RegDesc :=
  match a / 0x10000 with
  | 0x300000 => regsSYS
  | 0x300001 => regsPWC
  | 0x300002 => regsBGT
  | 0x300003 => regsSCH
  | 0x300004 => regsICU
  | 0x300005 => regsMBX
  | 0x300006 => regsQUE
  | 0x300007 => regsBSH
  | 0x300008 => regsHST
  | 0x300009 => regsKEY
  | 0x30000a => regsCHK
  | 0x30000b => regsTSU
  | 0x30000c => regsFLK
  | 0x30000d => regsSCN
  | 0x30000e => regsLGV
  | 0x30000f => regsSPD
  | 0x300010 => regsDMX
  | 0x300011 => regsMAC
  | 0x300012 => regsUNV
  | 0x300013 => regsNRG
  | 0x300014 => regsCAL
  | 0x300015 => regsUPD
  | 0x300016 => regsPAIR
  | 0x300017 => regsSPA
  | 0x300018 => regsLGL
  | 0x300019 => regsCHN
  | 0x30001a => regsFLT
  | 0x30001d => regsSNS
  | 0x3fffff => regsSPR
  | k => if 0x300100 ≤ k ∧ k ≤ 0x30010F then regsCALD else []

/-- Whether a descriptor covers an address. -/
def RegDesc.covers (d : RegDesc) (a : Nat) : Bool :=
  decide (d.base ≤ a) && decide ((a - d.base) / d.s1 < d.n1)
    && decide ((a - d.base) % d.s1 / d.s2 < d.n2) && decide ((a - d.base) % d.s1 % d.s2 = 0)

/-- The descriptor of the register at a device address; none for a reserved register (R40). -/
def regDesc (a : Nat) : Option RegDesc := (regsAt a).find? (·.covers a)

end Sys2Proof.Machine
end

