-- ==== Sys2Proof/Machine/State.lean ====
section
/-!
DEFINITION. The state of the Nerza as plain data, and the state right after reset. Hub, caldera and Spring registers
are one sparse map from device address to word (`regs`), whose unlisted addresses hold the register's reset value
(RegMap.lean, Ops.lean); the copies in the blocks' own domains (R47) are the map `act`, and the values a commit has
taken and not yet applied are the map `taken`. Everything the spec gives the machine beside registers (vents, cores,
task pools, FIFOs, mailboxes, interrupt stacks, output engines, sessions, keys) is a structure of its own below.
-/
namespace Sys2Proof.Machine
open Sys2Proof

/-- What stops the block with a fault. Nothing in the spec does: every fault it describes is a recorded effect
(a task ends, a core takes an exception, a fault record is made), so no command raises one. -/
inductive Fault where
  /-- Raised by no command: the type is kept because the interface asks for one (safe). -/
  | none
  deriving DecidableEq, Repr

/-- Why a command has no meaning here. -/
inductive Refusal where
  /-- Raised by exec's arm of a command that has no meaning yet (safe: it stops). -/
  | notModelled (mnemonic : String)
  deriving DecidableEq, Repr

/-- A sparse map from number to value: keys strictly rising, no entry equal to what an unlisted key reads as. -/
abbrev Map (α : Type) := List (Nat × α)

/-! ### Vents, craters and tasks (chapters 01 to 05) -/

/-- One of the 8 DMA slots of a vent (R103): the count its ticket carries, whether its transfer is in flight, and
the status and byte count of an ended transfer. -/
structure DmaSlot where
  used : Bool := false
  count : Nat := 0
  busy : Bool := false
  status : Nat := 0
  done : Nat := 0
  total : Nat := 0
  desc : List Byte := []
  deriving DecidableEq, Repr

/-- What an instruction that cannot complete yet waits for. -/
inductive Stall where
  /-- DMAGO waiting for its slot or for a place in the crater queue (R23, R103); the descriptor is read already. -/
  | dmaGo (rd : BitVec 5) (desc : List Byte) (ok : Bool)
  /-- DMAWAIT on a ticket (R103). -/
  | dmaWait (rd : BitVec 5) (ticket : Word)
  /-- SPAWN waiting for room (R131, R148) or for earlier transfers; the descriptor is read already. -/
  | spawn (rd : BitVec 4) (desc : List Byte) (k : Nat)
  /-- SIGNAL or JOIN waiting for earlier DMA transfers of the vent to end (R136, R145). -/
  | signal (rd : BitVec 4) (event : Word)
  | join (rd : BitVec 4) (gate : Word)
  /-- MPOST waiting for room in a mailbox direction (R139). -/
  | mpost (rd : BitVec 4) (ch : Nat) (w : Word)
  /-- QPUSH waiting for room in a FIFO (R140). -/
  | qpush (rd : BitVec 4) (fifo : Nat)
  /-- A core's write to SCH_Pm_DESC7 waiting for room (R167). -/
  | submit (port : Nat)
  /-- A core's write to a Spring register waiting for a place in its queue (R450). -/
  | spring
  deriving DecidableEq, Repr

/-- How a run ended (R66, R71). -/
inductive RunEnd where
  | yield
  | waitF (frame : Word)
  | waitE (event : Nat)
  | done
  | fault (cause : Nat) (pc : Word)
  /-- The reset or restart that R453 and R463 describe ends the task CANCELLED. -/
  | killed
  deriving DecidableEq, Repr

/-- A vent (R50, R52, R68): its registers, the task it runs and the state of its current run. A vent with
`task = none` is free. -/
structure Vent where
  task : Option Nat := none          -- key of the task in the pool (caldera × 4,096 + index)
  pc : Word := 0
  g : List Word := []
  v : List (List Word) := []
  p : List Byte := []
  flags : Word := 0
  ls : Map Byte := []                -- local-store bytes written in this run; others are free values
  run : Nat := 0                     -- number of the run, for its free values
  cls : Nat := 0                     -- energy class in force (R137)
  dmaCount : Nat := 0                -- DMAGO instructions of this run (R103)
  slots : List DmaSlot := []
  stall : Option Stall := none
  ended : Option RunEnd := none      -- the run has ended and its DMA drains (R105)
  start : Nat := 0                   -- tick of the dispatch
  startVck : Nat := 0                -- VCK half-cycles of the die at the dispatch
  opening : Bool := false            -- dispatched to a crater whose island is opening (R25)
  opened : Bool := false             -- its dispatch began that opening
  qStart : Nat := 0                  -- tick at which the current quantum began (R154)
  qCharge : Nat := 0                 -- bu charged for the current quantum
  qUs : Nat := 0                     -- length of the current quantum, µs
  deriving DecidableEq, Repr

/-- A crater (R22, R23, R25, R144). -/
structure Crater where
  counters : Map Word := []          -- the 64 counters of R144
  corr : Nat := 0                    -- corrected-error counter (R22)
  dmaq : List (Nat × Nat) := []      -- crater DMA queue: (vent, slot), oldest first, at most 64
  dmaStall : List Nat := []          -- vents whose DMAGO waits for a queue entry, in order
  dmaCyc : Nat × Nat := (0, 0)       -- tick and number of the last of them that stalled in one VCK cycle (R23)
  isOpen : Bool := false             -- island powered
  isOpening : Bool := false
  idleSince : Nat := 0               -- tick since which the two idle conditions hold
  marked : List (Nat × Nat) := []    -- rows marked for replacement: (bank, row) (R22)
  rowCorr : Map Nat := []            -- corrected errors since boot by bank × 64 + row (R492)
  rowSpares : Map Nat := []          -- spare rows used by bank
  slotMap : Map Nat := []            -- position → physical slot, identity where unlisted (R35)
  off : List Nat := []               -- positions left without a working slot (R518)
  deriving DecidableEq, Repr

/-- The task descriptor of R63. -/
structure TaskDesc where
  entry : Word := 0
  arg : Word := 0
  prio : Nat := 0
  cls : Nat := 0
  affKind : Nat := 0
  affTarget : Nat := 0
  tag : Word := 0xFFFFFFFF
  roam : Bool := false
  critical : Bool := false
  selftest : Bool := false
  startKind : Nat := 0
  startEvent : Nat := 0
  doneKind : Nat := 0
  doneTarget : Nat := 0
  user : Word := 0
  deriving DecidableEq, Repr

/-- What a WAITING task waits for (R66, R67, R134). -/
inductive WaitFor where
  | release                          -- only for its frame to be released (R67)
  | frame (f : Word)
  | event (e : Nat)
  deriving DecidableEq, Repr

/-- The state of a task (R65). An ended task stays in the pool until its completion record is posted (R70). -/
inductive TaskState where
  | waiting (w : WaitFor)
  | ready
  | running (vent : Nat)
  | ended (endState cause : Nat)
  deriving DecidableEq, Repr

/-- One task in a caldera's pool. -/
structure Task where
  seq : Nat := 0                     -- sequence number of the handle (R64)
  desc : TaskDesc := {}
  st : TaskState := .ready
  at_ : Nat := 0                     -- caldera whose queue holds it (differs from the handle's after migration)
  holds : List Nat := []             -- calderas in which it keeps a pool entry, forwarding entries included (R165)
  pc : Word := 0                     -- where its next run starts
  runPc : Word := 0                  -- where its present or last run started (R72)
  cancel : Bool := false
  badSlots : List Nat := []          -- physical vents on which it met a hardware fault (R72)
  since : Nat := 0                   -- tick at which it became READY
  order : Nat := 0                   -- order in which it began waiting (R134)
  moved : Option (Nat × Nat × Bool) := none -- its last migration: tick, source, whether it took a pool entry (R153)
  deriving DecidableEq, Repr

/-- Who waits for room in a caldera (R148). -/
inductive Submitter where
  | vent (n : Nat)
  | port (m : Nat)
  deriving DecidableEq, Repr

/-- A stalled submission: who, the target caldera, the level, the descriptor and the frame it counts against. -/
structure Submission where
  who : Submitter
  k : Nat
  desc : TaskDesc
  deriving DecidableEq, Repr

/-- What has moved a caldera's budget counter in one VCK cycle (R153): the tick, B before, the refill, and the charges
(negative) and refunds by vent position, ascending. -/
structure BudgetCycle where
  tick : Nat := 0
  base : Int := 0
  refill : Option Int := none
  moves : List (Nat × Int) := []
  deriving DecidableEq, Repr

/-- A caldera's scheduler (chapter 05) beside its registers. -/
structure Caldera where
  ready : Map (List Nat) := []       -- level → task keys, head first
  starve : Map (Nat × Nat) := []     -- level → (head task passed over, tick of the first pass-over) (R156)
  guard : List (Nat × Nat) := []     -- (level, head task that started its guard) (R156)
  stalled : List Submission := []    -- in the order in which they stalled
  stallCyc : Nat × Nat := (0, 0)     -- tick and number of the last of them that stalled in one VCK cycle (R148)
  cycle : BudgetCycle := {}          -- the VCK cycle that moved B last (R153)
  qMax : Map Nat := []               -- level → largest depth since the last snapshot (R169)
  waitNs : Map Nat := []             -- level → waiting time summed, ns (R169)
  waitCnt : Map Nat := []            -- level → tasks dispatched
  busyUs : Map Nat := []             -- vent within the caldera → busy ticks
  refused : Bool := false            -- a head task was refused for budget since the last evaluation (R163)
  temp : Int := 0                    -- T of R159, the hotter of the two sensors
  deriving DecidableEq, Repr

/-- A compute die: its clock, its operating point and its regulator (R162 to R164, R506, R507). -/
structure CDie where
  on : Bool := false
  lost : Bool := false
  half : Nat := 0                    -- VCK half-cycles since power-up
  point : Nat := 1                   -- operating point, 0 = P0 to 5 = P5
  vck : Nat := 1                     -- point whose VCK runs (R507)
  fallOld : Option Nat := none       -- old point of a fall whose regulator write is outstanding
  noRail : Bool := false             -- VOUT_MODE did not read 0x14 at boot (R507)
  target : Option Nat := none        -- point of a change in progress
  cool : Nat := 0                    -- consecutive evaluations at or below t_soft − 5
  refAge : Nat := 1000               -- evaluations since a head task of the die was refused for budget
  naks : Nat := 0                    -- unacknowledged regulator writes of the change in progress
  temp : Int := 0                    -- T_d of R163
  deriving DecidableEq, Repr

/-- The 1,024 join gates (R145): an ARMED gate's expected and arrival counts. -/
structure Gate where
  armed : Bool := false
  expect : Nat := 0
  count : Nat := 0
  deriving DecidableEq, Repr

/-! ### Cores (R75 to R80) -/

/-- What a core is doing. -/
inductive CoreRun where
  | running
  | wfi
  | halted
  deriving DecidableEq, Repr

/-- A protection region (R77, R80). -/
structure Region where
  base : Word := 0
  lim : Word := 0
  att : Word := 0
  deriving DecidableEq, Repr

/-- A management or service core. -/
structure Core where
  run : CoreRun := .halted
  pc : Word := 0
  g : List Word := List.replicate 32 0
  flags : Word := 0
  status : Word := 0                 -- [0] ie, [1] pie, [2] pworld (R77)
  secure : Bool := true              -- the world (R76)
  epc : Word := 0
  cause : Word := 0
  tval : Word := 0
  vbase : Word := 0
  svbase : Word := 0
  seg : List Word := [0x0C0, 0x000, 0x040, 0x100]
  prSel : Word := 0
  pr : List Region := ⟨0, 0xFFFFFFFF, 0x1F⟩ :: List.replicate 15 {}
  start : Nat := 0                   -- value of `sck` at its last reset, for s_cycle
  stall : Option Stall := none
  deriving DecidableEq, Repr

/-! ### Queues, mailboxes and interrupts (chapter 13) -/

/-- Who pushes into a FIFO. -/
inductive Pusher where
  | hw (master unit : Nat)
  | host
  | core (n : Nat) (rd : BitVec 4)
  | vent (n : Nat) (rd : BitVec 4)
  deriving DecidableEq, Repr

/-- A push that waits for room (R347, R352). -/
structure StalledPush where
  who : Pusher
  words : List Word
  deriving DecidableEq, Repr

/-- The positions of one FIFO (R346, R353): W, R and L, their second copies, and M. Positions count entries since
the FIFO was last emptied. -/
structure Fifo where
  w : Nat := 0
  r : Nat := 0
  l : Nat := 0
  w2 : Nat := 0
  r2 : Nat := 0
  l2 : Nat := 0
  m : Nat := 0
  marked : Bool := false
  high : Bool := false
  last : List Word := []             -- the last entry popped; none popped since enable: zeros (R348)
  stage : List Word := []            -- words of a host push so far (R354)
  popIdx : Nat := 0                  -- words of the head entry the host has read
  lastW : Word := 0                  -- the last word popped (R348, R354)
  stalled : List StalledPush := []
  deriving DecidableEq, Repr

/-- A mailbox word with its sender's epoch (R360). -/
structure MbxWord where
  data : Word := 0
  epoch : Nat := 0
  deriving DecidableEq, Repr

/-- A post that waits for room (R359). -/
structure StalledPost where
  who : Pusher
  data : Word
  deriving DecidableEq, Repr

/-- One mailbox channel (R357 to R362): the words of each direction, the last word received in each, the words that
predate a party's reset, and stalled posts. -/
structure Channel where
  fwd : List MbxWord := []
  rev : List MbxWord := []
  lastF : MbxWord := {}
  lastR : MbxWord := {}
  oldA : Nat := 0
  oldB : Nat := 0
  stF : List StalledPost := []
  stR : List StalledPost := []
  deriving DecidableEq, Repr

/-- One interrupt target (R365 to R368): the stack of (source, priority), newest first, whether it is frozen, and
the source delivered and not claimed. -/
structure IcuTarget where
  stack : List (Nat × Nat) := []
  frozen : Bool := false
  dlv : Option Nat := none
  deriving DecidableEq, Repr

/-- What sinter keeps over DOZE and SLEEP (R371). -/
structure Sinter where
  pend : List Nat := []
  inSvc : List Nat := []
  stackOf : List (List (Nat × Nat)) := []
  regs : Map Word := []
  deriving DecidableEq, Repr

/-! ### Fault log (chapter 19) -/

/-- A fault record (R495). -/
structure FaultRec where
  seq : Nat := 0
  ns : Word := 0
  frame : Word := 0
  code : Nat := 0
  sev : Nat := 0
  count : Nat := 0
  d0 : Word := 0
  d1 : Word := 0
  d2 : Word := 0
  d3 : Word := 0
  deriving DecidableEq, Repr

/-! ### Host commands and sessions (chapter 14) -/

/-- An event frame held for a session (R387): code, frame field, payload word. -/
structure HostEvent where
  code : Nat
  frame : Word
  data : Word
  deriving DecidableEq, Repr

/-- A session (R383, R386, R388 to R390). -/
structure Session where
  id : Word := 0                     -- path, slot and sequence number (R383)
  isOpen : Bool := false             -- false: PENDING
  role : Nat := 0
  key : Nat := 0
  nonce : List Byte := []
  since : Nat := 0                   -- tick of the open or of the last request that passed step 3
  addr : Nat := 0                    -- bound address and UDP port of a network session
  port : Nat := 0                    -- receiving MAC port
  rxLast : Nat := 0                  -- last alive value accepted
  tx : Nat := 0                      -- the Nerza's own alive counter
  lastResp : List Byte := []
  held : List HostEvent := []        -- oldest first, at most 256
  deriving DecidableEq, Repr

/-- A request that passed steps 1 to 6 of R385 and waits to be executed. -/
structure Request where
  net : Bool := false
  addr : Nat := 0
  port : Nat := 0
  code : Nat := 0
  sid : Word := 0
  tag : Word := 0
  frame : Word := 0
  payload : List Byte := []
  gap : Bool := false
  drop : Bool := false               -- its session has ended: the response is discarded (R390)
  deriving DecidableEq, Repr

/-- A swap that waits for a frame boundary (R36, R492): the unit, the host request that asked, and whether SPA_SWAPGO
did. With neither, the unit is retired and the swap is automatic. -/
structure SwapDue where
  kind : Nat
  unit : Nat
  req : Option Request := none
  reg : Bool := false
  deriving DecidableEq, Repr

/-- A response that waits to be delivered: the request it answers, its status, its payload and, for a repeated
request, the frame to send again unchanged. -/
structure Response where
  req : Request
  status : Nat
  payload : List Byte
  raw : Option (List Byte) := none
  deriving DecidableEq, Repr

/-- A burst in flight (R382), with its configuration as read at go. -/
structure Burst where
  haddr : Nat := 0
  daddr : Nat := 0
  row : Nat := 0
  rows : Nat := 0
  dir : Bool := false
  dstride : Int := 0
  hstride : Int := 0
  deriving DecidableEq, Repr

/-- The host port: sessions, requests and responses, the show state's fade times (R391) and transition to come, MSI-X
(R373), bursts in flight, what the last burst wrote to host memory (host address and bytes), what the last BAR2 or BAR4
read returned, and the frame sent last by UDP with its address. -/
structure HostSide where
  sessions : List Session := []
  reqs : List Request := []          -- oldest first
  resps : List Response := []        -- oldest first
  nextSeq : Nat := 1                 -- sequence number of the next session id
  udpOut : Option (Nat × List Byte) := none
  bursts : Map (Option Burst) := []
  burstOut : List (Nat × List Byte) := []
  barRead : List Byte := []
  winDone : Map Bool := []           -- window × 65536 + offset: done since the arm (R381)
  frozenT : Word := 0                -- fade time at which ARMED or HELD is frozen (R391)
  runFrame : Word := 0               -- frame A at which RUNNING was entered
  runT : Word := 0                   -- fade time at that frame
  showAt : List (Nat × Nat × Word) := []  -- transitions accepted and not yet applied, by frame: command, new state, frame A
  msixEn : Bool := false
  msixMask : Map Bool := []          -- vector → masked; an unlisted vector is masked
  msixWords : Map Word := []         -- address and data words of the MSI-X table, by word
  msixSent : List Nat := []          -- vectors sent, newest first
  linkUp : Bool := true
  deriving DecidableEq, Repr

/-! ### The chain (chapters 06 and 19) -/

/-- A commit notice (R188): frame, E, P_min, pair role and its TSU_NS of arrival. -/
structure Notice where
  frame : Word := 0
  e : Word := 0
  pmin : Nat := 0
  role : Nat := 0
  at_ : Word := 0
  deriving DecidableEq, Repr

/-- The STATUS of another package (R473). -/
structure Peer where
  role : Nat := 0
  show_ : Nat := 0
  tsu : Nat := 0
  partner : Nat := 0xFF
  committed : Word := 0
  renderId : Word := 0
  uid : List Byte := []
  heard : Nat := 0                   -- tick of its arrival
  deriving DecidableEq, Repr

/-- A chain message (R471, R473): type, source, destination, hops left, alive counter, frame and body. -/
structure ChnMsg where
  typ : Nat
  src : Nat
  dst : Nat
  ttl : Nat
  alive : Nat
  frame : Word
  body : List Byte
  deriving DecidableEq, Repr

/-- A chain message at a port (R475): the port, its class, and the message; none: begun, and ended with ABORT. -/
structure ChnTx where
  west : Bool
  cls : Nat
  msg : Option ChnMsg
  deriving DecidableEq, Repr

/-- The window of alive counters seen from one source in one type (R474): the highest accepted, bit i of `mask` for
`last` − i, and how many counters the window covers. -/
structure RxWin where
  last : Nat
  mask : Nat
  w : Nat
  deriving DecidableEq, Repr

/-- A role swap in progress (R486): its frame, whether ACCEPT has been given, and the host command that asked, if any. -/
structure PairSwap where
  at_ : Word
  accepted : Bool := false
  req : Option Request := none
  auto : Bool := false
  deriving DecidableEq, Repr

/-- PAIR beside its registers (R479 to R491): the swap in progress, the earliest tick of the next automatic proposal,
the tick of the last role change, that of the last swap, whether a swap back waits for its frame, the tick at which the
partner was last heard and whether it is lost, digest records of both packages by frame, the last frame whose record was
made, consecutive mismatches, the frame at which catch-up was left and the matches since, a snapshot asked for, the
frame of the snapshot being copied with its LGV record, the LGV record of the one being received, the input
log's entries with the ENDs received, and the ring's next byte. -/
structure PairEng where
  swap : Option PairSwap := none
  retryAt : Nat := 0
  roleTick : Nat := 0
  checkFrom : Nat := 0
  back : Bool := false
  heard : Nat := 0
  lost : Bool := false
  own : List (Word × List Byte) := []
  theirs : List (Word × List Byte) := []
  made : Option Word := none
  misRun : Nat := 0
  caughtFrom : Option Word := none
  syncRun : Nat := 0
  snapWant : Bool := false
  snap : Option Word := none
  snapLgv : List Byte := []
  rxLgv : List Byte := []
  inlog : List ChnMsg := []
  inPos : Nat := 0
  ends : List (Word × Nat) := []
  deriving DecidableEq, Repr

/-! ### Show tables, buffers and video stores (chapter 07) -/

/-- One entry of a show table: the record that frame FLK_FRAME sees (empty: none), and the edits accepted for later
frames, in frame order (R200). -/
structure TblSlot where
  cur : List Byte := []
  edits : List (Word × List Byte) := []
  deriving DecidableEq, Repr

/-- The show tables of R200: fixtures (R201), personalities (R204), user curves (R205), canvases (R212), layers (R215),
universes (R296) and streams (R303). -/
structure Tables where
  fix : Map TblSlot := []
  /-- The pending cue step of a fixture, go_frame and step, where a CUE_STEP gave it after its last PATCH (R206, R208). -/
  cue : Map TblSlot := []
  pers : Map TblSlot := []
  curve : Map TblSlot := []
  canvas : Map TblSlot := []
  layer : Map TblSlot := []
  univ : Map TblSlot := []
  stream : Map TblSlot := []
  deriving DecidableEq, Repr

/-- A generator task of a frame (R215): the entry address of layer `layer`, and the join gate armed for it once it has
been spawned. -/
structure GenTask where
  frame : Word
  layer : Nat
  pc : Word
  gate : Option Nat := none
  deriving DecidableEq, Repr

/-- State of a buffer (R219 to R222). -/
inductive BufState where
  | free
  | live
  | draining
  deriving DecidableEq, Repr

/-- A buffer: DRAM base, size and pitch, the session whose BUF_FREE drains it, and the last frame that referenced it. -/
structure Buf where
  st : BufState := .free
  base : Nat := 0
  size : Nat := 0
  pitch : Nat := 0
  sid : Word := 0
  last : Option Word := none
  deriving DecidableEq, Repr

/-- State of a video frame store (R224). -/
inductive VidState where
  | empty
  | filling
  | complete
  | partial_
  deriving DecidableEq, Repr

/-- A video frame store: its timestamp, samples placed per row, the last extended sequence number, the last show frame
that selected it, and the order in which it was taken. -/
structure VStore where
  st : VidState := .empty
  ts : Word := 0
  rows : Map Nat := []
  lastSeq : Option Nat := none
  selBy : Option Word := none
  order : Nat := 0
  deriving DecidableEq, Repr

/-! ### The test access port (chapter 20) -/

/-- States of the IEEE 1149.1 controller. -/
inductive TapState where
  | reset | idle
  | selDr | capDr | shiftDr | exit1Dr | pauseDr | exit2Dr | updDr
  | selIr | capIr | shiftIr | exit1Ir | pauseIr | exit2Ir | updIr
  deriving DecidableEq, Repr

/-- The instructions of R512, and one that is not public. -/
inductive TapInstr where
  | bypass | idcode | sample | extest | clamp | highz | other
  deriving DecidableEq, Repr

/-- The test access port (R512): its controller, the instruction in force, what is being shifted (the bit next to TDO
first), the boundary register's latched outputs, and TDO. -/
structure Tap where
  st : TapState := .reset
  instr : TapInstr := .idcode
  shift : List Bool := []
  latch : List Bool := []
  tdo : Option Bool := none
  deriving DecidableEq, Repr

/-! ### Tile lanes (chapter 08) -/

/-- One channel of a plane store: the tile pixel's column and line, and the 20-bit value before dither (R250). -/
structure PlaneCh where
  i : Nat
  j : Nat
  x : Nat
  deriving DecidableEq, Repr

/-- A tile line to send: its line, its tile's address and map entry, and whether it is sent dark. -/
abbrev TileLine := Nat × Nat × List Byte × Bool

/-- A tile lane beside its status registers: its active copies (R251), the scan of grey mode with its line buffer (R239 to
R241, R244, R245) and the plane stores of spread-plane mode (R246, R250). -/
structure Lane where
  act : Map Word := []
  slotAct : Map Word := []           -- the values that slots use until the frame of a commit takes effect (R251)
  anchor : Int := 0                  -- TSU time of slot 0, ns, not wrapped (R246)
  pend : List (Nat × Nat) := []      -- commits not applied yet: number, frame boundaries to come (0: due)
  trained : Bool := false            -- ENUM sent, RUN at the next frame or period start (R253)
  switched : Bool := false           -- in spread-plane mode since a SWITCH, and no slot sent since
  newFrame : Bool := false           -- a frame has been taken that the lane has not begun to scan
  scanning : Bool := false
  rep : Bool := false                -- the scan is a REPEAT
  startNs : Word := 0                -- TSU_NS at which the scan begins
  startTick : Nat := 0
  endNs : Word := 0                  -- TSU_NS at which the last scan ended
  endTick : Nat := 0
  scanned : Bool := false            -- some scan has ended
  lines : List (List Byte) := []     -- LINE packets of the last scan that ended
  crc : Word := 0
  plan : List TileLine := []         -- what is fetched, for the frame below
  frame : Word := 0
  scales : Map Nat := []             -- that frame's final scales (R230)
  pre : Bool := false                -- the line buffer is being prefilled (R240)
  asked : Nat := 0                   -- lines whose fetch has been issued
  data : List (Nat × List Byte) := []  -- the line buffer: LINE packets by place in the scan
  cur : List (List Byte) := []       -- LINE packets sent of the scan in progress
  hot : Bool := false                -- a restart that has not reached the urgent level (R245)
  sent : List (Nat × List Byte) := []  -- what the last command sent: IDLE blocks counted before it, packet or control block
  slot : Nat := 0                    -- number of the last slot started (R246)
  slotOn : Bool := false
  planes : List PlaneCh := []        -- plane store on show
  fill : List PlaneCh := []          -- inactive plane store
  got : List (Nat × List PlaneCh) := []  -- tile lines that the fill has received
  fillFrame : Word := 0
  fillFrom : Int := 0                -- TSU time at which the fill began, ns
  filling : Bool := false            -- a fill is in progress
  filled : Bool := false             -- the inactive store holds a frame not shown yet
  showFrom : Nat := 0                -- refresh period from which the fill is shown, counted from the anchor
  lateNoted : Bool := false
  effectNs : Option Word := none     -- start of the period at which the newest frame took effect (R242)
  enumOpen : Bool := false           -- within 10 ms of ENUM (R265)
  idents : Nat := 0
  dark : Bool := false               -- the next slot's PLANE packet gives way to a swap of the serializer (R492)
  restTill : Nat := 0                -- tick until which a lane with a swapped serializer sends IDLE (R492)
  deriving DecidableEq, Repr

/-- A scan head's read that waits at a DRAM channel (R30, R42): the lane and its tile line, the class (0 normal, 1
urgent, 2 critical), and the tick of its issue. -/
structure DramReq where
  chan : Nat
  lane : Nat
  line : Nat
  cls : Nat
  since : Nat
  deriving DecidableEq, Repr

/-! ### Spread drive (chapter 09) -/

/-- A fade taken by SPD_CHn_FGO.go that waits for its start period (R271): the target with its curve, the length, the
start period (none: the next boundary at least 1 µs after the write), and the tick of the write. -/
structure SpdGo where
  fto : Word
  len : Word
  at_ : Option Word
  wrote : Nat
  late : Bool := false               -- FAT had passed: it starts at the next boundary
  deriving DecidableEq, Repr

/-- A spread-drive channel beside its registers (R268, R269): its level before derating, its fade, whether it holds its
rest LEVEL, the requests that wait for a boundary, its remainder, its frame value and its on-time. -/
structure SpdCh where
  level : Nat := 0
  from_ : Nat := 0
  fto : Word := 0
  start : Word := 0
  len : Word := 0
  rest : Bool := false
  go : Option SpdGo := none
  rel : Bool := false
  relLast : Bool := false            -- the release was written after the fade that waits
  acc : Nat := 0
  accWas : Nat := 0                  -- the remainder before the present period (R273)
  fact : Nat := 0x10000              -- the derating factor of the present period (R277)
  frameVal : Nat := 0
  on : Nat := 0
  deriving DecidableEq, Repr

/-- What has reached the spread-drive channels in one TBC tick (R274): SPD_PIDX, the channels and their status words
before it, then the FGO writes (channel, and its fade or a release), whether a period boundary came, and the triggers. -/
structure SpdTick where
  tick : Nat
  pidx : Word
  chans : Map SpdCh
  stats : List Word
  gos : List (Nat × Option SpdGo) := []
  period : Bool := false
  trigs : List Nat := []
  deriving DecidableEq, Repr

/-! ### DMX ports (chapter 11) -/

/-- A DMX port beside its registers: the frame an output has taken, the frame-locked packet that waits and the tick of
its frame start (R310, R311), the packet buffer and the break and mark of the last packet (ticks), the RDM transaction,
and what an input has received (R319). -/
structure DmxPort where
  taken : Option Word := none
  due : Option (Word × Nat) := none
  buf : List Byte := []
  frame : Word := 0
  brk : Nat := 0
  mab : Nat := 0
  start : Nat := 0                   -- tick of the last break start
  sentAny : Bool := false            -- a packet has been sent since the enable
  driving : Bool := false            -- _DE may be high (R318)
  rdm : Bool := false                -- a request waits for a packet boundary (R321)
  rdmSent : List Byte := []          -- the request on the line, with its checksum
  rdmLate : Bool := false            -- a frame start came during the transaction (R323)
  inSlots : List Byte := []
  inGot : Nat := 0
  deriving DecidableEq, Repr

/-! ### Ethernet ports and the universe engine (chapter 10) -/

/-- A packet to be sent: UDP datagrams by their fields (R297, R302), raw bytes without FCS, or PAUSE. -/
inductive NetPkt where
  | udp (dmac dip dscp sport dport : Nat) (payload : List Byte)
  | raw (bytes : List Byte)
  | pause (quanta : Nat)
  deriving DecidableEq, Repr

/-- What a UNV packet is, for its counter. -/
inductive UnvKind where
  | data
  | sync
  | native
  deriving DecidableEq, Repr

/-- What a port's transmitter is sending. -/
inductive TxSource where
  | pause
  | fastPath
  | ring (r descs status : Nat)
  | unv (k : UnvKind)
  deriving DecidableEq, Repr

/-- A received frame with what its rule decides (R284): the rule's index, whether it stamps, its action and target, and
TSU_NS at the end of the frame. -/
structure RxItem where
  rule : Nat
  ts : Bool
  action : Nat
  target : Nat
  ns : Word
  frame : List Byte
  deriving DecidableEq, Repr

/-- An Ethernet port beside its registers: received frames that wait behind a stalled push (R285), queued UNV packets with
their frame, fired fast-path packets, the frame being sent, what it last sent, pause sources seen above their high marks, PAUSE frames to send, and the ring after which
the round robin goes on. -/
structure MacPort where
  rxq : List RxItem := []
  unvq : List (Word × UnvKind × NetPkt) := []
  fpq : List (List Byte) := []
  tx : Option (TxSource × NetPkt) := none
  stamped : Bool := false            -- its descriptor asks for stamping (R176)
  sent : Option NetPkt := none
  wire : List Byte := []             -- that frame's bytes, destination address to FCS
  rxHigh : Bool := false
  pauseSeen : List Nat := []
  pauseq : List Nat := []
  rr : Nat := 15
  deriving DecidableEq, Repr

/-- An input universe's source (R306). -/
structure SacnSrc where
  cid : List Byte
  prio : Nat := 0
  seq : Nat := 0
  slots : List Byte := []
  held : Option (List Byte) := none
  sync : Nat := 0
  order : Nat := 0
  active : Bool := false             -- some data has been accepted
  deriving DecidableEq, Repr

/-- The universe engine beside its registers: the frame on the wire, its repeats, universes that terminate with the
slots they hold and the packets left, the entries sent for the last frame with their slots, the data and
synchronisation packets of the frame by port, the digest of all its packets, the inputs, the ticks of the last synchronisation packet per address, and
the source name in force and taken. -/
structure Unv where
  frame : Word := 0
  began : Bool := false
  reps : Nat := 0
  term : List (Nat × List Byte × List Byte × Nat) := []
  lastSent : List (Nat × List Byte × List Byte) := []
  built : List (Nat × UnvKind × NetPkt) := []
  crc : Word := 0                    -- CRC-32C over the UDP payloads of the frame's packets (R483)
  inputs : Map (List SacnSrc) := []
  syncSeen : Map Nat := []
  arrivals : Nat := 0
  name : List Byte := List.replicate 64 0
  nameTaken : List (Nat × List Byte) := []
  deriving DecidableEq, Repr

/-! ### The Langal engine and the LG-16 host bus (chapter 12) -/

/-- The Langal engine beside the LGL registers, which hold its PC, its state, its tick and its session: registers, flags
and return stack (R327), program store and data space (R328), the snapshot of the last tick (R329), trim tables and
their staging (R344), the LHB registers (R335) with the pointer and the prefetched byte (R337), the last byte an LHB
read returned, what each DMX port sent last (R341), and what NVS keeps of it (R338, R339, R344). -/
structure Langal where
  a : List (BitVec 16) := List.replicate 16 0
  c : Bool := false
  z : Bool := false
  stack : List (BitVec 12) := List.replicate 8 0
  top : Nat := 0                     -- slot of the next push, modulo 8
  depth : Nat := 0                   -- entries held, at most 8
  prog : Map (BitVec 16) := []
  data : Map (BitVec 16) := []       -- words 0x0000 to 0x47FF that are not 0
  portEn : BitVec 16 := 0
  waiting : Bool := false            -- in WAITT
  tickSeen : Bool := false           -- a tick has come since
  pace : Bool := false               -- pace in force (R330)
  ticked : Bool := false             -- tick 0 has come
  snap : Map (BitVec 16) := []
  snapEn : BitVec 16 := 0
  trim : Map Byte := []              -- port × 256 + v; identity where unlisted
  trimNext : Map Byte := []          -- in force from the next tick
  stage : Map Byte := []
  pw : List Byte := List.replicate 8 0
  busy : Bool := true
  firstRead : Bool := false          -- busy reads 1 once more (R336)
  absent : Bool := false             -- engine and spare failed (R326)
  err : Bool := false
  toggle : Bool := false
  autorun : Bool := false
  arg0 : Byte := 0
  arg1 : Byte := 0
  result : Byte := 0
  pendRes : Byte := 0                -- result of the command in progress
  addrl : Byte := 0
  addrh : Byte := 0
  ptr : Nat := 0
  pre : Byte := 0
  space : Nat := 0
  irq : Byte := 0
  irqEn : Byte := 0
  h2e : Byte := 0
  e2h : Byte := 0
  out : Byte := 0
  fails : Nat := 0                   -- consecutive failed LOGINs
  sent : Map (List Byte) := []
  lhbSpi : Bool := false             -- LHB_SEL as sampled: the SPI form (R325)
  nvProg : Map (BitVec 16) := []
  nvCues : Map (BitVec 16) := []
  nvTrim : Map Byte := []
  nvAutorun : Bool := false
  nvHash : List Byte := List.replicate 32 0
  deriving DecidableEq, Repr

/-! ### Keys (chapter 15) -/

/-- A key slot that holds a key: its blob header (32 bytes, R403) and its material. -/
structure KeySlot where
  hdr : List Byte
  mat : List Byte
  deriving DecidableEq, Repr

/-- A KEY operation that has not ended: its status, result word and output, and the output address that its GO read. -/
structure KeyDone where
  status : Nat
  resv : Word
  out : List Byte
  addr : Nat
  deriving DecidableEq, Repr

/-- The KEY engine beside its registers (R394 to R413): the root (in Spring), slots, the generation table, the provisioning
key's blob and the transferred key's (in NVS), the operation in progress, a life-cycle move whose eviction waits for its response
(R412), and a zeroization whose record waits for the next boot (R397). -/
structure KeyEng where
  root : List Byte := List.replicate 32 0
  slots : List (Nat × KeySlot) := []
  gens : Map Nat := []
  pk : List Byte := []
  kept : List Byte := []
  pend : Option KeyDone := none
  evict : Option Nat := none
  tamperDue : Bool := false
  deriving DecidableEq, Repr

/-! ### Boot and update (chapter 18) -/

/-- Boot and update beside the UPD registers (R456 to R463): how far the boot has come, the slot it runs, the two copies
of the boot-control word and which was read last, the measurements of this boot (R415), the boot count, and a block
being staged (its number and whether its read-back is checked, and the CRC expected). -/
structure Upd where
  booted : Bool := false             -- step 8 of R460 has come since the last reset
  recovery : Bool := false           -- ROM waits for UPD_RECOVER
  slot : Nat := 0
  copy0 : Word := 0
  copy1 : Word := 0
  cur : Nat := 0
  measures : List (Nat × List Byte) := []
  bootCount : Nat := 0
  block : Option Request := none
  hold : Option Word := none         -- frame A of an activation whose frame start A + 1 has not come (R463)
  trialFrom : Nat := 0               -- tick of step 3 of R463
  deriving DecidableEq, Repr

/-! ### Commits (R47, R517) -/

/-- A commit that has been written and not yet applied: its register, its place among commits and shadow writes, the tick
of its write, whether it has been checked and accepted, the registers it takes and the values it took of them. -/
structure Commit where
  reg : Nat
  no : Nat
  at_ : Nat
  ok : Bool
  ranges : List (Nat × Nat)
  vals : Map Word
  deriving DecidableEq, Repr

/-! ### Power and the Spring domain (chapter 17) -/

/-- An entry to a power state in progress: its target and the state it came from (R444, R445). -/
structure PwrEntry where
  target : Nat
  from_ : Nat
  deriving DecidableEq, Repr

/-- Power and the Spring domain beside their registers: an entry or a DOZE exit in progress, whether HIBERNATE was
entered, the watchdog's start, Spring writes that wait (R450), the RTC's fraction of an SPR tick, ticks since the last
trim and ticks to skip (R447), whether the alarm's match has not fired yet (R448), the wake times in NVS, and the first
wake source caught since the last entry. -/
structure Power where
  entry : Option PwrEntry := none
  exit : Option Nat := none          -- tick of the PWC_REQ write that began it
  hib : Bool := false
  off : Bool := false
  wdStart : Nat := 0
  sprQ : List (Nat × Word) := []
  sprStall : List (Nat × Word × Bool) := []   -- true: the management core waits with it
  frac : Nat := 0
  sub20 : Nat := 0
  skip : Nat := 0
  almDue : Bool := false
  wakes : List Word := []
  wakeAt : Option Nat := none        -- tick at which a wake source was latched in SLEEP
  causeAt : Nat := 0                 -- tick at which SPR_WAKE_CAUSE was recorded
  sprLost : Bool := false            -- the Spring domain has reset since the last boot
  deriving DecidableEq, Repr

/-! ### Energy, calibration and check units (chapter 16) -/

/-- NRG beside its registers (R417 to R423): the accounts of the pulse inputs and zones (56 bits: the accumulator of 48
and above it the wrap counter of 8), the zones' remainders in nJ, the cycles since the last latch and how many of them
were synthetic, the tick of the last counted cycle, while sync is lost the tick of the first synthetic cycle and how
many are counted, the tick of the last real edge and the good intervals before it, and a latch that is due. -/
structure Nrg where
  imp : Map Nat := []
  exp : Map Nat := []
  cntI : Map Nat := []
  cntE : Map Nat := []
  zone : Map Nat := []
  rem : Map Nat := []
  cyc : Nat := 0
  synth : Nat := 0
  last : Nat := 0
  lostAt : Nat := 0
  lostN : Nat := 0
  edge : Nat := 0
  good : Nat := 0
  due : Bool := false
  latchAt : Option Nat := none
  synAt : Option Nat := none
  wtWas : Map (Option (Nat × Word)) := []
  deriving DecidableEq, Repr

/-- A record of an accepted PIXEL_GAIN run in NVS (R434): run number, tol, count and the SHA-256 of the output. -/
structure CalRecord where
  run : Nat
  tol : Nat
  count : Nat
  sha : List Byte
  deriving DecidableEq, Repr

/-- CAL beside its registers: the run in progress, and what NVS holds (R434): records of PIXEL_GAIN runs, and the
33 entries of each corrected sensor. -/
structure CalEng where
  run : Option Request := none
  records : List CalRecord := []
  lin : Map (List (BitVec 16)) := []
  deriving DecidableEq, Repr

/-! ### The whole state -/

/-- The state of the Nerza. -/
structure State where
  /-- The commands that wait, oldest first. -/
  pending : List Instr := []
  /-- TBC ticks (2.5 ns) since the main rails rose: the model's clock (assumption 1). -/
  now : Nat := 0
  /-- Eighths of SCK cycles since the main rails rose (1.0 GHz, or 250 MHz in DOZE), for s_cycle of a core (R52). -/
  sck : Nat := 0
  /-- How many free values have been taken: the model's own field, not the spec's (assumption 3). -/
  fresh : Nat := 0
  /-- Registers that differ from their reset value, by device address: what a read returns (R47: the shadow). -/
  regs : Map Word := []
  /-- The active copies of shadowed registers (R47). -/
  act : Map Word := []
  /-- The values that the last commit of each block took (R47). -/
  taken : Map Word := []
  /-- Commits written and not applied, oldest first; the number of commits and stamped shadow writes made; and the number
  of the last write by software of each shadow that hardware writes too (R171, R182, R158). -/
  commits : List Commit := []
  writeNo : Nat := 0
  shadowNo : Map Nat := []
  /-- DRAM, NVS, crater scratch and hub SRAM by device address (R37); an unlisted byte reads 0. -/
  mem : List Host.Cell := []
  /-- Memory words that hold an ECC error: word address → 1 single-bit, 2 double-bit (R22, R497 DRM_UE). -/
  ecc : Map Nat := []
  /-- The TSU accumulator, 32.32 ns (R170), the times TSU_NS has wrapped since reset, and TSU_NS at the last 8 ticks, newest
  first: samples of it are up to that old (R49, R173, R175). -/
  tsuAcc : Nat := 0
  tsuHi : Int := 0
  tsuHist : List Word := []
  vents : Map Vent := []
  craters : Map Crater := []
  tasks : Map Task := []
  /-- Sequence number last used by a pool entry (R64). -/
  seqs : Map Nat := []
  cals : Map Caldera := []
  dies : Map CDie := []
  gates : Map Gate := []
  /-- Cores by interrupt target number: 0 the management core, 1 to 8 the service cores (R363). -/
  cores : Map Core := []
  /-- Orders waiting tasks and stalled submissions. -/
  ticketNo : Nat := 0
  /-- The frame whose buffers the outputs took last (R186), and the one that counts as taken for R67 (R183): none before
  the first frame start of an enable. -/
  outTaken : Word := 0xFFFFFFFF
  relTaken : Option Word := none
  fifos : Map Fifo := []
  chans : Map Channel := []
  targets : Map IcuTarget := []
  /-- Sources with an edge pending, and sources in service (R364). -/
  icuPend : Map Bool := []
  icuSvc : Map Bool := []
  /-- Levels of the GPIO pins and other external level sources. -/
  icuLine : Map Bool := []
  sinter : Sinter := {}
  /-- Class L sources caught by the Spring latch while clocks stop (R372). -/
  springLatch : Map Bool := []
  /-- Fault records, newest first, and those kept in NVS (R496). -/
  flt : List FaultRec := []
  fltNvs : List FaultRec := []
  host : HostSide := {}
  /-- Hardware-cause faults by physical vent: (vent, tick), newest first (R492). -/
  hwFaults : List (Nat × Nat) := []
  /-- Physical vents whose next internal datapath check fails (R71 HWCHK): a defect of the part, as `ecc` is. -/
  hwchk : List Nat := []
  /-- The scan heads' reads that wait at the DRAM channels, oldest first (R42, R43), and the refreshes that each channel has
  deferred (R42). -/
  dramReqs : List DramReq := []
  dramRef : Map Nat := []
  /-- The word that the last host read of a register with a side effect returned: the model's own output. -/
  hostRead : Word := 0
  /-- Consecutive 1 ms periods above and within the package limit (R160). -/
  bgtOver : Nat := 0
  bgtUnder : Nat := 0
  /-- A capture has been asked for through SCH_SNAP (R169). -/
  snapReq : Bool := false
  /-- A capture of the accumulator has been asked for (R173). -/
  capReq : Bool := false
  /-- The number of the FLK commit applied last (R182). -/
  flkNo : Nat := 0
  /-- A rate taken by an applied commit that waits for FLK_RCHG.at_frame (R198): N, D, frame, number of the commit. -/
  ratePend : Option (Nat × Nat × Word × Nat) := none
  /-- Tick of the last FSYNC_OUT edge (R186). -/
  fsyncAt : Option Nat := none
  /-- The announced next frame start: frame, target, trim, FRAME_LAG bit (R188, R189, R197). -/
  flkNext : Option (Word × Word × Word × Bool) := none
  /-- A frame start has fired since the enable (R183), and S of the last one. -/
  flkFired : Bool := false
  flkS : Word := 0
  /-- The frame for which lateness has been noted (R193). -/
  lateNoted : Option Word := none
  /-- Frames sealed up to and including this number, and the first frame whose seal is held (R187, R463, R490). -/
  sealed : Option Word := none
  sealHold : Option Word := none
  /-- Frame and fade time from which fade time continues (R198). -/
  fadeFc : Word := 0
  fadeTc : Word := 0
  /-- The last commit notice of each package, by chain ID (R188). -/
  notices : Map Notice := []
  /-- What the last STATUS of each other package said (R473, R477). -/
  peers : Map Peer := []
  /-- Chain messages that this package has originated, oldest first, with the ports each left on (false east, true
  west; R472, R473). -/
  chnOut : List (List Bool × ChnMsg) := []
  /-- Alive counter per message type of the messages sent (R474). -/
  chnAlive : Map Nat := []
  /-- A pair-role change that takes effect at a frame start: role, frame (R479). -/
  roleAt : Option (Nat × Word) := none
  /-- The show tables (R200), and buffers by id (R219). -/
  tbl : Tables := {}
  bufs : Map Buf := []
  /-- Video frame stores: flow × 4 + store (R224). -/
  vid : Map VStore := []
  /-- The timestamp of the video frame that a flow discarded last because every store was held (R224). -/
  vidDrop : Map (Option Word) := []
  /-- The store that a layer of kind 2 samples in a frame, by frame parity × 16 + layer (R225); unlisted or 4: none. -/
  layerStore : Map Nat := []
  /-- Group scales s of the last computation, before the feed scale (s_prev of R228); unlisted: 0x1_0000. -/
  lgvPrev : Map Nat := []
  /-- Drive parts D of the last computation (R227), for the zone powers of R419. -/
  lgvD : Map Nat := []
  /-- Temperature factors in force at each frame start, newest first, for frames that may still be computed or compared
  (R227, R484), and the last ones received from the partner with the frame they are for (R232). -/
  tfFrames : List (Word × Map Nat) := []
  tfPair : Map Nat := []
  tfPairAt : Option Word := none
  /-- The final group scales of the frame that the outputs have taken (R230); unlisted: 0x1_0000. -/
  outScale : Map Nat := []
  /-- What the firmware writes into the tables that outputs read once they have taken the frame before: the frame, the
  address and the bytes, in frame order (R200, R210, R211, R234). -/
  slotWrites : List (Word × Nat × List Byte) := []
  /-- What it writes into the tables and state blocks that the kernels read once the frame named has committed (R200,
  R208). -/
  copyWrites : List (Word × Nat × List Byte) := []
  /-- Generator tasks that the firmware spawns for a frame (R215). -/
  gens : List GenTask := []
  /-- The fade time of each frame that has started, newest first, for frames not yet committed (R126, R207). -/
  fadeFrames : List (Word × Word) := []
  /-- ts_F in the arguments of the tasks of a layer of kind 2, by frame parity × 16 + layer (R225). -/
  layerTs : Map Word := []
  /-- The tile lanes 0 to 31. -/
  tileLanes : Map Lane := []
  /-- Spread-drive channels 0 to 95 (R269). -/
  spd : Map SpdCh := []
  /-- The anchor of the last SPD commit applied (R267). -/
  spdAnch : Word × Word := (0, 0)
  /-- A frame has been taken whose values no boundary has applied yet: the frame start's target (R270). -/
  spdNew : Option Word := none
  /-- What has reached the channels in the last tick in which anything did (R274). -/
  spdTick : Option SpdTick := none
  /-- What the balls drive: 0 nothing, 1 the inactive level, 2 the schedule (R278). -/
  spdOut : Nat := 0
  /-- Consecutive good samples of each sensor (R276), and the partner's last readings (R277). -/
  snsGood : Map Nat := []
  snsPair : Map Nat := []
  /-- DMX ports 0 to 15. -/
  dmx : Map DmxPort := []
  /-- Ethernet ports 0 to 9 and fast-path packets armed (R304), by entry. -/
  macs : Map MacPort := []
  fpArmed : Map (List Byte) := []
  unv : Unv := {}
  tap : Tap := {}
  lgl : Langal := {}
  keys : KeyEng := {}
  upd : Upd := {}
  pwr : Power := {}
  nrg : Nrg := {}
  calib : CalEng := {}
  /-- CHK streams in progress: unit → next address and bytes (R436). -/
  chkRun : Map (Nat × Nat) := []
  /-- Chain messages forwarded, with their port; none for one ended with ABORT (R472). -/
  chnFwd : List (Bool × Option ChnMsg) := []
  /-- Messages that wait at the chain ports (R475), those that the ports have begun to send, in order, and the tick at which
  each port is free again (0 east, 1 west). -/
  chnQ : List ChnTx := []
  chnLine : List ChnTx := []
  chnTill : Map Nat := []
  /-- Alive windows by source × 256 + type (R474). -/
  chnWin : Map RxWin := []
  /-- The next receive slot, and slots in use (R476). -/
  chnSlot : Nat := 0
  chnUsed : Nat := 0
  pair : PairEng := {}
  /-- What the balls of pair-owned spread-drive outputs drive, as `spdOut` (R279). -/
  spdPair : Nat := 0
  /-- TSU_NS at the last commit of a frame (R491). -/
  committedNs : Word := 0
  /-- Units retired and not swapped yet: (kind, unit), numbered as R518. -/
  failedUnits : List (Nat × Nat) := []
  /-- Tile lanes whose serializer has failed with no spare left, which stay DOWN (R518). -/
  lanesOut : List Nat := []
  /-- Swaps that wait for a frame boundary, in order (R36, R492). -/
  swapsDue : List SwapDue := []
  /-- Times each 64 KB block of NVS has been written (R494). -/
  nvsWear : Map Nat := []
  deriving DecidableEq, Repr

/-- The machine right after a power-on reset (R451), before boot: every register at its reset value, nothing in
memory, no task, session or key; the cores are held until boot starts them (R460). Values the spec does not give are
named in the assumption log. -/
def State.reset : State := {}

end Sys2Proof.Machine
end

