-- ==== Sys2Proof/Machine/Ops.lean ====
section
/-!
DEFINITION. The named operations over registers, memory, time, the fault log and free values. Every meaning reads
and writes registers and memory through these.
-/
namespace Sys2Proof.Machine
open Sys2Proof

/-! ### Reset values that fuses, straps, NVS or a rule give -/

/-- The level sources of R364 (GPIO sources are edge at reset). -/
def icuLevelSrc (n : Nat) : Bool :=
  n == 0x000 || n == 0x001 || (0x100 ≤ n && n ≤ 0x109) || (0x110 ≤ n && n ≤ 0x11C) || n == 0x148
    || (0x200 ≤ n && n ≤ 0x2FF)

/-- The interrupt sources of the table of R364; every other number is reserved. -/
def icuSrcExists (n : Nat) : Bool :=
  n == 0 || n == 1 || (0x008 ≤ n && n ≤ 0x00E) || (0x010 ≤ n && n ≤ 0x01A) || (0x020 ≤ n && n ≤ 0x05D)
    || (0x060 ≤ n && n ≤ 0x0FF) || (0x100 ≤ n && n ≤ 0x109) || (0x110 ≤ n && n ≤ 0x11C)
    || (0x120 ≤ n && n ≤ 0x12F) || (0x130 ≤ n && n ≤ 0x13F) || (0x140 ≤ n && n ≤ 0x148)
    || n == 0x150 || n == 0x151 || (0x200 ≤ n && n ≤ 0x2FF) || (0x300 ≤ n && n ≤ 0x3FF)

/-- The plane of slot `5g + i` of the reset schedule (R248). -/
def segPlane (j : Nat) : Nat :=
  match j % 5 with
  | 0 => 15
  | 1 => 14
  | 2 => 15
  | 3 => [13, 11, 12, 10, 13, 9, 12, 8].getD (j / 5) 0
  | _ => 7 - j / 5

/-- The on-time of a plane in the reset schedule (R248). -/
def segUnits (p : Nat) : Nat := if p = 15 ∨ p = 14 ∨ p = 12 then 2048 else if p = 13 then 4096 else 2 ^ p

/-- Spares fitted of each kind (R492). -/
def sparesFitted (k : Nat) : Nat := [64, 8192, 512, 2, 2, 1, 1, 1, 8].getD k 0

/-- Reset values that are not one number of the register tables. -/
def regSpecial (a : Nat) : Option Word :=
  if a = R.SYS_ID then some (Word.ofNat (0x71002000 + 16 * Config.grade.toNat))
  else if a = R.BGT_THERM then
    some (if Config.grade = 1 then 0x0020695F else 0x00205F55)
  else if a = R.SYS_RSTCAUSE then some 0x21
  else if a = R.HST_PCIID then some (Word.ofNat (0x71000000 + Config.vendorId.toNat))
  else if a = R.MAC_P_CFG 8 ∨ a = R.MAC_P_CFG 9 then some 0x4C0005F2
  else if R.ICU_SRC 0 ≤ a ∧ a < R.ICU_SRC 1024 then
    some (if icuLevelSrc ((a - R.ICU_SRC 0) / 4) then 0x08000000 else 0)
  else if R.SPA_KIND 0 ≤ a ∧ a < R.SPA_KIND 9 ∧ (a - R.SPA_KIND 0) % 8 = 0 then
    some (Word.ofNat (sparesFitted ((a - R.SPA_KIND 0) / 8) * 65536))
  else if R.SCN_SEG 0 0 ≤ a ∧ a < R.SCN_SEG 8 0 ∧ (a - R.SCN_SEG 0 0) % 0x2000 < 160 then
    let p := segPlane ((a - R.SCN_SEG 0 0) % 0x2000 / 4)
    some (Word.ofNat (p * 65536 + segUnits p))
  else none

/-- What a register holds at reset; 0 for an address that names no register (R40). -/
def regReset (a : Nat) : Word :=
  match regSpecial a with
  | some w => w
  | none => match regDesc a with
    | some d => Word.ofNat d.rst
    | none => 0

/-! ### Registers -/

/-- The value of a register (R47: the shadow copy, where it has one). -/
def State.rd (s : State) (a : Nat) : Word := mget regReset s.regs a
/-- Set a register whole, as hardware or a plain RW write does. -/
def State.wr (s : State) (a : Nat) (v : Word) : State := { s with regs := mset regReset s.regs a v }
/-- The number in bits [hi:lo] of a register. -/
def State.fld (s : State) (a hi lo : Nat) : Nat := fldOf (s.rd a) hi lo
/-- Set bits [hi:lo] of a register. -/
def State.setF (s : State) (a hi lo v : Nat) : State := s.wr a (setFld (s.rd a) hi lo v)
/-- Add `n` to a counter field, which wraps. -/
def State.addF (s : State) (a hi lo n : Nat) : State := s.setF a hi lo (s.fld a hi lo + n)
/-- Count one event in a counter field, which wraps. -/
def State.bump (s : State) (a hi lo : Nat) : State := s.addF a hi lo 1
/-- Whether bit `i` of a register is 1. -/
def State.bit (s : State) (a i : Nat) : Bool := bitOf (s.rd a) i

/-- The active copy of a shadowed register (R47). -/
def State.aRd (s : State) (a : Nat) : Word := mget regReset s.act a
def State.aFld (s : State) (a hi lo : Nat) : Nat := fldOf (s.aRd a) hi lo
def State.aBit (s : State) (a i : Nat) : Bool := bitOf (s.aRd a) i
/-- Set an active copy. -/
def State.aWr (s : State) (a : Nat) (v : Word) : State := { s with act := mset regReset s.act a v }

/-- The value a pending commit has taken for a register (R47). -/
def State.tRd (s : State) (a : Nat) : Word := mget regReset s.taken a
def State.tFld (s : State) (a hi lo : Nat) : Nat := fldOf (s.tRd a) hi lo

/-- Whether an address lies in one of some ranges [lo, hi). -/
def inRanges (rs : List (Nat × Nat)) (a : Nat) : Bool := rs.any fun r => decide (r.1 ≤ a) && decide (a < r.2)
/-- The entries of a map in the ranges, and those outside them. -/
def mIn {α : Type} (rs : List (Nat × Nat)) (m : List (Nat × α)) : List (Nat × α) := m.filter fun e => inRanges rs e.1
def mOut {α : Type} (rs : List (Nat × Nat)) (m : List (Nat × α)) : List (Nat × α) := m.filter fun e => !inRanges rs e.1

/-- A shadow register that hardware writes back: software's writes of it are numbered, because one made since the commit
keeps its value (R158, R171, R172, R182). -/
def hwShadow (a : Nat) : Bool :=
  a == R.TSU_INC_FR || a == R.TSU_INC_NS || a == R.TSU_STEP || a == R.FLK_ANCH_NS || a == R.FLK_ANCH_FRAME
    || (List.range 16).any fun k => a == R.CAL_RESV k || a == R.CAL_BCAP k
/-- Software writes a shadow register. -/
def State.shadowWr (s : State) (a : Nat) (v : Word) : State :=
  if hwShadow a then { s.wr a v with writeNo := s.writeNo + 1, shadowNo := mset (fun _ => 0) s.shadowNo a (s.writeNo + 1) }
  else s.wr a v
/-- Hardware writes a value in force into the shadow as well, unless software has written it since commit `no`. -/
def State.backShadow (s : State) (no a : Nat) (v : Word) : State :=
  if no < mget (fun _ => 0) s.shadowNo a then s else s.wr a v

/-- A write of 1 to the commit bit of commit register `a`: valid clears, pending sets (R517). -/
def State.commitStart (s : State) (a : Nat) : State := (s.setF a 31 31 0).setF a 30 30 1

/-- A commit takes the shadow values of the registers in its ranges (R47). -/
def State.takeShadows (s : State) (c : Nat) (rs : List (Nat × Nat)) : State :=
  { s with
    taken := mmerge (mOut rs s.taken) (mIn rs s.regs), writeNo := s.writeNo + 1
    commits := s.commits ++ [⟨c, s.writeNo + 1, s.now, false, rs, mIn rs s.regs⟩] }

/-- The value a commit took for a register. -/
def Commit.rd (x : Commit) (a : Nat) : Word := mget regReset x.vals a
def Commit.fld (x : Commit) (a hi lo : Nat) : Nat := fldOf (x.rd a) hi lo

/-- The oldest commit of register `c` that has not been checked, and those accepted that wait for their commit point. -/
def State.unchecked (s : State) (c : Nat) : Option Commit := s.commits.find? fun x => x.reg == c && !x.ok
def State.waiting (s : State) (c : Nat) : List Commit := s.commits.filter fun x => x.reg == c && x.ok

/-- The commit of register `a` is checked: status takes the outcome, valid is set, and a refusal clears pending
(R517). -/
def State.commitStatus (s : State) (a st : Nat) : State :=
  let s := (s.setF a 15 8 st).setF a 31 31 1
  if st = 0 then s else s.setF a 30 30 0

/-- A commit has been checked (R47, R517): an accepted one waits for its commit point, and a refused one is gone. -/
def State.commitChecked (s : State) (x : Commit) (st : Nat) : State :=
  let t := s.commitStatus x.reg st
  { t with commits := if st = 0 then s.commits.map fun y => if y.no = x.no then { y with ok := true } else y
                      else s.commits.filter fun y => y.no ≠ x.no }

/-- A commit of register `c` whose block checks it in the cycle of the write (R47). -/
def State.commitNow (s : State) (c : Nat) (rs : List (Nat × Nat)) (check : State → Nat) : State :=
  let t := (s.commitStart c).takeShadows c rs
  t.commitChecked ⟨c, s.writeNo + 1, s.now, false, rs, mIn rs s.regs⟩ (check t)

/-- An accepted commit has been applied (R517): it waits no longer, and pending clears unless a later commit of the
register waits still (assumption 58). -/
def State.commitDone (s : State) (x : Commit) : State :=
  let l := s.commits.filter fun y => y.no ≠ x.no
  let t := { s with commits := l }
  if l.any fun y => y.reg == x.reg then t else t.setF x.reg 30 30 0

/-- The active copies take the values of a commit (R47). -/
def State.applyVals (s : State) (x : Commit) : State := { s with act := mmerge (mOut x.ranges s.act) x.vals }

/-- An accepted commit is applied. -/
def State.applyCommit (s : State) (x : Commit) : State := (s.applyVals x).commitDone x

/-- Every accepted commit of register `c` that has reached its commit point is applied, oldest first. -/
def State.applyWaiting (s : State) (c : Nat) (p : Commit → Bool) : State :=
  ((s.waiting c).filter p).foldl State.applyCommit s

/-- The word that a write of `new` leaves in a register with access masks `d` (R9, R10): RW bits take the value, RL
bits too unless locked, each 1 clears a W1C bit and sets a W1S bit, and every other bit is unchanged. -/
def RegDesc.written (d : RegDesc) (locked : Bool) (old new : Word) : Word :=
  let m : Word := Word.ofNat d.rw ||| (if locked then 0 else Word.ofNat d.rl)
  let w := (old &&& ~~~m) ||| (new &&& m)
  (w &&& ~~~(new &&& Word.ofNat d.w1c)) ||| (new &&& Word.ofNat d.w1s)

/-- Langal strict mode (R4, R324): the part is an LG-16, and PCIe, Ethernet, the tile links and the chain are idle. -/
def State.strict (s : State) : Bool := s.fld R.SYS_STRAP 5 4 = 1

/-! ### Status codes (R13) -/

abbrev OK : Nat := 0x00
abbrev BUSY : Nat := 0x01
abbrev E_ARG : Nat := 0x02
abbrev E_STATE : Nat := 0x03
abbrev E_AUTH : Nat := 0x04
abbrev E_ATTR : Nat := 0x05
abbrev E_CHECK : Nat := 0x06
abbrev E_SPACE : Nat := 0x07
abbrev E_LATE : Nat := 0x08
abbrev E_ORPHAN : Nat := 0x09
abbrev E_ABSENT : Nat := 0x0A
abbrev E_FAULT : Nat := 0x0B

/-! ### Memory (R37) -/

/-- What an unlisted byte of memory reads as (assumption 2). -/
def memReset (_ : Nat) : Byte := 0

def State.rdB (s : State) (a : Nat) : Byte := mget memReset s.mem a
def State.wrB (s : State) (a : Nat) (b : Byte) : State := { s with mem := mset memReset s.mem a b }

/-- The bytes at `a`, `a + 1`, … -/
def State.rdBytes (s : State) (a : Nat) : Nat → List Byte
  | 0 => []
  | n + 1 => s.rdB a :: s.rdBytes (a + 1) n

/-- Memory after bytes are stored at `a`, `a + 1`, … in ascending order. -/
def memWrite (m : List Host.Cell) (a : Nat) : List Byte → List Host.Cell
  | [] => m
  | b :: t => memWrite (mset memReset m a b) (a + 1) t

def State.wrBytes (s : State) (a : Nat) (l : List Byte) : State := { s with mem := memWrite s.mem a l }

/-- The little-endian number in `n` bytes at `a` (R8). -/
def State.rdLe (s : State) (a n : Nat) : Nat := leNat (s.rdBytes a n)
def State.wrLe (s : State) (a n v : Nat) : State := s.wrBytes a (leBytes n v)
def State.rdW (s : State) (a : Nat) : Word := Word.ofNat (s.rdLe a 4)
def State.wrW (s : State) (a : Nat) (w : Word) : State := s.wrLe a 4 w.toNat

/-- The DRAM of R37, from address 0, and the other ranges. -/
abbrev DRAM_BYTES : Nat := 0x0800000000
def inDram (a : Nat) : Bool := a < DRAM_BYTES
def inNvs (a : Nat) : Bool := 0x1000000000 ≤ a && a < 0x1002000000
def inScratch (a : Nat) : Bool := 0x2000000000 ≤ a && a < 0x2004000000
def inHubRegs (a : Nat) : Bool := 0x3000000000 ≤ a && a < 0x30001E0000
def inCalRegs (a : Nat) : Bool := 0x3001000000 ≤ a && a < 0x3001100000
def inSpring (a : Nat) : Bool := 0x3FFFFF0000 ≤ a && a < 0x4000000000
def inHubSram (a : Nat) : Bool := 0x4000000000 ≤ a && a < 0x4000400000

/-- What an output block reads: DRAM, and 0 beyond it (R40, R41). -/
def State.oRdB (s : State) (a : Nat) : Byte := if inDram a then s.rdB a else 0
def State.oRdBytes (s : State) (a : Nat) : Nat → List Byte
  | 0 => []
  | n + 1 => s.oRdB a :: s.oRdBytes (a + 1) n
def State.oRdLe (s : State) (a n : Nat) : Nat := leNat (s.oRdBytes a n)
def State.oRdW (s : State) (a : Nat) : Word := Word.ofNat (s.oRdLe a 4)

abbrev NVS_BASE : Nat := 0x1000000000
abbrev SCRATCH_BASE : Nat := 0x2000000000
abbrev SRAM_BASE : Nat := 0x4000000000

/-- Device address of a byte of a crater's scratch. -/
def scratchAddr (c off : Nat) : Nat := SCRATCH_BASE + c * 0x100000 + off

/-! ### Time and free values -/

/-- TSU_NS: the time base, ns modulo 2^32 (R170). -/
def State.tsuNs (s : State) : Word := Word.ofNat (s.tsuAcc / 2 ^ 32)

/-- The time base in ns without its wrap, and a TSU time within 2^31 ns of now in the same count. -/
def State.tsuLong (s : State) : Int := s.tsuHi * 2 ^ 32 + (s.tsuAcc / 2 ^ 32 : Nat)
def State.tsuNear (s : State) (t : Word) : Int := s.tsuLong + sdiff t s.tsuNs

/-- TSU_NS as it stood k ticks ago. -/
def State.tsuAt (s : State) (k : Nat) : Word := if k = 0 then s.tsuNs else s.tsuHist.getD (k - 1) s.tsuNs

/-- Nanoseconds since power-on by the TBC ticks counted (2.5 ns each). -/
def State.nowNs (s : State) : Nat := s.now * 5 / 2
/-- Microseconds since power-on (400 ticks each). -/
def State.nowUs (s : State) : Nat := s.now / 400

/-- The low 32 bits of the number of the last frame start (s_fnow, FLK_FRAME). -/
def State.fnow (s : State) : Word := s.rd R.FLK_FRAME
/-- C of R132: the most recently committed frame. -/
def State.committed (s : State) : Word := s.rd R.FLK_COMMITTED

/-- A fresh free value below `n` (0 when `n` = 0), by a tag that says which value it is (assumption 3). -/
def State.free (s : State) (tag n : Nat) : Nat := Config.freeNat tag s.fresh % n
/-- Count a free value as taken. -/
def State.useFree (s : State) : State := { s with fresh := s.fresh + 1 }
/-- `n` fresh free bytes. -/
def State.freeBytes (s : State) (tag : Nat) : Nat → List Byte
  | 0 => []
  | n + 1 => BitVec.ofNat 8 (Config.freeNat tag (s.fresh * 65536 + n)) :: s.freeBytes tag n

/-- Whether something that happened at tick `t` fell into the same cycle of a block's clock as what happens now. The
model times ticks of 2.5 ns: of two events of one tick it is a free value (assumption 52). -/
def State.sameCycle (s : State) (t : Nat) : Bool := decide (t = s.now) && decide (s.free 70 2 = 1)
/-- Count that free value as taken. -/
def State.askedCycle (s : State) (t : Nat) : State := if t = s.now then s.useFree else s

/-! ### Vent numbers (R33, R34) -/

/-- The C-die of a logical vent number: bits [9:8]. -/
abbrev ventDie (n : Nat) : Nat := n / 256
/-- The package-wide caldera number of a logical vent: die × 4 + bits [7:6]. -/
abbrev ventCaldera (n : Nat) : Nat := n / 64
/-- The package-wide crater number of a logical vent: die × 16 + caldera × 4 + bits [5:4]. -/
abbrev ventCrater (n : Nat) : Nat := n / 16
/-- The position of a logical vent within its crater: bits [3:0]. -/
abbrev ventPos (n : Nat) : Nat := n % 16

/-! ### Interrupt edges (R364) -/

/-- The main rails are up and their clocks run: not in SLEEP, HIBERNATE or OFF. -/
def State.clocksRun (s : State) : Bool := decide (s.fld R.PWC_STATE 2 0 ≤ 2) && !s.pwr.hib && !s.pwr.off

/-- The event of an edge source sets its pending bit; an event while it is pending or in service is absorbed into
that bit. -/
def State.irq (s : State) (n : Nat) : State := { s with icuPend := mset (fun _ => false) s.icuPend n true }
def State.irqClear (s : State) (n : Nat) : State := { s with icuPend := mset (fun _ => false) s.icuPend n false }

/-! ### Show state (R391) and host events (R387) -/

def State.showState (s : State) : Nat := s.fld R.HST_STATE 2 0

abbrev IDLE : Nat := 0
abbrev LOADED : Nat := 1
abbrev ARMED : Nat := 2
abbrev RUNNING : Nat := 3
abbrev HELD : Nat := 4
abbrev FAULTED : Nat := 5

/-- A session holds one more event; the oldest of 256 is dropped. The Nerza's alive counter advances for every event
frame, dropped ones included (R386, R387). -/
def Session.hold (e : HostEvent) (x : Session) : Session :=
  let l := x.held ++ [e]
  if l.length > 256 then { x with held := l.drop 1, tx := (x.tx + 1) % 65536 } else { x with held := l }

/-- Change every session. -/
def State.mapSessions (s : State) (f : Session → Session) : State :=
  { s with host := { s.host with sessions := s.host.sessions.map f } }

/-- An event for every open session (R387). -/
def State.hostEvent (s : State) (code : Nat) (frame data : Word) : State :=
  s.mapSessions fun x => if x.isOpen then x.hold ⟨code, frame, data⟩ else x

/-- An event for one session (BUF_FREED, R387). -/
def State.hostEventTo (s : State) (sid : Word) (code : Nat) (data : Word) : State :=
  s.mapSessions fun x => if x.isOpen ∧ x.id = sid then x.hold ⟨code, 0xFFFFFFFF, data⟩ else x

/-- The show state changes, and every open session hears of it. -/
def State.setShow (s : State) (st : Nat) (frame : Word) : State :=
  (s.setF R.HST_STATE 2 0 st).hostEvent 0x8002 frame (Word.ofNat st)

/-! ### The chain's sending side (R471 to R473), and the swap back (R488) -/

def State.setPairEng (s : State) (p : PairEng) : State := { s with pair := p }
def State.chnEn (s : State) : Bool := s.bit R.CHN_CFG 31
def State.chnId (s : State) : Nat := s.fld R.CHN_CFG 3 0
def State.chnSize (s : State) : Nat := max 1 (min 16 (s.fld R.CHN_CFG 28 24))
def State.eastUp (s : State) : Bool := s.bit R.CHN_STAT 4
def State.westUp (s : State) : Bool := s.bit R.CHN_STAT 5
def State.chnUp (s : State) (west : Bool) : Bool := if west then s.westUp else s.eastUp
def State.pairEn (s : State) : Bool := s.bit R.PAIR_CFG 31
def State.pairRole (s : State) : Nat := s.fld R.PAIR_ROLE 2 0
def State.partner (s : State) : Nat := s.fld R.PAIR_CFG 27 24

/-- The ports a message leaves on: both for a broadcast, else the one with fewer hops, east on a tie, and the other when
that one is down (R472). Chain IDs rise eastwards (assumption 18). -/
def State.chnPorts (s : State) (dst : Nat) : List Bool :=
  if dst = 0xFF then [false, true].filter s.chnUp
  else
    let n := s.chnSize
    let east := (dst + n - s.chnId % n) % n
    let west := decide (n - east < east)
    if s.chnUp west then [west] else if s.chnUp (!west) then [!west] else []

/-- The class of a message that a block originates (R475): ANNOUNCE and NOTICE; DIGEST, ROLE and STATUS; INLOG; SNAP; with
forwards third and CHN_TXQ entries last. -/
def chnClass (typ : Nat) : Nat := if typ ≤ 2 then 1 else if typ ≤ 5 then 2 else if typ = 7 then 4 else if typ = 6 then 5 else 6

/-- Originate a chain message, which waits at each port it leaves on; with no port to leave on nothing is sent. -/
def State.chnSend (s : State) (typ dst : Nat) (frame : Word) (body : List Byte) (cls : Nat := chnClass typ) : State :=
  let ports := s.chnPorts dst
  if !s.chnEn ∨ ports.isEmpty then s
  else
    let a := mget (fun _ => 0) s.chnAlive typ
    let m : ChnMsg := ⟨typ, s.chnId, dst, s.chnSize - 1, a, frame, body⟩
    { s with chnOut := s.chnOut ++ [(ports, m)], chnQ := s.chnQ ++ ports.map (fun w => ChnTx.mk w cls (some m)), chnAlive := mset (fun _ => 0) s.chnAlive typ ((a + 1) % 65536) }.bump
      (R.CHN_CNT 6) 31 0

/-- A ROLE message to the partner: 1 PROPOSE, 2 ACCEPT, 3 REFUSE, 4 SNAP_REQ, 5 SWAP_BACK. -/
def State.sendRole (s : State) (op : Nat) (at_ : Word) : State :=
  if s.pairEn then s.chnSend 4 s.partner 0xFFFFFFFF ([BitVec.ofNat 8 op, 0, 0, 0] ++ leBytes 4 at_.toNat) else s

/-- The swap of the check window is undone at frame start `at_`: the package on check, which is the PRIMARY, becomes
FAULTED and the other PRIMARY. -/
def State.backAt (s : State) (at_ : Word) : State :=
  let s := s.setF R.PAIR_STAT 6 6 0
  { s.setPairEng { s.pair with back := true } with roleAt := some (if s.pairRole = 1 then 4 else 1, at_) }

/-- A check has failed: SWAP_BACK goes to the partner. -/
def State.swapBack (s : State) : State :=
  let at_ := s.fnow + 2
  (s.sendRole 5 at_).backAt at_

/-- The package on check records a fault of severity 2 or 3 (R488). -/
def State.checkFault (s : State) (sev : Nat) : State :=
  if 2 ≤ sev ∧ s.bit R.PAIR_STAT 6 ∧ s.pairRole = 1 then s.swapBack else s

/-! ### Fault log (R495 to R497) -/

/-- Whether a new record merges into an earlier one: the newest record of its code has the same detail and was made
no more than 1,000,000 ns of TSU_NS earlier (R495). -/
def FaultRec.merges (r : FaultRec) (now : Word) (d0 d1 d2 d3 : Word) : Bool :=
  decide (r.d0 = d0) && decide (r.d1 = d1) && decide (r.d2 = d2) && decide (r.d3 = d3)
    && decide ((now - r.ns).toNat ≤ 1000000)

/-- Count one more repeat in the newest record of a code, saturating at 255. -/
def bumpNewest (code : Nat) : List FaultRec → List FaultRec
  | [] => []
  | r :: t => if r.code = code then { r with count := min 255 (r.count + 1) } :: t else r :: bumpNewest code t

/-- The show becomes FAULTED on a show-fatal record, from ARMED, RUNNING or HELD (R392). -/
def State.showFatal (s : State) : State :=
  if s.showState = ARMED ∨ s.showState = RUNNING ∨ s.showState = HELD then s.setShow FAULTED s.committed else s

/-- A record is kept among the last 1,024, and in NVS by its severity (R496). -/
def State.keepRecord (s : State) (r : FaultRec) : State :=
  { s with
    flt := (r :: s.flt).take 1024,
    fltNvs := if s.fld R.FLT_CTRL 1 0 ≤ r.sev then (r :: s.fltNvs).take 256 else s.fltNvs }

/-- The log's registers count a new record: one not yet read may be lost (R496). -/
def State.countRecord (s : State) (code sev : Nat) : State :=
  let next := s.rd R.FLT_NEXT
  let s := if 1024 ≤ sdiff next (s.rd R.FLT_READ) then (s.wr R.FLT_READ (s.rd R.FLT_READ + 1)).bump R.FLT_STAT 31 16 else s
  (s.wr R.FLT_NEXT (next + 1)).wr R.FLT_LAST (Word.ofNat (sev * 65536 + code))

/-- Make a new record (R495, R496). -/
def State.newFault (s : State) (code sev : Nat) (d0 d1 d2 d3 : Word) : State :=
  let next := s.rd R.FLT_NEXT
  let s := (s.keepRecord ⟨next.toNat, s.tsuNs, s.fnow, code, sev, 0, d0, d1, d2, d3⟩).countRecord code sev
  let s := (s.hostEvent 0x8003 0xFFFFFFFF next).checkFault sev
  if sev = 3 then (s.setF R.FLT_STAT 0 0 1).showFatal else s

/-- Record a fault: merge it into the newest record of its code, or make a new record (R495). -/
def State.log (s : State) (code sev : Nat) (d0 : Nat := 0) (d1 : Nat := 0) (d2 : Nat := 0) (d3 : Nat := 0) :
    State :=
  let w0 := Word.ofNat d0; let w1 := Word.ofNat d1; let w2 := Word.ofNat d2; let w3 := Word.ofNat d3
  match s.flt.find? (fun r => r.code = code) with
  | some r =>
    if r.merges s.tsuNs w0 w1 w2 w3 then
      { s with flt := bumpNewest code s.flt,
               fltNvs := if r.sev ≥ s.fld R.FLT_CTRL 1 0 then bumpNewest code s.fltNvs else s.fltNvs }
    else s.newFault code sev w0 w1 w2 w3
  | none => s.newFault code sev w0 w1 w2 w3

/-- Record a reserved access (BUS_RANGE, R40, R516): the device address, the kind (0 read, 1 write, 2 fetch), the
master code and its unit. -/
def State.busRange (s : State) (addr kind master unit : Nat) : State :=
  s.log 0x0002 2 (addr % 2 ^ 32) (addr / 2 ^ 32 % 256 + master % 256 * 256 + kind % 4 * 65536) unit

/-- The same for an address with no device address, recorded as presented (R516). -/
def State.busRangeRaw (s : State) (addr kind master unit : Nat) : State :=
  s.log 0x0002 2 (addr % 2 ^ 32) (master % 256 * 256 + kind % 4 * 65536 + 0x40000) unit

/-! ### What hub blocks reach (R40, R41) -/

/-- The reach of a hub block with a DMA path: DRAM, hub SRAM and crater scratch. -/
def hubReach (a : Nat) : Bool := inDram a || inHubSram a || inScratch a

/-- The first byte of [a, a + n) outside a reach. -/
def firstOut (ok : Nat → Bool) (a : Nat) : Nat → Option Nat
  | 0 => none
  | n + 1 => if ok a then firstOut ok (a + 1) n else some a

/-- A hub block accesses ranges of bytes: the first byte outside its reach is recorded (R40, R516; assumption 21). -/
def State.hubNote (s : State) (ok : Nat → Bool) (kind master unit : Nat) (rs : List (Nat × Nat)) : State :=
  match rs.findSome? fun r => firstOut ok r.1 r.2 with
  | some a => s.busRange a kind master unit
  | none => s

/-- Memory after a hub block stores bytes: those outside its reach are discarded (R40). -/
def memWriteIn (ok : Nat → Bool) (m : List Host.Cell) (a : Nat) : List Byte → List Host.Cell
  | [] => m
  | b :: t => memWriteIn ok (if ok a then mset memReset m a b else m) (a + 1) t

/-- A hub block stores bytes. -/
def State.hubWr (s : State) (ok : Nat → Bool) (master unit a : Nat) (l : List Byte) : State :=
  { s with mem := memWriteIn ok s.mem a l }.hubNote ok 1 master unit [(a, l.length)]

/-- What a hub block reads: 0 outside its reach. -/
def State.hRdB (s : State) (a : Nat) : Byte := if hubReach a then s.rdB a else 0
def State.hRdBytes (s : State) (a : Nat) : Nat → List Byte
  | 0 => []
  | n + 1 => s.hRdB a :: s.hRdBytes (a + 1) n
def State.hRdLe (s : State) (a n : Nat) : Nat := leNat (s.hRdBytes a n)

/-! ### Access to the parts -/

/-- A crater at reset: its island is gated (PWC_CGATE resets to 0). -/
def craterReset (_ : Nat) : Crater := {}
def State.crater (s : State) (c : Nat) : Crater := mget craterReset s.craters c
def State.setCrater (s : State) (c : Nat) (x : Crater) : State :=
  { s with craters := mset craterReset s.craters c x }

def ventFree (_ : Nat) : Vent := {}
def State.vent (s : State) (n : Nat) : Vent := mget ventFree s.vents n
def State.setVent (s : State) (n : Nat) (x : Vent) : State := { s with vents := mset ventFree s.vents n x }

def calReset (_ : Nat) : Caldera := {}
def State.cal (s : State) (k : Nat) : Caldera := mget calReset s.cals k
def State.setCal (s : State) (k : Nat) (x : Caldera) : State := { s with cals := mset calReset s.cals k x }

def dieReset (_ : Nat) : CDie := {}
def State.die (s : State) (d : Nat) : CDie := mget dieReset s.dies d
def State.setDie (s : State) (d : Nat) (x : CDie) : State := { s with dies := mset dieReset s.dies d x }

def coreReset (_ : Nat) : Core := {}
def State.core (s : State) (n : Nat) : Core := mget coreReset s.cores n
def State.setCore (s : State) (n : Nat) (x : Core) : State := { s with cores := mset coreReset s.cores n x }

def State.task? (s : State) (key : Nat) : Option Task := (s.tasks.find? fun e => e.1 = key).map (·.2)
def State.setTask (s : State) (key : Nat) (t : Task) : State :=
  { s with tasks := minsert (merase s.tasks key) key t }
def State.dropTask (s : State) (key : Nat) : State := { s with tasks := merase s.tasks key }

def State.fifo (s : State) (n : Nat) : Fifo := mget (fun _ => {}) s.fifos n
def State.setFifo (s : State) (n : Nat) (x : Fifo) : State := { s with fifos := mset (fun _ => {}) s.fifos n x }
def State.chan (s : State) (n : Nat) : Channel := mget (fun _ => {}) s.chans n
def State.setChan (s : State) (n : Nat) (x : Channel) : State := { s with chans := mset (fun _ => {}) s.chans n x }
def State.target (s : State) (n : Nat) : IcuTarget := mget (fun _ => {}) s.targets n
def State.setTarget (s : State) (n : Nat) (x : IcuTarget) : State :=
  { s with targets := mset (fun _ => {}) s.targets n x }

/-- The outcome of a command that completes. -/
abbrev Res := Host.Outcome State Fault Refusal

end Sys2Proof.Machine
end

