-- ==== Sys2Proof/Machine/Tasks.lean ====
section
/-!
DEFINITION. Tasks, handles, ready queues and events (R63 to R72, R133 to R136, R148, R165): the operations that the
instructions, the scheduler and the frame clock share.
-/
namespace Sys2Proof.Machine
open Sys2Proof

/-! ### Causes (R71) -/
abbrev C_ILLEGAL : Nat := 0x01
abbrev C_PRIV : Nat := 0x02
abbrev C_ALIGN : Nat := 0x03
abbrev C_RANGE : Nat := 0x04
abbrev C_PROT : Nat := 0x05
abbrev C_ECC : Nat := 0x06
abbrev C_FETCH : Nat := 0x07
abbrev C_RUNLIMIT : Nat := 0x08
abbrev C_SCALL : Nat := 0x09
abbrev C_BREAK : Nat := 0x0A
abbrev C_HWCHK : Nat := 0x0B
abbrev C_INTERRUPT : Nat := 0x10

/-- The tag of a task that is not frame work (R63). -/
abbrev NO_FRAME : Word := 0xFFFFFFFF

/-! ### The descriptor (R63) -/

/-- The fields of a 32-byte descriptor. -/
def parseDesc (l : List Byte) : TaskDesc :=
  let h := leAt l 10 2
  let f := leAt l 16 2
  let st := leAt l 18 2
  let dn := leAt l 20 4
  { entry := Word.ofNat (leAt l 0 4), arg := Word.ofNat (leAt l 4 4), prio := leAt l 8 1 % 32,
    cls := leAt l 9 1 % 8, affKind := h / 16384, affTarget := h % 64, tag := Word.ofNat (leAt l 12 4),
    roam := f % 2 = 1, critical := f / 2 % 2 = 1, selftest := f / 4 % 2 = 1,
    startKind := st / 4096, startEvent := st % 4096, doneKind := dn / 2 ^ 30, doneTarget := dn % 512,
    user := Word.ofNat (leAt l 24 4) }

/-- The events that wait until they hold (R135). -/
def eventIsLevel (e : Nat) : Bool := e < 0x300
/-- Event numbers that are not reserved (R135). -/
def eventOk (e : Nat) : Bool :=
  e < 0x300 || (0x300 ≤ e && e ≤ 0x309) || (0x400 ≤ e && e ≤ 0x7FF)

/-- Every reserved bit of a descriptor is 0 (R63). -/
def descReservedZero (l : List Byte) : Bool :=
  leAt l 8 1 / 32 = 0 && leAt l 9 1 / 8 = 0 && leAt l 10 2 / 64 % 256 = 0 && leAt l 16 2 / 8 = 0
    && leAt l 20 4 / 512 % 2 ^ 21 = 0 && leAt l 28 4 = 0

/-- A descriptor whose fields are all in range (R63): a false answer is refused with E_ARG. An entry_pc or an arg_ptr that
is no multiple of 4 or 32 is in no list of R63 and is accepted (DESIGN CHOICE, assumption 69). -/
def descOk (l : List Byte) : Bool :=
  let d := parseDesc l
  descReservedZero l && d.affKind ≠ 3
    && (d.affKind ≠ 0 || d.affTarget = 0) && (d.affKind ≠ 1 || d.affTarget ≤ 15)
    && !(d.startKind = 1 && d.tag = NO_FRAME) && d.startKind ≤ 2
    && (d.startKind = 2 || d.startEvent = 0) && (d.startKind ≠ 2 || eventOk d.startEvent)
    && d.doneKind ≠ 3 && (d.doneKind ≠ 0 || d.doneTarget = 0) && (d.doneKind ≠ 1 || d.doneTarget ≤ 255)

/-! ### Ready queues and the pool -/

/-- The keys in the ready queue of a level, head first. -/
def State.readyQ (s : State) (k lvl : Nat) : List Nat := mget (fun _ => []) (s.cal k).ready lvl
/-- Change the ready queue of a level. When its head changes or it empties, its starvation timer clears; when the task
that started its guard leaves it, the guard clears (R156). -/
def State.setReadyQ (s : State) (k lvl : Nat) (l : List Nat) : State :=
  let x := s.cal k
  s.setCal k { x with
    ready := mset (fun _ => []) x.ready lvl l,
    starve := if l.head? = (s.readyQ k lvl).head? then x.starve else merase x.starve lvl,
    guard := x.guard.filter fun e => e.1 ≠ lvl || l.contains e.2 }

/-- READY tasks of a caldera, all levels. -/
def State.readyCount (s : State) (k : Nat) : Nat := ((s.cal k).ready.map fun e => e.2.length).foldl (· + ·) 0

/-- Pool entries in use in a caldera, forwarding entries included (R165). -/
def State.poolUsed (s : State) (k : Nat) : Nat := (s.tasks.filter fun e => e.2.holds.contains k).length

/-- The capacity committed for a ready queue (R148). -/
def State.qcap (s : State) (k lvl : Nat) : Nat := s.aFld (R.CAL_QCAP k lvl) 12 0

/-- Whether the pool of a caldera has a free entry, and whether a ready queue has room (R148). -/
def State.poolRoom (s : State) (k : Nat) : Bool := s.poolUsed k < 4096
def State.levelRoom (s : State) (k lvl : Nat) : Bool := (s.readyQ k lvl).length < s.qcap k lvl
def State.room (s : State) (k lvl : Nat) : Bool := s.poolRoom k && s.levelRoom k lvl

/-- Record the depth of a level in CAL_QDEPn.depth, the largest since the last snapshot (R169), and the counts of
CAL_STATUS. -/
def State.noteDepth (s : State) (k lvl : Nat) : State :=
  let n := (s.readyQ k lvl).length
  let x := s.cal k
  let s := s.setF (R.CAL_QDEP k lvl) 12 0 n
  let s := if mget (fun _ => 0) x.qMax lvl < n then s.setCal k { x with qMax := mset (fun _ => 0) x.qMax lvl n } else s
  (s.setF (R.CAL_STATUS k) 12 0 (s.readyCount k)).setF (R.CAL_STATUS k) 28 16 (4096 - s.poolUsed k)

/-- The frame of a task has been released: the outputs have taken frame f − 1 (R67). -/
def State.released (s : State) (tag : Word) : Bool :=
  tag = NO_FRAME || (match s.relTaken with
    | some f => decide (sdiff (tag - 1) f ≤ 0)
    | none => false)

/-- Put a task in the ready queue of its level, at the tail or (re-dispatch, R72) at the head. -/
def State.enqueue (s : State) (key : Nat) (t : Task) (head : Bool) : State :=
  let q := s.readyQ t.at_ t.desc.prio
  let s := s.setTask key { t with st := .ready, since := s.now }
  (s.setReadyQ t.at_ t.desc.prio (if head then key :: q else q ++ [key])).noteDepth t.at_ t.desc.prio

/-- The condition of a WAITING task is met: it becomes READY, or waits on until its frame is released (R66, R67). -/
def State.makeReady (s : State) (key : Nat) : State :=
  match s.task? key with
  | some t => if s.released t.desc.tag then s.enqueue key t false
              else s.setTask key { t with st := .waiting .release }
  | none => s

/-- Whether a level event holds for the tasks of caldera k (R135). -/
def State.levelHolds (s : State) (e k : Nat) : Bool :=
  if e < 0x100 then (s.fifo e).w != (s.fifo e).r
  else if e < 0x300 then
    let n := e - 0x100
    let c := s.chan n
    (s.fld (R.MBX_C_CFG n) 13 8 = 16 + k && !c.fwd.isEmpty) || (s.fld (R.MBX_C_CFG n) 5 0 = 16 + k && !c.rev.isEmpty)
  else false

/-- Insert a (order, key) pair by order. -/
def insOrder (x : Nat × Nat) : List (Nat × Nat) → List (Nat × Nat)
  | [] => [x]
  | y :: t => if x.1 < y.1 then x :: y :: t else y :: insOrder x t

/-- The keys of the waiting tasks that satisfy a test, in the order in which they began waiting (R134). -/
def State.waiters (s : State) (f : Nat → Task → Bool) : List Nat :=
  ((s.tasks.filter fun e => f e.1 e.2).foldl (fun l e => insOrder (e.2.order, e.1) l) []).map (·.2)

def Task.waitsEvent (t : Task) (e : Nat) : Bool := t.st = .waiting (.event e)

/-- A pulse event fires in all calderas (R134, R136). -/
def State.fireEvent (s : State) (e : Nat) : State :=
  (s.waiters fun _ t => t.waitsEvent e).foldl State.makeReady s

/-- A level event may have begun to hold: wake the tasks for which it does. -/
def State.fireLevel (s : State) (e : Nat) : State :=
  (s.waiters fun _ t => t.waitsEvent e && s.levelHolds e t.at_).foldl State.makeReady s

/-- After a frame start: the tasks that waited for it and the tasks whose frame is released become READY. -/
def State.wakeFrames (s : State) : State :=
  (s.waiters fun _ t => match t.st with
    | .waiting .release => s.released t.desc.tag
    | .waiting (.frame f) => decide (sdiff f s.fnow ≤ 0)
    | _ => false).foldl State.makeReady s

/-- The handle of a pool entry (R64). -/
def handleOf (key seq : Nat) : Word := Word.ofNat (key * 65536 + seq)

/-- The first index at or after `i` (modulo 4,096) whose pool entry is free, searching `n` entries. -/
def State.freeIndex (s : State) (k i : Nat) : Nat → Nat
  | 0 => i % 4096
  | n + 1 => if (s.task? (k * 4096 + i % 4096)).isNone then i % 4096 else s.freeIndex k (i + 1) n

/-- Take a descriptor into the pool of caldera k (R63 to R66): its key and the new state. The index among the free
ones is a free value (assumption 5). -/
def State.addTask (s : State) (k : Nat) (d : TaskDesc) : Nat × State :=
  let idx := s.freeIndex k (Config.poolStart s.fresh) 4096
  let key := k * 4096 + idx
  let old := mget (fun _ => 0) s.seqs key
  let seq := if old = 65535 then 1 else old + 1
  let t : Task := { seq, desc := d, at_ := k, holds := [k], pc := d.entry, runPc := d.entry, order := s.ticketNo,
                    st := .waiting .release }
  let s := { s with seqs := mset (fun _ => 0) s.seqs key seq, ticketNo := s.ticketNo + 1, fresh := s.fresh + 1 }
  let s := s.setTask key t
  let s :=
    if d.startKind = 0 then s.makeReady key
    else if d.startKind = 1 then
      if sdiff d.tag s.fnow ≤ 0 then s.makeReady key else s.setTask key { t with st := .waiting (.frame d.tag) }
    else if eventIsLevel d.startEvent && s.levelHolds d.startEvent k then s.makeReady key
    else s.setTask key { t with st := .waiting (.event d.startEvent) }
  (key, s.noteDepth k d.prio)

/-- Remove a task from the ready queue that holds it. -/
def State.unqueue (s : State) (key : Nat) (t : Task) : State :=
  (s.setReadyQ t.at_ t.desc.prio ((s.readyQ t.at_ t.desc.prio).filter (· ≠ key))).noteDepth t.at_ t.desc.prio

/-- A pool entry frees, with its forwarding entries (R70, R165). -/
def State.freeTask (s : State) (key : Nat) (t : Task) : State :=
  t.holds.foldl (fun (s : State) k => s.noteDepth k t.desc.prio) (s.dropTask key)

/-- A task ends. Without a completion record its pool entry frees at once; with one it frees when the record is
posted (R70). -/
def State.endTask (s : State) (key : Nat) (t : Task) (endState cause : Nat) : State :=
  if t.desc.doneKind = 0 then s.freeTask key t
  else s.setTask key { t with st := .ended endState cause }

/-- The live task that a handle names (R64); none for an ended one (R66). -/
def State.byHandle (s : State) (h : Word) : Option (Nat × Task) :=
  let key := h.toNat / 65536
  match s.task? key with
  | some t => if t.seq = h.toNat % 65536 then
      (match t.st with | .ended _ _ => none | _ => some (key, t)) else none
  | none => none

/-! ### Budget (R153 to R155, R158) -/

/-- The cap of a caldera's counter in bu. -/
def State.bcap (s : State) (k : Nat) : Int := (s.aFld (R.CAL_BCAP k) 16 0 * 1024 : Nat)
/-- B, the budget counter of a caldera, in bu. -/
def State.budget (s : State) (k : Nat) : Int := (s.rd (R.CAL_BUDGET k)).toInt
/-- Set B: saturating at −2^31, never above the cap; held at the cap while BGT_CTRL.en = 0 (R160). -/
def State.setBudget (s : State) (k : Nat) (b : Int) : State :=
  s.wr (R.CAL_BUDGET k) (Word.ofInt (if s.bit R.BGT_CTRL 0 then max (-2147483648) (min b (s.bcap k)) else s.bcap k))
/-- B moves to b: saturating at −2^31, never above the cap; the cap while BGT_CTRL.en = 0 (R158, R160). -/
def State.heldB (s : State) (k : Nat) (b : Int) : Int :=
  if s.bit R.BGT_CTRL 0 then max (-2147483648) (min b (s.bcap k)) else s.bcap k

/-- B after one VCK cycle: the refill first, then charges and refunds in ascending vent position (R153). -/
def State.replayB (s : State) (k : Nat) (c : BudgetCycle) : Int :=
  let b := match c.refill with
    | some r => s.heldB k (c.base + r)
    | none => c.base
  c.moves.foldl (fun b m => s.heldB k (b + m.2)) b

/-- Whether what moves B now falls into the VCK cycle that moved it last. -/
def State.inCycle (s : State) (k : Nat) : Bool :=
  let c := (s.cal k).cycle
  (c.refill.isSome || !c.moves.isEmpty) && s.sameCycle c.tick

/-- B takes what a VCK cycle leaves. -/
def State.putCycle (s : State) (k : Nat) (c : BudgetCycle) : State :=
  ((s.askedCycle (s.cal k).cycle.tick).setCal k { s.cal k with cycle := c }).wr (R.CAL_BUDGET k)
    (Word.ofInt (s.replayB k c))

/-- A charge (negative) or refund of vent n. -/
def State.moveB (s : State) (n : Nat) (d : Int) : State :=
  let k := ventCaldera n
  let c := if s.inCycle k then (s.cal k).cycle else ⟨s.now, s.budget k, none, []⟩
  s.putCycle k { c with moves := insCycle (·.1) c.moves.length c.moves (n % 64, d) }

/-- A refill of caldera k. -/
def State.refillB (s : State) (k : Nat) (r : Int) : State :=
  let c := if s.inCycle k && (s.cal k).cycle.refill.isNone then (s.cal k).cycle else ⟨s.now, s.budget k, none, []⟩
  s.putCycle k { c with refill := some r }

/-- cost(d, c) × q_us, the quantum charge of a class in a caldera (R154). -/
def State.quantum (s : State) (k cls : Nat) : Nat := s.fld (R.BGT_COST (k / 4) cls) 23 0 * s.aFld (R.CAL_QUANTUM k) 7 0

/-! ### The end of a run (R66, R72, R105, R155) -/

/-- The physical vent number of a logical vent (R35). -/
def State.phys (s : State) (n : Nat) : Nat := n / 16 * 17 + mget id (s.crater (n / 16)).slotMap (n % 16)

/-- Whether a vent has transfers in flight. -/
def Vent.draining (v : Vent) : Bool := v.slots.any (·.busy)

/-- No task is resident on a crater's vents and its DMA queue is empty (R25). -/
def State.craterIdle (s : State) (c : Nat) : Bool :=
  (s.crater c).dmaq.isEmpty && (s.crater c).dmaStall.isEmpty
    && !(s.vents.any fun e => e.1 / 16 = c && e.2.task.isSome)

/-- A crater counts as open (R152). -/
def State.craterUp (s : State) (c : Nat) : Bool := (s.crater c).isOpen || (s.crater c).isOpening

/-- RUN with every island gated becomes IDLE (R438, R439). -/
def State.idleIfGated (s : State) : State :=
  if s.fld R.PWC_STATE 2 0 = 0 ∧ (List.range 64).all (fun i => !s.craterUp i) then s.setF R.PWC_STATE 2 0 1 else s

/-- The refund of the unused part of a run's last quantum (R155). -/
def State.refund (s : State) (n : Nat) : State :=
  let v := s.vent n
  let e := (s.now - v.qStart) * 5 / 2
  let len := v.qUs * 1000
  if e < len then s.moveB n (v.qCharge * (len - e) / len : Nat) else s

/-- What R66 and R72 make of a task whose run has ended on vent n. -/
def State.runEnded (s : State) (n key : Nat) (t : Task) (e : RunEnd) (pc : Word) : State :=
  let t := { t with pc := pc }
  match e with
  | .done => s.endTask key t 0 0
  | .killed => s.endTask key t 2 0
  | .yield => if t.cancel then s.endTask key t 2 0 else (s.setTask key t).makeReady key
  | .waitF f =>
    if t.cancel then s.endTask key t 2 0
    else if sdiff f s.fnow ≤ 0 then (s.setTask key t).makeReady key
    else { s.setTask key { t with st := .waiting (.frame f), order := s.ticketNo } with ticketNo := s.ticketNo + 1 }
  | .waitE ev =>
    if t.cancel then s.endTask key t 2 0
    else if s.levelHolds ev t.at_ then (s.setTask key t).makeReady key
    else { s.setTask key { t with st := .waiting (.event ev), order := s.ticketNo } with ticketNo := s.ticketNo + 1 }
  | .fault cause fpc =>
    let s := s.log 0x0010 1 (handleOf key t.seq).toNat n cause fpc.toNat
    if cause = C_ECC ∨ cause = C_HWCHK then
      let p := s.phys n
      let s := { s.bump (R.SPA_EVT 0) 31 0 with hwFaults := (p, s.now) :: s.hwFaults }
      if t.cancel then s.endTask key t 2 0
      else if t.desc.tag = NO_FRAME then s.endTask key t 1 cause
      else
        let t := { t with pc := t.runPc, badSlots := p :: t.badSlots }
        if t.badSlots.length < 3 then (s.enqueue key t true).bump (R.CAL_RETRYCNT t.at_) 15 0
        else
          (((s.log 0x0011 2 (handleOf key t.seq).toNat).bump (R.CAL_RETRYCNT t.at_) 31 16).irq
            (0x130 + t.at_)).endTask key t 1 cause
    else s.endTask key t 1 cause

/-- The time for which vent n has had its task resident is counted (R169). -/
def State.countBusy (s : State) (n : Nat) : State :=
  let x := s.cal (n / 64)
  s.setCal (n / 64) { x with
    busyUs := mset (fun _ => 0) x.busyUs (n % 64) (mget (fun _ => 0) x.busyUs (n % 64) + (s.now - (s.vent n).start)) }

/-- Release a vent whose run has ended and whose transfers have ended (R105): refund, account its busy time, and let
the task go on as R66 says. -/
def State.releaseVent (s : State) (n : Nat) : State :=
  let v := s.vent n
  match v.task, v.ended with
  | some key, some e =>
    if v.draining then s
    else
      let s := ((s.refund n).countBusy n).setVent n {}
      let s := match s.task? key with
        | some t => s.runEnded n key t e v.pc
        | none => s
      if s.craterIdle (n / 16) then s.setCrater (n / 16) { s.crater (n / 16) with idleSince := s.now } else s
  | _, _ => s

/-- Whether a stalled push belongs to a vent. -/
def Pusher.isVent (n : Nat) : Pusher → Bool
  | .vent m _ => m = n
  | _ => false

/-- Withdraw what a stalled instruction of vent n had queued: it has no effect (R138). -/
def State.withdraw (s : State) (n : Nat) : State :=
  { s with
    cals := s.cals.map (fun (e : Nat × Caldera) =>
      (e.1, { e.2 with stalled := e.2.stalled.filter (fun q => q.who ≠ .vent n),
                       stallCyc := if e.2.stalled.any (fun q => q.who = .vent n) then (0, 0) else e.2.stallCyc })),
    fifos := s.fifos.map (fun (e : Nat × Fifo) =>
      (e.1, { e.2 with stalled := e.2.stalled.filter (fun q => !q.who.isVent n) })),
    chans := s.chans.map (fun (e : Nat × Channel) =>
      (e.1, { e.2 with stF := e.2.stF.filter (fun q => !q.who.isVent n),
                       stR := e.2.stR.filter (fun q => !q.who.isVent n) })) }

/-- The run on vent n ends; the vent is released at once when no transfer of it is in flight (R105). `pc` is where
the task's next run starts. -/
def State.endRun (s : State) (n : Nat) (e : RunEnd) (pc : Word) : State :=
  let v := s.vent n
  match v.task, v.ended with
  | some _, none =>
    let c := s.crater (n / 16)
    let s := (s.setCrater (n / 16) { c with
      dmaStall := c.dmaStall.filter (· ≠ n),
      dmaCyc := if c.dmaStall.contains n then (0, 0) else c.dmaCyc }).withdraw n
    (s.setVent n { v with ended := some e, stall := none, pc := pc }).releaseVent n
  | _, _ => s

/-! ### CANCEL (R66, R69, R153) -/

/-- CANCEL falls into the VCK cycle of the dispatch of a task that has issued nothing yet: the task is not dispatched.
The charge, the wait counted and an opening that the dispatch began are undone. -/
def State.undoDispatch (s : State) (n : Nat) (t : Task) : State :=
  let v := s.vent n
  let k := ventCaldera n
  let x := s.cal k
  let lvl := t.desc.prio
  let c := x.cycle
  let m := (n % 64, -(v.qCharge : Int))
  let s := if c.tick = s.now ∧ c.moves.contains m then
      let c := { c with moves := c.moves.erase m }
      (s.setCal k { x with cycle := c }).wr (R.CAL_BUDGET k) (Word.ofInt (s.replayB k c))
    else s.setBudget k (s.budget k + v.qCharge)
  let y := s.cal k
  let s := s.setCal k { y with
    starve := y.starve.filter fun e => !(lvl < e.1 && e.2.2 = s.now),
    waitNs := mset (fun _ => 0) y.waitNs lvl (mget (fun _ => 0) y.waitNs lvl - (s.now - t.since) * 5 / 2),
    waitCnt := mset (fun _ => 0) y.waitCnt lvl (mget (fun _ => 0) y.waitCnt lvl - 1) }
  let s := s.setVent n {}
  if v.opened ∧ s.craterIdle (ventCrater n) then
    (s.setCrater (ventCrater n) { s.crater (ventCrater n) with isOpening := false }).idleIfGated
  else s

/-- CANCEL falls into the VCK cycle of a migration: the task is not moved. -/
def State.undoMove (s : State) (key : Nat) (t : Task) (src : Nat) (took : Bool) : State × Task :=
  let lvl := t.desc.prio
  let dst := t.at_
  let u := { t with at_ := src, holds := if took then t.holds.filter (· ≠ dst) else t.holds, moved := none }
  let s := ((s.unqueue key t).setTask key u).noteDepth dst lvl
  ((s.addF (R.CAL_MIGCNT src) 31 16 65535).addF (R.CAL_MIGCNT dst) 15 0 65535, u)

/-- CANCEL of a READY task: in the cycle that made it ready the ready-cancelled counter counts (R69), in the cycle of a
migration it is not moved (R153). -/
def State.cancelReady (s : State) (key : Nat) (t : Task) : State :=
  let same := s.sameCycle t.since
  let s' := (s.askedCycle t.since).unqueue key t
  match t.moved with
  | some (tick, src, took) =>
    if s.sameCycle tick then
      let r := (s.askedCycle tick).undoMove key t src took
      r.1.endTask key r.2 2 0
    else (if same then s'.bump (R.CAL_RCCNT t.at_) 31 0 else s').endTask key t 2 0
  | none => (if same then s'.bump (R.CAL_RCCNT t.at_) 31 0 else s').endTask key t 2 0

/-- Whether vent n still stands where its dispatch left it. -/
def State.justDispatched (s : State) (n : Nat) (t : Task) : Bool :=
  let v := s.vent n
  v.ended.isNone && v.stall.isNone && v.dmaCount = 0 && v.pc = t.pc && s.sameCycle v.start

/-- CANCEL by handle (R66, R69), issued by vent `self` if by one: the status and the new state. -/
def State.cancelTask (s : State) (h : Word) (self : Option Nat := none) : Nat × State :=
  match s.byHandle h with
  | none => (E_ABSENT, s)
  | some (key, t) =>
    match t.st with
    | .running n =>
      let s' := s.askedCycle (s.vent n).start
      (OK, if self ≠ some n ∧ s.justDispatched n t then (s'.undoDispatch n t).endTask key t 2 0
        else s'.setTask key { t with cancel := true })
    | .ready => (OK, s.cancelReady key t)
    | _ => (OK, s.endTask key t 2 0)

end Sys2Proof.Machine
end

