-- ==== Sys2Proof/Machine/Operands.lean ====
section
/-!
DEFINITION. The processors' operands: scalar, vector and predicate registers, sticky flags, the pc, instruction issue
and fetch, vent addresses (R59, R60) with the ECC rules of scratch (R22), taking an exception on a core (R78) and
ending a task with a fault on a vent (R71), and the return from an exception (R79).
-/
namespace Sys2Proof.Machine
open Sys2Proof

/-- The number of a core: 0 the management core, 1 + n service core n (its interrupt target, R363). -/
def coreNo : Proc → Nat
  | .vent _ => 0
  | .svc n => n.toNat + 1
  | .mgmt => 0

/-- The master code and unit of R516 for core number n. -/
def coreMaster (n : Nat) : Nat := if n = 0 then 0x10 else 0x11
def coreUnit (n : Nat) : Nat := n - 1

/-! ### Scalar registers (R85: g0 reads as zero and ignores writes) -/

def State.gv (s : State) (n : Nat) (r : Nat) : Word := if r = 0 then 0 else (s.vent n).g.getD r 0
def State.gc (s : State) (n : Nat) (r : Nat) : Word := if r = 0 then 0 else (s.core n).g.getD r 0
def State.g (s : State) (p : Proc) (r : Nat) : Word :=
  match p with
  | .vent n => s.gv n.toNat r
  | p => s.gc (coreNo p) r

def State.setGv (s : State) (n r : Nat) (w : Word) : State :=
  if r = 0 then s else let v := s.vent n; s.setVent n { v with g := lset 0 v.g r w }
def State.setGc (s : State) (n r : Nat) (w : Word) : State :=
  if r = 0 then s else let c := s.core n; s.setCore n { c with g := lset 0 c.g r w }
def State.setG (s : State) (p : Proc) (r : Nat) (w : Word) : State :=
  match p with
  | .vent n => s.setGv n.toNat r w
  | p => s.setGc (coreNo p) r w

/-! ### Sticky flags (R51, R74) -/
def State.flagsOf (s : State) (p : Proc) : Word :=
  match p with
  | .vent n => (s.vent n.toNat).flags
  | p => (s.core (coreNo p)).flags
def State.setFlags (s : State) (p : Proc) (f : Word) : State :=
  match p with
  | .vent n => s.setVent n.toNat { s.vent n.toNat with flags := f }
  | p => s.setCore (coreNo p) { s.core (coreNo p) with flags := f }
def State.orFlags (s : State) (p : Proc) (f : Word) : State := s.setFlags p (s.flagsOf p ||| f)

/-! ### Vector and predicate registers (R50, R85) -/

/-- A vector register as eight lanes. -/
def State.vreg (s : State) (n : Nat) (r : Nat) : List Word := padWords 8 ((s.vent n).v.getD r [])
def lane (l : List Word) (i : Nat) : Word := l.getD i 0
def State.setV (s : State) (n r : Nat) (l : List Word) : State :=
  let v := s.vent n; s.setVent n { v with v := lset [] v.v r l }
/-- A predicate register; p0 reads as all ones. -/
def State.preg (s : State) (n : Nat) (r : Nat) : Byte := if r = 0 then 0xFF else (s.vent n).p.getD r 0
def State.setP (s : State) (n r : Nat) (b : Byte) : State :=
  if r = 0 then s else let v := s.vent n; s.setVent n { v with p := lset 0 v.p r b }
/-- Lane i is active under predicate register pm. -/
def State.active (s : State) (n : Nat) (pm : PReg) (i : Nat) : Bool := (s.preg n pm.toNat).getLsbD i

abbrev lanes : List Nat := [0, 1, 2, 3, 4, 5, 6, 7]

/-! ### The pc -/
def State.pcOf (s : State) (p : Proc) : Word :=
  match p with
  | .vent n => (s.vent n.toNat).pc
  | p => (s.core (coreNo p)).pc
def State.setPcRaw (s : State) (p : Proc) (w : Word) : State :=
  match p with
  | .vent n => s.setVent n.toNat { s.vent n.toNat with pc := w }
  | p => s.setCore (coreNo p) { s.core (coreNo p) with pc := w }

/-! ### Exceptions of a core (R76, R78, R79) -/

abbrev ST_IE : Nat := 0
abbrev ST_PIE : Nat := 1
abbrev ST_PWORLD : Nat := 2

/-- Taking an exception on core n (R78): the saved pc, cause and value are written, ie goes to pie and the world to
pworld, ie clears, and the core continues at the vector base of the world it enters plus cause × 64. -/
def State.excEnter (s : State) (n cause : Nat) (epc tval : Word) (toSecure : Bool) : State :=
  let c := s.core n
  let ie := bitOf c.status ST_IE
  let secure := toSecure || c.secure
  s.setCore n { c with
    epc := epc, cause := Word.ofNat cause, tval := tval,
    status := Word.ofNat (b2n ie * 2 + b2n c.secure * 4),
    secure := secure, run := .running, stall := none,
    pc := (if secure then c.svbase else c.vbase) + Word.ofNat (cause * 64) }

/-- ERET (R79): ie from pie, the world from pworld, and the pc from s_epc, which is not checked to be a multiple of 4
(DESIGN CHOICE, assumption 55). -/
def State.excReturn (s : State) (n : Nat) : State :=
  let c := s.core n
  s.setCore n { c with
    status := setFld c.status 0 0 (fldOf c.status 1 1),
    secure := bitOf c.status ST_PWORLD, pc := c.epc }

/-- A fault of the instruction at the pc (R71): a vent's task ends FAULT, a core takes the exception with s_epc at
the faulting instruction. -/
def State.fault (s : State) (p : Proc) (cause : Nat) (tval : Word) : State :=
  match p with
  | .vent n => s.endRun n.toNat (.fault cause (s.pcOf p)) (s.pcOf p)
  | p => s.excEnter (coreNo p) cause (s.pcOf p) tval false

/-! ### Vent addresses (R59) and scratch ECC (R22) -/

/-- Where a vent address leads. -/
inductive VAddr where
  | local (off : Nat)
  | scratch (a : Nat)
  | outside
  deriving DecidableEq, Repr

def ventMap (n : Nat) (a : Nat) : VAddr :=
  if a < 0x4000 then .local a
  else if 0x100000 ≤ a ∧ a < 0x200000 then .scratch (scratchAddr (n / 16) (a - 0x100000))
  else .outside

/-- Bank and row of a scratch byte offset (R19). -/
def bankOf (off : Nat) : Nat := off / 4 % 16
def rowOf (off : Nat) : Nat := off / 16384 % 64

/-- A double-bit error is recorded and its row marked for replacement (R22). -/
def State.eccRecord (s : State) (a : Nat) : State :=
  let off := (a - SCRATCH_BASE) % 0x100000
  let c := (a - SCRATCH_BASE) / 0x100000
  let s := s.log 0x0003 2 c (bankOf off) (rowOf off)
  let x := s.crater c
  s.setCrater c { x with marked := (bankOf off, rowOf off) :: x.marked.filter (· ≠ (bankOf off, rowOf off)) }

/-- A single-bit error is corrected, written back and counted (R22); the sixteenth of a row since boot marks it (R492). -/
def State.eccCorrect (s : State) (wa : Nat) : State :=
  let off := (wa - SCRATCH_BASE) % 0x100000
  let c := (wa - SCRATCH_BASE) / 0x100000
  let x := s.crater c
  let k := bankOf off * 64 + rowOf off
  let n := mget (fun _ => 0) x.rowCorr k + 1
  let x := { x with corr := x.corr + 1, rowCorr := mset (fun _ => 0) x.rowCorr k n }
  let x := if n = 16 then { x with marked := (bankOf off, rowOf off) :: x.marked.filter (· ≠ (bankOf off, rowOf off)) } else x
  ({ s with ecc := merase s.ecc wa }.setCrater c x).bump (R.SPA_EVT 1) 31 0

def State.eccAt (s : State) (a : Nat) : Nat := mget (fun _ => 0) s.ecc (a / 4 * 4)

/-- Check the scratch word that holds byte address a, as a read does: none for a double-bit error (recorded). -/
def State.eccCheck (s : State) (a : Nat) : Bool × State :=
  if s.eccAt a = 2 then (false, s.eccRecord (a / 4 * 4))
  else if s.eccAt a = 1 then (true, s.eccCorrect (a / 4 * 4))
  else (true, s)

/-- Check every word of a list of scratch byte addresses, stopping at the first double-bit error. -/
def State.eccCheckAll (s : State) : List Nat → Bool × State
  | [] => (true, s)
  | a :: t =>
    let r := s.eccCheck a
    if r.1 then r.2.eccCheckAll t else r

/-- The byte of a vent's local store: what this run has written, else a free value (R18, R68). -/
def Vent.lsByte (v : Vent) (off : Nat) : Byte :=
  match v.ls.find? (fun e => e.1 = off) with
  | some e => e.2
  | none => Config.freeByte v.run off

/-- Read one byte at a vent address that has been checked. -/
def State.vrdB (s : State) (n a : Nat) : Byte :=
  match ventMap n a with
  | .local off => (s.vent n).lsByte off
  | .scratch d => s.rdB d
  | .outside => 0

def State.vrdBytes (s : State) (n a : Nat) : Nat → List Byte
  | 0 => []
  | k + 1 => s.vrdB n a :: s.vrdBytes n (a + 1) k

/-- Write one byte at a vent address that has been checked. -/
def State.vwrB (s : State) (n a : Nat) (b : Byte) : State :=
  match ventMap n a with
  | .local off =>
    let v := s.vent n
    s.setVent n { v with ls := minsert (merase v.ls off) off b }
  | .scratch d => s.wrB d b
  | .outside => s

def State.vwrBytes (s : State) (n a : Nat) : List Byte → State
  | [] => s
  | b :: t => (s.vwrB n a b).vwrBytes n (a + 1) t

/-- Whether `k` bytes from vent address `a` lie in one range of R59. -/
def ventReach (a k : Nat) : Bool :=
  (a + k ≤ 0x4000) || (0x100000 ≤ a && a + k ≤ 0x200000)

/-- The scratch byte addresses of `k` bytes at a vent address, one for each word touched. -/
def ventWords (n a k : Nat) : List Nat :=
  match ventMap n a with
  | .scratch d => (List.range (k + 3)).filterMap fun i =>
      if i = 0 ∨ (i < k ∧ (d + i) % 4 = 0) then some (d + i) else none
  | _ => []

/-- The words that a store of `k` bytes writes only in part: they are read and checked first (R22). -/
def ventPartial (n a k : Nat) : List Nat :=
  (ventWords n a k).filter fun w => !(w % 4 = 0 && (match ventMap n a with
    | .scratch d => decide (w + 4 ≤ d + k)
    | _ => true))

/-- A whole-word store removes any error the word held (R22). -/
def State.eccStore (s : State) (n a k : Nat) : State :=
  { s with ecc := (ventWords n a k).foldl (fun m w => merase m (w / 4 * 4)) s.ecc }

/-- Record a vent access outside reach (R40, R59, R516). -/
def State.ventRange (s : State) (n a kind : Nat) : State := s.busRangeRaw a kind 0x20 n

/-- Continue vent n or core at `w`: the end address ends the task (R68), and a fetch outside the scratch range ends
it with FETCH at the target (R60, R107). A core continues there. -/
def State.goto (s : State) (p : Proc) (w : Word) : State :=
  match p with
  | .vent n =>
    let s := s.setPcRaw p w
    if w = 0xFFFFFFFC then s.endRun n.toNat .done w
    else if 0x100000 ≤ w.toNat ∧ w.toNat < 0x200000 then s
    else (s.ventRange n.toNat w.toNat 2).endRun n.toNat (.fault C_FETCH w) w
  | _ => s.setPcRaw p w

/-- The instruction at the pc completes: the next one follows it. -/
def State.retire (s : State) (p : Proc) : State := s.goto p (s.pcOf p + 4)

/-! ### Core addresses (R75, R80) -/

def Core.map (c : Core) (a : Word) : Nat :=
  fldOf (c.seg.getD (fldOf a 31 30) 0) 9 0 * 2 ^ 30 + fldOf a 29 0

/-- Whether a region contains a device address. -/
def Region.has (r : Region) (a : Nat) : Bool :=
  bitOf r.att 0 && decide (r.base.toNat ≤ a / 256) && decide (a / 256 ≤ r.lim.toNat)

/-- The regions' answer for an access (kind 0 read, 1 write, 2 fetch): allowed, denied, or denied for lack of X. -/
inductive Prot where
  | ok
  | denied
  | noX
  deriving DecidableEq, Repr

/-- The lowest enabled region that holds an address decides (R80). A region whose world field is 3, which has no meaning,
admits neither world (DESIGN CHOICE, assumption 55). -/
def Core.check (c : Core) (a kind : Nat) : Prot :=
  match c.pr.find? (·.has a) with
  | none => .denied
  | some r =>
    let w := fldOf r.att 5 4
    if !(w = 2 || w = b2n c.secure) then .denied
    else if bitOf r.att (kind + 1) then .ok
    else if kind = 2 then .noX else .denied

/-- Whether a core reaches a device address (R37, R41): listed ranges only; the KEY block and the Spring registers
only for the management core in secure world; NVS is read by the management core. -/
def coreReach (n : Nat) (secure : Bool) (a kind : Nat) : Bool :=
  let key := 0x3000090000 ≤ a && a < 0x30000A0000
  let priv := key || inSpring a
  (inDram a || inScratch a || inHubSram a || inHubRegs a || inCalRegs a || inSpring a
    || (inNvs a && n = 0 && kind ≠ 1))
  && (!priv || (n = 0 && secure))

/-- An instruction word can be read from an address: it holds memory, or a register (R40). -/
def coreFetch (a : Nat) : Bool := inDram a || inNvs a || inScratch a || inHubSram a || (regDesc a).isSome

/-! ### Issue -/

/-- Whether a processor can issue an instruction now. -/
def State.canIssue (s : State) (p : Proc) : Bool :=
  match p with
  | .vent n =>
    let v := s.vent n.toNat
    v.task.isSome && v.ended.isNone && v.stall.isNone && !v.opening
  | p =>
    let c := s.core (coreNo p)
    c.run = .running && c.stall.isNone

/-- Issue an instruction: nothing happens on a processor that is not running or is stalled; a vent whose datapath check
fails ends its task with HWCHK (R71; assumption 64); the fetch is checked (R22, R60 on a vent; R40, R41, R80 on a core);
then the instruction has its effect. -/
def State.issue (s : State) (p : Proc) (f : State → State) : State :=
  if s.canIssue p then
    match p with
    | .vent n =>
      if s.hwchk.contains (s.phys n.toNat) then
        { s with hwchk := s.hwchk.filter (· ≠ s.phys n.toNat) }.fault p C_HWCHK (s.pcOf p)
      else
      match ventMap n.toNat (s.pcOf p).toNat with
      | .scratch a =>
        let r := s.eccCheck a
        if r.1 then f r.2 else r.2.fault p C_ECC (s.pcOf p)
      | _ => s.goto p (s.pcOf p)
    | _ =>
      let c := s.core (coreNo p)
      let a := c.map c.pc
      match c.check a 2 with
      | .noX => s.fault p C_FETCH c.pc
      | .denied => s.fault p C_PROT c.pc
      | .ok =>
        if coreReach (coreNo p) c.secure a 2 && coreFetch a then f s
        else (s.busRange a 2 (coreMaster (coreNo p)) (coreUnit (coreNo p))).fault p C_RANGE c.pc
  else s

/-- A scalar result: g(d) is written, the flags are raised, the instruction completes. -/
def State.result (s : State) (p : Proc) (d : GReg) (r : ResF) : State :=
  ((s.setG p d.toNat r.1).orFlags p r.2).retire p

/-- Update the active lanes of v(vd) with `f i`, raising the flags of the active lanes (R50, R51). -/
def State.laneResult (s : State) (n : VentNo) (vd : VReg) (pm : PReg) (f : Nat → ResF) : State :=
  let old := s.vreg n.toNat vd.toNat
  let act := s.active n.toNat pm
  let new := lanes.map fun i => if act i then (f i).1 else lane old i
  let fl := lanes.foldl (fun w i => if act i then w ||| (f i).2 else w) 0
  ((s.setV n.toNat vd.toNat new).orFlags (.vent n) fl).retire (.vent n)

/-- The words of the S format (R83, R113). -/
def encS (op vd va vb pm fn : Nat) : Word :=
  Word.ofNat (op * 2 ^ 26 + vd * 2 ^ 22 + va * 2 ^ 18 + vb * 2 ^ 14 + pm * 2 ^ 11 + fn)
/-- The words of the I format. -/
def encI (op d a imm : Nat) : Word := Word.ofNat (op * 2 ^ 26 + d * 2 ^ 21 + a * 2 ^ 16 + imm)

end Sys2Proof.Machine
end

