-- ==== Sys2Proof/Machine/VentMem.lean ====
section
/-!
DEFINITION. Loads and stores of a vent (R59, R92 to R94) with the ECC rules of scratch (R22): alignment before reach,
every active lane checked before any byte is written, and nothing written by an access that faults.
-/
namespace Sys2Proof.Machine
open Sys2Proof

/-- A checked vent load of one element: ALIGN, then RANGE (recorded), then ECC; else `k` gets the value. -/
def State.ventLoad (s : State) (n : VentNo) (a size : Nat) (k : State → Nat → State) : State :=
  if a % size ≠ 0 then s.fault (.vent n) C_ALIGN (Word.ofNat a)
  else if !ventReach a size then (s.ventRange n.toNat a 0).fault (.vent n) C_RANGE (Word.ofNat a)
  else
    let r := s.eccCheckAll (ventWords n.toNat a size)
    if r.1 then k r.2 (leNat (r.2.vrdBytes n.toNat a size)) else r.2.fault (.vent n) C_ECC (Word.ofNat a)

/-- A checked vent store of one element. -/
def State.ventStore (s : State) (n : VentNo) (a size v : Nat) (k : State → State) : State :=
  if a % size ≠ 0 then s.fault (.vent n) C_ALIGN (Word.ofNat a)
  else if !ventReach a size then (s.ventRange n.toNat a 1).fault (.vent n) C_RANGE (Word.ofNat a)
  else
    let r := s.eccCheckAll (ventPartial n.toNat a size)
    if r.1 then k ((r.2.eccStore n.toNat a size).vwrBytes n.toNat a (leBytes size v))
    else r.2.fault (.vent n) C_ECC (Word.ofNat a)

/-- The active lanes under a predicate, in ascending order. -/
def State.actLanes (s : State) (n : VentNo) (pm : PReg) : List Nat := lanes.filter (s.active n.toNat pm)

/-- The first lane of a list that fails its check: the cause and the lane's address (R59). -/
def firstBad (addr : Nat → Nat) (align size : Nat) (base : Option Nat) : List Nat → Option (Nat × Nat)
  | [] => none
  | i :: t =>
    if (match base with | some b => b | none => addr i) % align ≠ 0 then some (C_ALIGN, addr i)
    else if !ventReach (addr i) size then some (C_RANGE, addr i)
    else firstBad addr align size base t

/-- Record and raise the fault of a lane that failed its check. -/
def State.laneFault (s : State) (n : VentNo) (kind : Nat) (f : Nat × Nat) : State :=
  (if f.1 = C_RANGE then s.ventRange n.toNat f.2 kind else s).fault (.vent n) f.1 (Word.ofNat f.2)

/-- Keep the first of each scratch word. -/
def dedupWords : List Nat → List Nat
  | [] => []
  | a :: t => a :: (dedupWords t).filter fun b => b / 4 ≠ a / 4

/-- A vector load: `conv` makes the lane's value and flags from the element read (R93, R94). -/
def State.vecLoad (s : State) (n : VentNo) (vd : VReg) (pm : PReg) (addr : Nat → Nat) (size align : Nat)
    (base : Option Nat) (conv : Nat → ResF) : State :=
  let act := s.actLanes n pm
  match firstBad addr align size base act with
  | some f => s.laneFault n 0 f
  | none =>
    let r := s.eccCheckAll (dedupWords (act.flatMap fun i => ventWords n.toNat (addr i) size))
    if r.1 then
      let s := r.2
      s.laneResult n vd pm fun i => conv (leNat (s.vrdBytes n.toNat (addr i) size))
    else r.2.fault (.vent n) C_ECC 0

/-- A vector store: the active lanes' elements are written in lane order after every check (R93, R94). -/
def State.vecStore (s : State) (n : VentNo) (pm : PReg) (addr : Nat → Nat) (size align : Nat) (base : Option Nat)
    (val : Nat → Nat × Word) : State :=
  let act := s.actLanes n pm
  match firstBad addr align size base act with
  | some f => s.laneFault n 1 f
  | none =>
    let r := s.eccCheckAll (dedupWords (act.flatMap fun i => ventPartial n.toNat (addr i) size))
    if r.1 then
      let s := act.foldl (fun (s : State) i =>
        (s.eccStore n.toNat (addr i) size).vwrBytes n.toNat (addr i) (leBytes size (val i).1)) r.2
      (s.orFlags (.vent n) (act.foldl (fun w i => w ||| (val i).2) 0)).retire (.vent n)
    else r.2.fault (.vent n) C_ECC 0

/-- The address A of a contiguous vector access (R93). -/
def State.vecBase (s : State) (n : VentNo) (base : GReg) (off : BitVec 13) : Nat :=
  (s.gv n.toNat base.toNat + off.signExtend 32 * 4).toNat

/-- VLW (R93). -/
def execVlw (n : VentNo) (vd : VReg) (base : GReg) (pm : PReg) (off : BitVec 13) (s : State) : Res :=
  .next (s.issue (.vent n) fun s =>
    let a := s.vecBase n base off
    s.vecLoad n vd pm (fun i => (a + 4 * i) % 2 ^ 32) 4 4 (some a) fun x => plain (Word.ofNat x))
/-- VLH: fp16 lanes converted to fp32 (R57, R93). -/
def execVlh (n : VentNo) (vd : VReg) (base : GReg) (pm : PReg) (off : BitVec 13) (s : State) : Res :=
  .next (s.issue (.vent n) fun s =>
    let a := s.vecBase n base off
    s.vecLoad n vd pm (fun i => (a + 2 * i) % 2 ^ 32) 2 4 (some a) f16to32)
/-- VSW (R93). -/
def execVsw (n : VentNo) (vd : VReg) (base : GReg) (pm : PReg) (off : BitVec 13) (s : State) : Res :=
  .next (s.issue (.vent n) fun s =>
    let a := s.vecBase n base off
    let v := s.vreg n.toNat vd.toNat
    s.vecStore n pm (fun i => (a + 4 * i) % 2 ^ 32) 4 4 (some a) fun i => ((lane v i).toNat, 0))
/-- VSH: lanes converted to fp16 (R57, R93). -/
def execVsh (n : VentNo) (vd : VReg) (base : GReg) (pm : PReg) (off : BitVec 13) (s : State) : Res :=
  .next (s.issue (.vent n) fun s =>
    let a := s.vecBase n base off
    let v := s.vreg n.toNat vd.toNat
    s.vecStore n pm (fun i => (a + 2 * i) % 2 ^ 32) 2 4 (some a) fun i => f32to16 (lane v i))
/-- VGLW: gather words (R94). -/
def execVglw (n : VentNo) (vd va : VReg) (pm : PReg) (s : State) : Res :=
  .next (s.issue (.vent n) fun s =>
    let v := s.vreg n.toNat va.toNat
    s.vecLoad n vd pm (fun i => (lane v i).toNat) 4 4 none fun x => plain (Word.ofNat x))
/-- VGLH: gather fp16 (R94). -/
def execVglh (n : VentNo) (vd va : VReg) (pm : PReg) (s : State) : Res :=
  .next (s.issue (.vent n) fun s =>
    let v := s.vreg n.toNat va.toNat
    s.vecLoad n vd pm (fun i => (lane v i).toNat) 2 2 none f16to32)
/-- VSCW: scatter words, in lane order (R94). -/
def execVscw (n : VentNo) (va vb : VReg) (pm : PReg) (s : State) : Res :=
  .next (s.issue (.vent n) fun s =>
    let v := s.vreg n.toNat va.toNat
    let w := s.vreg n.toNat vb.toNat
    s.vecStore n pm (fun i => (lane v i).toNat) 4 4 none fun i => ((lane w i).toNat, 0))
/-- VSCH: scatter fp16 (R94). -/
def execVsch (n : VentNo) (va vb : VReg) (pm : PReg) (s : State) : Res :=
  .next (s.issue (.vent n) fun s =>
    let v := s.vreg n.toNat va.toNat
    let w := s.vreg n.toNat vb.toNat
    s.vecStore n pm (fun i => (lane v i).toNat) 2 2 none fun i => f32to16 (lane w i))

end Sys2Proof.Machine
end

