-- ==== Sys2Proof/Machine/CoreMem.lean ====
section
/-!
DEFINITION. Memory as a core sees it, and the memory operands of show instructions (R115): the range is checked whole,
read once, and a failing check raises the fault with nothing written.
-/
namespace Sys2Proof.Machine
open Sys2Proof

/-- A device address that holds memory, not registers. Registers are reached as aligned words by loads and stores
only (R39). -/
def isMem (a : Nat) : Bool := inDram a || inNvs a || inScratch a || inHubSram a

/-- Why a core may not touch a byte of memory: the cause, and the device address to record for RANGE. -/
def State.coreByteFault (s : State) (n kind : Nat) (a : Word) : Option (Nat × Option Nat) :=
  let c := s.core n
  let d := c.map a
  match c.check d kind with
  | .ok => if coreReach n c.secure d kind && isMem d then none else some (C_RANGE, some d)
  | _ => some (C_PROT, none)

/-- The first byte of a range that a core may not touch: its address, the cause, the address to record. -/
def State.coreRangeFault (s : State) (n kind : Nat) (a : Word) : Nat → Option (Word × Nat × Option Nat)
  | 0 => none
  | len + 1 => match s.coreByteFault n kind a with
    | some (c, r) => some (a, c, r)
    | none => s.coreRangeFault n kind (a + 1) len

/-- Raise a core's access fault, recording a RANGE. -/
def State.coreFault (s : State) (p : Proc) (kind : Nat) (f : Word × Nat × Option Nat) : State :=
  let n := coreNo p
  (match f.2.2 with
    | some d => s.busRange d kind (coreMaster n) (coreUnit n)
    | none => s).fault p f.2.1 f.1

/-- The bytes of a range of core addresses. -/
def State.coreBytes (s : State) (n : Nat) (a : Word) : Nat → List Byte
  | 0 => []
  | len + 1 => s.rdB ((s.core n).map a) :: s.coreBytes n (a + 1) len

/-- The scratch words of a range of core addresses. -/
def State.coreScratch (s : State) (n : Nat) (a : Word) (len : Nat) : List Nat :=
  dedupWords (((List.range len).map fun i => (s.core n).map (a + Word.ofNat i)).filter inScratch)

/-- Store bytes at core addresses; a whole scratch word loses any error it held (R22). -/
def State.coreWrite (s : State) (n : Nat) (a : Word) : List Byte → State
  | [] => s
  | b :: t => (s.wrB ((s.core n).map a) b).coreWrite n (a + 1) t

/-- Read a memory operand of `len` bytes at `a` (R115); `aligned` asks for a multiple of 4, on a core as on a vent (DESIGN
CHOICE for a core, assumption 55). -/
def State.operand (s : State) (p : Proc) (a : Word) (len : Nat) (aligned : Bool) (k : State → List Byte → State) :
    State :=
  if len = 0 then k s []
  else if aligned && a.toNat % 4 ≠ 0 then s.fault p C_ALIGN a
  else match p with
    | .vent n =>
      if !ventReach a.toNat len then (s.ventRange n.toNat a.toNat 0).fault p C_RANGE a
      else
        let r := s.eccCheckAll (dedupWords (ventWords n.toNat a.toNat len))
        if r.1 then k r.2 (r.2.vrdBytes n.toNat a.toNat len) else r.2.fault p C_ECC a
    | p =>
      match s.coreRangeFault (coreNo p) 0 a len with
      | some f => s.coreFault p 0 f
      | none =>
        let r := s.eccCheckAll (s.coreScratch (coreNo p) a len)
        if r.1 then k r.2 (r.2.coreBytes (coreNo p) a len) else r.2.fault p C_ECC a

/-- Check a memory operand that will be written (R115, R516): true when it passes, else the state after the fault. A core's
is a multiple of 4 as well (DESIGN CHOICE, assumption 55). -/
def State.destOk (s : State) (p : Proc) (a : Word) (len : Nat) : Bool × State :=
  if a.toNat % 4 ≠ 0 then (false, s.fault p C_ALIGN a)
  else match p with
    | .vent n =>
      if !ventReach a.toNat len then (false, (s.ventRange n.toNat a.toNat 1).fault p C_RANGE a)
      else (true, s)
    | p =>
      match s.coreRangeFault (coreNo p) 1 a len with
      | some f => (false, s.coreFault p 1 f)
      | none => (true, s)

/-- Write a checked memory operand of whole words. -/
def State.destWrite (s : State) (p : Proc) (a : Word) (l : List Byte) : State :=
  match p with
  | .vent n => (s.eccStore n.toNat a.toNat l.length).vwrBytes n.toNat a.toNat l
  | p =>
    let n := coreNo p
    { s with ecc := (s.coreScratch n a l.length).foldl (fun m w => merase m (w / 4 * 4)) s.ecc }.coreWrite n a l

end Sys2Proof.Machine
end

