-- ==== Sys2Proof/Machine/TaskInstr.lean ====
section
/-!
DEFINITION. The show instructions on tasks, waits, events, counters and join gates (R130 to R138, R144, R145), and the
submission of a descriptor to a caldera (R131, R132, R148).
-/
namespace Sys2Proof.Machine
open Sys2Proof

/-- A register pair of opcode 0x3E: even and from 2 to 14 (R114). -/
def pairOk (d : SReg) : Bool := d.toNat % 2 = 0 && 2 ≤ d.toNat

/-- Raise ILLEGAL for a word of opcode 0x3E (R84, R114). -/
def State.illegalS (s : State) (p : Proc) (d a b : SReg) (fn : Nat) : State :=
  s.fault p C_ILLEGAL (encS 0x3E d.toNat a.toNat b.toNat 0 fn)

/-- Write g(d) and g(d + 1). -/
def State.setPair (s : State) (p : Proc) (d : Nat) (lo hi : Word) : State := (s.setG p d lo).setG p (d + 1) hi

/-- Stall vent n. -/
def State.stallVent (s : State) (n : Nat) (w : Stall) : State := s.setVent n { s.vent n with stall := some w }
/-- End the stall of vent n. -/
def State.unstallVent (s : State) (n : Nat) : State := s.setVent n { s.vent n with stall := none }

/-! ### Submission (R63, R131, R132, R148) -/

/-- A frame counts as committed (R132). -/
def State.frameCommitted (s : State) (f : Word) : Bool := decide (sdiff f s.committed ≤ 0)

/-- The status of a submission that is refused before any stall; 0 when it is not. Of several that hold, E_ARG comes first,
then E_ATTR, then E_LATE (R131 gives no order; DESIGN CHOICE, assumption 69). -/
def State.submitStatus (s : State) (desc : List Byte) (selftestOk : Bool) : Nat :=
  let d := parseDesc desc
  if !descOk desc then E_ARG
  else if d.selftest && !selftestOk then E_ATTR
  else if d.tag ≠ NO_FRAME && s.frameCommitted d.tag then E_LATE
  else OK

/-- A submission may be queued at once: there is room and no earlier submitter waits for the same room (R148). -/
def State.admitNow (s : State) (k lvl : Nat) : Bool :=
  s.room k lvl && !((s.cal k).stalled.any fun q => q.desc.prio = lvl || s.levelRoom k q.desc.prio)

/-- The order of submitters that stall in one VCK cycle: ports ascending, then vents ascending (R148). -/
def Submitter.rank : Submitter → Nat
  | .port m => m
  | .vent n => 16 + n

/-- A submitter stalls behind the earlier ones, and by rank among those of its VCK cycle (R148, R153). -/
def State.stallSubmit (s : State) (q : Submission) : State :=
  let x := s.cal q.k
  let m := if 0 < x.stallCyc.2 && s.sameCycle x.stallCyc.1 then x.stallCyc.2 else 0
  let s := if 0 < x.stallCyc.2 then s.askedCycle x.stallCyc.1 else s
  s.setCal q.k { x with
    stalled := insCycle (fun q => q.who.rank) m x.stalled q, stallCyc := (s.now, m + 1) }

/-- A SPAWN whose earlier transfers have ended is queued or stalls for room (R131, R148). -/
def State.spawnNow (s : State) (n rd : Nat) (desc : List Byte) (k : Nat) : State :=
  let d := parseDesc desc
  if s.admitNow k d.prio then
    let r := s.addTask k d
    let h := handleOf r.1 (mget (fun _ => 0) r.2.seqs r.1)
    ((r.2.setGv n rd 0).setGv n (rd + 1) h).retire (.vent (BitVec.ofNat 10 n))
  else (s.stallVent n (.spawn (BitVec.ofNat 4 rd) desc k)).stallSubmit ⟨.vent n, k, d⟩

/-- The caldera of a SPAWN (R131). -/
def spawnTarget (n : Nat) (d : TaskDesc) : Nat :=
  if d.affKind = 1 then d.affTarget else if d.affKind = 2 then d.affTarget / 4 else n / 64

/-- The instruction of vent n that waited for the vent's transfers to end goes on (R131, R136, R145). -/
def State.signalNow (s : State) (n rd : Nat) (ev : Word) : State :=
  let ok := 0x400 ≤ ev.toNat ∧ ev.toNat ≤ 0x7FF
  let s := if ok then s.fireEvent ev.toNat else s
  (s.setGv n rd (if ok then 0 else Word.ofNat E_ARG)).retire (.vent (BitVec.ofNat 10 n))

def State.joinNow (s : State) (n rd : Nat) (gate : Word) : State :=
  let v := Proc.vent (BitVec.ofNat 10 n)
  if 1023 < gate.toNat then (s.setPair v rd (Word.ofNat E_ARG) 0).retire v
  else
    let g := mget (fun _ => {}) s.gates gate.toNat
    if !g.armed then (s.setPair v rd (Word.ofNat E_STATE) 0).retire v
    else if g.count + 1 = g.expect then
      (({ s with gates := mset (fun _ => {}) s.gates gate.toNat {} }.fireEvent (0x400 + gate.toNat)).setPair v rd 0
        1).retire v
    else
      ({ s with gates := mset (fun _ => {}) s.gates gate.toNat { g with count := g.count + 1 } }.setPair v rd 0
        0).retire v

/-- After the transfers of vent n have ended, an instruction that waited for that goes on. -/
def State.drained (s : State) (n : Nat) : State :=
  if (s.vent n).draining then s
  else match (s.vent n).stall with
    | some (.spawn rd desc k) =>
      if (s.cal k).stalled.any (fun q => q.who = .vent n) then s
      else if s.submitStatus desc false ≠ 0 ∧ s.submitStatus desc false ≠ E_LATE then
        ((s.unstallVent n).setPair (.vent (BitVec.ofNat 10 n)) rd.toNat (Word.ofNat (s.submitStatus desc false))
          0).retire (.vent (BitVec.ofNat 10 n))
      else (s.unstallVent n).spawnNow n rd.toNat desc k
    | some (.signal rd ev) => (s.unstallVent n).signalNow n rd.toNat ev
    | some (.join rd g) => (s.unstallVent n).joinNow n rd.toNat g
    | _ => s

/-- SPAWN (R131, R132): the descriptor is read, checked for form and lateness at issue, and queued once the vent's
earlier transfers have ended and there is room. -/
def execSpawn (n : VentNo) (d a : SReg) (s : State) : Res :=
  .next (s.issue (.vent n) fun s =>
    if !pairOk d then s.illegalS (.vent n) d a 0 0
    else
      let ad := (s.gv n.toNat a.toNat).toNat
      if ad % 32 ≠ 0 then s.fault (.vent n) C_ALIGN (Word.ofNat ad)
      else if !ventReach ad 32 then (s.ventRange n.toNat ad 0).fault (.vent n) C_RANGE (Word.ofNat ad)
      else
        let r := s.eccCheckAll (ventWords n.toNat ad 32)
        if !r.1 then r.2.fault (.vent n) C_ECC (Word.ofNat ad)
        else
          let s := r.2
          let desc := s.vrdBytes n.toNat ad 32
          let st := s.submitStatus desc false
          if st = E_LATE ∨ (st ≠ 0 ∧ !(s.vent n.toNat).draining) then
            (s.setPair (.vent n) d.toNat (Word.ofNat st) 0).retire (.vent n)
          else
            let k := spawnTarget n.toNat (parseDesc desc)
            (s.stallVent n.toNat (.spawn d desc k)).drained n.toNat)

/-- YIELD (R66, R133). -/
def execYield (n : VentNo) (s : State) : Res :=
  .next (s.issue (.vent n) fun s => s.endRun n.toNat .yield (s.pcOf (.vent n) + 4))
/-- DONE (R66, R133). -/
def execDone (n : VentNo) (s : State) : Res :=
  .next (s.issue (.vent n) fun s => s.endRun n.toNat .done (s.pcOf (.vent n)))
/-- CANCEL by handle (R66, R69, R133). -/
def execCancel (n : VentNo) (d a : SReg) (s : State) : Res :=
  .next (s.issue (.vent n) fun s =>
    let r := s.cancelTask (s.gv n.toNat a.toNat) (some n.toNat)
    (r.2.setGv n.toNat d.toNat (Word.ofNat r.1)).retire (.vent n))
/-- WAITF (R134). -/
def execWaitf (n : VentNo) (a : SReg) (s : State) : Res :=
  .next (s.issue (.vent n) fun s =>
    s.endRun n.toNat (.waitF (s.gv n.toNat a.toNat)) (s.pcOf (.vent n) + 4))
/-- WAITE (R134): a reserved event number ends the task FAULT with ILLEGAL. -/
def execWaite (n : VentNo) (a : SReg) (s : State) : Res :=
  .next (s.issue (.vent n) fun s =>
    let e := fldOf (s.gv n.toNat a.toNat) 11 0
    if eventOk e then s.endRun n.toNat (.waitE e) (s.pcOf (.vent n) + 4)
    else s.illegalS (.vent n) 0 a 0 5)
/-- SIGNAL (R136). -/
def execSignal (n : VentNo) (d a : SReg) (s : State) : Res :=
  .next (s.issue (.vent n) fun s =>
    (s.stallVent n.toNat (.signal d (s.gv n.toNat a.toNat))).drained n.toNat)
/-- ECLASS (R137). -/
def execEclass (n : VentNo) (a : SReg) (s : State) : Res :=
  .next (s.issue (.vent n) fun s =>
    (s.setVent n.toNat { s.vent n.toNat with cls := fldOf (s.gv n.toNat a.toNat) 2 0 }).retire (.vent n))
/-- JSET (R145). -/
def execJset (n : VentNo) (d a b : SReg) (s : State) : Res :=
  .next (s.issue (.vent n) fun s =>
    let gate := (s.gv n.toNat a.toNat).toNat
    let cnt := (s.gv n.toNat b.toNat).toNat
    let g := mget (fun _ => ({} : Gate)) s.gates gate
    let st := if 1023 < gate ∨ cnt = 0 ∨ 65535 < cnt then E_ARG
              else if g.armed ∧ 0 < g.count then E_STATE else OK
    let s := if st = OK then { s with gates := mset (fun _ => {}) s.gates gate ⟨true, cnt, 0⟩ } else s
    (s.setGv n.toNat d.toNat (Word.ofNat st)).retire (.vent n))
/-- JOIN (R145). -/
def execJoin (n : VentNo) (d a : SReg) (s : State) : Res :=
  .next (s.issue (.vent n) fun s =>
    if !pairOk d then s.illegalS (.vent n) d a 0 9
    else (s.stallVent n.toNat (.join d (s.gv n.toNat a.toNat))).drained n.toNat)
/-- CADD: add to a counter of the vent's own crater (R144). -/
def execCadd (n : VentNo) (d a b : SReg) (s : State) : Res :=
  .next (s.issue (.vent n) fun s =>
    let c := n.toNat / 16
    let x := s.crater c
    let i := fldOf (s.gv n.toNat a.toNat) 5 0
    let old := mget (fun _ => 0) x.counters i
    let s' := s.setCrater c { x with counters := mset (fun _ => 0) x.counters i (old + s.gv n.toNat b.toNat) }
    (s'.setGv n.toNat d.toNat old).retire (.vent n))

end Sys2Proof.Machine
end

