-- ==== Sys2Proof/Machine/Queue.lean ====
section
/-!
DEFINITION. QUE, the 256 FIFOs in hub SRAM (R346 to R356) and the queue instructions (R140).
-/
namespace Sys2Proof.Machine
open Sys2Proof

/-! ### Configuration -/
def State.qEn (s : State) (n : Nat) : Bool := s.bit (R.QUE_Q_CFG n) 31
def State.qAuto (s : State) (n : Nat) : Bool := s.bit (R.QUE_Q_CFG n) 30
/-- Entry width in words. -/
def State.qWords (s : State) (n : Nat) : Nat := s.fld (R.QUE_Q_CFG n) 29 24 + 1
def State.qDepth (s : State) (n : Nat) : Nat := s.fld (R.QUE_Q_CFG n) 15 0
/-- Hub SRAM offset of the region. -/
def State.qBase (s : State) (n : Nat) : Nat := s.fld (R.QUE_Q_BASE n) 21 6 * 64
/-- Device address of the entry at a position. -/
def State.qSlot (s : State) (n pos : Nat) : Nat :=
  SRAM_BASE + s.qBase n + pos % s.qDepth n * (s.qWords n * 4)

/-- The five groups of R350. -/
abbrev G_HOST : Nat := 0
abbrev G_MGMT : Nat := 1
abbrev G_SVC : Nat := 2
abbrev G_VENT : Nat := 3
abbrev G_HW : Nat := 4

/-- The group of a processor. -/
def procGroup : Proc → Nat
  | .vent _ => G_VENT
  | .svc _ => G_SVC
  | .mgmt => G_MGMT

/-- Whether a FIFO admits a producer or a consumer group (R350). -/
def State.qProd (s : State) (n g : Nat) : Bool := s.qEn n && s.bit (R.QUE_Q_ACL n) (8 + g)
def State.qCons (s : State) (n g : Nat) : Bool := s.qEn n && s.bit (R.QUE_Q_ACL n) g

/-- Space used and entries available. -/
def Fifo.used (f : Fifo) : Nat := f.w - f.l
def Fifo.avail (f : Fifo) : Nat := f.w - f.r

/-- A push may complete at once: there is room and no earlier push waits (R347, R352). -/
def State.qRoom (s : State) (n : Nat) : Bool := (s.fifo n).used < s.qDepth n
def State.qReady (s : State) (n : Nat) : Bool := s.qRoom n && (s.fifo n).stalled.isEmpty

/-! ### Refusals and pointer faults -/

/-- A refused access is counted (R350). -/
def State.qRefused (s : State) (n : Nat) : State := s.bump (R.QUE_Q_CNT n) 31 16
/-- A refused host access also sets err. -/
def State.qHostRefused (s : State) (n : Nat) : State := (s.qRefused n).setF (R.QUE_Q_STAT n) 2 2 1
/-- A refused hardware push is recorded with its source (R350). -/
def State.qHwRefused (s : State) (n master unit : Nat) : State := (s.qRefused n).log 0x0041 1 n master unit

/-- A stalled push of a vent or core completes with a status. -/
def State.pushDone (s : State) (who : Pusher) (st : Nat) : State :=
  match who with
  | .vent v rd => ((s.unstallVent v).setGv v rd.toNat (Word.ofNat st)).retire (.vent (BitVec.ofNat 10 v))
  | .core c rd =>
    let x := s.core c
    ((s.setCore c { x with stall := none, pc := x.pc + 4 }).setGc c rd.toNat (Word.ofNat st))
  | _ => s

/-- Append one entry at W: its words go to hub SRAM, the FIFO may enter HIGH (R355), and tasks that waited for it not
to be empty become READY (R135). -/
def State.qAppend (s : State) (n : Nat) (l : List Word) : State :=
  let f := s.fifo n
  let s := s.wrBytes (s.qSlot n f.w) (bytesOfWords (padWords (s.qWords n) l))
  let f := { f with w := f.w + 1, w2 := f.w2 + 1,
                    high := f.high || decide (s.fld (R.QUE_Q_WM n) 31 16 ≤ f.used + 1) }
  (s.setFifo n f).fireLevel n

/-- The group order of R352. -/
def Pusher.rank : Pusher → Nat
  | .hw _ _ => 0
  | .host => 1
  | .core 0 _ => 2
  | .core _ _ => 3
  | .vent _ _ => 4

/-- Take the first stalled push of the earliest group. -/
def takePush (l : List StalledPush) : Option (StalledPush × List StalledPush) :=
  match [0, 1, 2, 3, 4].findSome? fun g => l.findIdx? fun q => q.who.rank = g with
  | some i => (l[i]?).map fun q => (q, l.eraseIdx i)
  | none => none

/-- Stalled pushes complete while there is room (R352). -/
def State.qAdmit (s : State) (n : Nat) : Nat → State
  | 0 => s
  | k + 1 =>
    if !s.qRoom n then s
    else match takePush (s.fifo n).stalled with
      | some (q, rest) =>
        ((((s.setFifo n { s.fifo n with stalled := rest }).qAppend n q.words).pushDone q.who OK)).qAdmit n k
      | none => s

/-- The two copies of W, R or L differ (R353). -/
def Fifo.broken (f : Fifo) : Bool := f.w != f.w2 || f.r != f.r2 || f.l != f.l2

/-- R353: the FIFO is emptied and stays enabled, so that the last entry popped is kept (R348); the fault is counted and recorded, stalled instruction pushes end
with E_FAULT, a stalled host write ends, and stalled hardware pushes are retried. -/
def State.qPtrFault (s : State) (n : Nat) : State :=
  let f := s.fifo n
  let hw := f.stalled.filter fun q => q.who.rank = 0
  let s := s.setFifo n { stalled := hw, last := f.last, lastW := f.lastW }
  let s := (s.bump R.QUE_FAULT 31 16).setF R.QUE_FAULT 7 0 n
  let s := (s.setF (R.QUE_Q_STAT n) 1 1 1).log 0x0040 2 n
  let s := f.stalled.foldl (fun (s : State) q => if q.who.rank = 0 then s else s.pushDone q.who E_FAULT) s
  s.qAdmit n hw.length

/-- Compare the copies on an access: true when they agree. -/
def State.qCheck (s : State) (n : Nat) : Bool × State :=
  if (s.fifo n).broken then (false, s.qPtrFault n) else (true, s)

/-- A push waits for room. -/
def State.qStall (s : State) (n : Nat) (q : StalledPush) : State :=
  s.setFifo n { s.fifo n with stalled := (s.fifo n).stalled ++ [q] }

/-- A hardware block pushes one record of `bytes` bytes (R347, R350). -/
def State.hwPush (s : State) (n master unit bytes : Nat) (l : List Word) : State :=
  if !s.qProd n G_HW || s.qWords n * 4 < bytes then s.qHwRefused n master unit
  else
    let s := (s.qCheck n).2
    if s.qReady n then s.qAppend n l else s.qStall n ⟨.hw master unit, l⟩

/-! ### Consumer operations -/

/-- RELEASE sets L = R and may leave HIGH (R349, R355). -/
def State.qLet (s : State) (n : Nat) : State :=
  let f := s.fifo n
  s.setFifo n { f with l := f.r, l2 := f.r2, high := f.high && !decide (f.w - f.r ≤ s.fld (R.QUE_Q_WM n) 15 0) }

/-- The status and effect of MARK, REWIND or RELEASE on an enabled FIFO (R349). -/
def State.qMark (s : State) (n : Nat) : Nat × State :=
  if s.qAuto n then (E_STATE, s) else (OK, s.setFifo n { s.fifo n with m := (s.fifo n).r, marked := true })
/-- Entries from the mark can be read again, and tasks that wait for the FIFO not to be empty become READY (R135). -/
def State.qRewind (s : State) (n : Nat) : Nat × State :=
  let f := s.fifo n
  if s.qAuto n || !f.marked then (E_STATE, s) else (OK, (s.setFifo n { f with r := f.m, r2 := f.m }).fireLevel n)
def State.qRelease (s : State) (n : Nat) : Nat × State :=
  (OK, (s.setFifo n { s.fifo n with marked := false }).qLet n)

/-- An underrun is counted and shown (R348). -/
def State.qUnder (s : State) (n : Nat) : State := (s.setF (R.QUE_Q_STAT n) 0 0 1).bump (R.QUE_Q_CNT n) 15 0

/-- The head entry leaves the FIFO: R advances, and L with it when the FIFO releases as it pops (R346). -/
def State.qAdvance (s : State) (n : Nat) (release : Bool) (l : List Word) : State :=
  let f := s.fifo n
  let s := s.setFifo n { f with r := f.r + 1, r2 := f.r2 + 1, last := l, lastW := l.getLastD 0, popIdx := 0 }
  if release then s.qLet n else s

/-- The words of the head entry. -/
def State.qHead (s : State) (n : Nat) : List Word :=
  padWords (s.qWords n) (wordsOf (s.rdBytes (s.qSlot n (s.fifo n).r) (s.qWords n * 4)))

/-- Pop one entry: whether it underran, its words, and the new state (R348). -/
def State.qPop (s : State) (n : Nat) (release : Bool) : Bool × List Word × State :=
  let f := s.fifo n
  if f.avail = 0 then (true, padWords (s.qWords n) f.last, s.qUnder n)
  else let l := s.qHead n; (false, l, s.qAdvance n (release || s.qAuto n) l)

/-! ### Instructions (R140) -/

/-- The status that refuses a queue instruction; 0 when none does. -/
def State.qInstrStatus (s : State) (p : Proc) (f : Word) (push : Bool) : Nat :=
  if 255 < f.toNat then E_ARG
  else if (if push then s.qProd f.toNat (procGroup p) else s.qCons f.toNat (procGroup p)) then OK else E_ATTR

/-- The pusher that a processor is. -/
def pusherOf (p : Proc) (rd : SReg) : Pusher :=
  match p with
  | .vent n => .vent n.toNat rd
  | p => .core (coreNo p) rd

/-- Stall a processor on a push or post. -/
def State.stallProc (s : State) (p : Proc) (w : Stall) : State :=
  match p with
  | .vent n => s.stallVent n.toNat w
  | p => s.setCore (coreNo p) { s.core (coreNo p) with stall := some w }

/-- QPUSH (R140, R347). A status other than OK comes before any check of the operand (DESIGN CHOICE, assumption 69). -/
def execQpush (p : Proc) (d a b : SReg) (s : State) : Res :=
  .next (s.issue p fun s =>
    let f := s.g p a.toNat
    let st := s.qInstrStatus p f true
    if st ≠ OK then (s.setG p d.toNat (Word.ofNat st)).retire p
    else
      let n := f.toNat
      s.operand p (s.g p b.toNat) (s.qWords n * 4) true fun s l =>
        let r := s.qCheck n
        if !r.1 then (r.2.setG p d.toNat (Word.ofNat E_FAULT)).retire p
        else if s.qReady n then ((s.qAppend n (wordsOf l)).setG p d.toNat 0).retire p
        else (s.qStall n ⟨pusherOf p d, wordsOf l⟩).stallProc p (.qpush d n))

/-- QPOP (R140, R348). A status other than OK comes before any check of the destination, and leaves g(d+1) at 0 (DESIGN
CHOICE, assumption 69). -/
def execQpop (p : Proc) (d a b : SReg) (s : State) : Res :=
  .next (s.issue p fun s =>
    if !pairOk d then s.illegalS p d a b 0x19
    else
      let f := s.g p a.toNat
      let st := s.qInstrStatus p f false
      if st ≠ OK then (s.setPair p d.toNat (Word.ofNat st) 0).retire p
      else
        let n := f.toNat
        let ad := s.g p b.toNat
        let c := s.destOk p ad (s.qWords n * 4)
        if !c.1 then c.2
        else
          let r := s.qCheck n
          if !r.1 then (r.2.setPair p d.toNat (Word.ofNat E_FAULT) 0).retire p
          else
            let q := s.qPop n false
            ((q.2.2.destWrite p ad (bytesOfWords q.2.1)).setPair p d.toNat 0 (Word.ofNat (b2n q.1))).retire p)

/-- A consumer instruction that only moves positions (R140, R349). -/
def queueOp (op : State → Nat → Nat × State) (p : Proc) (d a : SReg) (s : State) : Res :=
  .next (s.issue p fun s =>
    let f := s.g p a.toNat
    let st := s.qInstrStatus p f false
    if st ≠ OK then (s.setG p d.toNat (Word.ofNat st)).retire p
    else
      let r := s.qCheck f.toNat
      let q := if r.1 then op s f.toNat else (E_FAULT, r.2)
      (q.2.setG p d.toNat (Word.ofNat q.1)).retire p)

/-- QMARK (R140, R349). -/
def execQmark (p : Proc) (d a : SReg) (s : State) : Res := queueOp State.qMark p d a s
/-- QREWIND (R140, R349). -/
def execQrewind (p : Proc) (d a : SReg) (s : State) : Res := queueOp State.qRewind p d a s
/-- QREL (R140, R349). -/
def execQrel (p : Proc) (d a : SReg) (s : State) : Res := queueOp State.qRelease p d a s

/-! ### Host registers (R350, R351, R354) -/

/-- Set QUE_Qn_OPRES. -/
def State.qOpRes (s : State) (n st : Nat) : State := s.wr (R.QUE_Q_OPRES n) (Word.ofNat (2 ^ 31 + st))

/-- The region of FIFO n overlaps that of another enabled FIFO m. -/
def State.qOverlap (s : State) (n m : Nat) : Bool :=
  m != n && s.qEn m && decide (s.qBase n < s.qBase m + s.qDepth m * (s.qWords m * 4))
    && decide (s.qBase m < s.qBase n + s.qDepth n * (s.qWords n * 4))

/-- The checks of R351 on the configuration registers as they stand. -/
def State.qConfigStatus (s : State) (n : Nat) : Nat :=
  let d := s.qDepth n
  let hi := s.fld (R.QUE_Q_WM n) 31 16
  let lo := s.fld (R.QUE_Q_WM n) 15 0
  if d < 2 ∨ hi = 0 ∨ d < hi ∨ hi ≤ lo ∨ 9 < s.fld (R.QUE_Q_FLOW n) 19 16 then E_ARG
  else if 0x400000 < s.qBase n + d * (s.qWords n * 4) ∨ (List.range 256).any (s.qOverlap n) then E_SPACE
  else OK

/-- QUE_ENABLE: a write to QUE_Qn_CFG with en = 1 while en = 0 (R351). While en = 1 it is ignored. -/
def execQueEnable (n : BitVec 8) (cfg : Word) (s : State) : Res :=
  let n := n.toNat
  .next (if s.qEn n ∨ !bitOf cfg 31 then s
    else
      let s := s.wr (R.QUE_Q_CFG n) (setFld (cfg &&& 0xFFC0FFFF) 31 31 0)
      let st := s.qConfigStatus n
      if st ≠ OK then s.qOpRes n st
      else ((s.setF (R.QUE_Q_CFG n) 31 31 1).setFifo n {}).qOpRes n OK)

/-- A FIFO is disabled: its contents are discarded and stalled pushes end (R351). -/
def State.qDisable (s : State) (n : Nat) : State :=
  let f := s.fifo n
  let s := (s.setF (R.QUE_Q_CFG n) 31 31 0).setFifo n {}
  f.stalled.foldl (fun (s : State) q => match q.who with
    | .hw m u => s.qHwRefused n m u
    | w => s.pushDone w E_ATTR) s

/-- QUE_PUSH_WORD: a host write to QUE_Qn_PUSH (R347, R350, R354). -/
def execQuePushWord (n : BitVec 8) (w : Word) (s : State) : Res :=
  let n := n.toNat
  .next (if !s.qProd n G_HOST then s.qHostRefused n
    else
      let r := s.qCheck n
      if !r.1 then r.2
      else
        let l := (s.fifo n).stage ++ [w]
        if l.length < s.qWords n then s.setFifo n { s.fifo n with stage := l }
        else
          let s := s.setFifo n { s.fifo n with stage := [] }
          if s.qReady n then s.qAppend n l else s.qStall n ⟨.host, l⟩)

/-- QUE_POP_READ: a host read of QUE_Qn_POP (R348, R350, R354). -/
def execQuePopRead (n : BitVec 8) (s : State) : Res :=
  let n := n.toNat
  .next (if !s.qCons n G_HOST then { s.qHostRefused n with hostRead := 0 }
    else
      let r := s.qCheck n
      let s := r.2
      let f := s.fifo n
      if f.avail = 0 then { s.qUnder n with hostRead := f.lastW }
      else
        let l := s.qHead n
        let w := l.getD f.popIdx 0
        if f.popIdx + 1 < s.qWords n then
          { s.setFifo n { f with popIdx := f.popIdx + 1, lastW := w } with hostRead := w }
        else { s.qAdvance n (s.qAuto n) l with hostRead := w })

/-- A host write of an operation to QUE_Qn_OP. -/
def State.qHostOp (s : State) (n : Nat) (op : State → Nat → Nat × State) : State :=
  if !s.qCons n G_HOST then (s.qHostRefused n).qOpRes n E_ATTR
  else
    let r := s.qCheck n
    if !r.1 then r.2.qOpRes n E_FAULT else let q := op s n; q.2.qOpRes n q.1

/-- QUE_OP_MARK (R349). -/
def execQueOpMark (n : BitVec 8) (s : State) : Res :=
  let n := n.toNat
  .next (s.qHostOp n State.qMark)
/-- QUE_OP_REWIND (R349). -/
def execQueOpRewind (n : BitVec 8) (s : State) : Res :=
  let n := n.toNat
  .next (s.qHostOp n State.qRewind)
/-- QUE_OP_RELEASE (R349). -/
def execQueOpRelease (n : BitVec 8) (s : State) : Res :=
  let n := n.toNat
  .next (s.qHostOp n State.qRelease)
/-- QUE_Qn_LEVEL as read. -/
def State.qLevel (s : State) (n : Nat) : Word :=
  let f := s.fifo n
  Word.ofNat (f.avail % 65536 * 65536 + f.used % 65536)
/-- QUE_Qn_STAT as read. -/
def State.qStat (s : State) (n : Nat) : Word :=
  let f := s.fifo n
  setFld (setFld (s.rd (R.QUE_Q_STAT n)) 4 4 (b2n f.marked)) 3 3 (b2n f.high)
/-- FC pin k is asserted (R355). -/
def State.fcAsserted (s : State) (k : Nat) : Bool :=
  s.fifos.any fun e => e.2.high && s.qEn e.1 && s.bit (R.QUE_Q_FLOW e.1) 31 && s.fld (R.QUE_Q_FLOW e.1) 26 24 == k
/-- The level of pin FCk; none: high impedance (R355). -/
def State.fcPin (s : State) (k : Nat) : Option Bool :=
  if s.bit R.QUE_FC (8 + k) then some (s.fcAsserted k != s.bit R.QUE_FC k) else none
/-- A FIFO in HIGH asks MAC port p to pause (R355). -/
def State.quePause (s : State) (p : Nat) : Bool :=
  s.fifos.any fun e => e.2.high && s.qEn e.1 && s.bit (R.QUE_Q_FLOW e.1) 23 && s.fld (R.QUE_Q_FLOW e.1) 19 16 == p
/-- The level of source 0x200 + n (R364). -/
def State.qIrq (s : State) (n : Nat) : Bool :=
  match s.fld (R.QUE_Q_CFG n) 23 22 with
  | 0 => false
  | 1 => s.qEn n && (s.fifo n).avail != 0
  | 2 => s.qEn n && (s.fifo n).high
  | _ => s.fld (R.QUE_Q_STAT n) 2 0 != 0

end Sys2Proof.Machine
end

