-- ==== Sys2Proof/Machine/Crc.lean ====
section
/-!
DEFINITION. Check values: the CRC instructions (R141, R142), the alive counter (R143), and the CRC-32C and CRC-16 forms
that the links and frames use.
-/
namespace Sys2Proof.Machine
open Sys2Proof

/-- The low w bits in reverse order. -/
def reflect : Nat → Nat → Nat
  | 0, _ => 0
  | w + 1, v => v % 2 * 2 ^ w + reflect w (v / 2)

/-- Parameters of a CRC (R141). -/
structure CrcParam where
  poly : Nat
  init : Nat
  xorout : Nat
  w : Nat
  refin : Bool
  refout : Bool
  deriving DecidableEq, Repr

/-- The parameters in a 32-byte block; values at or above the width are ignored. -/
def crcParam (l : List Byte) : CrcParam :=
  let w := leAt l 24 1
  let m := 2 ^ w
  { poly := leAt l 0 8 % m, init := leAt l 8 8 % m, xorout := leAt l 16 8 % m, w := w,
    refin := leAt l 25 1 % 2 = 1, refout := leAt l 25 1 / 2 % 2 = 1 }

/-- One step, most significant bit first: bit k of the byte (R142). -/
def crcBitMsb (p : CrcParam) (st b k : Nat) : Nat :=
  let top := (st / 2 ^ (p.w - 1) + b / 2 ^ k) % 2
  let st := st * 2 % 2 ^ p.w
  if top = 1 then st ^^^ p.poly else st
/-- One step, least significant bit first. -/
def crcBitLsb (p : CrcParam) (st b k : Nat) : Nat :=
  let low := (st + b / 2 ^ k) % 2
  if low = 1 then st / 2 ^^^ reflect p.w p.poly else st / 2

/-- One byte (R142). -/
def crcByte (p : CrcParam) (st : Nat) (b : Byte) : Nat :=
  if p.refin then [0, 1, 2, 3, 4, 5, 6, 7].foldl (fun s k => crcBitLsb p s b.toNat k) st
  else [7, 6, 5, 4, 3, 2, 1, 0].foldl (fun s k => crcBitMsb p s b.toNat k) st

def crcStart (p : CrcParam) : Nat := if p.refin then reflect p.w p.init else p.init
def crcFinish (p : CrcParam) (st : Nat) : Nat := (if p.refout != p.refin then reflect p.w st else st) ^^^ p.xorout
/-- The CRC of a byte string. -/
def crcOf (p : CrcParam) (l : List Byte) : Nat := crcFinish p (l.foldl (crcByte p) (crcStart p))

/-- CRC-32C (R142). -/
def CRC32C : CrcParam := ⟨0x1EDC6F41, 0xFFFFFFFF, 0xFFFFFFFF, 32, true, true⟩
def crc32c (l : List Byte) : Word := Word.ofNat (crcOf CRC32C l)

/-! ### Instructions (R141, R142) -/

/-- The state in a register pair, bits at or above w ignored. -/
def State.crcState (s : State) (p : Proc) (d : SReg) (w : Nat) : Nat :=
  ((s.g p d.toNat).toNat + (s.g p (d.toNat + 1)).toNat * 2 ^ 32) % 2 ^ w

/-- The shared form: the parameter block at g(a) is read and its width checked, then the state is replaced. -/
def State.crcOp (s : State) (p : Proc) (d a : SReg) (word : Word) (f : State → CrcParam → (State → Nat → State) → State) :
    State :=
  if !pairOk d then s.fault p C_ILLEGAL word
  else
    s.operand p (s.g p a.toNat) 32 true fun s l =>
      if leAt l 24 1 = 0 ∨ 64 < leAt l 24 1 then s.fault p C_ILLEGAL word
      else f s (crcParam l) fun s v => (s.setPair p d.toNat (Word.ofNat v) (Word.ofNat (v / 2 ^ 32))).retire p

/-- CRCI (R142). -/
def execCrci (p : Proc) (d a : SReg) (s : State) : Res :=
  .next (s.issue p fun s =>
    s.crcOp p d a (encS 0x3E d.toNat a.toNat 0 0 0x20) fun s c k => k s (crcStart c))
/-- CRCB (R142). -/
def execCrcb (p : Proc) (d a b : SReg) (s : State) : Res :=
  .next (s.issue p fun s =>
    s.crcOp p d a (encS 0x3E d.toNat a.toNat b.toNat 0 0x21) fun s c k =>
      k s (crcByte c (s.crcState p d c.w) (BitVec.ofNat 8 (s.g p b.toNat).toNat)))
/-- CRCW: the four bytes of g(b), [7:0] first (R142). -/
def execCrcw (p : Proc) (d a b : SReg) (s : State) : Res :=
  .next (s.issue p fun s =>
    s.crcOp p d a (encS 0x3E d.toNat a.toNat b.toNat 0 0x22) fun s c k =>
      k s ((leBytes 4 (s.g p b.toNat).toNat).foldl (crcByte c) (s.crcState p d c.w)))
/-- CRCM: g(b + 1) bytes from address g(b) (R115, R142). -/
def execCrcm (p : Proc) (d a b : SReg) (s : State) : Res :=
  .next (s.issue p fun s =>
    let word := encS 0x3E d.toNat a.toNat b.toNat 0 0x23
    if !pairOk b then s.fault p C_ILLEGAL word
    else
      s.crcOp p d a word fun s c k =>
        s.operand p (s.g p b.toNat) (s.g p (b.toNat + 1)).toNat false fun s l =>
          k s (l.foldl (crcByte c) (s.crcState p d c.w)))
/-- CRCF (R142). -/
def execCrcf (p : Proc) (d a : SReg) (s : State) : Res :=
  .next (s.issue p fun s =>
    s.crcOp p d a (encS 0x3E d.toNat a.toNat 0 0 0x24) fun s c k => k s (crcFinish c (s.crcState p d c.w)))

/-! ### Alive counters (R143) -/

/-- The verdict of R143 for a state word and a received counter: g(d), and the new state word. -/
def aliveCheck (st cnt : Word) : Word × Word :=
  let w := max 3 (fldOf st 19 16) + 1
  let m := 2 ^ w
  let c := cnt.toNat % m
  let last := fldOf st 15 0
  let delta := (c + (m - last % m)) % m
  let acc := setFld st 15 0 c
  if delta = 0 then (1, st)
  else if delta = 1 then (0, acc)
  else if delta ≤ fldOf st 31 20 then (Word.ofNat (2 + (delta - 1) * 65536), acc)
  else (3, acc)

/-- ALIVE (R143): d = a is ILLEGAL. -/
def execAlive (p : Proc) (d a b : SReg) (s : State) : Res :=
  .next (s.issue p fun s =>
    if d = a then s.illegalS p d a b 0x28
    else
      let r := aliveCheck (s.g p a.toNat) (s.g p b.toNat)
      ((s.setG p a.toNat r.2).setG p d.toNat r.1).retire p)

end Sys2Proof.Machine
end

