-- ==== Sys2Proof/Machine/Light.lean ====
section
/-!
DEFINITION. Blending, curves, colour matrices and sampling (R116 to R125) and fades (R126 to R129).
-/
namespace Sys2Proof.Machine
open Sys2Proof

/-- 1.0 in fp32. -/
abbrev ONE32 : Word := 0x3F800000

/-- An operation on values that carry the flags of the steps behind them. -/
def ap1 (f : Word → ResF) (a : ResF) : ResF := let r := f a.1; (r.1, r.2 ||| a.2)
def ap2 (f : Word → Word → ResF) (a b : ResF) : ResF := let r := f a.1 b.1; (r.1, r.2 ||| a.2 ||| b.2)
def ap3 (f : Word → Word → Word → ResF) (a b c : ResF) : ResF :=
  let r := f a.1 b.1 c.1; (r.1, r.2 ||| a.2 ||| b.2 ||| c.2)
/-- fma(x, y, z) = x × y + z with one rounding. -/
def fma3 (x y z : ResF) : ResF := ap3 fMadd z x y

/-! ### VBLEND (R117) -/

/-- The layer opacity: NaN and negative values are 0, values above 1.0 are 1.0. -/
def opacity (o : Word) : Word :=
  if (fp32 o).isNan || (fLt o 0).1 = 1 then 0 else if (fLt ONE32 o).1 = 1 then ONE32 else o

/-- One lane of VBLEND: mode, alpha lane or colour lane, d, s, s.A and o. -/
def blendLane (m : Nat) (alpha : Bool) (d s sA o : Word) : ResF :=
  let sc := fMul s o
  let scA := fMul sA o
  let t := ap2 fSub (plain ONE32) scA
  let d := plain d
  if alpha then
    match m with
    | 0 => scA
    | 2 => ap2 fMin (plain ONE32) (ap2 fAdd d scA)
    | 3 => d
    | _ => fma3 d t scA
  else
    match m with
    | 0 => sc
    | 1 => fma3 d t sc
    | 2 => ap2 fAdd d sc
    | 3 => ap2 fMax (plain 0) (ap2 fSub d sc)
    | 4 => fma3 d t (ap2 fMul sc d)
    | 5 => fma3 (ap1 fNeg sc) d (ap2 fAdd sc d)
    | 6 => ap2 fMax d (fma3 d t sc)
    | _ => ap2 fMin d (fma3 d t sc)

/-- VBLEND (R117). -/
def execVblend (n : VentNo) (m : BitVec 3) (vd va vb : VReg) (pm : PReg) (s : State) : Res :=
  .next (s.issue (.vent n) fun s =>
    let d := s.vreg n.toNat vd.toNat
    let x := s.vreg n.toNat va.toNat
    let o := s.vreg n.toNat vb.toNat
    s.laneResult n vd pm fun i =>
      let q := i / 4 * 4
      blendLane m.toNat (i % 4 = 3) (lane d i) (lane x i) (lane x (q + 3)) (opacity (lane o (q + 3))))

/-! ### Curves (R118, R119) -/

/-- One lane of a curve with 2^n segments, whose entries answer a value and a clamp flag. -/
def curveLane (n : Nat) (e : Nat → Nat × Word) (w : Word) : ResF :=
  let x := lumClamp w
  let xp := x.1 + x.1 / 2 ^ 19
  let sh := 20 - n
  let i := xp / 2 ^ sh
  let f : Nat := xp % 2 ^ sh
  let a := e i
  if i = 2 ^ n then (Word.ofNat a.1, x.2 ||| a.2)
  else
    let b := e (i + 1)
    (Word.ofInt ((a.1 : Int) + (((b.1 : Int) - (a.1 : Int)) * (f : Int) + (2 ^ (sh - 1) : Nat)) / (2 ^ sh : Nat)), x.2 ||| a.2 ||| b.2)

/-- The number of segments' exponent of a VCURVE table, and a value mapped through the table (R118). -/
def curveBits (h : Nat) : Nat := max 4 (min 12 (h % 16))
def curveTable (k : Nat) (tb : List Byte) (w : Word) : ResF :=
  curveLane k (fun j => lumClamp (Word.ofNat (leAt tb (4 + 4 * j) 4))) w

/-- VCURVE (R118). -/
def execVcurve (n : VentNo) (vd va : VReg) (g : GReg) (pm : PReg) (s : State) : Res :=
  .next (s.issue (.vent n) fun s =>
    let a := s.gv n.toNat g.toNat
    s.operand (.vent n) a 4 true fun s h =>
      let k := curveBits (leAt h 0 1)
      s.operand (.vent n) a (4 + 4 * (2 ^ k + 1)) true fun s tb =>
        let x := s.vreg n.toNat va.toNat
        s.laneResult n vd pm fun i => curveTable k tb (lane x i))

/-- The largest r below 2^b × 2 added to `r` for which the test holds, bit by bit. -/
def bitSearch (test : Nat → Bool) : Nat → Nat → Nat
  | 0, r => r
  | b + 1, r => bitSearch test b (if test (r + 2 ^ b) then r + 2 ^ b else r)

/-- 0xF_FFFF × (i ÷ 4,096)^(p ÷ q) rounded to nearest, halves up: the largest r with r − ½ at or below it (R119). -/
def powerEntry (p q i : Nat) : Nat :=
  bitSearch (fun r => decide ((2 * r - 1) ^ q * 4096 ^ p ≤ (2 * LUM1) ^ q * i ^ p)) 20 0

/-! The transfer functions of SMPTE ST 2084, which R119 names, in fixed point with 64 fraction bits. Its constants are
m1 = 1305/8192, m2 = 2523/32, c1 = 3424/4096, c2 = 77216/4096 and c3 = 76544/4096 (assumption 7). No entry of either
curve lies within 2^-15 of a half, and 64 bits decide every rounding. -/

/-- The q-th root of a fixed-point number, rounded down. -/
def fixRoot (q x : Nat) : Nat := bitSearch (fun r => decide (r ^ q ≤ x * 2 ^ (64 * (q - 1)))) 65 0
/-- The roots of a list, one after another. -/
def fixRoots (qs : List Nat) (x : Nat) : Nat := qs.foldl (fun x q => fixRoot q x) x
/-- The p-th power of a fixed-point number, rounded down. -/
def fixPow (p x : Nat) : Nat := x ^ p / 2 ^ (64 * (p - 1))

/-- The inverse EOTF at i ÷ 4,096: ((c1 + c2·x^m1) ÷ (1 + c3·x^m1))^m2. -/
def pqEncode (i : Nat) : Nat :=
  let t := fixPow 1305 (fixRoots (List.replicate 13 2) (i * 2 ^ 52))
  fixPow 2523 (fixRoots (List.replicate 5 2) ((3424 * 2 ^ 64 + 77216 * t) * 2 ^ 64 / (4096 * 2 ^ 64 + 76544 * t)))

/-- The EOTF at i ÷ 4,096: (max(x^(1/m2) − c1, 0) ÷ (c2 − c3·x^(1/m2)))^(1/m1). -/
def pqDecode (i : Nat) : Nat :=
  let u := fixPow 32 (fixRoots [3, 29, 29] (i * 2 ^ 52))
  let a := (4096 * u - 3424 * 2 ^ 64) * 2 ^ 64 / (77216 * 2 ^ 64 - 76544 * u)
  fixPow 8192 (fixRoots [3, 3, 5, 29] a)

/-- 0xF_FFFF × F for a fixed-point F, rounded to nearest, halves up. -/
def pqEntry (f : Nat) : Nat := (2 * LUM1 * f + 2 ^ 64) / 2 ^ 65

/-- Entry i of built-in curve k (R119). -/
def gammaEntry (k i : Nat) : Nat :=
  match k with
  | 0 => powerEntry 2 1 i
  | 1 => powerEntry 3 1 i
  | 2 => powerEntry 11 5 i
  | 3 => powerEntry 5 11 i
  | 4 => powerEntry 12 5 i
  | 5 => powerEntry 5 12 i
  | 6 => pqEntry (pqDecode i)
  | _ => pqEntry (pqEncode i)

/-- Built-in curve k of a lum20 value (R119). -/
def gammaLane (k : Nat) (w : Word) : ResF := curveLane 12 (fun j => (gammaEntry k j, 0)) w

/-- VGAMMA (R119). -/
def execVgamma (n : VentNo) (k : BitVec 3) (vd va : VReg) (pm : PReg) (s : State) : Res :=
  .next (s.issue (.vent n) fun s =>
    let x := s.vreg n.toNat va.toNat
    s.laneResult n vd pm fun i => gammaLane k.toNat (lane x i))

/-! ### Colour matrices (R120, R121) -/

/-- Row m of a colour matrix with its offset, at (y0, y1, y2) (R120). -/
def matrixRow (m y : Nat → ResF) : ResF := fma3 (m 2) (y 2) (fma3 (m 1) (y 1) (fma3 (m 0) (y 0) (m 3)))

/-- VCMXF (R120). -/
def execVcmxf (n : VentNo) (vd va : VReg) (g : GReg) (pm : PReg) (s : State) : Res :=
  .next (s.issue (.vent n) fun s =>
    s.operand (.vent n) (s.gv n.toNat g.toNat) 48 true fun s tb =>
      let x := s.vreg n.toNat va.toNat
      let m := fun r c => plain (Word.ofNat (leAt tb ((4 * r + c) * 4) 4))
      s.laneResult n vd pm fun i =>
        let q := i / 4 * 4
        let r := i % 4
        let y := fun c => plain (lane x (q + c))
        if r = 3 then plain (lane x i) else matrixRow (m r) y)

/-- VCMXL (R121). -/
def execVcmxl (n : VentNo) (vd va : VReg) (g : GReg) (pm : PReg) (s : State) : Res :=
  .next (s.issue (.vent n) fun s =>
    s.operand (.vent n) (s.gv n.toNat g.toNat) 24 true fun s tb =>
      let x := s.vreg n.toNat va.toNat
      let m := fun r c => sext 16 (leAt tb ((4 * r + c) * 2) 2)
      s.laneResult n vd pm fun i =>
        let q := i / 4 * 4
        let r := i % 4
        let y := fun c => lumClamp (lane x (q + c))
        if r = 3 then (Word.ofNat (y 3).1, (y 3).2)
        else
          let acc := m r 3 * LUM1 + m r 0 * (y 0).1 + m r 1 * (y 1).1 + m r 2 * (y 2).1
          let res := (acc + 0x1000) / 8192
          let fl := (y 0).2 ||| (y 1).2 ||| (y 2).2
          if res < 0 then (0, fl ||| FL_SAT) else if (LUM1 : Int) < res then (Word.ofNat LUM1, fl ||| FL_SAT)
          else (Word.ofInt res, fl))

/-! ### Sampling (R122 to R125) -/

/-- Row (a, b, c) of a projective map at (x, y), and the two quotients (R122). -/
def projRow (h : Nat → ResF) (a b c : Nat) (x y : Word) : ResF := fma3 (h b) (plain y) (fma3 (h a) (plain x) (h c))
def projU (h : Nat → ResF) (x y : Word) : ResF := ap2 fDiv (projRow h 0 1 2 x y) (projRow h 6 7 8 x y)
def projV (h : Nat → ResF) (x y : Word) : ResF := ap2 fDiv (projRow h 3 4 5 x y) (projRow h 6 7 8 x y)

/-- VPROJ (R114, R122): both results take the old operands. -/
def execVproj (n : VentNo) (vd va vb : VReg) (g : GReg) (pm : PReg) (s : State) : Res :=
  .next (s.issue (.vent n) fun s =>
    if vd.toNat % 2 ≠ 0 then s.fault (.vent n) C_ILLEGAL (encS 0x3C vd.toNat va.toNat vb.toNat pm.toNat (0xA0 + g.toNat))
    else
      s.operand (.vent n) (s.gv n.toNat g.toNat) 36 true fun s tb =>
        let h := fun i => plain (Word.ofNat (leAt tb (4 * i) 4))
        let xs := s.vreg n.toNat va.toNat
        let ys := s.vreg n.toNat vb.toNat
        let old := s.vreg n.toNat vd.toNat
        let u := fun i => projU h (lane xs i) (lane ys i)
        let v := fun i => projV h (lane xs i) (lane ys i)
        let first := lanes.map fun i => if s.active n.toNat pm i then (u i).1 else lane old i
        let fl := lanes.foldl (fun w i => if s.active n.toNat pm i then w ||| (u i).2 else w) 0
        ((s.setV n.toNat vd.toNat first).orFlags (.vent n) fl).laneResult n (vd + 1) pm v)

/-- s32sat. -/
def s32sat (x : Int) : Int := max (-2147483648) (min x 2147483647)

/-- A coordinate after its wrap mode (R124); none for a border miss. -/
def wrapCoord (x : Int) (sw mode : Nat) : Option Nat :=
  if sw = 0 then none
  else match mode with
    | 0 => some (max 0 (min x (sw - 1 : Nat))).toNat
    | 1 => some (x % (sw : Nat)).toNat
    | 2 => let m := (x % (2 * sw : Nat)).toNat; some (if m < sw then m else 2 * sw - 1 - m)
    | _ => if 0 ≤ x ∧ x < (sw : Nat) then some x.toNat else none

/-- The texel address of one pixel (R124). -/
def sampAddr (tb : List Byte) (dx dy : Nat) (u v : Word) : Nat :=
  let f := fun i n => leAt tb i n
  let x := s32sat (floorS32 u + dx)
  let y := s32sat (floorS32 v + dy)
  let wr := f 22 1
  match wrapCoord x (f 12 2) (wr % 4), wrapCoord y (f 14 2) (wr / 4 % 4) with
  | some x, some y =>
    if f 8 2 ≤ x ∧ x - f 8 2 < f 4 2 ∧ f 10 2 ≤ y ∧ y - f 10 2 < f 6 2 then
      f 0 4 + (y - f 10 2) * f 16 4 + (x - f 8 2) * f 20 1
    else f 24 4
  | _, _ => f 24 4

/-- VSAMPA (R124). -/
def execVsampa (n : VentNo) (dx dy : Bool) (vd va vb : VReg) (g : GReg) (pm : PReg) (s : State) : Res :=
  .next (s.issue (.vent n) fun s =>
    s.operand (.vent n) (s.gv n.toNat g.toNat) 32 true fun s tb =>
      let us := s.vreg n.toNat va.toNat
      let vs := s.vreg n.toNat vb.toNat
      s.laneResult n vd pm fun i =>
        let q := i / 4 * 4
        plain (Word.ofNat (sampAddr tb (b2n dx) (b2n dy) (lane us q) (lane vs q) + i % 4 * leAt tb 21 1)))

/-- VFRACT (R125). -/
def execVfract (n : VentNo) (vd va : VReg) (pm : PReg) (s : State) : Res :=
  .next (s.issue (.vent n) fun s =>
    let x := s.vreg n.toNat va.toNat
    s.laneResult n vd pm fun i => fFract (lane x i))

/-- a + (b − a) × w (R125). -/
def lerp (w a b : Word) : ResF := fma3 (fSub b a) (plain w) (plain a)

/-- VLERPF (R125). -/
def execVlerpf (n : VentNo) (vd va vb : VReg) (pm : PReg) (s : State) : Res :=
  .next (s.issue (.vent n) fun s =>
    let w := s.vreg n.toNat vd.toNat
    let a := s.vreg n.toNat va.toNat
    let b := s.vreg n.toNat vb.toNat
    s.laneResult n vd pm fun i => lerp (lane w i) (lane a i) (lane b i))

/-! ### Fades (R126 to R129) -/

/-- The fade time of a frame (R126): floor(F × N ÷ D) modulo 2^32 µs. -/
def fadeTime (f n d : Nat) : Word := Word.ofNat (f * n / d)

/-- The progress of a fade record of 16 bytes at time t, with its curve applied (R128). -/
def fadePos (rec : List Byte) (t : Word) : Nat :=
  let start := Word.ofNat (leAt rec 8 4)
  let len := min (leAt rec 12 4) 0x7FFFFFFF
  let e := sdiff t start
  let c : Nat :=
    if len = 0 then (if 0 ≤ e then LUM1 else 0)
    else if e ≤ 0 then 0
    else if len ≤ e.toNat then LUM1
    else (e.toNat * LUM1 + len / 2) / len
  match leAt rec 2 1 / 16 with
  | 1 =>
    let c2 := lumMulNat c c
    let c3 := lumMulNat c2 c
    (max 0 (min (3 * (c2 : Int) - 2 * c3) LUM1)).toNat
  | 2 => lumMulNat c c
  | 3 => LUM1 - lumMulNat (LUM1 - c) (LUM1 - c)
  | 4 => if (len : Int) ≤ e then LUM1 else 0
  | 5 => if 0 ≤ e then LUM1 else 0
  | _ => c

/-- The mix of a fade record at progress c (R129). -/
def fadeMix (rec : List Byte) (c : Nat) : Word :=
  let a : Nat := leAt rec 0 4 % 2 ^ 20
  let b : Nat := leAt rec 4 4 % 2 ^ 20
  let p : Int := ((b : Int) - (a : Int)) * (c : Int)
  let q : Int := (p + p / 1048576 + 0x80000) / 1048576
  Word.ofInt ((a : Int) + q)

/-- The level of a fade record at time t: VFPOS, then VFMIX (R129). -/
def fadeLevel (rec : List Byte) (t : Word) : Word := fadeMix rec (fadePos rec t)

/-- Record i of a block of fade records. -/
def fadeRec (tb : List Byte) (i : Nat) : List Byte := (tb.drop (16 * i)).take 16

/-- VFPOS (R128). -/
def execVfpos (n : VentNo) (vd va : VReg) (g : GReg) (pm : PReg) (s : State) : Res :=
  .next (s.issue (.vent n) fun s =>
    s.operand (.vent n) (s.gv n.toNat g.toNat) 128 true fun s tb =>
      let x := s.vreg n.toNat va.toNat
      s.laneResult n vd pm fun i => plain (Word.ofNat (fadePos (fadeRec tb i) (lane x i))))
/-- VFMIX (R129). -/
def execVfmix (n : VentNo) (vd va : VReg) (g : GReg) (pm : PReg) (s : State) : Res :=
  .next (s.issue (.vent n) fun s =>
    s.operand (.vent n) (s.gv n.toNat g.toNat) 128 true fun s tb =>
      let x := s.vreg n.toNat va.toNat
      s.laneResult n vd pm fun i =>
        let c := lumClamp (lane x i)
        (fadeMix (fadeRec tb i) c.1, c.2))
/-- VFADE: VFPOS followed by VFMIX on the same records (R129). -/
def execVfade (n : VentNo) (vd va : VReg) (g : GReg) (pm : PReg) (s : State) : Res :=
  .next (s.issue (.vent n) fun s =>
    s.operand (.vent n) (s.gv n.toNat g.toNat) 128 true fun s tb =>
      let x := s.vreg n.toNat va.toNat
      s.laneResult n vd pm fun i =>
        plain (fadeLevel (fadeRec tb i) (lane x i)))

end Sys2Proof.Machine
end

