-- ==== Sys2Proof/Machine/FlkBase.lean ====
section
/-!
DEFINITION. What the outputs read of TSU, FLK and the chain: the time base and its tick (R170), the frame schedule
(R181, R182), fade time (R126, R198), the show state's transitions (R391) and pair roles (R477, R479).
-/
namespace Sys2Proof.Machine
open Sys2Proof

/-! ### TSU -/

/-- The active increment of R170, in units of 2^-32 ns. -/
def State.tsuInc (s : State) : Nat := s.aFld R.TSU_INC_NS 7 0 * 2 ^ 32 + (s.aRd R.TSU_INC_FR).toNat

/-- One SPR tick: the seconds and the ticks within the second (R447), but for a tick that the trim skips; a second that
becomes equal to the alarm makes the alarm due (R448). -/
def State.sprTick (s : State) : State :=
  let p := s.pwr
  let s := { s with pwr := { p with sub20 := p.sub20 + 1, skip := p.skip - 1 } }
  if 0 < p.skip then s
  else
    let sub := s.fld R.SPR_RTC_SUB 14 0 + 1
    if sub < 32768 then s.setF R.SPR_RTC_SUB 14 0 sub
    else
      let s := (s.setF R.SPR_RTC_SUB 14 0 0).wr R.SPR_RTC_SEC (s.rd R.SPR_RTC_SEC + 1)
      if s.rd R.SPR_RTC_SEC = s.rd R.SPR_ALM_SEC then { s with pwr := { s.pwr with almDue := true } } else s

/-- The Spring domain's share of one tick of 2.5 ns: 32,768 SPR ticks in 400,000,000. -/
def State.sprClock (s : State) : State :=
  let f := s.pwr.frac + 32768
  if f < 400000000 then { s with pwr := { s.pwr with frac := f } }
  else { s with pwr := { s.pwr with frac := f - 400000000 } }.sprTick

/-- LCK runs: in RUN and IDLE (R45). -/
def State.lckRuns (s : State) : Bool := decide (s.fld R.PWC_STATE 2 0 ≤ 1) && !s.pwr.hib && !s.pwr.off

/-- One tick of 2.5 ns: what an empty queue's step does (assumption 1). The Spring domain counts always; with the main
clocks running TSU counts by its increment (R170), each running die by its VCK, and the cores' clock by SCK. -/
def State.tick (s : State) : State :=
  let s := { s with now := s.now + 1 }.sprClock
  if !s.clocksRun then s
  else { s with
    sck := s.sck + (if s.fld R.PWC_STATE 2 0 = 2 then 5 else 20),
    tsuAcc := (s.tsuAcc + s.tsuInc) % 2 ^ 64,
    tsuHi := s.tsuHi + ((s.tsuAcc + s.tsuInc) / 2 ^ 64 : Nat),
    tsuHist := (s.tsuNs :: s.tsuHist).take 8,
    dies := s.dies.map fun (e : Nat × CDie) => (e.1, if e.2.on then { e.2 with half := e.2.half + (6 - e.2.vck) } else e.2) }

/-! ### The schedule (R181, R182) -/
/-- The rate of R181 is acceptable. -/
def rateOk (n d : Nat) : Bool :=
  1 ≤ n && 1 ≤ d && d * 4166666 ≤ 1000 * n && 1000 * n ≤ d * 41708334
def State.rateN (s : State) : Nat := s.aFld R.FLK_RATE_N 23 0
def State.rateD (s : State) : Nat := s.aFld R.FLK_RATE_D 7 0
/-- The rate changes that are accepted and wait: the frame from which each holds, and its rate (R198, R199). -/
def State.ratesDue (s : State) : List (Word × Nat × Nat) :=
  (match s.ratePend with
    | some (n, d, a, _) => [(a, n, d)]
    | none => [])
  ++ (s.commits.filter fun x => x.reg == R.FLK_COMMIT && rateOk (x.fld R.FLK_RATE_N 23 0) (x.fld R.FLK_RATE_D 7 0)).map
    fun x => (x.rd R.FLK_RCHG, x.fld R.FLK_RATE_N 23 0, x.fld R.FLK_RATE_D 7 0)
/-- The rate in force at frame f, changes accepted included. -/
def State.rateAt (s : State) (f : Word) : Nat × Nat :=
  s.ratesDue.foldl (fun r e => if 0 ≤ sdiff f e.1 then e.2 else r) (s.rateN, s.rateD)
/-- The frames from a on at which a change accepted takes the rate. -/
def State.rateFrames (s : State) (a : Word) : List Word := (s.ratesDue.map (·.1)).filter fun f => decide (0 < sdiff f a)
/-- P_int, ns. -/
def State.pInt (s : State) : Nat := 1000 * s.rateN / s.rateD
def State.flkEn (s : State) : Bool := s.aBit R.FLK_CTRL 0
def State.leadNs (s : State) : Nat := s.aFld R.FLK_LAG 31 16 * 1000
def State.lagMax (s : State) : Nat := s.aFld R.FLK_LAG 3 0

/-- N_k of R182. -/
def State.nominal (s : State) (k : Word) : Word :=
  let n := sdiff k (s.aRd R.FLK_ANCH_FRAME)
  let trim := (s.aRd R.FLK_TRIM).toInt
  s.aRd R.FLK_ANCH_NS + Word.ofInt ((n * (1000 * s.rateN : Nat) * (4294967296 + trim)) / ((s.rateD : Int) * 4294967296))

/-- Phase error of the last frame start, ns. -/
def State.phase (s : State) : Nat := (s.rd R.FLK_PHASE).toNat

/-! ### Fade time (R126, R198, R391) -/

/-- The frame's fade time by the frame number alone. -/
def State.baseFade (s : State) (f : Word) : Word := s.fadeTc + fadeTime (f - s.fadeFc).toNat s.rateN s.rateD
/-- The fade time passed to kernels for frame f in the present show state. -/
def State.showFade (s : State) (f : Word) : Word :=
  if s.showState = RUNNING then s.host.runT + fadeTime (f - s.host.runFrame).toNat s.rateN s.rateD
  else if s.showState = ARMED ∨ s.showState = HELD then s.host.frozenT
  else s.baseFade f

/-- The transition of a command may leave this show state (R392). -/
def showLegal (code st : Nat) : Bool :=
  match code with
  | 0x11 => st == LOADED
  | 0x12 => st == ARMED
  | 0x13 => st == RUNNING
  | 0x14 => st == HELD
  | 0x15 => st == ARMED || st == RUNNING || st == HELD
  | _ => false

/-- A transition of the show state at frame a (R391, R392); on the way to LOADED frame start a is the last to fire. -/
def State.showTransition (s : State) (st : Nat) (a : Word) : State :=
  let t := s.showFade a
  let h := if st = RUNNING then { s.host with runFrame := a, runT := t }
           else if st = ARMED ∨ st = HELD then { s.host with frozenT := t } else s.host
  let s := { s with host := h }.setShow st a
  if st = LOADED then
    let s := ({ s with host := { s.host with showAt := [] } }.setF R.FLK_CTRL 0 0 0).aWr R.FLK_CTRL (setFld (s.aRd R.FLK_CTRL) 0 0 0)
    { s with flkNext := none }
  else s

/-- Transitions that name frame k apply, each where the state then admits it (R392). -/
def State.showTurn (s : State) (k : Word) : List (Nat × Nat × Word) → State
  | [] => s
  | (code, st, a) :: t =>
    if 0 ≤ sdiff k a then
      let s := { s with host := { s.host with showAt := t } }
      (if showLegal code s.showState then s.showTransition st k else s).showTurn k t
    else s

/-- What the ball of output n does: 0 high impedance, 1 the inactive level, 2 the schedule (R278). Only a PRIMARY or SOLO
package drives the outputs its pair owns (R279). -/
def State.spdDrive (s : State) (n : Nat) : Nat :=
  if s.bit (R.PAIR_OWN_SPD (n / 32)) (n % 32) then (if s.pairRole ≤ 1 then s.spdPair else 0) else s.spdOut
/-- SPD_STAT.driving: some ball is driven now. -/
def State.noteDriving (s : State) : State :=
  s.setF R.SPD_STAT 1 1 (b2n ((List.range 96).any fun n => s.spdDrive n != 0))

/-- A pair-role change (R479). A package that becomes SYNCING asks for a snapshot (R490); one that becomes FAULTED also
enters show state FAULTED; one that becomes SOLO has no partner. -/
def State.setRole (s : State) (r : Nat) : State :=
  if s.fld R.PAIR_ROLE 2 0 = r then s
  else
    let s := (((s.setF R.PAIR_ROLE 2 0 r).wr R.PAIR_SINCE s.fnow).irq 0x140).noteDriving
    let s := s.setPairEng { s.pair with roleTick := s.now, retryAt := 0, caughtFrom := none, syncRun := 0 }
    let s := s.setF R.PAIR_STAT 7 7 0
    if r = 4 then s.setShow FAULTED s.committed
    else if r = 3 then s.sendRole 4 0
    else if r = 0 then s.setPairEng { roleTick := s.now }
    else s

/-! ### The chain as FLK sees it (R188, R477) -/
/-- The pair role of a package: its own, or what its last STATUS said. -/
def State.roleOf (s : State) (id : Nat) : Nat :=
  if id = s.chnId then s.fld R.PAIR_ROLE 2 0
  else match s.peers.find? (fun e => e.1 = id) with
    | some e => e.2.role
    | none => 0
def State.partnerOf (s : State) (id : Nat) : Nat :=
  if id = s.chnId then (if s.bit R.PAIR_CFG 31 then s.fld R.PAIR_CFG 27 24 else 0xFF)
  else match s.peers.find? (fun e => e.1 = id) with
    | some e => e.2.partner
    | none => 0xFF
/-- The announcing package (R477). -/
def State.announcerId (s : State) : Nat :=
  let m := s.fld R.CHN_CFG 19 16
  if !s.chnEn then s.chnId
  else if !s.bit R.CHN_CFG 30 then m
  else if s.roleOf m = 1 ∨ s.roleOf m = 0 then m
  else let p := s.partnerOf m; if p ≤ 15 ∧ (s.roleOf p = 1 ∨ s.roleOf p = 0) then p else m
def State.isMaster (s : State) : Bool := s.announcerId = s.chnId

/-- The packages whose notices the master waits for: role PRIMARY, STANDBY or SOLO (R188). -/
def State.waitedIds (s : State) : List Nat :=
  (s.chnId :: (s.peers.map (·.1)).filter (· ≠ s.chnId)).filter fun i => s.roleOf i ≤ 2

/-- The notices of frame k that the master holds among those it waits for. -/
def State.noticesOf (s : State) (k : Word) : List Notice :=
  s.waitedIds.filterMap fun i => match s.notices.find? (fun e => e.1 = i) with
    | some e => if e.2.frame = k then some e.2 else none
    | none => none
def State.allNoticed (s : State) (k : Word) : Bool := (s.noticesOf k).length = s.waitedIds.length
/-- P_min of R194: the largest FLK_PMIN over the packages waited for, each as its last notice carried it. -/
def State.pminChain (s : State) : Nat :=
  s.waitedIds.foldl (fun m i => max m (match s.notices.find? (fun e => e.1 = i) with
    | some e => e.2.pmin
    | none => if i = s.chnId then (s.rd R.FLK_PMIN).toNat else 0)) 0

/-- FLK_STATUS.pmin_over follows P_min > P_int, and is recorded when it sets (R195). -/
def State.notePmin (s : State) : State :=
  let long := decide (s.pInt < s.pminChain)
  let s := if long ∧ !s.bit R.FLK_STATUS 3 then s.log 0x0024 1 s.pminChain else s
  s.setF R.FLK_STATUS 3 3 (b2n long)

/-- c_max of R194. -/
def State.cMax (s : State) : Nat :=
  min (s.pInt * s.aFld R.FLK_SHORTEN 8 0 / 1024) (s.pInt - s.pminChain)

/-- σ of the next start, after frame start k (R189). -/
def State.sigma (s : State) : Word :=
  s.nominal (s.fnow + 1) + Word.ofNat s.phase - Word.ofNat (min s.phase s.cMax)

/-- The later of two times near each other. -/
def later (a b : Word) : Word := if 0 ≤ sdiff a b then a else b

end Sys2Proof.Machine
end

