-- ==== Sys2Proof/Machine/Chk.lean ====
section
/-!
DEFINITION. CHK: the CRC units (R435, R436) and the alive slots (R437).
-/
namespace Sys2Proof.Machine
open Sys2Proof

/-- The 64-bit value in a pair of registers. -/
def State.rd64 (s : State) (lo hi : Nat) : Nat := (s.rd lo).toNat + (s.rd hi).toNat * 2 ^ 32
def State.wr64 (s : State) (lo hi v : Nat) : State := (s.wr lo (Word.ofNat v)).wr hi (Word.ofNat (v / 2 ^ 32))

/-- The width of unit n as configured, and whether it is one. -/
def State.chkWidth (s : State) (n : Nat) : Nat := s.fld (R.CHK_CFG n) 6 0
def State.chkOk (s : State) (n : Nat) : Bool := 1 ≤ s.chkWidth n && s.chkWidth n ≤ 64
/-- The CRC of unit n; bits of its parameters at or above the width are ignored (R141). -/
def State.chkParam (s : State) (n : Nat) : CrcParam :=
  let m := 2 ^ s.chkWidth n
  { poly := s.rd64 (R.CHK_POLY_LO n) (R.CHK_POLY_HI n) % m, init := s.rd64 (R.CHK_INIT_LO n) (R.CHK_INIT_HI n) % m
    xorout := s.rd64 (R.CHK_XOR_LO n) (R.CHK_XOR_HI n) % m, w := s.chkWidth n
    refin := s.bit (R.CHK_CFG n) 8, refout := s.bit (R.CHK_CFG n) 9 }

def State.chkState (s : State) (n : Nat) : Nat := s.rd64 (R.CHK_STATE_LO n) (R.CHK_STATE_HI n)
def State.setChkState (s : State) (n v : Nat) : State := s.wr64 (R.CHK_STATE_LO n) (R.CHK_STATE_HI n) v
def State.chkBusy (s : State) (n : Nat) : Bool := s.bit (R.CHK_STAT n) 30
/-- A write is discarded: err (R436). -/
def State.chkErr (s : State) (n : Nat) : State := s.setF (R.CHK_STAT n) 29 29 1

/-- Unit n processes bytes in order. A width that is none leaves the state as it is. -/
def State.chkBytes (s : State) (n : Nat) (l : List Byte) : State :=
  if s.chkOk n then
    let p := s.chkParam n
    s.setChkState n (l.foldl (crcByte p) (s.chkState n % 2 ^ p.w))
  else s

/-- CHK_START. -/
def State.chkStart (s : State) (n : Nat) : State :=
  if s.chkBusy n then s.chkErr n
  else if !s.chkOk n then s.setF (R.CHK_STAT n) 7 0 E_ARG
  else ((s.setChkState n (crcStart (s.chkParam n))).setF (R.CHK_STAT n) 31 31 0).setF (R.CHK_STAT n) 7 0 OK
def execChkStart (n : BitVec 4) (s : State) : Res := .next (s.chkStart n.toNat)

/-- CHK_FINISH. -/
def State.chkFinish (s : State) (n : Nat) : State :=
  if s.chkBusy n then s.chkErr n
  else
    let s := if s.chkOk n then
        let p := s.chkParam n
        s.wr64 (R.CHK_RESULT_LO n) (R.CHK_RESULT_HI n) (crcFinish p (s.chkState n % 2 ^ p.w))
      else s
    s.setF (R.CHK_STAT n) 31 31 1
def execChkFinish (n : BitVec 4) (s : State) : Res := .next (s.chkFinish n.toNat)

/-- CHK_STREAM: the extent is read from SADDR and SLEN as they stand. -/
def State.chkStream (s : State) (n : Nat) : State :=
  if s.chkBusy n then s.chkErr n
  else
    let a := s.fld (R.CHK_SADDR_HI n) 7 0 * 2 ^ 32 + (s.rd (R.CHK_SADDR_LO n)).toNat
    let s := (s.setF (R.CHK_STAT n) 30 30 1).wr (R.CHK_SCOUNT n) 0
    { s with chkRun := mset (fun _ => (0, 0)) s.chkRun n (a, (s.rd (R.CHK_SLEN n)).toNat) }
def execChkStream (n : BitVec 4) (s : State) : Res := .next (s.chkStream n.toNat)

/-- The vent DMA reach of R41. -/
def checkReach (a : Nat) : Bool := inDram a || inScratch a || inHubSram a
/-- The bytes from a device address up to the first outside the reach. -/
def State.reachBytes (s : State) (a : Nat) : Nat → List Byte
  | 0 => []
  | n + 1 => if checkReach a then s.rdB a :: s.reachBytes (a + 1) n else []

/-- CHK_STREAM_END: the bytes read are processed, to the end or to the first outside the reach. -/
def execChkStreamEnd (n : BitVec 4) (s : State) : Res :=
  let u := n.toNat
  .next (if !s.chkBusy u then s
    else
      let e := mget (fun _ => (0, 0)) s.chkRun u
      let l := s.reachBytes e.1 e.2
      let s := (s.chkBytes u l).wr (R.CHK_SCOUNT u) (Word.ofNat l.length)
      let s := { s with chkRun := mset (fun _ => (0, 0)) s.chkRun u (0, 0) }.setF (R.CHK_STAT u) 30 30 0
      if l.length < e.2 then (s.busRange (e.1 + l.length) 0 0x4A u).setF (R.CHK_STAT u) 7 0 E_ABSENT
      else s.setF (R.CHK_STAT u) 7 0 OK)

/-- A write of data. -/
def State.chkData (s : State) (n : Nat) (l : List Byte) : State := if s.chkBusy n then s.chkErr n else s.chkBytes n l
/-- CHK_DATA8. -/
def execChkData8 (n : BitVec 4) (w : Word) (s : State) : Res := .next (s.chkData n.toNat (leBytes 1 w.toNat))
/-- CHK_DATA32: [7:0] first. -/
def execChkData32 (n : BitVec 4) (w : Word) (s : State) : Res := .next (s.chkData n.toNat (leBytes 4 w.toNat))

/-- A byte that bushel window w accepts is processed by the units that snoop it (R436). -/
def State.chkSnoop (s : State) (w : Nat) (b : Byte) : State :=
  (List.range 16).foldl (fun (s : State) n =>
    if s.bit (R.CHK_CFG n) 16 && s.fld (R.CHK_CFG n) 19 17 == w then s.chkBytes n [b] else s) s

/-- CHK_AV_IN: the check of R143, its verdict and the messages lost (R437). -/
def execChkAvIn (k : BitVec 5) (w : Word) (s : State) : Res :=
  let i := k.toNat
  let r := aliveCheck (s.rd (R.CHK_AV_STATE i)) (Word.ofNat (fldOf w 15 0))
  let v := fldOf r.1 1 0
  let s := (s.wr (R.CHK_AV_STATE i) r.2).wr (R.CHK_AV_RES i)
    (Word.ofNat (2 ^ 31 + fldOf r.1 31 16 * 256 + v))
  .next (if v = 1 then s.bump (R.CHK_AV_CNT i) 31 16 else if v = 3 then s.bump (R.CHK_AV_CNT i) 15 0 else s)

/-- CHK_AV_STATE_WRITE. -/
def execChkAvStateWrite (k : BitVec 5) (w : Word) (s : State) : Res :=
  .next ((s.wr (R.CHK_AV_STATE k.toNat) w).setF (R.CHK_AV_RES k.toNat) 31 31 0)

end Sys2Proof.Machine
end

