-- ==== Sys2Proof/Machine/Legal.lean ====
section
/-!
DEFINITION. Which 32-bit words are instructions of a vent or of a core (R83, R84, R87 and the selector tables of
R88 to R130). A word that is not raises ILLEGAL.
-/
namespace Sys2Proof.Machine
open Sys2Proof

/-- Bits [hi:lo] of an instruction word. -/
def iw (w hi lo : Nat) : Nat := w / 2 ^ lo % 2 ^ (hi - lo + 1)

/-- The A format's fields: d, a, b and fn. -/
def iD (w : Nat) : Nat := iw w 25 21
def iA (w : Nat) : Nat := iw w 20 16
def iB (w : Nat) : Nat := iw w 15 11
def iFn (w : Nat) : Nat := iw w 10 0
/-- The V format's fields. -/
def vD (w : Nat) : Nat := iw w 25 22
def vA (w : Nat) : Nat := iw w 21 18
def vB (w : Nat) : Nat := iw w 17 14
def vPm (w : Nat) : Nat := iw w 13 11

def inR (x lo hi : Nat) : Bool := lo ≤ x && x ≤ hi

/-- Opcode 0x01 (R88). -/
def legalAlu (w : Nat) : Bool :=
  let f := iFn w
  if inR f 0x20 0x23 then iB w = 0
  else inR f 0 5 || inR f 8 0xC || inR f 0x10 0x1E || inR f 0x28 0x29 || inR f 0x30 0x32
/-- Opcode 0x02 (R89). -/
def legalMul (w : Nat) : Bool := let f := iFn w; inR f 0 3 || inR f 8 0xB || inR f 0x10 0x12
/-- Opcode 0x03 (R91). -/
def legalFp (w : Nat) : Bool :=
  let f := iFn w
  if f = 6 || f = 7 || f = 9 || inR f 0x20 0x25 then iB w = 0 else inR f 0 8 || inR f 0x10 0x12
/-- Opcode 0x1C (R94). -/
def legalGather (w : Nat) : Bool :=
  let f := iFn w
  if f = 0 || f = 2 then vB w = 0 else (f = 1 || f = 3) && vD w = 0
/-- Opcode 0x20 (R95). -/
def legalVint (w : Nat) : Bool :=
  let f := iFn w
  if inR f 0x400 0x45F then vB w = 0
  else inR f 0 5 || inR f 8 0xB || inR f 0x10 0x12 || inR f 0x18 0x1B || inR f 0x20 0x23 || inR f 0x28 0x2B
    || inR f 0x30 0x33
/-- Opcode 0x21 (R96). -/
def legalVfp (w : Nat) : Bool :=
  let f := iFn w
  if f = 6 || f = 7 || f = 9 || inR f 0x20 0x25 then vB w = 0 else inR f 0 8
/-- Opcode 0x22 (R97): the destination names a predicate, so bit 3 of vd is 0. -/
def legalVcmp (w : Nat) : Bool := let f := iFn w; (inR f 0 5 || inR f 0x10 0x12) && vD w < 8
/-- Opcode 0x23 (R99, R100). -/
def legalLane (w : Nat) : Bool :=
  let f := iFn w
  if f = 0 then vB w = 0
  else if inR f 0x40 0x5F then vA w = 0 && vB w = 0
  else if inR f 0x60 0x7F then vPm w = 0 && vA w = 0 && vB w < 8
  else if inR f 0x80 0x9F then vPm w = 0 && vD w = 0 && vB w < 8
  else if f = 0xA0 then true
  else if f = 0xC0 then vB w < 8
  else inR f 0x200 0x2DF && vD w = 0 && vB w = 0
/-- Opcode 0x24 (R98). -/
def legalPred (w : Nat) : Bool :=
  let f := iFn w
  vPm w = 0 && vD w < 8 && vA w < 8 && vB w < 8
    && (if inR f 0 3 then true
        else if f = 4 then vB w = 0
        else if inR f 0x400 0x41F then vA w = 0 && vB w = 0
        else inR f 0x420 0x45F && vD w = 0 && vB w = 0)
/-- Opcode 0x3C (R113 to R125). -/
def legalLight (w : Nat) : Bool :=
  let f := iFn w
  if inR f 0 7 then true
  else if inR f 0x20 0x47 || inR f 0x60 0x9F || f = 0x140 then vB w = 0
  else if inR f 0xA0 0xBF then vD w % 2 = 0
  else inR f 0xC0 0x13F || f = 0x141
/-- Opcode 0x3D (R128, R129). -/
def legalFade (w : Nat) : Bool := inR (iFn w) 0 0x5F && vB w = 0

/-- A register pair of opcode 0x3E (R114). -/
def pairField (x : Nat) : Bool := x % 2 = 0 && 2 ≤ x && x ≤ 14

/-- Opcode 0x3E (R130): which fields each selector uses, and who runs it. -/
def legalShow (core : Bool) (w : Nat) : Bool :=
  let d := vD w
  let a := vA w
  let b := vB w
  vPm w = 0 && (match iFn w with
    | 0x000 => !core && pairField d && b = 0
    | 0x001 | 0x002 => !core && d = 0 && a = 0 && b = 0
    | 0x003 | 0x006 => !core && b = 0
    | 0x004 | 0x005 | 0x007 => !core && d = 0 && b = 0
    | 0x008 | 0x00A => !core
    | 0x009 => !core && pairField d && b = 0
    | 0x010 => true
    | 0x011 => pairField d && b = 0
    | 0x018 => true
    | 0x019 => pairField d
    | 0x01A | 0x01B | 0x01C => b = 0
    | 0x020 | 0x024 => pairField d && b = 0
    | 0x021 | 0x022 => pairField d
    | 0x023 => pairField d && pairField b
    | 0x028 => d ≠ a
    | _ => false)

/-- Whether a word is an instruction that the processor runs. SCALL is not on a vent; ERET and WFI are there, and
raise PRIV (R110). -/
def legalWord (core : Bool) (w : Nat) : Bool :=
  let op := iw w 31 26
  match op with
  | 0x01 => legalAlu w
  | 0x02 => legalMul w
  | 0x03 => legalFp w
  | 0x04 | 0x05 | 0x06 | 0x07 | 0x09 | 0x0A => true
  | 0x08 => iA w = 0
  | 0x10 | 0x11 | 0x12 | 0x13 | 0x14 | 0x15 | 0x16 | 0x17 | 0x1D | 0x1E => true
  | 0x18 | 0x19 | 0x1A | 0x1B => !core && iw w 25 25 = 0
  | 0x1C => !core && legalGather w
  | 0x20 => !core && legalVint w
  | 0x21 => !core && legalVfp w
  | 0x22 => !core && legalVcmp w
  | 0x23 => !core && legalLane w
  | 0x24 => !core && legalPred w
  | 0x28 => !core && inR (iFn w) 0 3 && iB w = 0
  | 0x30 | 0x31 => iD w = 0
  | 0x32 | 0x33 | 0x34 | 0x35 => true
  | 0x36 => !core && iw w 25 24 ≠ 3
  | 0x37 => iB w = 0 && ((iFn w = 0 && iD w = 0) || iFn w = 1)
  | 0x38 => iA w = 0
  | 0x39 => iD w = 0
  | 0x3A => iD w = 0 && iA w = 0 && iB w = 0
      && (inR (iFn w) 0 3 || (iFn w = 4 && core) || iFn w = 0x10 || iFn w = 0x11)
  | 0x3C => !core && legalLight w
  | 0x3D => !core && legalFade w
  | 0x3E => legalShow core w
  | _ => false

end Sys2Proof.Machine
end

