-- ==== Sys2Proof/Machine/Control.lean ====
section
/-!
DEFINITION. Branches and jumps (R107, R108), MFS and MTS (R52, R77, R109), the system instructions (R110) and words
that are no instruction (R84).
-/
namespace Sys2Proof.Machine
open Sys2Proof

/-- A fault whose s_tval the spec does not state: a free value (assumption 6). -/
def State.faultFree (s : State) (p : Proc) (cause : Nat) : State :=
  s.useFree.fault p cause (Word.ofNat (Config.freeNat 10 s.fresh))

/-- ILLEGAL_INSTRUCTION: a word that is no instruction of the processor raises ILLEGAL with the word in s_tval (R77,
R84). A word that is one has no effect here: its own command executes it. -/
def execIllegalInstruction (p : Proc) (w : Word) (s : State) : Res :=
  let core := match p with | .vent _ => false | _ => true
  .next (if legalWord core w.toNat then s else s.issue p fun s => s.fault p C_ILLEGAL w)

/-! ### Branches (R107) -/

def State.branchTo (s : State) (p : Proc) (off : BitVec 21) (taken : Bool) : State :=
  if taken then s.goto p (s.pcOf p + off.signExtend 32 * 4) else s.retire p

/-- BR (R107). -/
def execBr (p : Proc) (off : BitVec 21) (s : State) : Res := .next (s.issue p fun s => s.branchTo p off true)
/-- BAL: g31 = PC + 4 (R107). -/
def execBal (p : Proc) (off : BitVec 21) (s : State) : Res :=
  .next (s.issue p fun s => (s.setG p 31 (s.pcOf p + 4)).branchTo p off true)
/-- BZ (R107). -/
def execBz (p : Proc) (c : GReg) (off : BitVec 21) (s : State) : Res :=
  .next (s.issue p fun s => s.branchTo p off (s.g p c.toNat = 0))
/-- BNZ (R107). -/
def execBnz (p : Proc) (c : GReg) (off : BitVec 21) (s : State) : Res :=
  .next (s.issue p fun s => s.branchTo p off (s.g p c.toNat ≠ 0))
/-- BLTZ (R107). -/
def execBltz (p : Proc) (c : GReg) (off : BitVec 21) (s : State) : Res :=
  .next (s.issue p fun s => s.branchTo p off (s.g p c.toNat).msb)
/-- BGEZ (R107). -/
def execBgez (p : Proc) (c : GReg) (off : BitVec 21) (s : State) : Res :=
  .next (s.issue p fun s => s.branchTo p off (!(s.g p c.toNat).msb))
/-- BP: test of a predicate register; test 0b11 is ILLEGAL (R107). -/
def execBp (n : VentNo) (test : BitVec 2) (pr : PReg) (off : BitVec 21) (s : State) : Res :=
  .next (s.issue (.vent n) fun s =>
    let b := s.preg n.toNat pr.toNat
    match test.toNat with
    | 0 => s.branchTo (.vent n) off (b ≠ 0)
    | 1 => s.branchTo (.vent n) off (b = 0xFF)
    | 2 => s.branchTo (.vent n) off (b = 0)
    | _ => s.fault (.vent n) C_ILLEGAL 0)
/-- JR (R108). -/
def execJr (p : Proc) (a : GReg) (s : State) : Res :=
  .next (s.issue p fun s =>
    let t := s.g p a.toNat
    if fldOf t 1 0 ≠ 0 then s.fault p C_ALIGN t else s.goto p t)
/-- JALR: the target is read before the link is written (R108). -/
def execJalr (p : Proc) (d a : GReg) (s : State) : Res :=
  .next (s.issue p fun s =>
    let t := s.g p a.toNat
    if fldOf t 1 0 ≠ 0 then s.fault p C_ALIGN t else (s.setG p d.toNat (s.pcOf p + 4)).goto p t)

/-! ### Special registers (R52, R77) -/

/-- The task of a vent. -/
def State.ventTask (s : State) (n : Nat) : Option Task := (s.vent n).task.bind s.task?

/-- How many ticks ago TSU_NS stood as s_tick returns it on a core: 3 or 4 SCK cycles, of 1 ns or in DOZE of 4 ns, cut to
the tick (R175). Where in the tick the MFS issues is not timed: a free value (assumption 54). -/
def State.sTickAge (s : State) : Nat :=
  if s.fld R.PWC_STATE 2 0 = 2 then 4 + s.free 73 4 else 1 + s.free 73 2

/-- What an MFS reads: the value, or the cause it raises. -/
def State.readSpecial (s : State) (p : Proc) (num : Nat) : Word ⊕ Nat :=
  match p with
  | .vent v =>
    let n := v.toNat
    match num with
    | 0x000 => .inl (Word.ofNat n)
    | 0x001 => .inl (match (s.vent n).task, s.ventTask n with
        | some key, some t => handleOf key t.seq
        | _, _ => 0)
    | 0x002 => .inl (match s.ventTask n with | some t => t.desc.arg | none => 0)
    | 0x003 => .inl (match s.ventTask n with | some t => t.desc.tag | none => 0)
    | 0x004 => .inl s.fnow
    | 0x005 => .inl s.tsuNs
    | 0x006 => .inl (Word.ofNat (((s.die (n / 256)).half - (s.vent n).startVck) / 2))
    | 0x007 => .inl ((s.rd (R.CAL_BUDGET (n / 64))).sshiftRight 10)
    | 0x008 => .inl 0
    | 0x009 => .inl (match s.ventTask n with
        | some t => Word.ofNat (t.desc.prio + (s.vent n).cls * 256 + b2n t.desc.roam * 2 ^ 16
                      + b2n t.desc.critical * 2 ^ 17 + b2n t.desc.selftest * 2 ^ 18)
        | none => 0)
    | 0x00A => .inl (match s.ventTask n with | some t => Word.ofNat (b2n t.cancel) | none => 0)
    | 0x00B => .inl (s.vent n).flags
    | _ => .inr C_ILLEGAL
  | p =>
    let c := s.core (coreNo p)
    let sec := fun (w : Word) => if c.secure then .inl w else .inr C_PRIV
    let rg := c.pr.getD (fldOf c.prSel 3 0) {}
    match num with
    | 0x000 => .inl (match p with | .svc n => Word.ofNat (0x400 + n.toNat) | _ => 0x410)
    | 0x001 | 0x002 | 0x007 | 0x009 => .inl 0
    | 0x003 => .inl 0xFFFFFFFF
    | 0x004 => .inl s.fnow
    | 0x005 => .inl (s.tsuAt s.sTickAge)
    | 0x006 => .inl (Word.ofNat ((s.sck - c.start) / 8))
    | 0x008 => .inl (Word.ofNat (b2n c.secure))
    | 0x00A => .inl c.status
    | 0x00B => .inl c.flags
    | 0x100 => .inl c.epc
    | 0x101 => .inl c.cause
    | 0x102 => .inl c.tval
    | 0x103 => .inl c.vbase
    | 0x104 => .inl (c.seg.getD 0 0)
    | 0x105 => .inl (c.seg.getD 1 0)
    | 0x106 => .inl (c.seg.getD 2 0)
    | 0x107 => .inl (c.seg.getD 3 0)
    | 0x108 => sec c.svbase
    | 0x10C => sec c.prSel
    | 0x10D => sec rg.base
    | 0x10E => sec rg.lim
    | 0x10F => sec rg.att
    | _ => .inr C_ILLEGAL

/-- MFS (R109). -/
def execMfs (p : Proc) (d : GReg) (num : BitVec 16) (s : State) : Res :=
  .next (s.issue p fun s =>
    match s.readSpecial p num.toNat with
    | .inl w => (((if num = 0x005 then s.useFree else s).setG p d.toNat w)).retire p
    | .inr c => if c = C_PRIV then s.faultFree p c else s.fault p c (encI 0x38 d.toNat 0 num.toNat))

/-- A special register after an MTS of a core (R77): reserved bits read 0, and s_status.pworld changes in secure world
only. s_vbase and s_svbase keep all 32 bits, also those below 4 KB (DESIGN CHOICE, assumption 55). -/
def Core.writeSpecial (c : Core) (num : Nat) (w : Word) : Core ⊕ Nat :=
  let sec := fun (x : Core) => if c.secure then .inl x else .inr C_PRIV
  let i := fldOf c.prSel 3 0
  let rg := c.pr.getD i {}
  match num with
  | 0x00A => .inl { c with status := if c.secure then w &&& 7 else (c.status &&& 4) ||| (w &&& 3) }
  | 0x00B => .inl { c with flags := w &&& 0x7F }
  | 0x100 => .inl { c with epc := w }
  | 0x103 => .inl { c with vbase := w }
  | 0x104 => .inl { c with seg := lset 0 c.seg 0 (w &&& 0x3FF) }
  | 0x105 => .inl { c with seg := lset 0 c.seg 1 (w &&& 0x3FF) }
  | 0x106 => .inl { c with seg := lset 0 c.seg 2 (w &&& 0x3FF) }
  | 0x107 => .inl { c with seg := lset 0 c.seg 3 (w &&& 0x3FF) }
  | 0x108 => sec { c with svbase := w }
  | 0x10C => sec { c with prSel := w &&& 0xF }
  | 0x10D => sec { c with pr := lset {} c.pr i { rg with base := w } }
  | 0x10E => sec { c with pr := lset {} c.pr i { rg with lim := w } }
  | 0x10F => sec { c with pr := lset {} c.pr i { rg with att := w &&& 0x3F } }
  | _ => .inr C_ILLEGAL

/-- MTS (R109). -/
def execMts (p : Proc) (a : GReg) (num : BitVec 16) (s : State) : Res :=
  .next (s.issue p fun s =>
    let w := s.g p a.toNat
    let ill := encI 0x39 0 a.toNat num.toNat
    match p with
    | .vent n =>
      if num = 0x00B then (s.setVent n.toNat { s.vent n.toNat with flags := w &&& 0x7F }).retire p
      else s.fault p C_ILLEGAL ill
    | p =>
      match (s.core (coreNo p)).writeSpecial num.toNat w with
      | .inl c => (s.setCore (coreNo p) c).retire p
      | .inr c => if c = C_PRIV then s.faultFree p c else s.fault p c ill)

/-! ### System instructions (R110) -/

/-- NOP (R110). -/
def execNop (p : Proc) (s : State) : Res := .next (s.issue p fun s => s.retire p)
/-- FENCE: accesses take effect in program order here, so its condition is met when it issues (R61, R110). -/
def execFence (p : Proc) (s : State) : Res := .next (s.issue p fun s => s.retire p)
/-- ISYNC: an instruction is fetched when it issues, so no stale one exists to discard (R60, R110). -/
def execIsync (p : Proc) (s : State) : Res := .next (s.issue p fun s => s.retire p)
/-- BRK (R110). -/
def execBrk (p : Proc) (s : State) : Res := .next (s.issue p fun s => s.faultFree p C_BREAK)
/-- SCALL: ILLEGAL on a vent; on a core an exception with s_epc = PC + 4 that enters secure world (R78, R110). -/
def execScall (p : Proc) (s : State) : Res :=
  .next (s.issue p fun s =>
    match p with
    | .vent n => s.fault (.vent n) C_ILLEGAL 0
    | p => s.useFree.excEnter (coreNo p) C_SCALL (s.pcOf p + 4) (Word.ofNat (Config.freeNat 10 s.fresh)) true)
/-- ERET (R79, R110): PRIV on a vent, and in normal world with s_status.pworld = 1. -/
def execEret (p : Proc) (s : State) : Res :=
  .next (s.issue p fun s =>
    match p with
    | .vent _ => s.faultFree p C_PRIV
    | p =>
      let c := s.core (coreNo p)
      if !c.secure && bitOf c.status ST_PWORLD then s.faultFree p C_PRIV else s.excReturn (coreNo p))

end Sys2Proof.Machine
end

