-- ==== Sys2Proof/Machine/Mailbox.lean ====
section
/-!
DEFINITION. MBX, the 512 mailbox channels (R357 to R362), and the mailbox instructions (R139).
-/
namespace Sys2Proof.Machine
open Sys2Proof

/-- The party number of a processor (R357). -/
def partyOf : Proc → Nat
  | .vent n => 16 + n.toNat / 64
  | .svc n => 3 + n.toNat
  | .mgmt => 2
abbrev PARTY_HOST : Nat := 1

/-- A party number that names a master. -/
def partyOk (p : Nat) : Bool := (1 ≤ p && p ≤ 10) || (16 ≤ p && p ≤ 31)
def State.mbxA (s : State) (n : Nat) : Nat := s.fld (R.MBX_C_CFG n) 5 0
def State.mbxB (s : State) (n : Nat) : Nat := s.fld (R.MBX_C_CFG n) 13 8
def State.mbxDuplex (s : State) (n : Nat) : Bool := s.bit (R.MBX_C_CFG n) 31
/-- A channel that is usable at all (R358). -/
def State.mbxOk (s : State) (n : Nat) : Bool :=
  partyOk (s.mbxA n) && partyOk (s.mbxB n) && s.mbxA n != s.mbxB n

/-- The direction in which a party posts: some true = forward, some false = reverse. -/
def State.mbxPostDir (s : State) (n p : Nat) : Option Bool :=
  if !s.mbxOk n then none
  else if s.mbxA n = p then some true
  else if s.mbxB n = p ∧ s.mbxDuplex n then some false else none
/-- The direction that a party receives. -/
def State.mbxRecvDir (s : State) (n p : Nat) : Option Bool :=
  if !s.mbxOk n then none
  else if s.mbxB n = p then some true
  else if s.mbxA n = p ∧ s.mbxDuplex n then some false else none

def Channel.words (c : Channel) (fwd : Bool) : List MbxWord := if fwd then c.fwd else c.rev
def Channel.waiting (c : Channel) (fwd : Bool) : List StalledPost := if fwd then c.stF else c.stR

/-- Put a word in a direction, with its sender's present epoch (R360), and wake tasks that wait for it. -/
def State.mbxAppend (s : State) (n : Nat) (fwd : Bool) (w : Word) : State :=
  let c := s.chan n
  let x : MbxWord := ⟨w, s.fld (R.MBX_EPOCH (if fwd then s.mbxA n else s.mbxB n)) 3 0⟩
  (s.setChan n (if fwd then { c with fwd := c.fwd ++ [x] } else { c with rev := c.rev ++ [x] })).fireLevel (0x100 + n)

/-- A post completes at once, or waits for room (R359): true when it completed. -/
def State.mbxPost (s : State) (n : Nat) (fwd : Bool) (who : Pusher) (w : Word) : Bool × State :=
  let c := s.chan n
  if (c.words fwd).length < 8 ∧ (c.waiting fwd).isEmpty then (true, s.mbxAppend n fwd w)
  else (false, s.setChan n (if fwd then { c with stF := c.stF ++ [⟨who, w⟩] } else { c with stR := c.stR ++ [⟨who, w⟩] }))

/-- Receive one word of a direction: whether it underran, the word, and the new state (R359, R360). -/
def State.mbxRecv (s : State) (n : Nat) (fwd : Bool) : Bool × MbxWord × State :=
  let c := s.chan n
  match c.words fwd with
  | [] => (true, if fwd then c.lastF else c.lastR, s)
  | x :: t => (false, x, s.setChan n
      (if fwd then { c with fwd := t, lastF := x, oldB := c.oldB - 1 } else { c with rev := t, lastR := x, oldA := c.oldA - 1 }))

/-- A party's epoch increments, and its receiving directions latch the words that wait (R360). -/
def State.epochBump (s : State) (p : Nat) : State :=
  let s := s.setF (R.MBX_EPOCH p) 3 0 (s.fld (R.MBX_EPOCH p) 3 0 + 1)
  { s with chans := s.chans.map fun (e : Nat × Channel) =>
      (e.1, { e.2 with oldA := if s.mbxA e.1 = p then e.2.rev.length else e.2.oldA,
                       oldB := if s.mbxB e.1 = p then e.2.fwd.length else e.2.oldB }) }

/-- MPOST (R139, R358). -/
def execMpost (p : Proc) (d a b : SReg) (s : State) : Res :=
  .next (s.issue p fun s =>
    let ch := s.g p a.toNat
    if 511 < ch.toNat then (s.setG p d.toNat (Word.ofNat E_ARG)).retire p
    else match s.mbxPostDir ch.toNat (partyOf p) with
      | none => (s.setG p d.toNat (Word.ofNat E_ATTR)).retire p
      | some fwd =>
        let w := s.g p b.toNat
        let r := s.mbxPost ch.toNat fwd (pusherOf p d) w
        if r.1 then (r.2.setG p d.toNat 0).retire p else r.2.stallProc p (.mpost d ch.toNat w))

/-- MRECV (R139). -/
def execMrecv (p : Proc) (d a : SReg) (s : State) : Res :=
  .next (s.issue p fun s =>
    if !pairOk d then s.illegalS p d a 0 0x11
    else
      let ch := s.g p a.toNat
      if 511 < ch.toNat then (s.setPair p d.toNat 0 (Word.ofNat E_ARG)).retire p
      else match s.mbxRecvDir ch.toNat (partyOf p) with
        | none => (s.setPair p d.toNat 0 (Word.ofNat E_ATTR)).retire p
        | some fwd =>
          let r := s.mbxRecv ch.toNat fwd
          (r.2.2.setPair p d.toNat r.2.1.data (Word.ofNat (r.2.1.epoch * 256 + b2n r.1 * 65536))).retire p)

/-- MBX_LOCK_WRITE: only the management core sets the lock (R358). -/
def execMbxLockWrite (who : Master) (w : Word) (s : State) : Res :=
  .next (match who with
    | .mgmt _ => if bitOf w 0 then s.setF R.MBX_LOCK 0 0 1 else s
    | _ => s)

/-- A host access to a channel of which it is not a party is a reserved access (R362). -/
def State.mbxForeign (s : State) (ch kind : Nat) : State := s.busRange (R.MBX_C_DATA ch) kind 0 0
def State.mbxHostParty (s : State) (ch : Nat) : Bool := s.mbxA ch = PARTY_HOST || s.mbxB ch = PARTY_HOST

/-- MBX_DATA_WRITE: a host write posts in the host's direction (R362). -/
def execMbxDataWrite (ch : BitVec 9) (w : Word) (s : State) : Res :=
  let ch := ch.toNat
  .next (if !s.mbxHostParty ch then s.mbxForeign ch 1
    else match s.mbxPostDir ch PARTY_HOST with
      | none => s
      | some fwd => (s.mbxPost ch fwd .host w).2)

/-- MBX_DATA_READ: a host read receives a word, and MBX_Cn_RINFO gives its epoch and underrun (R362). -/
def execMbxDataRead (ch : BitVec 9) (s : State) : Res :=
  let ch := ch.toNat
  .next (if !s.mbxHostParty ch then { s.mbxForeign ch 0 with hostRead := 0 }
    else match s.mbxRecvDir ch PARTY_HOST with
      | none => { s with hostRead := 0 }
      | some fwd =>
        let r := s.mbxRecv ch fwd
        { r.2.2.wr (R.MBX_C_RINFO ch) (Word.ofNat (2 ^ 31 + r.2.1.epoch * 256 + b2n r.1)) with hostRead := r.2.1.data })

/-- Stalled posts of one direction complete while there is room. -/
def State.mbxAdmit (s : State) (n : Nat) (fwd : Bool) : Nat → State
  | 0 => s
  | k + 1 =>
    let c := s.chan n
    match c.waiting fwd with
    | [] => s
    | q :: t =>
      if (c.words fwd).length < 8 then
        (((s.setChan n (if fwd then { c with stF := t } else { c with stR := t })).mbxAppend n fwd q.data).pushDone
          q.who OK).mbxAdmit n fwd k
      else s

/-- MBX_STALLED_POST_DONE: a receive has made room (R359). -/
def execMbxStalledPostDone (ch : BitVec 9) (s : State) : Res :=
  let ch := ch.toNat
  .next ((s.mbxAdmit ch true (s.chan ch).stF.length).mbxAdmit ch false (s.chan ch).stR.length)

/-- MBX_Cn_STAT as read. -/
def State.mbxStat (s : State) (n : Nat) : Word :=
  let c := s.chan n
  Word.ofNat (s.fld (R.MBX_EPOCH (s.mbxA n)) 3 0 * 2 ^ 28 + s.fld (R.MBX_EPOCH (s.mbxB n)) 3 0 * 2 ^ 24
    + c.oldA * 2 ^ 20 + c.oldB * 2 ^ 16 + c.rev.length * 256 + c.fwd.length)
/-- Channel n has a word for party p with its doorbell enabled (R362). -/
def State.mbxPend (s : State) (p n : Nat) : Bool :=
  let c := s.chan n
  (s.mbxB n = p && !c.fwd.isEmpty && s.bit (R.MBX_C_CFG n) 29) || (s.mbxA n = p && !c.rev.isEmpty && s.bit (R.MBX_C_CFG n) 30)
/-- The doorbell of a party: any bit of its MBX_PENDp is set. -/
def State.mbxBell (s : State) (p : Nat) : Bool := s.chans.any fun e => s.mbxPend p e.1

end Sys2Proof.Machine
end

