-- ==== Sys2Proof/Machine/Icu.lean ====
section
/-!
DEFINITION. ICU, the interrupt controller (R363 to R373), and WFI (R111).
-/
namespace Sys2Proof.Machine
open Sys2Proof

/-! ### Sources -/

/-- Class E sources (R364): they go straight to their one target. -/
def srcClassE (n : Nat) : Bool := (0x00C ≤ n && n ≤ 0x00E) || (0x040 ≤ n && n ≤ 0x053)
/-- Class L sources: latched while clocks stop. -/
def srcClassL (n : Nat) : Bool := (0x00C ≤ n && n ≤ 0x00E) || (0x010 ≤ n && n ≤ 0x01A) || (0x020 ≤ n && n ≤ 0x03F)
def srcGpio (n : Nat) : Bool := 0x020 ≤ n && n ≤ 0x03F

/-- Settings in ICU_SRCn. -/
def State.srcEn (s : State) (n : Nat) : Bool := n = 0 || s.bit (R.ICU_SRC n) 31
def State.srcSec (s : State) (n : Nat) : Bool := s.bit (R.ICU_SRC n) 28
def State.srcLevelKind (s : State) (n : Nat) : Bool := if srcGpio n then s.bit (R.ICU_SRC n) 27 else icuLevelSrc n
def State.srcPol (s : State) (n : Nat) : Bool := s.bit (R.ICU_SRC n) 26
def State.srcPrio (s : State) (n : Nat) : Nat := s.fld (R.ICU_SRC n) 25 22
def State.srcTargets (s : State) (n : Nat) : Word := Word.ofNat (s.fld (R.ICU_SRC n) 10 0)

/-- The line of an external source. -/
def State.srcLine (s : State) (n : Nat) : Bool := mget (fun _ => false) s.icuLine n

/-- A W1C bit of a lane status is set in head h (sources 0x110 + h). -/
def State.headStat (s : State) (h : Nat) : Bool := [0, 1, 2, 3].any fun j =>
  match regDesc (R.SCN_L_STAT h j) with
  | some d => s.rd (R.SCN_L_STAT h j) &&& Word.ofNat d.w1c ≠ 0
  | none => false

/-- The level of a level source (R364). -/
def State.icuLevel (s : State) (n : Nat) : Bool :=
  if n = 0 then s.targets.any (·.2.frozen)
  else if n = 1 then decide (0 < sdiff (s.rd R.FLT_NEXT) (s.rd R.FLT_READ))
  else if srcGpio n then s.srcLine n != s.srcPol n
  else if n = 0x100 then s.mbxBell PARTY_HOST
  else if 0x101 ≤ n ∧ n ≤ 0x109 then s.mbxBell (n - 0x101 + 2)
  else if 0x110 ≤ n ∧ n ≤ 0x117 then s.headStat (n - 0x110)
  else if n = 0x118 then s.bit R.SPD_STAT 0
  else if n = 0x119 then s.bit R.UNV_STAT 0
  else if n = 0x11A then s.fld R.LGV_STATUS 1 0 ≠ 0
  else if n = 0x11B then s.bit R.BGT_STATUS 1
  else if n = 0x11C then s.bit R.TSU_STATUS 0
  else if n = 0x148 then s.host.reqs.any (fun q => !q.net)
  else if 0x200 ≤ n ∧ n ≤ 0x2FF then s.qIrq (n - 0x200)
  else false

def State.inSvc (s : State) (n : Nat) : Bool := mget (fun _ => false) s.icuSvc n
def State.setSvc (s : State) (n : Nat) (b : Bool) : State := { s with icuSvc := mset (fun _ => false) s.icuSvc n b }

/-- Whether a source is pending (R364): a level source's pending bit follows its level while it is not in service. -/
def State.srcPending (s : State) (n : Nat) : Bool :=
  if s.srcLevelKind n then !s.inSvc n && s.icuLevel n else mget (fun _ => false) s.icuPend n

/-! ### Targets (R365) -/

/-- The core of a target 0 to 8. -/
def coreOfTarget (t : Nat) : Proc := if t = 0 then .mgmt else .svc (BitVec.ofNat 3 (t - 1))

/-- The running priority of a target, plus one (so that −1 is 0). -/
def State.runPrio (s : State) (t : Nat) : Nat :=
  let top := match (s.target t).stack with | [] => 0 | e :: _ => e.2 + 1
  let thr := if t ≤ 9 ∧ s.bit (R.ICU_T_THRESH t) 4 then s.fld (R.ICU_T_THRESH t) 3 0 + 1 else 0
  max top thr

/-- The control sequencer of the Langal engine runs (target 9) once the engine has left BOOT. -/
def State.lglRunning (s : State) : Bool := s.fld R.LGL_STAT 1 0 != 0

/-- A target counts as awake (R365). -/
def State.awake (s : State) (t : Nat) : Bool :=
  if t ≤ 8 then s.bit (R.ICU_T_CTRL t) 1 && !(s.target t).frozen && decide ((s.core t).run ≠ .halted)
  else if t = 9 then s.bit (R.ICU_T_CTRL 9) 1 && !(s.target 9).frozen && s.lglRunning
  else !(s.target 10).frozen

/-- A source is delivered somewhere already. -/
def State.delivered (s : State) (n : Nat) : Bool := s.targets.any fun e => e.2.dlv = some n

/-- A core's world admits a source (R366). -/
def State.admits (s : State) (t n : Nat) : Bool := s.srcSec n || !(s.core t).secure

/-- A WFI that cannot be followed by the interrupt ends at the delivery (R111). -/
def State.endWfi (s : State) (t n : Nat) : State :=
  let c := s.core t
  if t ≤ 8 ∧ c.run = .wfi ∧ !(bitOf c.status ST_IE && s.admits t n) then
    s.setCore t { c with run := .running, pc := c.pc + 4 }
  else s

/-- Deliver source n to target t, where it displaces a delivery of lower rank. -/
def State.deliverTo (s : State) (t n : Nat) : State :=
  let x := s.target t
  let better := match x.dlv with
    | none => true
    | some m => s.srcPrio m < s.srcPrio n || (s.srcPrio m = s.srcPrio n && n < m)
  if better then (s.setTarget t { x with dlv := some n }).endWfi t n else s

/-- The awake eligible target with the lowest running priority, ties to the lowest number. -/
def State.bestTarget (s : State) (mask : Word) : List Nat → Option Nat → Option Nat
  | [], b => b
  | t :: l, b =>
    let b' := if bitOf mask t && s.awake t then
        (match b with
          | none => some t
          | some u => if s.runPrio t < s.runPrio u then some t else some u)
      else b
    s.bestTarget mask l b'

/-- The code of R449 for a class L source, and whether SPR_WAKE_EN or SPR_WAKE_GPIO enables it. -/
def State.wakeCode (s : State) (src : Nat) : Option (Nat × Bool) :=
  if src = 0x019 then some (1, s.bit R.SPR_WAKE_EN 0)
  else if src = 0x01A then some (2, s.bit R.SPR_WAKE_EN 1)
  else if src = 0x00C then some (3, s.bit R.SPR_WAKE_EN 2)
  else if 0x010 ≤ src ∧ src ≤ 0x017 then some (8 + (src - 0x010), s.bit R.SPR_WAKE_EN (8 + (src - 0x010)))
  else if srcGpio src then some (32 + (src - 0x020), s.bit R.SPR_WAKE_GPIO (src - 0x020))
  else none

/-- An enabled wake source fires in SLEEP: the first since the entry is recorded, of those in one SPR cycle the one of
lowest code, and the wake begins (R445, R449). -/
def State.catchWake (s : State) (src : Nat) : State :=
  match s.wakeCode src with
  | some (c, true) =>
    let old := s.fld R.SPR_WAKE_CAUSE 7 0
    let same := decide ((s.now - s.pwr.causeAt) * 32768 ≤ s.pwr.frac)
    let s := if old = 0 ∨ (same ∧ c < old) then
        { s.setF R.SPR_WAKE_CAUSE 7 0 c with pwr := { s.pwr with causeAt := s.now } }
      else s
    if s.pwr.wakeAt.isSome then s else { s with pwr := { s.pwr with wakeAt := some s.now } }
  | _ => s

/-- The Spring latch catches an event of a class L source in SLEEP (R372, R438), which may start a wake. -/
def State.latchEdge (s : State) (src : Nat) : State :=
  if srcClassL src ∧ s.fld R.PWC_STATE 2 0 = 3 then
    { s with springLatch := mset (fun _ => false) s.springLatch src true }.catchWake src
  else s

/-- An edge of a class L source: pending at once while clocks run, else caught by the Spring latch (R364, R372). -/
def State.edgeL (s : State) (src : Nat) : State := if s.clocksRun then s.irq src else s.latchEdge src

/-- ICU_SOURCE_EVENT: an external line takes a level, or an edge source's event occurs (R364). In SLEEP a class L event is
the Spring latch's (R372), and the blocks of the class R sources are off (R371). -/
def execIcuSourceEvent (src : BitVec 10) (level : Bool) (s : State) : Res :=
  let src := src.toNat
  .next (if !icuSrcExists src then s
    else if srcClassL src then
      let fires := level != s.srcPol src && (s.srcLevelKind src || s.srcLine src != level)
      let t := { s with icuLine := mset (fun _ => false) s.icuLine src level }
      if !fires then t
      else if s.clocksRun ∧ s.srcLevelKind src then t
      else t.edgeL src
    else if s.srcLevelKind src ∨ !s.clocksRun then s
    else s.irq src)

/-- A core starts on its image. The spec gives no entry address: a free value (assumption 17). -/
def State.startCore (s : State) (n : Nat) : State :=
  s.useFree.setCore n { start := s.sck, run := .running, pc := Word.ofNat (s.free (50 + n) (2 ^ 30) * 4) }

/-- A target that ICU may wake (R365): a core that is held in reset, with deliveries enabled and no frozen stack. Before
the end of a boot, and for the service cores in Langal strict (R460), nothing is started. -/
def State.wakeable (s : State) (t : Nat) : Bool :=
  decide (t ≤ 8) && s.bit (R.ICU_T_CTRL t) 1 && !(s.target t).frozen && decide ((s.core t).run = .halted)
    && s.upd.booted && s.clocksRun && (t == 0 || !s.strict)

/-- With no eligible target awake, the lowest-numbered one that may be woken is; the source is delivered at its next
routing (R365). -/
def State.wakeTarget (s : State) (mask : Word) : State :=
  match (List.range 9).find? fun t => bitOf mask t && s.wakeable t with
  | some t => s.startCore t
  | none => s

/-- ICU_DELIVER: a pending source is routed (R365, R368, R370). -/
def execIcuDeliver (src : BitVec 10) (s : State) : Res :=
  let src := src.toNat
  .next (if !icuSrcExists src || !s.srcPending src || s.inSvc src || s.delivered src || !s.srcEn src then s
    else if src = 0 then s.endWfi 0 0
    else if srcClassE src then
      match (List.range 9).find? (bitOf (s.srcTargets src)) with
      | some t =>
        if !s.awake t then s.wakeTarget (s.srcTargets src)
        else if s.runPrio t < s.srcPrio src + 1 then s.deliverTo t src else s
      | none => s
    else match s.bestTarget (s.srcTargets src) (List.range 11) none with
      | some t => if s.runPrio t < s.srcPrio src + 1 then s.deliverTo t src else s
      | none => s.wakeTarget (s.srcTargets src))

/-- A core takes an interrupt (R78, R366). -/
def State.takeInterrupt (s : State) (t n : Nat) : State :=
  let c := s.core t
  let pc := if c.run = .wfi then c.pc + 4 else c.pc
  s.excEnter t C_INTERRUPT pc (Word.ofNat n) (s.srcSec n)

/-- A claim: the source is in service and off pending, and its priority goes onto the stack (R366). -/
def State.claim (s : State) (t n : Nat) : State :=
  let x := s.target t
  ((s.setSvc n true).irqClear n).setTarget t { x with dlv := none, stack := (n, s.srcPrio n) :: x.stack }

/-- Whether a core can take source n now: ie, its world, and no stalled access (R366, R370). -/
def State.canTake (s : State) (t n : Nat) : Bool :=
  let c := s.core t
  bitOf c.status ST_IE && s.admits t n && c.stall.isNone && decide (c.run ≠ .halted)

/-- The host claims as the MSI-X message for the source's vector is sent (R366, R373). -/
def State.claimHost (s : State) (n : Nat) : State :=
  let v := s.fld (R.ICU_SRC n) 21 16
  if s.host.msixEn && s.host.linkUp && !mget (fun _ => true) s.host.msixMask v then
    let s := s.claim 10 n
    { s with host := { s.host with msixSent := v :: s.host.msixSent } }
  else s

/-- ICU_CLAIM (R366, R368, R373). ICU_FAULT is taken by the management core before anything delivered, and pushes
nothing. -/
def execIcuClaim (t : BitVec 4) (s : State) : Res :=
  let t := t.toNat
  .next (if t = 0 ∧ s.icuLevel 0 ∧ s.canTake 0 0 then s.takeInterrupt 0 0
    else match (s.target t).dlv with
      | none => s
      | some n =>
        if t ≤ 8 then (if s.canTake t n then (s.claim t n).takeInterrupt t n else s)
        else if t = 9 then s.claim 9 n
        else s.claimHost n)

/-- Withdraw deliveries that R367 no longer allows at a target. -/
def State.withdrawAt (s : State) (t : Nat) : State :=
  let x := s.target t
  match x.dlv with
  | none => s
  | some n =>
    let thr := t ≤ 9 ∧ s.bit (R.ICU_T_THRESH t) 4 ∧ s.srcPrio n ≤ s.fld (R.ICU_T_THRESH t) 3 0
    if !bitOf (s.srcTargets n) t ∨ thr ∨ !s.awake t then s.setTarget t { x with dlv := none } else s

/-- The number of the master that owns a target's EOI register. -/
def targetOwner : Master → Nat
  | .mgmt _ => 0
  | .svc n _ => n.toNat + 1
  | .langal => 9
  | .host => 10
  | .lhb => 11

/-- The master code and unit of R516 for a register access; the LHB makes none. -/
def masterCode : Master → Nat × Nat
  | .host => (0, 0)
  | .mgmt _ => (0x10, 0)
  | .svc n _ => (0x11, n.toNat)
  | .langal => (0x12, 0)
  | .lhb => (0x12, 0)

/-- The precise bus error of a core whose access is refused (R40). The command names a device address: the address that
the core presented, s_tval, is a free value (assumption 55). -/
def State.busError (s : State) (p : Proc) (cause : Nat) : State :=
  if s.canIssue p then s.useFree.fault p cause (Word.ofNat (s.free 74 (2 ^ 32))) else s

/-- The core that a master is. -/
def masterProc : Master → Option Proc
  | .mgmt _ => some .mgmt
  | .svc n _ => some (.svc n)
  | _ => none

/-- A register access that is reserved for its master (R40, R41): recorded, and a bus error on a core; the LHB does not
reach the register space. -/
def State.refuseAccess (s : State) (who : Master) (a kind : Nat) : State :=
  if who = .lhb then s
  else
    let t := s.busRange a kind (masterCode who).1 (masterCode who).2
    match masterProc who with
    | some p => t.busError p C_RANGE
    | none => t

/-- A completion written by target t (R368). -/
def State.eoi (s : State) (t n : Nat) : State :=
  let x := s.target t
  if x.frozen then s
  else match x.stack with
    | (m, _) :: rest =>
      if m = n then (s.setSvc n false).setTarget t { x with stack := rest }
      else (s.setTarget t { x with frozen := true, dlv := none }).log 0x0042 2 t m n
    | [] =>
      (s.useFree.setTarget t { x with frozen := true, dlv := none }).log 0x0042 2 t (Config.freeNat 11 s.fresh) n

/-- ICU_EOI: a write to ICU_Tt_EOI (R368). -/
def execIcuEoi (t : BitVec 4) (who : Master) (w : Word) (s : State) : Res :=
  let t := t.toNat
  .next (if 9 < t then s
    else if targetOwner who ≠ t then s.refuseAccess who (R.ICU_T_EOI t) 1
    else s.eoi t (fldOf w 9 0))
/-- ICU_HEOI: completion by the host (R368). -/
def execIcuHeoi (w : Word) (s : State) : Res := .next (s.eoi 10 (fldOf w 9 0))

/-- Empty a target's stack (R368): its sources leave service; an edge source becomes idle. -/
def State.unfreeze (s : State) (t : Nat) : State :=
  let x := s.target t
  x.stack.foldl (fun (s : State) (e : Nat × Nat) => (s.setSvc e.1 false).irqClear e.1)
    (s.setTarget t { x with stack := [], frozen := false })

/-- ICU_UNFREEZE: a write to ICU_Tt_CTRL.unfreeze (R368). -/
def execIcuUnfreeze (t : BitVec 4) (s : State) : Res :=
  let t := t.toNat
  .next (if 9 < t then s else s.unfreeze t)
/-- ICU_SWSET (R364). -/
def execIcuSwset (w : Word) (s : State) : Res :=
  .next (let n := fldOf w 9 0; if 0x300 ≤ n then s.irq n else s)
/-- ICU_SWCLR: pending of a software source not in service clears. -/
def execIcuSwclr (w : Word) (s : State) : Res :=
  .next (let n := fldOf w 9 0; if 0x300 ≤ n ∧ !s.inSvc n then s.irqClear n else s)

/-- The mask constraints of R363. -/
def srcMaskOk (n : Nat) (m : Word) : Bool :=
  let lgl := n = 0x150 || n = 0x151
  (!bitOf m 10 || m = 0x400)
    && (!srcClassE n || (popcount 11 m.toNat = 1 && !bitOf m 9 && !bitOf m 10))
    && (if lgl then m &&& ~~~0x200 = 0 else !bitOf m 9)

/-- The world a register write comes from; the host and the Langal engine write from normal world. -/
def masterSecure : Master → Bool
  | .mgmt b => b
  | .svc _ b => b
  | _ => false

/-- ICU_SRC_WRITE (R363, R364, R367). -/
def execIcuSrcWrite (who : Master) (n : BitVec 10) (w : Word) (s : State) : Res :=
  let n := n.toNat
  .next (if !icuSrcExists n then s
    else if !masterSecure who ∧ (s.srcSec n ∨ bitOf w 28) then s
    else if !srcMaskOk n (w &&& 0x7FF) then (s.setF R.ICU_ERR 31 31 1).setF R.ICU_ERR 9 0 n
    else
      let lvl := if srcGpio n then bitOf w 27 else s.bit (R.ICU_SRC n) 27
      let v := (w &&& 0x97FF07FF) ||| (w &&& 0x00C00000) ||| (w &&& 0x003F0000)
      let s := s.wr (R.ICU_SRC n) (setFld v 27 27 (b2n lvl))
      (List.range 11).foldl (fun (s : State) t => if (s.target t).dlv = some n then s.withdrawAt t else s) s)

/-- SPRING_LATCH_EDGE: while clocks stop the Spring latch catches a class L edge (R372). -/
def execSpringLatchEdge (src : BitVec 10) (s : State) : Res := .next (s.latchEdge src.toNat)

/-- WFI (R111): it completes at once when an interrupt for the core is pending already, and else halts issue. -/
def execWfi (p : Proc) (s : State) : Res :=
  .next (s.issue p fun s =>
    match p with
    | .vent _ => s.faultFree p C_PRIV
    | p =>
      let t := coreNo p
      let c := s.core t
      match (s.target t).dlv with
      | some n => (s.setCore t { c with run := .wfi }).endWfi t n
      | none =>
        if t = 0 ∧ s.icuLevel 0 then (s.setCore 0 { c with run := .wfi }).endWfi 0 0
        else s.setCore t { c with run := .wfi })

/-! ### Registers as read -/
def State.icuBits (f : Nat → Bool) (k : Nat) : Word :=
  Word.ofNat ((List.range 32).foldl (fun a j => if f (32 * k + j) then a + 2 ^ j else a) 0)
/-- ICU_PENDk and ICU_ISVCk. -/
def State.icuPendWord (s : State) (k : Nat) : Word := State.icuBits (fun n => icuSrcExists n && s.srcPending n) k
def State.icuSvcWord (s : State) (k : Nat) : Word := State.icuBits s.inSvc k
/-- ICU_SRCn. -/
def State.icuSrcWord (s : State) (n : Nat) : Word :=
  if icuSrcExists n then
    setFld (setFld (s.rd (R.ICU_SRC n)) 30 30 (b2n (s.srcPending n))) 29 29 (b2n (s.inSvc n))
  else 0
/-- ICU_Tt_STACK. -/
def State.icuStackWord (s : State) (t : Nat) : Word :=
  match (s.target t).stack with
  | [] => 0
  | (n, p) :: l => Word.ofNat ((l.length + 1) * 65536 + p * 4096 + n)
/-- ICU_Tt_STAT. -/
def State.icuStatWord (s : State) (t : Nat) : Word :=
  let x := s.target t
  Word.ofNat (b2n x.frozen * 2 ^ 31 + b2n (s.awake t) * 2 ^ 30 + b2n x.dlv.isSome * 2 ^ 29
    + (s.runPrio t + 31) % 32 * 65536 + x.dlv.getD 0)

end Sys2Proof.Machine
end

