-- ==== Sys2Proof/Machine/HostCmd.lean ====
section
/-!
DEFINITION. How a host command is carried out: the oldest accepted request of a path is taken, its own checks are made
(R385 step 7), and its response waits to be delivered. Where the spec gives a command no payload layout, the layout is
this model's (assumption 8).
-/
namespace Sys2Proof.Machine
open Sys2Proof

/-- The status of the first check that fails, or OK. -/
def firstErr : List (Bool × Nat) → Nat
  | [] => OK
  | (b, st) :: t => if b then st else firstErr t

/-- Take the oldest request of a path. -/
def takeReq (net : Bool) : List Request → Option (Request × List Request)
  | [] => none
  | r :: t => if r.net = net then some (r, t) else (takeReq net t).map fun x => (x.1, r :: x.2)

/-- The host side with another value. -/
def State.setHost (s : State) (h : HostSide) : State := { s with host := h }

/-- A response waits to be delivered (R384); that of a request whose session has ended is discarded (R390). -/
def State.respond (s : State) (r : Request) (st : Nat) (pl : List Byte) : State :=
  if r.drop then s else s.setHost { s.host with resps := s.host.resps ++ [⟨r, st, pl, none⟩] }

/-! ### Sessions (R383, R390) -/

/-- The path of a session id: true for the network. -/
def sidNet (sid : Word) : Bool := fldOf sid 31 28 = 1
def sidSlot (sid : Word) : Nat := fldOf sid 27 24
def State.session? (s : State) (sid : Word) : Option Session := s.host.sessions.find? fun x => x.id = sid
/-- Change one session. -/
def State.updSession (s : State) (sid : Word) (f : Session → Session) : State :=
  s.mapSessions fun x => if x.id = sid then f x else x
/-- The rank of a role; FACTORY meets every requirement (R390). -/
def State.pathLevel (s : State) (net : Bool) : Nat :=
  ((s.host.sessions.filter fun x => x.isOpen && sidNet x.id == net).map (·.role)).foldl max 0
/-- The host access level: the highest role among the open host-port sessions (R377). -/
def State.hostLevel (s : State) : Nat := s.pathLevel false
/-- HST_STATE as read: the sessions open on each path, the access level and the show state. -/
def State.hstState (s : State) : Word :=
  let n (net : Bool) := (s.host.sessions.filter fun x => x.isOpen && sidNet x.id == net).length
  Word.ofNat (n true * 2 ^ 20 + n false * 2 ^ 16 + s.hostLevel * 256 + s.showState)

/-- The sessions that meet a condition end (R390): their held events are dropped, and the responses of their commands
are discarded. -/
def State.endSessions (s : State) (p : Session → Bool) : State :=
  let gone := (s.host.sessions.filter p).map (·.id)
  s.setHost { s.host with
    sessions := s.host.sessions.filter fun x => !p x,
    reqs := s.host.reqs.map fun r => if gone.contains r.sid then { r with drop := true } else r,
    resps := s.host.resps.filter fun x => !gone.contains x.req.sid }

/-- The command set of R393: code, lowest role, legal show states as a mask of the codes of R391. -/
def cmdTable : List (Nat × Nat × Nat) := [
  (0x0001, 0, 63), (0x0002, 0, 63), (0x0003, 1, 63), (0x0004, 1, 63), (0x0005, 1, 63),
  (0x0010, 3, 1), (0x0011, 2, 2), (0x0012, 2, 4), (0x0013, 2, 8), (0x0014, 2, 16), (0x0015, 2, 28), (0x0016, 3, 34),
  (0x0017, 3, 32),
  (0x0020, 3, 30), (0x0021, 3, 30), (0x0022, 3, 30), (0x0023, 2, 8), (0x0024, 3, 30), (0x0025, 2, 30),
  (0x0026, 2, 30), (0x0027, 2, 30), (0x0028, 3, 30), (0x0029, 3, 30), (0x002A, 3, 30),
  (0x0030, 3, 3), (0x0040, 4, 63), (0x0041, 4, 63), (0x0042, 4, 3), (0x0043, 1, 63), (0x0044, 4, 1),
  (0x0050, 4, 63), (0x0051, 4, 63), (0x0052, 4, 63), (0x0060, 3, 3), (0x0061, 1, 63),
  (0x0070, 3, 3), (0x0071, 3, 30), (0x0072, 3, 63), (0x0073, 1, 63), (0x0080, 3, 3), (0x0081, 3, 63), (0x0082, 4, 63)]

/-- A standby or syncing package refuses commands that edit the show (R482). -/
def State.standbyRefuses (s : State) (code : Nat) : Bool :=
  let r := s.fld R.PAIR_ROLE 2 0
  (r == 2 || r == 3) && 0x0010 ≤ code && code ≤ 0x002A && code != 0x0017

/-- The show and pair state admit a command (R385 step 6, R392): the firmware carries out one command at a time, so that
this holds as it runs. -/
def State.cmdOpen (s : State) (code : Nat) : Bool :=
  match cmdTable.find? fun e => e.1 = code with
  | none => true
  | some (_, _, states) => states.testBit s.showState && !s.standbyRefuses code

/-- HST_CMDERR and HST_CMDERR_SES record a refusal of step 6. -/
def State.cmdErr (s : State) (code : Nat) (sid : Word) : State :=
  (s.wr R.HST_CMDERR (Word.ofNat (2 ^ 31 + s.showState * 2 ^ 24 + E_STATE * 65536 + code))).wr R.HST_CMDERR_SES sid

/-- Take the oldest request of a path when its code and payload select this command, and carry it out; refused where the
show has since left the states that admit it. -/
def State.takeCmd (s : State) (net : Bool) (code : Nat) (sub : List Byte → Bool) (f : State → Request → State) : State :=
  match takeReq net s.host.reqs with
  | some (r, rest) =>
    if r.code = code ∧ sub r.payload then
      let t := { s with host := { s.host with reqs := rest } }
      if s.cmdOpen code then f t r else (t.cmdErr code r.sid).respond r E_STATE []
    else s
  | none => s

/-- A command that edits the show, accepted by the PRIMARY, goes to its partner as a firmware entry of the input log:
the code in the index field and the payload as data (R489, assumption 19). -/
def State.inlogCmd (s : State) (r : Request) (st : Nat) : State :=
  if st = OK ∧ 0x0010 ≤ r.code ∧ r.code ≤ 0x002A ∧ r.code ≠ 0x0017 ∧ s.pairEn ∧ s.pairRole = 1 then
    s.chnSend 7 s.partner r.frame ([3, 0] ++ leBytes 2 r.code ++ r.payload)
  else s

/-- Request r once its command has run from s to t: where its own session has ended on the way, its response is
discarded (R390). -/
def Request.afterRun (r : Request) (s t : State) : Request :=
  { r with drop := r.drop || ((s.session? r.sid).any (·.isOpen) && (t.session? r.sid).isNone) }

/-- Execute the oldest request of a path when its code and payload select this command: `f` answers the state, the
status and the response payload. -/
def State.hostCmd (s : State) (net : Bool) (code : Nat) (sub : List Byte → Bool)
    (f : State → Request → State × Nat × List Byte) : State :=
  s.takeCmd net code sub fun s r =>
    let x := f s r
    (x.1.inlogCmd r x.2.1).respond (r.afterRun s x.1) x.2.1 x.2.2

/-- A command that either is refused with no effect or takes effect with OK and an empty response. -/
def State.hostDo (s : State) (net : Bool) (code : Nat) (sub : List Byte → Bool) (chk : State → Request → Nat)
    (f : State → Request → State) : State :=
  s.hostCmd net code sub fun s r =>
    let st := chk s r
    (if st = OK then f s r else s, st, [])

/-- R200: frame A is too near. -/
def State.editLate (s : State) (a : Word) : Bool := sdiff a s.fnow < 2

def anyPayload (_ : List Byte) : Bool := true

/-- Every byte of [i, j) of a record is zero. -/
def zeroBytes (l : List Byte) (i j : Nat) : Bool := ((l.drop i).take (j - i)).all (· == 0)

end Sys2Proof.Machine
end

