-- ==== Sys2Proof/Machine/Sensors.lean ====
section
/-!
DEFINITION. SNS, the lamp-board temperature sensors (R275, R276).
-/
namespace Sys2Proof.Machine
open Sys2Proof

/-- This package reports sensor k (R32, R232): every package does outside a pair, and in a pair the bit of
PAIR_OWN_DMX.sns says which one. -/
def State.ownsSensor (s : State) (k : Nat) : Bool := !s.bit R.PAIR_CFG 31 || s.bit R.PAIR_OWN_DMX (16 + k)

/-- The mean code of 16 samples, each less the ADC offset in units of 1/16 code (R275, R433). -/
def meanCode (off : Nat) (l : List Nat) : Nat := (l.map fun x => min 4095 x * 16 - off).foldl (· + ·) 0 / (16 * l.length)

/-- The temperature of a code through the sensor's table, s8.8 (R275). -/
def State.snsTemp (s : State) (k code : Nat) : Int :=
  let e (i : Nat) : Int := sext 16 (s.fld (R.SNS_LIN k i) 15 0)
  let i := code / 128
  e i + ((e (i + 1) - e i) * (code % 128 : Nat) + 64) / 128

/-- A code is good, OPEN (1) or SHORT (2) (R276). -/
def State.snsClass (s : State) (k code : Nat) : Nat :=
  if s.fld (R.SNS_CFG k) 31 20 ≤ code then 1 else if code ≤ s.fld (R.SNS_CFG k) 19 8 then 2 else 0

/-- The run of good samples after more samples. -/
def State.goodRun (s : State) (k : Nat) : List Nat → Nat → Nat
  | [], n => n
  | x :: t, n => s.goodRun k t (if s.snsClass k x = 0 then n + 1 else 0)

/-- Sensor k publishes the mean of its samples (R275, R276): a faulted sensor reports fail_temp, its change of state is
recorded once, and it recovers after 16 consecutive good samples. -/
def State.publish (s : State) (k : Nat) (l : List Nat) : State :=
  let tr := R.SNS_TEMP k
  if !s.bit R.SNS_CTRL k then
    { s.wr tr 0x30000 with snsGood := mset (fun _ => 0) s.snsGood k 0 }
  else if l.isEmpty then s
  else
    let off := s.fld R.CAL_ADCOFF 15 0
    let code := meanCode off l
    let run := s.goodRun k (l.map fun x => (min 4095 x * 16 - off) / 16) (mget (fun _ => 0) s.snsGood k)
    let old := s.fld tr 17 16
    let c := s.snsClass k code
    let st := if c ≠ 0 then c else if (old = 1 ∨ old = 2) ∧ run < 16 then old else 0
    let t : Int := if st = 0 then s.snsTemp k code else sext 8 (s.fld (R.SNS_CFG k) 7 0) * 256
    let s := { s with snsGood := mset (fun _ => 0) s.snsGood k run }
    let s := (s.wr (R.SNS_RAW k) (Word.ofNat code)).wr tr
      (Word.ofNat (0x80000000 + st * 65536 + (Word.ofInt t).toNat % 65536))
    if st ≠ old ∧ st = 1 then s.log 0x0037 2 k else if st ≠ old ∧ st = 2 then s.log 0x0038 2 k else s

/-- SENSOR_PUBLISH: every 1 ms, the 16 raw samples of each sensor (R275). -/
def execSensorPublish (samples : List (List Nat)) (s : State) : Res :=
  .next (if !s.clocksRun then s else (List.range 8).foldl (fun (s : State) k => s.publish k (samples.getD k [])) s)

/-- SNS_LOCK_WRITE: a write of 1 locks (R434). -/
def execSnsLockWrite (w : Word) (s : State) : Res :=
  .next (if bitOf w 0 then s.setF R.SNS_LOCK 0 0 1 else s)

/-- The reading of sensor k, s8.8: this package's own, or the partner's (R232, R277). -/
def State.sensorT (s : State) (k : Nat) : Int :=
  if s.ownsSensor k then sext 16 (s.fld (R.SNS_TEMP k) 15 0) else sext 16 (mget (fun _ => 0) s.snsPair k)

end Sys2Proof.Machine
end

