-- ==== Sys2Proof/Machine/Tables.lean ====
section
/-!
DEFINITION. The show tables and the commands that edit them: personalities and curves (R204, R205), fixtures (R201 to
R211), cue steps (R206 to R208), canvases and layers (R212 to R218) and buffers (R219 to R222).
-/
namespace Sys2Proof.Machine
open Sys2Proof

/-! ### Edits for a named frame (R200) -/

/-- The record that frame f sees. -/
def TblSlot.at (t : TblSlot) (f : Word) : List Byte :=
  t.edits.foldl (fun r e => if 0 ≤ sdiff f e.1 then e.2 else r) t.cur
/-- The records that some frame from f on sees. -/
def TblSlot.from (t : TblSlot) (f : Word) : List (List Byte) :=
  t.at f :: (t.edits.filter fun e => decide (0 < sdiff e.1 f)).map (·.2)
/-- Frame start k: edits for frame k and earlier are in force. -/
def TblSlot.advance (t : TblSlot) (k : Word) : TblSlot :=
  { cur := t.at k, edits := t.edits.filter fun e => decide (0 < sdiff e.1 k) }
/-- Insert an edit for frame a in frame order, in place of an earlier one for the same frame. -/
def insEdit (a : Word) (r : List Byte) : List (Word × List Byte) → List (Word × List Byte)
  | [] => [(a, r)]
  | e :: t => if e.1 = a then (a, r) :: t else if sdiff a e.1 < 0 then (a, r) :: e :: t else e :: insEdit a r t
def TblSlot.edit (t : TblSlot) (a : Word) (r : List Byte) : TblSlot := { t with edits := insEdit a r t.edits }
/-- The frames from a on at which the record may change: a, and the frames of the edits after it. -/
def TblSlot.frames (t : TblSlot) (a : Word) : List Word := a :: (t.edits.map (·.1)).filter fun f => decide (0 < sdiff f a)

def slotOf (m : Map TblSlot) (i : Nat) : TblSlot := mget (fun _ => {}) m i
def setSlot (m : Map TblSlot) (i : Nat) (t : TblSlot) : Map TblSlot := mset (fun _ => {}) m i t
def editSlot (m : Map TblSlot) (i : Nat) (a : Word) (r : List Byte) : Map TblSlot := setSlot m i ((slotOf m i).edit a r)
def advMap (m : Map TblSlot) (k : Word) : Map TblSlot := m.map fun (e : Nat × TblSlot) => (e.1, e.2.advance k)

/-- Frame start k: every table moves to the records frame k sees. -/
def Tables.advance (t : Tables) (k : Word) : Tables :=
  ⟨advMap t.fix k, advMap t.cue k, advMap t.pers k, advMap t.curve k, advMap t.canvas k, advMap t.layer k, advMap t.univ k,
    advMap t.stream k⟩

/-! ### What the firmware writes later (R200) -/

/-- Insert a write behind those for its frame and earlier ones. -/
def insWrite (k : Word) (a : Nat) (l : List Byte) : List (Word × Nat × List Byte) → List (Word × Nat × List Byte)
  | [] => [(k, a, l)]
  | e :: t => if sdiff k e.1 < 0 then (k, a, l) :: e :: t else e :: insWrite k a l t

/-- A write to a table that outputs read, for the time when they have taken frame k − 1. -/
def State.writeAt (s : State) (k : Word) (a : Nat) (l : List Byte) : State :=
  { s with slotWrites := insWrite k a l s.slotWrites }
/-- A write to what the kernels read, for the time when frame k has committed. -/
def State.writeAfter (s : State) (k : Word) (a : Nat) (l : List Byte) : State :=
  { s with copyWrites := insWrite k a l s.copyWrites }

/-- The writes of a list that are due at frame k, in order. -/
def State.wrDue (s : State) (k : Word) (l : List (Word × Nat × List Byte)) : State :=
  (l.filter fun w => decide (0 ≤ sdiff k w.1)).foldl (fun (s : State) w => s.wrBytes w.2.1 w.2.2) s
def notDue (k : Word) (l : List (Word × Nat × List Byte)) : List (Word × Nat × List Byte) :=
  l.filter fun w => decide (sdiff k w.1 < 0)

/-- Device address of record i in copy c of the fixture (0), personality (1), canvas (2) or layer (3) table: the copies
lie one after the other, of 131,072 records of 256 bytes, 4,096 of 1,024, 8 of 64 and 16 of 128. The table is in DRAM. -/
def recAddr (kind c i : Nat) : Nat :=
  let size := [256, 1024, 64, 128].getD kind 0
  let copy := [131072, 4096, 8, 16].getD kind 0 * size
  Config.tableBase kind % (DRAM_BYTES - 2 * copy) + c * copy + i * size

/-- The firmware's writes of record i for an edit at frame a: copy a & 1 once frame a − 2 has committed, and the other
copy once frame a − 1 has, each with the record its frame sees (R200). -/
def State.copyRecord (s : State) (kind i : Nat) (r : Word → List Byte) (a : Word) : State :=
  let c := a.toNat % 2
  (s.writeAfter (a - 2) (recAddr kind c i) (r a)).writeAfter (a - 1) (recAddr kind (1 - c) i) (r (a + 1))

/-! ### Personalities and curves (R204, R205) -/

/-- Parameter descriptor i of a personality: a 16-bit field, the curve, the default. -/
def persF (p : List Byte) (i : Nat) : Nat := leAt p (64 + 8 * i) 2
def persCurve (p : List Byte) (i : Nat) : Nat := leAt p (66 + 8 * i) 2
def persKind (p : List Byte) (i : Nat) : Nat := persF p i / 4096 % 8
def persOrder (p : List Byte) (i : Nat) : Nat := persF p i / 2048 % 2
def persWidth (p : List Byte) (i : Nat) : Nat := persF p i / 512 % 4
def persOff (p : List Byte) (i : Nat) : Nat := persF p i % 512
def persFoot (p : List Byte) : Nat := leAt p 0 2
def persN (p : List Byte) : Nat := leAt p 2 1
/-- The slots of parameter i, from 0 within the footprint. -/
def persSlots (p : List Byte) (i : Nat) : List Nat := (List.range (persWidth p i)).map (· + persOff p i)

/-- The curve field is one of R205. -/
def curveField (c : Nat) : Bool := c ≤ 8 || (0x100 ≤ c && c ≤ 0xFFF)

/-- The E_ARG checks of R204 and R205. -/
def persBad (p : List Byte) : Bool :=
  let n := persN p
  let ps := List.range n
  p.length != 1024 || persFoot p == 0 || decide (512 < persFoot p) || n == 0 || decide (64 < n)
    || !zeroBytes p 3 64 || !zeroBytes p 576 1024
    || (ps.any fun i =>
      6 ≤ persKind p i || persWidth p i == 0 || decide (persFoot p < persOff p i + persWidth p i)
        || (1 ≤ persKind p i && persOrder p i == 1) || !curveField (persCurve p i)
        || !zeroBytes p (71 + 8 * i) (72 + 8 * i))
    || !((ps.flatMap (persSlots p)).Nodup)
    || decide (1 < (ps.filter fun i => persKind p i == 1).length)

/-- A personality names a user curve that frame a does not have. -/
def State.persCurveMissing (s : State) (p : List Byte) (a : Word) : Bool :=
  (List.range (persN p)).any fun i =>
    0x100 ≤ persCurve p i && ((slotOf s.tbl.curve (persCurve p i - 0x100)).at a).isEmpty

/-! ### Fixture records (R201) -/
def fixPers (f : List Byte) : Nat := leAt f 0 2
def fixGroup (f : List Byte) : Nat := leAt f 2 1 % 64
def fixEn (f : List Byte) : Bool := leAt f 3 1 % 2 = 1
def fixExempt (f : List Byte) : Bool := leAt f 3 1 / 2 % 2 = 1
def fixBuf (f : List Byte) : Nat := leAt f 4 2
def fixSlot (f : List Byte) : Nat := leAt f 6 2
def fixBlock (f : List Byte) : Nat := leAt f 8 4 * 2048
def fixGo (f : List Byte) : Word := Word.ofNat (leAt f 12 4)
def fixStep (f : List Byte) : Nat := leAt f 16 4 * 128
def fixFx (f : List Byte) : Nat := leAt f 20 4 * 128
/-- prog[i], and whether parameter i takes it. -/
def fixProg (f : List Byte) (i : Nat) : Option Nat :=
  if (leAt f 24 8).testBit i then some (leAt f (32 + 3 * i) 3) else none

/-- The personality of a fixture record for frame a. -/
def State.persAt (s : State) (p : Nat) (a : Word) : List Byte := (slotOf s.tbl.pers p).at a
/-- A fixture record with the eight bytes of a pending cue step. -/
def withCue (f c : List Byte) : List Byte := if f.isEmpty ∨ c.isEmpty then f else f.take 12 ++ c ++ f.drop 20
/-- The record of fixture i that frame a sees. -/
def State.fixAt (s : State) (i : Nat) (a : Word) : List Byte :=
  withCue ((slotOf s.tbl.fix i).at a) ((slotOf s.tbl.cue i).at a)
/-- The frames from a on at which the record of fixture i may change. -/
def State.fixFrames (s : State) (i : Nat) (a : Word) : List Word :=
  (slotOf s.tbl.fix i).frames a ++ ((slotOf s.tbl.cue i).frames a).drop 1
/-- The copies of fixture i after an edit at frame a: an edit for a later frame carries its unchanged fields on. -/
def State.copyFix (s : State) (i : Nat) (a : Word) : State :=
  (s.fixFrames i a).foldl (State.copyRecord · 0 i fun f => let r := s.fixAt i f; if r.isEmpty then List.replicate 256 0 else r) s

/-- Device address of byte b of universe buffer u (R210); the whole table is in DRAM. -/
def ubufAddr (u b : Nat) : Nat := Config.universeBase % (DRAM_BYTES - 65536 * 2048) + u * 2048 + b

/-- The slots of a footprint return to 0 and to map entry 0 from frame a on (R210): copy a & 1 once the outputs have
taken frame a − 1, the other copy one frame later, and the map when the outputs take frame a (R200). -/
def State.clearSlots (s : State) (a : Word) (u slot n : Nat) : State :=
  let z := List.replicate n (0 : Byte)
  let c := a.toNat % 2
  ((s.writeAt a (ubufAddr u (c * 512 + slot - 1)) z).writeAt (a + 1) (ubufAddr u ((1 - c) * 512 + slot - 1)) z).writeAt
    (a + 1) (ubufAddr u (1023 + slot)) z

/-- The slots of a footprint that a personality loaded at frame a no longer covers return to 0 (R210). -/
def State.shrinkFix (s : State) (p old new : Nat) (f : List Byte) (b : Word) : State :=
  if f.isEmpty ∨ fixPers f ≠ p ∨ old ≤ new then s else s.clearSlots b (fixBuf f) (fixSlot f + new) (old - new)
/-- The same for every fixture that names personality p in a frame from a on. -/
def State.shrinkAll (s : State) (p old new : Nat) (a : Word) : State :=
  s.tbl.fix.foldl (fun (s : State) e => (e.2.frames a).foldl (fun (s : State) b => s.shrinkFix p old new (e.2.at b) b) s) s

/-- PERS_LOAD: bytes 0–3 the index, 4–1,027 the record. -/
def execPersLoad (net : Bool) (s : State) : Res :=
  .next (s.hostDo net 0x0020 anyPayload
    (fun s r => firstErr [(r.payload.length != 1028 || decide (4095 < leAt r.payload 0 4), E_ARG),
      (persBad (r.payload.drop 4), E_ARG), (s.editLate r.frame, E_LATE),
      (s.persCurveMissing (r.payload.drop 4) r.frame, E_ABSENT)])
    fun s r =>
      let p := leAt r.payload 0 4
      let a := r.frame
      let s := s.shrinkAll p (persFoot (s.persAt p a)) (persFoot (r.payload.drop 4)) a
      let s : State := { s with tbl := { s.tbl with pers := editSlot s.tbl.pers p a (r.payload.drop 4) } }
      s.copyRecord 1 p (s.persAt p) a)

/-- A personality in force for frame a or later names user curve c. -/
def State.curveUsed (s : State) (c : Nat) (a : Word) : Bool :=
  s.tbl.pers.any fun e => (e.2.from a).any fun p =>
    (List.range (persN p)).any fun i => persCurve p i == 0x100 + c

/-- CURVE_LOAD: bytes 0–3 the user curve, 4–11 the device address of its table in the layout of R118; all ones
removes it. -/
def execCurveLoad (net : Bool) (s : State) : Res :=
  .next (s.hostDo net 0x0021 anyPayload
    (fun s r => firstErr [(r.payload.length != 12 || decide (0xEFF < leAt r.payload 0 4), E_ARG),
      (s.editLate r.frame, E_LATE), (s.curveUsed (leAt r.payload 0 4) r.frame, E_STATE)])
    fun s r =>
      let addr := r.payload.drop 4
      { s with tbl := { s.tbl with
          curve := editSlot s.tbl.curve (leAt r.payload 0 4) r.frame (if addr.all (· == 0xFF) then [] else addr) } })

/-! ### Fixtures (R201 to R203, R210, R211) -/
/-- Field ranges and reserved bits of R201. -/
def fixBad (f : List Byte) : Bool :=
  f.length != 256 || decide (4095 < fixPers f) || decide (63 < leAt f 2 1) || decide (3 < leAt f 3 1)
    || fixSlot f == 0 || decide (512 < fixSlot f)
    || decide (0x800000000 ≤ leAt f 8 4 * 2048) || decide (0x800000000 ≤ leAt f 16 4 * 128)
    || decide (0x800000000 ≤ leAt f 20 4 * 128)

/-- Two footprints share a slot of one universe buffer. -/
def footOverlap (b1 s1 n1 b2 s2 n2 : Nat) : Bool := b1 == b2 && decide (s1 < s2 + n2) && decide (s2 < s1 + n1)

/-- The footprint of a record in a frame. -/
def State.footAt (s : State) (f : List Byte) (a : Word) : Nat := persFoot (s.persAt (fixPers f) a)
/-- E_SPACE of R202: another fixture patched for frame a or later overlaps in some such frame, with the footprint its
personality has there. -/
def State.fixClash (s : State) (i : Nat) (f : List Byte) (foot : Nat) (a : Word) : Bool :=
  s.tbl.fix.any fun e => e.1 != i && (e.2.frames a).any fun b =>
    let g := e.2.at b
    !g.isEmpty && (((slotOf s.tbl.pers (fixPers g)).frames b).any fun c => e.2.at c == g
      && footOverlap (fixBuf f) (fixSlot f) foot (fixBuf g) (fixSlot g) (s.footAt g c))

/-- The checks of PATCH (R202, R203). -/
def State.patchCheck (s : State) (r : Request) : Nat :=
  let i := leAt r.payload 4 4
  let f := r.payload.drop 8
  let p := s.persAt (fixPers f) r.frame
  firstErr [(r.payload.length != 264 || !zeroBytes r.payload 1 4 || decide (131071 < i) || fixBad f, E_ARG),
    (s.editLate r.frame, E_LATE), (p.isEmpty, E_ABSENT), (decide (513 < fixSlot f + persFoot p), E_ARG),
    (s.fixClash i f (persFoot p) r.frame, E_SPACE)]

/-- The slot-map entry of slot k of a footprint (R211): the intensity parameter is governed if there is one, and
otherwise every parameter of kind 2 to 5, unless the fixture is exempt. -/
def mapEntry (f p : List Byte) (k : Nat) : Byte :=
  let ps := List.range (persN p)
  let gov := if fixExempt f then []
    else match ps.filter fun i => persKind p i == 1 with
      | [] => ps.filter fun i => 2 ≤ persKind p i
      | l => l
  match gov.find? fun i => persOff p i == k with
  | some i => BitVec.ofNat 8 (persWidth p i * 64 + fixGroup f)
  | none => 0
def mapBytes (f p : List Byte) : List Byte := (List.range (persFoot p)).map (mapEntry f p)

/-- A fixture's record turns from `old` into `new` at frame a: the slots and the map of the old footprint are cleared,
the map of the new one is built (R210, R211), and a state block that the old record did not name starts at zero before
the kernel of frame a reads it (R208). -/
def State.turnFix (s : State) (a : Word) (old new : List Byte) : State :=
  let s := if old.isEmpty then s else s.clearSlots a (fixBuf old) (fixSlot old) (s.footAt old a)
  if new.isEmpty then s
  else
    let s := s.writeAt (a + 1) (ubufAddr (fixBuf new) (1023 + fixSlot new)) (mapBytes new (s.persAt (fixPers new) a))
    if !old.isEmpty ∧ fixBlock old = fixBlock new then s else s.writeAfter (a - 1) (fixBlock new) (List.replicate 2048 0)

/-- The edit of fixture i at frame a, and the turn that the next edit already accepted makes after it. -/
def State.editFix (s : State) (i : Nat) (a : Word) (f : List Byte) : State :=
  let slot := slotOf s.tbl.fix i
  let s := s.turnFix a (slot.at a) f
  let s := match slot.edits.find? fun e => decide (0 < sdiff e.1 a) with
    | some e => s.turnFix e.1 f e.2
    | none => s
  let s : State := { s with tbl := { s.tbl with fix := editSlot s.tbl.fix i a f, cue := editSlot s.tbl.cue i a [] } }
  s.copyFix i a

/-- PATCH (R201 to R203): the record is in force from frame A on. -/
def execPatch (net : Bool) (s : State) : Res :=
  .next (s.hostDo net 0x0022 (fun p => leAt p 0 1 = 0) State.patchCheck fun s r =>
    s.editFix (leAt r.payload 4 4) r.frame (r.payload.drop 8))

/-- UNPATCH (R202, R203, R210). -/
def execUnpatch (net : Bool) (s : State) : Res :=
  .next (s.hostDo net 0x0022 (fun p => leAt p 0 1 != 0)
    (fun s r => firstErr [(leAt r.payload 0 1 != 1 || r.payload.length != 8 || !zeroBytes r.payload 1 4
        || decide (131071 < leAt r.payload 4 4), E_ARG),
      (s.editLate r.frame, E_LATE), (((slotOf s.tbl.fix (leAt r.payload 4 4)).at r.frame).isEmpty, E_ABSENT)])
    fun s r => s.editFix (leAt r.payload 4 4) r.frame [])

/-! ### Cue steps (R206 to R208) -/

/-- Entry i of a cue-step block has zero reserved bits. -/
def cueEntryOk (l : List Byte) (i : Nat) : Bool :=
  leAt l (16 * i + 3) 1 ≤ 1 && zeroBytes l (16 * i + 12) (16 * i + 16)

/-- CUE_STEP: bytes 0–3 the fixture, 4–7 the address ÷ 128 of its cue-step block, 8–1,031 the 64 entries of R206. The
block is written, and the fixture's record names it with go_frame = A from frame A on (R208). -/
def execCueStep (net : Bool) (s : State) : Res :=
  .next (s.hostDo net 0x0023 anyPayload
    (fun s r => firstErr [(r.payload.length != 1032 || decide (131071 < leAt r.payload 0 4)
        || leAt r.payload 4 4 == 0 || decide (0x800000000 ≤ leAt r.payload 4 4 * 128)
        || !((List.range 64).all (cueEntryOk (r.payload.drop 8))), E_ARG),
      (s.editLate r.frame, E_LATE), (((slotOf s.tbl.fix (leAt r.payload 0 4)).at r.frame).isEmpty, E_ABSENT)])
    fun s r =>
      let i := leAt r.payload 0 4
      let step := leAt r.payload 4 4
      let s := s.wrBytes (step * 128) (r.payload.drop 8)
      let s : State := { s with tbl := { s.tbl with
        cue := editSlot s.tbl.cue i r.frame (leBytes 4 r.frame.toNat ++ leBytes 4 step) } }
      s.copyFix i r.frame)

/-! ### Buffers (R219 to R222) -/
def State.buf (s : State) (b : Nat) : Buf := mget (fun _ => {}) s.bufs b
def State.setBuf (s : State) (b : Nat) (x : Buf) : State := { s with bufs := mset (fun _ => {}) s.bufs b x }

/-- The status of naming buffer b in an edit (R221). -/
def State.bufNamed (s : State) (b : Nat) : Nat :=
  match (s.buf b).st with
  | .free => E_ABSENT
  | .live => OK
  | .draining => E_STATE

/-! ### Canvases (R212, R213) -/
def canvasEn (c : List Byte) : Bool := leAt c 20 1 % 2 = 1
def canvasW (c : List Byte) : Nat := leAt c 4 2
def canvasH (c : List Byte) : Nat := leAt c 6 2
def ceilDiv (a b : Nat) : Nat := (a + b - 1) / b
def gridBytes (c : List Byte) : Nat := ceilDiv (canvasW c) (leAt c 18 1 + 1) * ceilDiv (canvasH c) (leAt c 19 1 + 1)
/-- The canvas buffer that frames of one parity use, and the grid's. -/
def canvasBuf (odd : Bool) (c : List Byte) : Nat := leAt c (if odd then 2 else 0) 2
def canvasGrid (c : List Byte) : Nat := leAt c 16 2
/-- Buffers a canvas names for frames of one parity (R220). -/
def canvasBufs (odd : Bool) (c : List Byte) : List Nat := if c.isEmpty then [] else [canvasBuf odd c, canvasGrid c]

def canvasBad (c : List Byte) : Bool :=
  c.length != 64 || decide (4095 < leAt c 0 2) || decide (4095 < leAt c 2 2) || decide (4095 < leAt c 16 2)
    || canvasW c == 0 || decide (16384 < canvasW c) || canvasH c == 0 || decide (16384 < canvasH c)
    || decide (1 < leAt c 20 1) || !zeroBytes c 21 64

/-- The pixel limit of R213 at a rate. -/
def pixelLimit (n d : Nat) : Nat :=
  if d * 1000000 ≤ 60 * n then 16777216 else if d * 1000000 ≤ 120 * n then 8388608 else 4194304

/-- Pixels of the enabled canvases of frame f. -/
def Tables.pixels (t : Tables) (f : Word) : Nat :=
  (t.canvas.map fun e => let c := e.2.at f; if canvasEn c then canvasW c * canvasH c else 0).foldl (· + ·) 0

/-- The frames at which the canvas table changes, from frame a on. -/
def Tables.canvasFrames (t : Tables) (a : Word) : List Word :=
  a :: (t.canvas.flatMap fun e => (e.2.edits.map (·.1)).filter fun f => decide (0 < sdiff f a))

/-- The pixel limit of a rate holds for every frame from a on. -/
def Tables.pixelsOk (t : Tables) (a : Word) (n d : Nat) : Bool :=
  (t.canvasFrames a).all fun f => decide (t.pixels f ≤ pixelLimit n d)
/-- The pixel limit holds for every frame from a on, at the rate each has, changes accepted included. -/
def State.pixelsFit (s : State) (t : Tables) (a : Word) : Bool :=
  (t.canvasFrames a ++ s.rateFrames a).all fun f => decide (t.pixels f ≤ pixelLimit (s.rateAt f).1 (s.rateAt f).2)

/-- Entry of a canvas in the scan record of frames of one parity (R234). -/
def State.scanRecord (s : State) (odd : Bool) (c : List Byte) : List Byte :=
  leBytes 8 (s.buf (canvasBuf odd c)).base ++ leBytes 8 (s.buf (canvasGrid c)).base ++ (c.drop 4).take 4
    ++ (c.drop 18).take 3 ++ List.replicate 9 0
/-- The scan records of the heads, by the bases software has written last. -/
def State.scanBases (s : State) : List Nat :=
  ((List.range 8).map fun h => s.fld (R.SCN_FREC_HI h) 7 0 * 2 ^ 32 + s.fld (R.SCN_FREC_LO h) 31 9 * 512).eraseDups
/-- Canvas i after an edit at frame a: the copies of its record, and its entry in copy F & 1 of the scan record for a and
the frame after it, once the outputs have taken the frame before (R200, R234). -/
def State.copyCanvas (s : State) (i : Nat) (a : Word) : State :=
  let slot := slotOf s.tbl.canvas i
  let s := s.copyRecord 2 i slot.at a
  [a, a + 1].foldl (fun (s : State) f =>
    let odd := decide (f.toNat % 2 = 1)
    s.scanBases.foldl (fun (s : State) b => s.writeAt f (b + b2n odd * 256 + i * 32) (s.scanRecord odd (slot.at f))) s) s

/-- First status other than OK. -/
def firstStatus (l : List Nat) : Nat := (l.find? (· ≠ OK)).getD OK

/-- CANVAS_SET: bytes 0–3 the canvas, 4–67 the descriptor. -/
def execCanvasSet (net : Bool) (s : State) : Res :=
  .next (s.hostDo net 0x0024 anyPayload
    (fun s r =>
      let i := leAt r.payload 0 4
      let c := r.payload.drop 4
      let t := { s.tbl with canvas := editSlot s.tbl.canvas i r.frame c }
      firstErr [(decide (7 < i) || canvasBad c, E_ARG), (s.editLate r.frame, E_LATE),
        (true, firstStatus [s.bufNamed (leAt c 0 2), s.bufNamed (leAt c 2 2), s.bufNamed (leAt c 16 2),
          firstErr [(decide ((s.buf (leAt c 0 2)).size < canvasW c * canvasH c * 8)
            || decide ((s.buf (leAt c 2 2)).size < canvasW c * canvasH c * 8)
            || decide ((s.buf (leAt c 16 2)).size < gridBytes c)
            || !s.pixelsFit t r.frame, E_SPACE)]])])
    fun s r =>
      let i := leAt r.payload 0 4
      let s : State := { s with tbl := { s.tbl with canvas := editSlot s.tbl.canvas i r.frame (r.payload.drop 4) } }
      s.copyCanvas i r.frame)

/-! ### Layers (R215, R216) -/
def layerKind (l : List Byte) : Nat := leAt l 0 1
def layerMesh (l : List Byte) : Bool := leAt l 3 1 / 2 % 2 = 1
def layerSrc (l : List Byte) : Nat := leAt l 8 2
/-- Bytes per texel of R216. -/
def texelBytes (f : Nat) : Nat := [8, 4, 4, 6].getD f 0
/-- The source buffers a layer samples in frames of one parity. -/
def layerSrcs (odd : Bool) (l : List Byte) : List Nat :=
  if layerKind l = 1 then [layerSrc l]
  else if layerKind l = 3 then [layerSrc l + b2n odd] else []
/-- The buffers a layer names for frames of one parity: the sources it samples, and its mesh (R220). -/
def layerBufs (odd : Bool) (l : List Byte) : List Nat :=
  layerSrcs odd l ++ (if layerMesh l then [leAt l 60 2] else [])

def layerBad (l : List Byte) : Bool :=
  let k := layerKind l
  let f := leAt l 4 1
  l.length != 128 || decide (3 < k) || decide (7 < leAt l 1 1) || decide (7 < leAt l 2 1) || decide (3 < leAt l 3 1)
    || decide (3 < f) || (k == 2 && decide (f < 2)) || ((k == 1 || k == 3) && decide (2 ≤ f))
    || (leAt l 5 1 != 0xFF && decide (7 < leAt l 5 1)) || decide (15 < leAt l 6 1) || decide (1 < leAt l 7 1)
    || (k == 2 && decide (15 < layerSrc l)) || (k == 1 && decide (4095 < layerSrc l))
    || (k == 3 && decide (4094 < layerSrc l)) || (k == 2 && decide (255 < leAt l 14 2))
    || (layerMesh l && (decide (4095 < leAt l 60 2) || decide (leAt l 64 2 < 2) || decide (129 < leAt l 64 2)
        || decide (leAt l 66 2 < 2) || decide (129 < leAt l 66 2)))
    || !zeroBytes l 62 64 || !zeroBytes l 88 128

/-- Whether every buffer a layer names is large enough (R213). -/
def State.layerFits (s : State) (l : List Byte) : Bool :=
  let tx := texelBytes (leAt l 4 1)
  let sw := leAt l 10 2
  let sh := leAt l 12 2
  ((layerSrcs false l ++ layerSrcs true l).all fun b =>
      decide ((sh - 1) * (s.buf b).pitch + sw * tx ≤ (s.buf b).size) || sh == 0)
    && (!layerMesh l || decide (leAt l 64 2 * leAt l 66 2 * 8 ≤ (s.buf (leAt l 60 2)).size))

/-- A flow fits the table of R223. -/
def State.vfOk (s : State) (v : Nat) : Bool :=
  let w := s.fld (R.MAC_VF_CFG v) 26 14
  let h := s.fld (R.MAC_VF_CFG v) 11 0
  1 ≤ w && w ≤ 4096 && 1 ≤ h && h ≤ 2160

/-- A layer of kind 2 names a flow that is declared, by MAC_VFv_CFG.en as written, outside the table of R223. -/
def State.flowBad (s : State) (l : List Byte) : Bool :=
  layerKind l == 2 && s.bit (R.MAC_VF_CFG (layerSrc l)) 31 && !s.vfOk (layerSrc l)

/-- LAYER_SET: bytes 0–3 the layer, 4–131 the descriptor. -/
def execLayerSet (net : Bool) (s : State) : Res :=
  .next (s.hostDo net 0x0025 anyPayload
    (fun s r =>
      let l := r.payload.drop 4
      firstErr [(decide (15 < leAt r.payload 0 4) || layerBad l || s.flowBad l, E_ARG), (s.editLate r.frame, E_LATE),
        (true, firstStatus (((layerBufs false l ++ layerBufs true l).map s.bufNamed)
          ++ [firstErr [(!s.layerFits l, E_SPACE)]]))])
    fun s r =>
      let i := leAt r.payload 0 4
      let s : State := { s with tbl := { s.tbl with layer := editSlot s.tbl.layer i r.frame (r.payload.drop 4) } }
      s.copyRecord 3 i (slotOf s.tbl.layer i).at r.frame)

/-! ### Buffer references (R220, R221) -/

/-- Buffers that frame f references. -/
def Tables.frameBufs (t : Tables) (f : Word) : List Nat :=
  let odd := decide (f.toNat % 2 = 1)
  (t.canvas.flatMap fun e => canvasBufs odd (e.2.at f)) ++ (t.layer.flatMap fun e => layerBufs odd (e.2.at f))

/-- The frames after f that can see a record first or second: f + 1, f + 2, and the first two frames of every edit. -/
def Tables.sampleFrames (t : Tables) (f : Word) : List Word :=
  (f + 1) :: (f + 2) :: ((t.canvas ++ t.layer).flatMap fun e => e.2.edits.flatMap fun x => [x.1, x.1 + 1])

/-- A frame later than f references buffer b, through the tables and the edits accepted. -/
def Tables.usedAfter (t : Tables) (f : Word) (b : Nat) : Bool :=
  (t.sampleFrames f).any fun g => (t.frameBufs g).contains b

/-- Frame start k: the buffers frame k references remember it. -/
def State.noteRefs (s : State) (k : Word) : State :=
  (s.tbl.frameBufs k).foldl (fun (s : State) b => s.setBuf b { s.buf b with last := some k }) s

/-- BUF_ALLOC: bytes 0–3 the id, 4–11 the DRAM base, 12–15 the size, 16–19 the pitch (R219). -/
def execBufAlloc (net : Bool) (s : State) : Res :=
  .next (s.hostDo net 0x0026 anyPayload
    (fun s r =>
      let b := leAt r.payload 0 4
      firstErr [(r.payload.length != 20 || decide (4095 < b) || leAt r.payload 12 4 == 0
          || decide (0x800000000 < leAt r.payload 4 8 + leAt r.payload 12 4), E_ARG),
        ((s.buf b).st != .free, E_STATE)])
    fun s r => s.setBuf (leAt r.payload 0 4)
      { st := .live, base := leAt r.payload 4 8, size := leAt r.payload 12 4, pitch := leAt r.payload 16 4 })

/-- Frame l has retired: frame start l + 2 has come (R220). -/
def State.retired (s : State) (l : Word) : Bool := decide (2 ≤ sdiff s.fnow l)

/-- BUF_FREE: bytes 0–3 the id (R221). -/
def execBufFree (net : Bool) (s : State) : Res :=
  .next (s.hostDo net 0x0027 anyPayload
    (fun s r =>
      let b := leAt r.payload 0 4
      firstErr [(r.payload.length != 4 || decide (4095 < b), E_ARG), ((s.buf b).st == .free, E_ABSENT),
        ((s.buf b).st == .live && s.tbl.usedAfter s.fnow b, E_STATE)])
    fun s r =>
      let b := leAt r.payload 0 4
      let x := s.buf b
      if x.st = .draining then s
      else if x.last.all s.retired then (s.setBuf b {}).hostEventTo r.sid 0x8001 (Word.ofNat b)
      else s.setBuf b { x with st := .draining, sid := r.sid })

/-- BUF_FREED: frame start L + 2 has come for a DRAINING buffer (R221). -/
def execBufFreed (b : BitVec 12) (s : State) : Res :=
  let x := s.buf b.toNat
  .next (if x.st = .draining ∧ x.last.all s.retired then
      (s.setBuf b.toNat {}).hostEventTo x.sid 0x8001 (Word.ofNat b.toNat)
    else s)

/-- Frame start k: the tables drop what no frame from k, or the first one not yet committed, sees; buffers remember frame
k; and the tables that outputs read take the writes due, those for the frame after the one taken (R67, R200). -/
def State.tablesAt (s : State) (k : Word) : State :=
  let base := if 0 ≤ sdiff s.committed (k - 1) then k else s.committed + 1
  let s := { s with tbl := s.tbl.advance base }.noteRefs k
  match s.relTaken with
  | some x => { s with slotWrites := notDue (x + 1) s.slotWrites }.wrDue (x + 1) s.slotWrites
  | none => s

/-- Frame k has committed: the tables that the kernels read take the writes due (R200). -/
def State.copiesAt (s : State) (k : Word) : State :=
  { s with copyWrites := notDue k s.copyWrites }.wrDue k s.copyWrites

end Sys2Proof.Machine
end

