-- ==== Sys2Proof/Machine/Lgv.lean ====
section
/-!
DEFINITION. LGV, the light governor (R226 to R232), and GOV_SET.
-/
namespace Sys2Proof.Machine
open Sys2Proof

/-! ### Commits (R231) -/

/-- LGV's shadowed registers, with LGV_APPLY.at_frame. -/
def lgvRanges : List (Nat × Nat) := [(R.LGV_CTRL, R.LGV_APPLY + 4), (R.LGV_FCAP 0, R.LGV_GCAP 64)]

/-- A commit of some of LGV's registers: taken for at_frame, or refused when that frame has committed (R231). -/
def State.lgvCommit (s : State) (rs : List (Nat × Nat)) : State :=
  s.commitNow R.LGV_COMMIT rs fun s => if sdiff (s.rd R.LGV_APPLY) s.committed ≤ 0 then E_LATE else OK
/-- LGV_COMMIT. -/
def execLgvCommit (s : State) : Res := .next (s.lgvCommit lgvRanges)

/-- A commit is applied; an enable starts every scale at 1.0 (R231). -/
def State.lgvTurn (s : State) (x : Commit) : State :=
  let was := s.aBit R.LGV_CTRL 0
  let s := s.applyCommit x
  if s.aBit R.LGV_CTRL 0 ∧ !was then
    [0, 1, 2, 3].foldl (fun (s : State) f => s.wr (R.LGV_FSCALE f) 0x10000) { s with lgvPrev := [] }
  else s
/-- Every commit whose frame has come is applied at the computation for f (R231). -/
def State.lgvApply (s : State) (f : Word) : State :=
  ((s.waiting R.LGV_COMMIT).filter fun x => decide (0 ≤ sdiff f (x.rd R.LGV_APPLY))).foldl State.lgvTurn s

/-! ### The governor (R227 to R229) -/

abbrev ONE16 : Nat := 0x10000

/-- The procedure of R228: the scale, and whether the hard limit was used. -/
def govScale (cap knee rise fall idle d prev : Nat) : Nat × Bool :=
  if cap = 0 then (ONE16, false)
  else
    let p := idle + d
    let k := cap * knee / 256
    let th : Nat × Nat :=
      if d = 0 then (ONE16, if idle < cap then ONE16 else 0)
      else if cap ≤ idle then (0, 0)
      else
        let h := min ONE16 ((cap - idle) * 65536 / d)
        if p ≤ k then (ONE16, h)
        else
          let x := p - k
          let r := cap - k
          let pout := k + x * r / (x + r)
          (if idle < pout then min ONE16 ((pout - idle) * 65536 / d) else 0, h)
    let sc := max th.1 (prev - fall)
    let sc := min (min sc (prev + rise)) ONE16
    if th.2 < sc then (th.2, true) else (sc, false)

abbrev M_LGV : Nat := 0x4E
/-- Where the drive sums of frame f lie (R226). -/
def State.lgvSums (s : State) (f : Word) : Nat :=
  s.aFld R.LGV_SUMBASE_HI 7 0 * 2 ^ 32 + s.aFld R.LGV_SUMBASE_LO 31 12 * 4096 + f.toNat % 2 * 0x800
/-- The drive sum S[g][j] of frame f (R226). -/
def State.driveSum (s : State) (f : Word) (g j : Nat) : Nat := s.hRdLe (s.lgvSums f + g * 32 + j * 8) 8

/-- Group g takes its factor from the partner (R232). -/
def State.tfFromPartner (s : State) (g : Nat) : Bool :=
  s.aBit R.LGV_CTRL 1 && !s.ownsSensor (s.fld (R.NRG_ZCFG g) 26 24)
/-- The temperature factors in force at frame start f. -/
def State.tfAt (s : State) (f : Word) : Map Nat := ((s.tfFrames.find? fun e => e.1 = f).map (·.2)).getD []
/-- The temperature factor of group g for frame f (R227, R232). -/
def State.tfOf (s : State) (f : Word) (g : Nat) : Nat :=
  mget (fun _ => ONE16) (if s.tfFromPartner g then s.tfPair else s.tfAt f) g

/-- D of group g, mW (R227). -/
def State.driveMw (s : State) (f : Word) (g : Nat) : Nat :=
  let d := ([0, 1, 2, 3].map fun j => (s.aRd (R.LGV_GCOEF g j)).toNat * s.driveSum f g j).foldl (· + ·) 0
  d / 0xFFFFF * s.tfOf f g / 65536 / 1000

/-- What LGV computes for one group: D, P, the group scale and whether it is hard-limited. -/
structure GroupOut where
  d : Nat
  idle : Nat
  sc : Nat
  hard : Bool
  tf : Nat
  deriving DecidableEq, Repr

def State.groupOut (s : State) (f : Word) (g : Nat) : GroupOut :=
  let d := s.driveMw f g
  let idle := (s.aRd (R.LGV_GIDLE g)).toNat
  let r := govScale (s.aRd (R.LGV_GCAP g)).toNat (s.aFld (R.LGV_GCFG g) 7 0) (s.aFld (R.LGV_GRATE g) 15 0)
    (s.aFld (R.LGV_GRATE g) 31 16) idle d (mget (fun _ => ONE16) s.lgvPrev g)
  ⟨d, idle, r.1, r.2, s.tfOf f g⟩

/-- s_f of feed k over the groups' results (R229). -/
def State.feedOut (s : State) (outs : List (Nat × GroupOut)) (k : Nat) : Nat × Bool :=
  let mine := outs.filter fun o => s.aFld (R.LGV_GCFG o.1) 9 8 = k
  govScale (s.aRd (R.LGV_FCAP k)).toNat (s.aFld (R.LGV_FCFG k) 7 0) (s.aFld (R.LGV_FRATE k) 15 0)
    (s.aFld (R.LGV_FRATE k) 31 16) ((mine.map (·.2.idle)).foldl (· + ·) 0)
    ((mine.map fun o => o.2.d * o.2.sc / 65536).foldl (· + ·) 0) (s.fld (R.LGV_FSCALE k) 16 0)

/-- Record each hard limit used (R228). -/
def State.logHard (s : State) (f : Word) : List Nat → State
  | [] => s
  | i :: t => (s.log 0x0034 0 f.toNat i).logHard f t

/-- Set map entries. -/
def setAll (d : Nat) (m : Map Nat) (l : List (Nat × Nat)) : Map Nat :=
  l.foldl (fun m e => mset (fun _ => d) m e.1 e.2) m

/-- The record of the group and feed scales that a snapshot of frame f carries (R490, assumption 19): 64 group scales
before the feed scale, 4 feed scales, zeros. -/
def State.lgvRecord (s : State) : List Byte :=
  ((List.range 64).flatMap fun g => leBytes 4 (mget (fun _ => ONE16) s.lgvPrev g))
    ++ ([0, 1, 2, 3].flatMap fun k => leBytes 4 (s.fld (R.LGV_FSCALE k) 16 0)) ++ List.replicate 752 0
def State.snapScales (s : State) (f : Word) : State :=
  if s.pair.snap = some f then s.setPairEng { s.pair with snapLgv := s.lgvRecord } else s

/-- The computation for frame f (R227 to R229). -/
def State.lgvCompute (s : State) (f : Word) : State :=
  let s := s.lgvApply f
  let s := s.hubNote hubReach 0 M_LGV 0 [(s.lgvSums f, 0x800)]
  let en := s.aBit R.LGV_CTRL 0
  let gs := List.range 64
  let stale := (gs.any s.tfFromPartner) && s.tfPairAt != some f
  let outs := gs.map fun g => (g, s.groupOut f g)
  let feeds := [0, 1, 2, 3].map fun k => (k, s.feedOut outs k)
  let sf (k : Nat) : Nat := ((feeds.find? fun e => e.1 = k).map (·.2.1)).getD ONE16
  let hard := if en then (outs.filter (·.2.hard)).map (·.1) ++ (feeds.filter (·.2.2)).map (64 + ·.1) else []
  let s := outs.foldl (fun (s : State) (o : Nat × GroupOut) =>
      let fin := if en then o.2.sc * sf (s.aFld (R.LGV_GCFG o.1) 9 8) / 65536 else ONE16
      ((s.wr (R.LGV_GPRED o.1) (Word.ofNat (o.2.idle + o.2.d))).wr (R.LGV_GSCALE o.1)
        (Word.ofNat (fin + b2n (en && o.2.hard) * 2 ^ 31))).wr (R.LGV_GTF o.1) (Word.ofNat o.2.tf)) s
  let s := feeds.foldl (fun (s : State) e => s.wr (R.LGV_FSCALE e.1) (Word.ofNat (if en then e.2.1 else ONE16))) s
  let s := { s with lgvPrev := if en then setAll ONE16 [] (outs.map fun (o : Nat × GroupOut) => (o.1, o.2.sc)) else [],
                    lgvD := setAll 0 [] (outs.map fun (o : Nat × GroupOut) => (o.1, o.2.d)) }
  let s := (s.wr R.LGV_FRAME f).snapScales f
  let s := if hard.isEmpty then s else ((s.setF R.LGV_STATUS 1 1 1).bump R.LGV_HARDCNT 31 0).logHard f hard
  if stale then (s.setF R.LGV_STATUS 0 0 1).log 0x0035 1 f.toNat else s

/-- Frame start k: the factors in force (R421), kept while a computation or a digest of the frame may come, and the
scales of the frame the outputs take (R230). -/
def State.lgvAt (s : State) (k : Word) (take : Bool) : State :=
  let gs := List.range 64
  let old := s.tfFrames.filter fun e => e.1 != k && decide (-2 ≤ sdiff e.1 s.committed)
  let s := { s with tfFrames := (k, setAll ONE16 [] (gs.map fun g => (g, s.fld (R.NRG_ZTF g) 23 0))) :: old }
  if take then { s with outScale := setAll ONE16 [] (gs.map fun g => (g, s.fld (R.LGV_GSCALE g) 16 0)) } else s

/-- The final scale of a group in the frame on the outputs. -/
def State.scaleOf (s : State) (g : Nat) : Nat := mget (fun _ => ONE16) s.outScale g

/-! ### GOV_SET -/

/-- The registers GOV_SET writes: a group 0–63, 0x100 + a feed, or 0x200 for LGV_CTRL. -/
def govRegs (t : Nat) : List Nat :=
  if t < 64 then (List.range 8).map (R.LGV_GCAP t + 4 * ·)
  else if 0x100 ≤ t ∧ t < 0x104 then (List.range 3).map (R.LGV_FCAP (t - 0x100) + 4 * ·)
  else if t = 0x200 then [R.LGV_CTRL] else []

/-- Write a list of register shadows through their access masks. -/
def State.wrShadows (s : State) : List Nat → List Word → State
  | a :: t, w :: l =>
    let v := match regDesc a with
      | some d => d.written false (s.rd a) w
      | none => s.rd a
    (s.wr a v).wrShadows t l
  | _, _ => s

/-- GOV_SET: bytes 0–3 what is set, then its registers in order. The firmware writes the shadows and commits those
registers, and no others, for frame A (R200, R231). -/
def execGovSet (net : Bool) (s : State) : Res :=
  .next (s.hostDo net 0x0028 anyPayload
    (fun s r => firstErr [((govRegs (leAt r.payload 0 4)).isEmpty
        || r.payload.length != 4 + 4 * (govRegs (leAt r.payload 0 4)).length, E_ARG),
      (s.editLate r.frame, E_LATE)])
    fun s r =>
      let as := govRegs (leAt r.payload 0 4)
      ((s.wrShadows as (wordsOf (r.payload.drop 4))).wr R.LGV_APPLY r.frame).lgvCommit
        ((R.LGV_APPLY, R.LGV_APPLY + 4) :: as.map fun a => (a, a + 4)))

end Sys2Proof.Machine
end

