-- ==== Sys2Proof/Machine/Energy.lean ====
section
/-!
DEFINITION. NRG: the pulse inputs (R416, R417), the zones (R420, R421), the mains (R422), latching (R423 to R425), and
NRG_READ.
-/
namespace Sys2Proof.Machine
open Sys2Proof

def State.setNrg (s : State) (x : Nrg) : State := { s with nrg := x }
/-- Add to an account of 48 bits with its wrap counter (R418). -/
def addAcct (m : Map Nat) (k n : Nat) : Map Nat := mset (fun _ => 0) m k ((mget (fun _ => 0) m k + n) % 2 ^ 56)
def addCnt (m : Map Nat) (k : Nat) : Map Nat := mset (fun _ => 0) m k ((mget (fun _ => 0) m k + 1) % 2 ^ 32)
def acct (m : Map Nat) (k : Nat) : Nat := mget (fun _ => 0) m k

/-- The two words of an account. -/
def State.wrAcct (s : State) (lo hi v : Nat) : State := (s.wr lo (Word.ofNat v)).wr hi (Word.ofNat (v / 2 ^ 32))

/-- Every account and counter to the latched registers (R423). -/
def State.latchAccts (s : State) : State :=
  let x := s.nrg
  let s := (List.range 8).foldl (fun (s : State) i =>
    (((s.wrAcct (R.NRG_PLS_LIMP_LO i) (R.NRG_PLS_LIMP_HI i) (acct x.imp i)).wrAcct (R.NRG_PLS_LEXP_LO i)
      (R.NRG_PLS_LEXP_HI i) (acct x.exp i)).wr (R.NRG_PLS_LCNTI i) (Word.ofNat (acct x.cntI i))).wr
      (R.NRG_PLS_LCNTE i) (Word.ofNat (acct x.cntE i))) s
  (List.range 64).foldl (fun (s : State) g =>
    s.wrAcct (R.NRG_ZLACC_LO g) (R.NRG_ZLACC_HI g) (acct x.zone g)) s

/-- A pulse or a microsecond step in the cycle of a latch is in the latched values (R424). -/
def State.relatch (s : State) : State := if s.nrg.latchAt = some s.now then s.latchAccts else s

/-- The weight of input i for a pulse that qualifies now: one written in this cycle is not yet in use (R424). -/
def State.weightNow (s : State) (i : Nat) : Nat :=
  match mget (fun _ => none) s.nrg.wtWas i with
  | some (t, w) => if t = s.now then w.toNat else (s.rd (R.NRG_PLS_WT i)).toNat
  | none => (s.rd (R.NRG_PLS_WT i)).toNat
/-- A write of weight_mj, with the weight it replaces noted. -/
def State.noteWeight (s : State) (i : Nat) (old : Word) : State :=
  if (mget (fun _ => none) s.nrg.wtWas i).any (·.1 == s.now) then s
  else s.setNrg { s.nrg with wtWas := mset (fun _ => none) s.nrg.wtWas i (some (s.now, old)) }

/-- PULSE_QUALIFY: a pulse on PLSn, with the level of PLSDn at that instant (R416, R417). -/
def execPulseQualify (n : BitVec 3) (dirHigh : Bool) (s : State) : Res :=
  let i := n.toNat
  let c := s.rd (R.NRG_PLS_CFG i)
  let w := s.weightNow i
  let x := s.nrg
  .next (if !s.clocksRun ∨ !s.bit R.NRG_CTRL 0 ∨ !bitOf c 31 then s
    else if bitOf c 29 && dirHigh == bitOf c 28 then
      (s.setNrg { x with exp := addAcct x.exp i w, cntE := addCnt x.cntE i }).relatch
    else (s.setNrg { x with imp := addAcct x.imp i w, cntI := addCnt x.cntI i }).relatch)

/-- One zone's microsecond: P_g nJ to the remainder, whole millijoules to the account. -/
def State.zoneStep (s : State) (g : Nat) : State :=
  if s.bit (R.NRG_ZCFG g) 31 then
    let r := mget (fun _ => 0) s.nrg.rem g + (s.rd (R.NRG_ZPWR g)).toNat
    s.setNrg { s.nrg with
      rem := mset (fun _ => 0) s.nrg.rem g (r % 1000000), zone := addAcct s.nrg.zone g (r / 1000000) }
  else s
/-- ZONE_INTEGRATE (R420). -/
def execZoneIntegrate (s : State) : Res :=
  .next (if !s.clocksRun ∨ !s.bit R.NRG_CTRL 3 then s
    else ((List.range 64).foldl (fun (s : State) g => s.zoneStep g) s).relatch)

/-- The factor of R421 at a temperature in s8.8, from a table's reader. -/
def zoneFactor (e : Nat → Nat) (tBase : Int) (step : Nat) (t : Int) : Nat :=
  let u : Int := (max 1 step : Nat) * 256
  let p := t - tBase * 256
  if p ≤ 0 then e 0
  else
    let i := (p / u).toNat
    if 31 ≤ i then e 31
    else ((e i : Int) + (((e (i + 1) : Int) - e i) * (p - i * u)).tdiv u).toNat

/-- ZONE_TF_UPDATE: every 1 ms, after the sensors publish. -/
def execZoneTfUpdate (s : State) : Res :=
  .next (if !s.clocksRun then s else (List.range 64).foldl (fun (s : State) g =>
    let c := R.NRG_ZCFG g
    let tf := if s.bit c 30 then
        zoneFactor (fun i => s.fld (R.NRG_TF g i) 23 0) (sext 8 (s.fld c 23 16)) (s.fld c 11 8)
          (sext 16 (s.fld (R.SNS_TEMP (s.fld c 26 24)) 15 0))
      else ONE16
    s.wr (R.NRG_ZTF g) (Word.ofNat tf)) s)

/-! ### Mains cycles (R422) -/

/-- Three times T_nom, ns. -/
def State.mains3 (s : State) : Nat := if s.bit R.NRG_CTRL 1 then 50000000 else 60000000
/-- Nanoseconds since a tick. -/
def State.since (s : State) (t : Nat) : Nat := (s.now - t) * 5 / 2
def State.syncLost (s : State) : Bool := s.bit R.NRG_STAT 0

/-- A cycle is counted; the n-th since the last latch makes a latch due. DESIGN CHOICE (assumption 66): cycles are
counted with NRG_CTRL.en = 0 too, and no latch falls due then. -/
def State.countCycle (s : State) (synthetic : Bool) : State :=
  let x := s.nrg
  let n := x.cyc + 1
  s.setNrg { x with
    cyc := n, synth := x.synth + b2n synthetic, last := s.now, synAt := if synthetic then some s.now else none
    due := x.due || (s.bit R.NRG_CTRL 0 && decide (max 1 (s.fld R.NRG_N 15 0) ≤ n)) }

/-- MAINS_EDGE: an active edge of MAINS_SYNC. Source 0x018 becomes pending, or its edge latch is set while the clocks
stand still (R364, R372). One that would be counted in the cycle of a synthetic cycle takes its place (R424). -/
def execMainsEdge (s : State) : Res :=
  let x := s.nrg
  let t := s.mains3
  let far := decide (3 * t ≤ 12 * s.since x.last)
  let d := s.since x.edge
  let ok := decide (9 * t ≤ 30 * d) && decide (30 * d ≤ 11 * t)
  .next (
    let s := s.edgeL 0x018
    if !s.clocksRun then s
    else
      let seen := s.setNrg { x with edge := s.now, good := if 8 ≤ x.good then 8 else if ok then x.good + 1 else 0 }
      if !s.bit R.NRG_CTRL 2 then seen
      else if x.synAt = some s.now ∧ ((x.lostAt = s.now ∧ x.lostN = 1) ∨ 8 ≤ x.good) then
        (s.setNrg { x with edge := s.now, good := 0, synth := x.synth - 1, synAt := none }).setF R.NRG_STAT 0 0 0
      else if !s.syncLost then (if far then seen.countCycle false else seen)
      else if 8 ≤ x.good ∧ far then
        ((s.setNrg { x with edge := s.now, good := 0 }).countCycle false).setF R.NRG_STAT 0 0 0
      else seen)

/-- MAINS_SYNTHETIC_CYCLE: 1.25 T_nom after a counted cycle without a counted edge, and from then on at each synthetic
instant. With mains_en = 0 no loss is recorded. -/
def execMainsSyntheticCycle (s : State) : Res :=
  let x := s.nrg
  let t := s.mains3
  .next (if !s.clocksRun then s
    else if s.syncLost then
      (if (x.lostN * t) / 3 ≤ s.since x.lostAt then
        (s.setNrg { x with lostN := x.lostN + 1 }).countCycle true
      else s)
    else if 5 * t ≤ 12 * s.since x.last then
      let s := (s.setNrg { x with lostAt := s.now, lostN := 1, good := 0 }).setF R.NRG_STAT 0 0 1
      let s := if s.bit R.NRG_CTRL 2 then
          (s.setF R.NRG_STAT 1 1 1).log 0x0039 1 (s.rd R.NRG_LSEQ).toNat
        else s
      s.countCycle true
    else s)

/-! ### Latching (R423) -/

/-- NRG_LATCH: the microsecond boundary at or after the n-th counted cycle. -/
def execNrgLatch (s : State) : Res :=
  .next (if !s.nrg.due ∨ !s.clocksRun then s
    else
      let s := ((s.latchAccts.wr R.NRG_LTIME s.tsuNs).wr R.NRG_LFRAME s.fnow).setF R.NRG_LCYC 15 0 s.nrg.synth
      ((s.wr R.NRG_LSEQ (s.rd R.NRG_LSEQ + 1)).setNrg { s.nrg with cyc := 0, synth := 0, due := false, latchAt := some s.now }).irq 0x145)

/-- The account that a live _LO register shows: its value and its _HI register. -/
def State.liveAcct (s : State) (a : Nat) : Option (Nat × Nat) :=
  match (List.range 8).find? fun i => a = R.NRG_PLS_IMP_LO i with
  | some i => some (acct s.nrg.imp i, R.NRG_PLS_IMP_HI i)
  | none => match (List.range 8).find? fun i => a = R.NRG_PLS_EXP_LO i with
    | some i => some (acct s.nrg.exp i, R.NRG_PLS_EXP_HI i)
    | none => match (List.range 64).find? fun g => a = R.NRG_ZACC_LO g with
      | some g => some (acct s.nrg.zone g, R.NRG_ZACC_HI g)
      | none => none

/-- A read of a live _LO register: the word, and the matching _HI word is captured (R418). -/
def State.readLive (s : State) (a : Nat) : Word × State :=
  match s.liveAcct a with
  | some (v, hi) => (Word.ofNat v, s.wr hi (Word.ofNat (v / 2 ^ 32)))
  | none => (s.rd a, s)
/-- NRG_LO_READ. -/
def execNrgLoRead (a : Nat) (s : State) : Res :=
  let r := s.readLive a
  .next { r.2 with hostRead := r.1 }

/-- NRG_N_WRITE: 0 is stored as 1. -/
def execNrgNWrite (w : Word) (s : State) : Res := .next (s.setF R.NRG_N 15 0 (max 1 (fldOf w 15 0)))

/-- NRG_READ: the latched set: NRG_LSEQ, LTIME, LFRAME and LCYC, the six latched words of each input, and the two of each
zone (assumption 8). -/
def execNrgRead (net : Bool) (s : State) : Res :=
  .next (s.hostCmd net 0x0061 anyPayload fun s _ =>
    let ws := [R.NRG_LSEQ, R.NRG_LTIME, R.NRG_LFRAME, R.NRG_LCYC]
      ++ (List.range 8).flatMap (fun i => (List.range 6).map fun j => R.NRG_PLS_LIMP_LO i + 4 * j)
      ++ (List.range 64).flatMap fun g => [R.NRG_ZLACC_LO g, R.NRG_ZLACC_HI g]
    (s, OK, ws.flatMap fun a => leBytes 4 (s.rd a).toNat))

end Sys2Proof.Machine
end

