-- ==== Sys2Proof/Machine/Crypto.lean ====
section
/-!
DEFINITION. The algorithms that chapters 12, 15 and 18 name: SHA-256, HMAC, the KDF of R406, AES-256-GCM and ECDSA over
P-256. Their definitions are those of the standards the spec cites (assumption 15).
-/
namespace Sys2Proof.Machine
open Sys2Proof

/-! ### SHA-256 and HMAC -/

def shaK0 : List Word := [
  0x428a2f98, 0x71374491, 0xb5c0fbcf, 0xe9b5dba5, 0x3956c25b, 0x59f111f1, 0x923f82a4, 0xab1c5ed5,
  0xd807aa98, 0x12835b01, 0x243185be, 0x550c7dc3, 0x72be5d74, 0x80deb1fe, 0x9bdc06a7, 0xc19bf174]
def shaK1 : List Word := [
  0xe49b69c1, 0xefbe4786, 0x0fc19dc6, 0x240ca1cc, 0x2de92c6f, 0x4a7484aa, 0x5cb0a9dc, 0x76f988da,
  0x983e5152, 0xa831c66d, 0xb00327c8, 0xbf597fc7, 0xc6e00bf3, 0xd5a79147, 0x06ca6351, 0x14292967]
def shaK2 : List Word := [
  0x27b70a85, 0x2e1b2138, 0x4d2c6dfc, 0x53380d13, 0x650a7354, 0x766a0abb, 0x81c2c92e, 0x92722c85,
  0xa2bfe8a1, 0xa81a664b, 0xc24b8b70, 0xc76c51a3, 0xd192e819, 0xd6990624, 0xf40e3585, 0x106aa070]
def shaK3 : List Word := [
  0x19a4c116, 0x1e376c08, 0x2748774c, 0x34b0bcb5, 0x391c0cb3, 0x4ed8aa4a, 0x5b9cca4f, 0x682e6ff3,
  0x748f82ee, 0x78a5636f, 0x84c87814, 0x8cc70208, 0x90befffa, 0xa4506ceb, 0xbef9a3f7, 0xc67178f2]
def shaK : List Word := shaK0 ++ shaK1 ++ shaK2 ++ shaK3
def shaInit : List Word := [
  0x6a09e667, 0xbb67ae85, 0x3c6ef372, 0xa54ff53a, 0x510e527f, 0x9b05688c, 0x1f83d9ab, 0x5be0cd19]

/-- The message schedule, newest word first. -/
def shaSched : Nat → List Word → List Word
  | 0, w => w
  | n + 1, w =>
    let a := w.getD 1 0
    let b := w.getD 14 0
    let s1 := a.rotateRight 17 ^^^ a.rotateRight 19 ^^^ (a >>> 10)
    let s0 := b.rotateRight 7 ^^^ b.rotateRight 18 ^^^ (b >>> 3)
    shaSched n ((s1 + w.getD 6 0 + s0 + w.getD 15 0) :: w)

/-- One round on the working variables a to h. -/
def shaRound (v : List Word) (k w : Word) : List Word :=
  let g := fun i => v.getD i 0
  let e := g 4
  let a := g 0
  let t1 := g 7 + (e.rotateRight 6 ^^^ e.rotateRight 11 ^^^ e.rotateRight 25) + ((e &&& g 5) ^^^ (~~~e &&& g 6)) + k + w
  let t2 := (a.rotateRight 2 ^^^ a.rotateRight 13 ^^^ a.rotateRight 22) + ((a &&& g 1) ^^^ (a &&& g 2) ^^^ (g 1 &&& g 2))
  [t1 + t2, a, g 1, g 2, g 3 + t1, e, g 5, g 6]

def shaBlock (h : List Word) (blk : List Byte) : List Word :=
  let w0 := (List.range 16).map fun i => Word.ofNat (beNat ((blk.drop (4 * i)).take 4))
  let w := (shaSched 48 w0.reverse).reverse
  let v := (shaK.zip w).foldl (fun v x => shaRound v x.1 x.2) h
  (h.zip v).map fun x => x.1 + x.2

def shaBlocks : Nat → List Word → List Byte → List Word
  | 0, h, _ => h
  | n + 1, h, l => shaBlocks n (shaBlock h (l.take 64)) (l.drop 64)

/-- n bytes of a number, most significant first. -/
def beBytes (n v : Nat) : List Byte := (leBytes n v).reverse

/-- SHA-256 of a message. -/
def sha256 (m : List Byte) : List Byte :=
  let z := (119 - m.length % 64) % 64
  let l := m ++ [0x80] ++ List.replicate z 0 ++ beBytes 8 (m.length * 8)
  (shaBlocks (l.length / 64) shaInit l).flatMap fun w => beBytes 4 w.toNat

/-- HMAC-SHA-256. -/
def hmac (key m : List Byte) : List Byte :=
  let k := if 64 < key.length then sha256 key else key
  let k := k ++ List.replicate (64 - k.length) 0
  sha256 ((k.map (· ^^^ 0x5C)) ++ sha256 ((k.map (· ^^^ 0x36)) ++ m))

/-- One output of the KDF of R406: the counter 1, the label, a zero byte, the context and the length 256. -/
def kdf (key label context : List Byte) : List Byte :=
  hmac key (beBytes 4 1 ++ label ++ [0] ++ context ++ beBytes 4 256)

/-! ### AES-256 -/

/-- Multiply by x in GF(2^8). -/
def aesX (b : Byte) : Byte := if b.getLsbD 7 then (b <<< 1) ^^^ 0x1B else b <<< 1
/-- b, b·x, b·x², … -/
def aesPows (b : Byte) : Nat → List Byte
  | 0 => []
  | n + 1 => b :: aesPows (aesX b) n
/-- Multiply in GF(2^8). -/
def aesMul (a b : Byte) : Byte :=
  ((aesPows b 8).zip (List.range 8)).foldl (fun r x => if a.getLsbD x.2 then r ^^^ x.1 else r) 0
/-- The inverse, b^254. -/
def aesInv (b : Byte) : Byte :=
  ((List.range 7).foldl (fun (x : Byte × Byte) _ => let q := aesMul x.1 x.1; (q, aesMul x.2 q)) (b, 1)).2
/-- The S-box. -/
def aesS (b : Byte) : Byte :=
  let i := aesInv b
  i ^^^ i.rotateLeft 1 ^^^ i.rotateLeft 2 ^^^ i.rotateLeft 3 ^^^ i.rotateLeft 4 ^^^ 0x63

def xorB (a b : List Byte) : List Byte := (a.zip b).map fun x => x.1 ^^^ x.2

/-- The key schedule: words of 4 bytes, newest first. -/
def aesSched : Nat → Nat → Byte → List (List Byte) → List (List Byte)
  | 0, _, _, w => w
  | n + 1, i, rc, w =>
    let p := w.getD 0 []
    let t :=
      if i % 8 = 0 then xorB ((p.drop 1 ++ p.take 1).map aesS) [rc, 0, 0, 0]
      else if i % 8 = 4 then p.map aesS
      else p
    aesSched n (i + 1) (if i % 8 = 0 then aesX rc else rc) (xorB (w.getD 7 []) t :: w)

/-- The fifteen round keys of a 32-byte key. -/
def aesKeys (key : List Byte) : List (List Byte) :=
  let w0 := (List.range 8).map fun i => (key.drop (4 * i)).take 4
  let w := (aesSched 52 8 1 w0.reverse).reverse
  (List.range 15).map fun r => ((w.drop (4 * r)).take 4).flatten

def aesShift (s : List Byte) : List Byte := (List.range 16).map fun i => s.getD ((i + 4 * (i % 4)) % 16) 0
def aesMixCol (c : List Byte) : List Byte :=
  (List.range 4).map fun i =>
    let g := fun k => c.getD ((i + k) % 4) 0
    aesX (g 0) ^^^ (aesX (g 1) ^^^ g 1) ^^^ g 2 ^^^ g 3
def aesMix (s : List Byte) : List Byte := (List.range 4).flatMap fun c => aesMixCol ((s.drop (4 * c)).take 4)

/-- AES-256 of one block under its round keys. -/
def aesBlock (ks : List (List Byte)) (b : List Byte) : List Byte :=
  let s := xorB b (ks.getD 0 [])
  let s := ((ks.drop 1).take 13).foldl (fun s k => xorB (aesMix (aesShift (s.map aesS))) k) s
  xorB (aesShift (s.map aesS)) (ks.getD 14 [])

/-! ### GCM -/

/-- Multiply in GF(2^128), bit 0 the most significant. -/
def ghMul (x : Nat) : Nat → Nat → Nat → Nat
  | 0, _, z => z
  | n + 1, v, z =>
    ghMul x n (if v % 2 = 1 then (v / 2) ^^^ (0xE1 * 2 ^ 120) else v / 2) (if x.testBit n then z ^^^ v else z)

def ghBlocks (h : Nat) : Nat → Nat → List Byte → Nat
  | 0, y, _ => y
  | n + 1, y, l =>
    let b := l.take 16
    ghBlocks h n (ghMul (y ^^^ beNat (b ++ List.replicate (16 - b.length) 0)) 128 h 0) (l.drop 16)
def gh (h y : Nat) (l : List Byte) : Nat := ghBlocks h ((l.length + 15) / 16) y l

/-- Counter-mode encryption from a counter block. -/
def gcmCtr (ks : List (List Byte)) (iv : List Byte) : Nat → Nat → List Byte → List Byte
  | 0, _, _ => []
  | n + 1, c, l => xorB (l.take 16) (aesBlock ks (iv ++ beBytes 4 c)) ++ gcmCtr ks iv n (c + 1) (l.drop 16)

/-- The GCM tag of a ciphertext. -/
def gcmTag (key iv aad ct : List Byte) : List Byte :=
  let ks := aesKeys key
  let h := beNat (aesBlock ks (List.replicate 16 0))
  let y := gh h (gh h 0 aad) ct
  let y := ghMul (y ^^^ (aad.length * 8 * 2 ^ 64 + ct.length * 8)) 128 h 0
  xorB (beBytes 16 y) (aesBlock ks (iv ++ beBytes 4 1))
/-- AES-256-GCM encryption with a 96-bit IV: the ciphertext; decryption is the same function. -/
def gcmCrypt (key iv l : List Byte) : List Byte := gcmCtr (aesKeys key) iv ((l.length + 15) / 16) 2 l

/-! ### ECDSA over P-256 -/

abbrev P256_P : Nat := 0xffffffff00000001000000000000000000000000ffffffffffffffffffffffff
abbrev P256_N : Nat := 0xffffffff00000000ffffffffffffffffbce6faada7179e84f3b9cac2fc632551
abbrev P256_B : Nat := 0x5ac635d8aa3a93e7b3ebbd55769886bc651d06b0cc53b0f63bce3c3e27d2604b
abbrev P256_GX : Nat := 0x6b17d1f2e12c4247f8bce6e563a440f277037d812deb33a0f4a13945d898c296
abbrev P256_GY : Nat := 0x4fe342e2fe1a7f9b8ee7eb4a7c0f9e162bce33576b315ececbb6406837bf51f5

/-- b^e modulo m, by the low n bits of e. -/
def powMod (m : Nat) : Nat → Nat → Nat → Nat → Nat
  | 0, _, _, r => r
  | n + 1, b, e, r => powMod m n (b * b % m) (e / 2) (if e % 2 = 1 then r * b % m else r)
/-- The inverse modulo a 256-bit prime. -/
def invMod (m a : Nat) : Nat := powMod m 256 (a % m) (m - 2) 1

/-- A point: none is the point at infinity. -/
abbrev Point := Option (Nat × Nat)

def ecAdd (a b : Point) : Point :=
  let p := P256_P
  match a, b with
  | none, b => b
  | a, none => a
  | some (x1, y1), some (x2, y2) =>
    if x1 = x2 ∧ (y1 + y2) % p = 0 then none
    else
      let l := if x1 = x2 ∧ y1 = y2 then (3 * x1 * x1 + (p - 3)) * invMod p (2 * y1) % p
               else (y2 + (p - y1)) * invMod p (x2 + (p - x1)) % p
      let x := (l * l + (p - x1) + (p - x2)) % p
      some (x, (l * (x1 + (p - x)) + (p - y1)) % p)

def ecMul : Nat → Nat → Point → Point → Point
  | 0, _, _, r => r
  | n + 1, k, q, r => ecMul n (k / 2) (ecAdd q q) (if k % 2 = 1 then ecAdd r q else r)
def ecG : Point := some (P256_GX, P256_GY)
/-- k times a point. -/
def ecTimes (k : Nat) (q : Point) : Point := ecMul 256 k q none

/-- The public key of a scalar: X and Y. -/
def ecPublic (d : Nat) : Nat × Nat := (ecTimes d ecG).getD (0, 0)
def onCurve (x y : Nat) : Bool :=
  decide (x < P256_P) && decide (y < P256_P)
    && y * y % P256_P == (x * x * x + (P256_P - 3) * x + P256_B) % P256_P

/-- The signature r, s of a digest z under scalar d with the per-signature scalar k. -/
def ecSign (d z k : Nat) : Nat × Nat :=
  let r := (ecPublic k).1 % P256_N
  (r, invMod P256_N k * (z + r * d) % P256_N)

/-- Whether r, s is a signature of z under the public key x, y. -/
def ecVerify (x y z r s : Nat) : Bool :=
  let w := invMod P256_N s
  onCurve x y && decide (1 ≤ r) && decide (r < P256_N) && decide (1 ≤ s) && decide (s < P256_N)
    && (match ecAdd (ecTimes (z * w % P256_N) ecG) (ecTimes (r * w % P256_N) (some (x, y))) with
      | some (px, _) => px % P256_N == r
      | none => false)

end Sys2Proof.Machine
end

