-- ==== Sys2Proof/Machine/Key.lean ====
section
/-!
DEFINITION. Keys, tamper and attestation (chapter 15): the key tree and its blobs (R402 to R412), the operations of
R413, the life cycle (R399 to R401) and tamper (R397, R398). A host command runs the same operation as a write of
KEY_GO, as master host in normal world, and leaves KEY_RES alone.
-/
namespace Sys2Proof.Machine
open Sys2Proof

/-! ### What a key is -/

def uidBytes : List Byte := (List.range 16).map Config.uidByte
def deviceKey : List Byte := (List.range 32).map Config.deviceKeyByte
def LBL_RWK : List Byte := [0x4E, 0x5A, 0x2D, 0x52, 0x57, 0x4B]
def LBL_FACT : List Byte := [0x4E, 0x5A, 0x2D, 0x46, 0x41, 0x43, 0x54]
def LBL_ATT : List Byte := [0x4E, 0x5A, 0x2D, 0x41, 0x54, 0x54]

/-- Fields of a blob header (R403). -/
def hdrType (h : List Byte) : Nat := leAt h 3 1
def hdrId (h : List Byte) : Nat := leAt h 4 2
def hdrParent (h : List Byte) : Nat := leAt h 6 2
def hdrPgen (h : List Byte) : Nat := leAt h 8 2
def hdrAttr (h : List Byte) : Word := Word.ofNat (leAt h 12 4)

/-- The attributes of R409 as sets: bit masks of masters, life cycles, usages and roles, and the world. -/
structure KeyAttr where
  masters : Nat
  world : Nat
  lc : Nat
  usage : Nat
  roles : Nat
  deriving DecidableEq, Repr

def attrOf (w : Word) : KeyAttr := ⟨fldOf w 4 0, fldOf w 9 8, fldOf w 14 10, fldOf w 20 16, fldOf w 28 24⟩

abbrev U_WRAP : Nat := 0
abbrev U_SIGN : Nat := 1
abbrev U_MAC : Nat := 2
abbrev U_ENCRYPT : Nat := 3
abbrev U_DERIVE : Nat := 4

/-- Every set of `a` lies within that of `b`; a world lies within the same world or either (R411). -/
def subMask (a b : Nat) : Bool := a &&& b == a
def KeyAttr.mastersWorld (a b : KeyAttr) : Bool := subMask a.masters b.masters && (b.world == 2 || a.world == b.world)
def KeyAttr.within (a b : KeyAttr) : Bool := a.mastersWorld b && subMask a.lc b.lc
/-- A key admits a master in a world in a life cycle (R410). -/
def KeyAttr.admits (a : KeyAttr) (lc master world : Nat) : Bool :=
  a.lc.testBit lc && a.masters.testBit master && (a.world == 2 || a.world == world)

/-- A key as an operand: its material, its attributes. -/
structure KeyRef where
  mat : List Byte
  attr : KeyAttr
  deriving DecidableEq, Repr

/-- The fused device key admits every master, world and life cycle (R395); it wraps id 4,095 only. -/
def keyDevice : KeyRef := ⟨deviceKey, ⟨31, 2, 31, 1, 0⟩⟩
/-- The root wrapping key (R402). -/
def keyRwk (root : List Byte) : KeyRef := ⟨kdf root LBL_RWK uidBytes, ⟨3, 2, 6, 17, 0⟩⟩
/-- The factory key (R398, R402); the spec gives it no world: either (assumption 16). -/
def keyFactory : KeyRef := ⟨kdf deviceKey LBL_FACT uidBytes, ⟨1, 2, 1, 5, 16⟩⟩
/-- The attestation key's scalar (R414). -/
def attScalar (root : List Byte) : Nat := beNat (kdf root LBL_ATT uidBytes) % (P256_N - 1) + 1

def State.setKeys (s : State) (k : KeyEng) : State := { s with keys := k }
def State.lc (s : State) : Nat := s.fld R.KEY_LC 2 0
def State.rootValid (s : State) : Bool := s.bit R.SPR_TAMP_STAT 31
/-- The generation of a parent (R405). -/
def State.gen (s : State) (p : Nat) : Nat := if p = 0xFFFF then 0 else mget (fun _ => 0) s.keys.gens p
def State.keySlot (s : State) (n : Nat) : Option KeySlot := (s.keys.slots.find? fun e => e.1 = n).map (·.2)
/-- The slot that holds a key id. -/
def State.keySlotOf (s : State) (id : Nat) : Option (Nat × KeySlot) := s.keys.slots.find? fun e => hdrId e.2.hdr = id
/-- The lowest free slot of the 64 (R407). -/
def State.freeSlot (s : State) : Option Nat := (List.range 64).find? fun n => (s.keySlot n).isNone
def State.putSlot (s : State) (n : Nat) (k : KeySlot) : State :=
  s.setKeys { s.keys with slots := minsert (merase s.keys.slots n) n k }
/-- Slots whose key meets a condition are emptied. -/
def State.dropSlots (s : State) (p : KeySlot → Bool) : State :=
  s.setKeys { s.keys with slots := s.keys.slots.filter fun e => !p e.2 }
/-- Slots are evicted, and the sessions opened with their keys end (R405, R398, R412). -/
def State.evictSlots (s : State) (p : KeySlot → Bool) : State :=
  let ids := (s.keys.slots.filter fun e => p e.2).map fun e => hdrId e.2.hdr
  (s.dropSlots p).endSessions fun x => ids.contains x.key

/-- A parent key by id (R402, R408): the status that refuses it, or the key. -/
def State.parentKey (s : State) (p : Nat) : Nat × KeyRef :=
  if p = 0xFFFF then (OK, keyDevice)
  else if p = 0 then (if s.rootValid then (OK, keyRwk s.keys.root) else (E_STATE, keyDevice))
  else if p = 1 then (if s.rootValid then (OK, ⟨[], ⟨31, 2, 31, 0, 0⟩⟩) else (E_ABSENT, keyDevice))
  else if p = 4094 then (if s.lc = 0 then (OK, keyFactory) else (E_ABSENT, keyDevice))
  else match s.keySlotOf p with
    | some (_, k) => (OK, ⟨k.mat, attrOf (hdrAttr k.hdr)⟩)
    | none => (E_ABSENT, keyDevice)

/-- Parent p is retired (R405). -/
def State.parentRetired (s : State) (p : Nat) : Bool := p != 0xFFFF && s.gen p == 0xFFFF

/-- A header, or the first sixteen bytes of one, is formed as R403 and R409 say. -/
def hdrOk (h : List Byte) : Bool :=
  let id := hdrId h
  let w := hdrAttr h
  leAt h 0 2 == 0x424B && leAt h 2 1 == 1 && hdrType h ≤ 2 && zeroBytes h 10 12
    && id != 0 && id != 1 && id != 4094 && id ≤ 4095 && (hdrParent h != 0xFFFF || id == 4095)
    && fldOf w 31 29 == 0 && fldOf w 23 21 == 0 && fldOf w 15 15 == 0 && fldOf w 7 5 == 0 && fldOf w 9 8 != 3

/-- The same for a whole blob. -/
def blobOk (b : List Byte) : Bool :=
  decide (b.length = 80) && hdrOk b && leAt b 28 2 == 32 && zeroBytes b 30 32

def blobHdr (b : List Byte) : List Byte := b.take 32
def blobIv (b : List Byte) : List Byte := (b.drop 16).take 12
def blobBody (b : List Byte) : List Byte := (b.drop 32).take 32
def blobTag (b : List Byte) : List Byte := (b.drop 64).take 16

/-- The header of a blob with another parent, generation and initialisation vector. -/
def reHdr (h : List Byte) (p g : Nat) (iv : List Byte) : List Byte :=
  h.take 6 ++ leBytes 2 p ++ leBytes 2 g ++ (h.drop 10).take 6 ++ iv ++ leBytes 2 32 ++ [0, 0]

/-- A key wrapped under a parent (R404): the blob. -/
def wrapBlob (hdr mat pmat : List Byte) : List Byte :=
  let iv := (hdr.drop 16).take 12
  let ct := gcmCrypt pmat iv mat
  hdr ++ ct ++ gcmTag pmat iv hdr ct

/-- The requester of an operation: a master and a world (R410). -/
structure KeyWho where
  master : Nat
  world : Nat
  deriving DecidableEq, Repr

/-- The checks of R408 and R413 on a parent under which a key is wrapped. -/
def State.wrapCheck (s : State) (p id : Nat) (a : KeyAttr) (w : KeyWho) : Nat :=
  let k := s.parentKey p
  firstErr [(p == 0xFFFF && id != 4095, E_ARG), (k.1 != OK, k.1), (s.parentRetired p, E_ORPHAN),
    (!k.2.attr.usage.testBit U_WRAP || !k.2.attr.admits s.lc w.master w.world, E_ATTR),
    (id != 4095 && !a.within k.2.attr, E_ATTR)]

/-- The checks of R408 on a blob up to its tag; `transfer` makes them as R401 says. -/
def State.blobCheck (s : State) (b : List Byte) (w : KeyWho) (transfer : Bool) : Nat :=
  let p := hdrParent b
  let k := s.parentKey p
  let a := attrOf (hdrAttr b)
  let rwk := (keyRwk s.keys.root).attr
  let fits :=
    if transfer then a.lc.testBit 1 && a.mastersWorld k.2.attr && a.within rwk
    else a.lc.testBit s.lc && (hdrId b == 4095 || a.within k.2.attr)
  firstErr [(!blobOk b || (transfer && p != 4095), E_ARG), (k.1 != OK, k.1),
    (hdrPgen b != s.gen p || s.parentRetired p, E_ORPHAN),
    (!k.2.attr.usage.testBit U_WRAP || !k.2.attr.admits s.lc w.master w.world, E_ATTR),
    (gcmTag k.2.mat (blobIv b) (blobHdr b) (blobBody b) != blobTag b, E_CHECK), (!fits, E_ATTR)]

/-- The material in a blob that passed its checks. -/
def State.unwrap (s : State) (b : List Byte) : List Byte :=
  gcmCrypt (s.parentKey (hdrParent b)).2.mat (blobIv b) (blobBody b)

/-- The slot a key with this header would take, or the status that refuses it (the last two checks of R408). -/
def State.slotFor (s : State) (hdr : List Byte) : Nat × Nat :=
  match s.keySlotOf (hdrId hdr) with
  | some (n, k) => if k.hdr = hdr then (OK, n) else (E_STATE, 0)
  | none => match s.freeSlot with
    | some n => (OK, n)
    | none => (E_SPACE, 0)

/-! ### Operations (R413) -/

/-- What an operation does: its status, result word, output, and the state where it succeeds. -/
structure KeyOut where
  status : Nat
  resv : Nat := 0
  out : List Byte := []
  st : State

def State.keyErr (s : State) (st : Nat) : KeyOut := ⟨st, 0, [], s⟩

/-- LOAD (R408). -/
def State.keyLoad (s : State) (arg : Word) (b : List Byte) (w : KeyWho) : KeyOut :=
  let a := attrOf (hdrAttr b)
  let p := fldOf arg 15 0
  let st := firstErr [(s.blobCheck b w false != OK, s.blobCheck b w false),
    ((s.slotFor (blobHdr b)).1 != OK, (s.slotFor (blobHdr b)).1),
    (bitOf arg 16 && s.wrapCheck p (hdrId b) a w != OK, s.wrapCheck p (hdrId b) a w)]
  if st ≠ OK then s.keyErr st
  else
    let n := (s.slotFor (blobHdr b)).2
    let m := s.unwrap b
    let out := if bitOf arg 16 then
        wrapBlob (reHdr (blobHdr b) p (s.gen p) (s.freeBytes 31 12)) m (s.parentKey p).2.mat
      else []
    ⟨OK, n, out, s.useFree.putSlot n ⟨blobHdr b, m⟩⟩

/-- The checks of R410 on a slot, with the usage an operation needs. -/
def State.slotCheck (s : State) (n : Nat) (w : KeyWho) (usage : Option Nat) : Nat × KeySlot :=
  match s.keySlot n with
  | none => (E_ABSENT, ⟨[], []⟩)
  | some k =>
    let a := attrOf (hdrAttr k.hdr)
    let bad := !a.admits s.lc w.master w.world || (match usage with | some u => !a.usage.testBit u | none => false)
    (if bad then E_ATTR else OK, k)

/-- UNLOAD empties a slot (R408); it ends no session. -/
def State.keyUnload (s : State) (n : Nat) (w : KeyWho) : KeyOut :=
  let c := s.slotCheck n w none
  if c.1 ≠ OK then s.keyErr c.1
  else ⟨OK, 0, [], s.setKeys { s.keys with slots := s.keys.slots.filter fun e => e.1 ≠ n }⟩

/-- DERIVE (R406): the input is the wrapping parent, sixteen header bytes and the label. -/
def State.keyDerive (s : State) (n : Nat) (inp : List Byte) (w : KeyWho) : KeyOut :=
  let c := s.slotCheck n w (some U_DERIVE)
  let p := leAt inp 0 4
  let ctx := (inp.drop 4).take 16
  let h := reHdr ctx p (s.gen p) (s.freeBytes 32 12)
  let a := attrOf (hdrAttr h)
  let st := firstErr [(c.1 != OK, c.1), (inp.length != 28 || 0xFFFF < p || !hdrOk h, E_ARG),
    (s.wrapCheck p (hdrId h) a w != OK, s.wrapCheck p (hdrId h) a w),
    (!a.lc.testBit s.lc || !a.within (attrOf (hdrAttr c.2.hdr)), E_ATTR), ((s.slotFor h).1 != OK, (s.slotFor h).1)]
  if st ≠ OK then s.keyErr st
  else
    let k := kdf c.2.mat (inp.drop 20) ctx
    let m := if hdrType h = 2 then beBytes 32 (beNat k % (P256_N - 1) + 1) else k
    let d := (s.slotFor h).2
    ⟨OK, d, wrapBlob h m (s.parentKey p).2.mat, s.useFree.putSlot d ⟨h, m⟩⟩

/-- WRAP: the key of a slot under another parent. -/
def State.keyWrap (s : State) (n : Nat) (arg : Word) (w : KeyWho) : KeyOut :=
  let c := s.slotCheck n w none
  let p := fldOf arg 15 0
  let st := firstErr [(c.1 != OK, c.1),
    (s.wrapCheck p (hdrId c.2.hdr) (attrOf (hdrAttr c.2.hdr)) w != OK,
      s.wrapCheck p (hdrId c.2.hdr) (attrOf (hdrAttr c.2.hdr)) w)]
  if st ≠ OK then s.keyErr st
  else ⟨OK, 0, wrapBlob (reHdr c.2.hdr p (s.gen p) (s.freeBytes 33 12)) c.2.mat (s.parentKey p).2.mat, s.useFree⟩

/-- Ids below a set of parents, down to the leaves of the slots' tree. -/
def keyTree (slots : List (Nat × KeySlot)) : Nat → List Nat → List Nat
  | 0, ps => ps
  | n + 1, ps =>
    keyTree slots n (ps ++ ((slots.filter fun e => ps.contains (hdrParent e.2.hdr)).map fun e => hdrId e.2.hdr))

/-- DESTROY (R405). -/
def State.keyDestroy (s : State) (arg : Word) : KeyOut :=
  let p := arg.toNat
  if 4095 < p then s.keyErr E_ARG
  else if s.gen p = 0xFFFF then ⟨OK, 0, [], s⟩
  else
    let s' := s.setKeys { s.keys with gens := mset (fun _ => 0) s.keys.gens p (s.gen p + 1) }
    let below := keyTree s.keys.slots 64 [p]
    ⟨OK, 0, [], s'.evictSlots fun k => below.contains (hdrParent k.hdr)⟩

/-- HMAC. -/
def State.keyHmac (s : State) (n : Nat) (inp : List Byte) (w : KeyWho) : KeyOut :=
  let c := s.slotCheck n w (some U_MAC)
  if c.1 ≠ OK then s.keyErr c.1 else ⟨OK, 0, hmac c.2.mat inp, s⟩

/-- A per-signature scalar, from the generator: any number from 1 to n − 1. -/
def State.drawScalar (s : State) (tag : Nat) : Nat := beNat (s.freeBytes tag 32) % (P256_N - 1) + 1

/-- The signature of a digest: r, s, 32 bytes each, big-endian. -/
def signBytes (d : Nat) (digest : List Byte) (k : Nat) : List Byte :=
  let x := ecSign d (beNat digest) k
  beBytes 32 x.1 ++ beBytes 32 x.2

/-- SIGN; a key of another type or an input of another length is refused (assumption 16). -/
def State.keySign (s : State) (n : Nat) (inp : List Byte) (w : KeyWho) : KeyOut :=
  let c := s.slotCheck n w (some U_SIGN)
  let st := firstErr [(c.1 != OK, c.1), (hdrType c.2.hdr != 2, E_ATTR), (inp.length != 32, E_ARG)]
  if st ≠ OK then s.keyErr st else ⟨OK, 0, signBytes (beNat c.2.mat) inp (s.drawScalar 34), s.useFree⟩

/-- VERIFY: X, Y, digest, r, s. -/
def State.keyVerify (s : State) (inp : List Byte) : KeyOut :=
  let f := fun i => beNat ((inp.drop (32 * i)).take 32)
  if inp.length ≠ 160 then s.keyErr E_ARG
  else ⟨if ecVerify (f 0) (f 1) (f 2) (f 3) (f 4) then OK else E_CHECK, 0, [], s⟩

/-- GCM_ENC and GCM_DEC: IV, length of the additional data, additional data, text. -/
def State.keyGcm (s : State) (n : Nat) (inp : List Byte) (w : KeyWho) (enc : Bool) : KeyOut :=
  let c := s.slotCheck n w (some U_ENCRYPT)
  let iv := inp.take 12
  let al := leAt inp 12 4
  let aad := (inp.drop 16).take al
  let text := inp.drop (16 + al)
  let st := firstErr [(c.1 != OK, c.1), (hdrType c.2.hdr != 0, E_ATTR),
    (decide (inp.length < 16 + al + (if enc then 0 else 16)), E_ARG)]
  if st ≠ OK then s.keyErr st
  else if enc then
    let ct := gcmCrypt c.2.mat iv text
    ⟨OK, 0, ct ++ gcmTag c.2.mat iv aad ct, s⟩
  else
    let ct := text.take (text.length - 16)
    if gcmTag c.2.mat iv aad ct = text.drop (text.length - 16) then ⟨OK, 0, gcmCrypt c.2.mat iv ct, s⟩
    else s.keyErr E_CHECK

/-- The ordering code in ASCII, zero-padded to 16 bytes (R415): NZ7100-C or NZ7100-I. -/
def orderCode : List Byte :=
  [0x4E, 0x5A, 0x37, 0x31, 0x30, 0x30, 0x2D, if Config.grade = 1 then 0x49 else 0x43] ++ List.replicate 8 0

/-- The SHA-256 of the active manifest, as measured at this boot. -/
def State.manifestHash (s : State) : List Byte :=
  match s.upd.measures.find? fun e => e.1 = 6 with
  | some e => e.2
  | none => List.replicate 32 0

/-- The attestation statement without its signature (R415). -/
def State.statement (s : State) (nonce : List Byte) : List Byte :=
  let w := fun a => leBytes 4 (s.rd a).toNat
  let digest := sha256 (w R.SYS_STRAP ++ w R.SPR_TAMP_CFG ++ w R.UPD_BCW ++ s.manifestHash)
  [0x4E, 0x5A, 0x41, 0x54, 1, BitVec.ofNat 8 s.lc] ++ leBytes 2 s.upd.measures.length ++ uidBytes ++ orderCode
    ++ w R.SYS_ID ++ leBytes 4 s.upd.bootCount ++ digest ++ nonce
    ++ (s.upd.measures.flatMap fun e => leBytes 4 e.1 ++ e.2)

/-- ATTEST (R414, R415). -/
def State.keyAttest (s : State) (inp : List Byte) : KeyOut :=
  if !s.rootValid then s.keyErr E_STATE
  else if inp.length ≠ 32 then s.keyErr E_ARG
  else
    let m := s.statement inp
    ⟨OK, 0, m ++ signBytes (attScalar s.keys.root) (sha256 m) (s.drawScalar 35), s.useFree⟩

/-! ### The life cycle (R399 to R401) -/

/-- Step 2 of R397: the root is zero. -/
def State.zeroRoot (s : State) : State :=
  (s.setKeys { s.keys with root := List.replicate 32 0 }).setF R.SPR_TAMP_STAT 31 31 0

def State.setLifeCycle (s : State) (v : Nat) : State := s.setF R.KEY_LC 2 0 v

/-- Thirty-two bytes that are not all zero (R394). -/
def nonZero (l : List Byte) : List Byte := if l.all (· == 0) then l.drop 1 ++ [1] else l

/-- PROVISION (R401). The firmware keeps the re-wrapped transfer blob in NVS (chapter 15's example). -/
def State.provision (s : State) (inp : List Byte) (w : KeyWho) : KeyOut :=
  let blob := !inp.isEmpty && !inp.all (· == 0)
  let st := firstErr [(inp.length != 0 && inp.length != 80, E_ARG),
    (blob && s.blobCheck inp w true != OK, s.blobCheck inp w true),
    (blob && (s.slotFor (blobHdr inp)).1 != OK, (s.slotFor (blobHdr inp)).1)]
  if st ≠ OK then s.keyErr st
  else
    let root := nonZero (s.freeBytes 36 32)
    let m := s.unwrap inp
    let n := (s.slotFor (blobHdr inp)).2
    let h := reHdr (blobHdr inp) 0 0 (s.useFree.freeBytes 37 12)
    let pub := ecPublic (attScalar root)
    let s' := (s.useFree.useFree.setKeys { s.keys with root := root, gens := [], evict := some 1 }).setLifeCycle 1
    let s' := (s'.wr R.SPR_TAMP_STAT 0x80000000).wr R.SPR_TAMP_TIME 0
    let out := if blob then wrapBlob h m (keyRwk root).mat else []
    let s' := if blob then s'.putSlot n ⟨h, m⟩ else s'
    ⟨OK, 0, uidBytes ++ beBytes 32 pub.1 ++ beBytes 32 pub.2 ++ out, s'.setKeys { s'.keys with kept := out }⟩

/-- LIFECYCLE (R400). -/
def State.keyLifecycle (s : State) (target : Nat) (inp : List Byte) (w : KeyWho) : KeyOut :=
  let c := s.lc
  if target = 1 ∧ (c = 0 ∨ c = 3) then s.provision inp w
  else if target = 2 ∧ c = 1 then
    let s := (s.setLifeCycle 2).setF R.SNS_LOCK 0 0 1
    ⟨OK, 0, [], s.setKeys { s.keys with evict := some 2 }⟩
  else if (target = 3 ∧ (c = 1 ∨ c = 2)) ∨ (target = 4 ∧ c ≠ 4) then
    ⟨OK, 0, [], (s.zeroRoot.dropSlots fun _ => true).setLifeCycle target⟩
  else s.keyErr E_STATE

/-- One operation (R413): in SCRAPPED every one returns E_STATE (R400), and one whose output exceeds `cap` returns
E_SPACE and does nothing. -/
def State.keyRun (s : State) (op slot : Nat) (w : KeyWho) (arg : Word) (inp : List Byte) (cap : Nat) : KeyOut :=
  if s.lc = 4 then s.keyErr E_STATE
  else
    let r := match op with
      | 0x01 => s.keyLoad arg inp w
      | 0x02 => s.keyUnload slot w
      | 0x03 => s.keyDerive slot inp w
      | 0x04 => s.keyWrap slot arg w
      | 0x05 => s.keyDestroy arg
      | 0x06 => s.keyHmac slot inp w
      | 0x07 => s.keySign slot inp w
      | 0x08 => s.keyVerify inp
      | 0x09 => s.keyGcm slot inp w true
      | 0x0A => s.keyGcm slot inp w false
      | 0x0B => s.keyAttest inp
      | 0x0C => s.keyLifecycle arg.toNat inp w
      | 0x0D => ⟨OK, 0, sha256 inp, s⟩
      | _ => s.keyErr E_ARG
    if cap < r.out.length then s.keyErr E_SPACE else r

end Sys2Proof.Machine
end

