-- ==== Sys2Proof/Machine/LinkCode.lean ====
section
/-!
DEFINITION. The coding of the serial links: 64b/66b blocks with their scrambler (R254, R468), and 8b/10b code groups
(R261).
-/
namespace Sys2Proof.Machine
open Sys2Proof

/-! ### 64b/66b -/

/-- The sync header: 0b01 data, 0b10 control. -/
def blockSync (b : Block) : BitVec 2 := if b.ctl then 0b10 else 0b01
/-- An IDLE block: control type 0x1E (R255, R470). -/
def idleBlock : Block := ⟨true, 0x1E :: List.replicate 7 0⟩

/-- The bits of bytes in the order sent, each byte least significant bit first. -/
def bitsLsb : List Byte → List Bool
  | [] => []
  | b :: t => (List.range 8).map b.getLsbD ++ bitsLsb t

/-- The scrambler 1 + x^39 + x^58: bit i of its state is the bit it sent i + 1 bits ago. -/
def scramble : BitVec 58 → List Bool → List Bool × BitVec 58
  | x, [] => ([], x)
  | x, d :: t =>
    let o := xor d (xor (x.getLsbD 38) (x.getLsbD 57))
    let r := scramble (x <<< 1 ||| BitVec.ofNat 58 (b2n o)) t
    (o :: r.1, r.2)
/-- The receiver's side: its state is made of the bits received. -/
def descramble : BitVec 58 → List Bool → List Bool × BitVec 58
  | x, [] => ([], x)
  | x, o :: t =>
    let r := descramble (x <<< 1 ||| BitVec.ofNat 58 (b2n o)) t
    (xor o (xor (x.getLsbD 38) (x.getLsbD 57)) :: r.1, r.2)

/-- Blocks on the wire: each sync header as it is, and the 64 payload bits scrambled. What the scrambler held before is the
argument: the blocks before these decide it. -/
def blocksOnWire : BitVec 58 → List Block → List (BitVec 2 × List Bool)
  | _, [] => []
  | x, b :: t =>
    let r := scramble x (bitsLsb b.bytes)
    (blockSync b, r.1) :: blocksOnWire r.2 t

/-- The bytes of a packet that opens with a control block, cut into blocks. -/
def packetBlockList : List Byte → List Block
  | a :: b :: c :: d :: e :: f :: g :: h :: t => ⟨true, [a, b, c, d, e, f, g, h]⟩ :: go t
  | _ => []
where
  go : List Byte → List Block
    | a :: b :: c :: d :: e :: f :: g :: h :: t => ⟨false, [a, b, c, d, e, f, g, h]⟩ :: go t
    | _ => []

/-! ### The two lanes of a chain port (R468, R470) -/

/-- Control block type of a block; 0 for a data block. -/
def blockType (b : Block) : Nat := if b.ctl then leAt b.bytes 0 1 else 0
abbrev BLK_START : Nat := 0x78
abbrev BLK_ALIGN : Nat := 0x2D
abbrev BLK_ABORT : Nat := 0x55
/-- The ALIGN block of a lane. -/
def alignBlock (lane : Nat) : Block := ⟨true, 0x2D :: BitVec.ofNat 8 lane :: List.replicate 6 0⟩
def abortBlock : Block := ⟨true, 0x55 :: List.replicate 7 0⟩

/-- One lane's share of a port's block stream: block i goes on lane i mod 2. -/
def laneShare (lane : Nat) (l : List Block) : List Block :=
  (l.zipIdx.filter fun e => e.2 % 2 == lane).map (·.1)
/-- A lane's blocks with ALIGN after every 16,383 others, `k` of which have gone since the last. -/
def withAlign (lane : Nat) : Nat → List Block → List Block
  | _, [] => []
  | k, b :: t => if k = 16383 then alignBlock lane :: b :: withAlign lane 1 t else b :: withAlign lane (k + 1) t
/-- The blocks of two lanes in turn. -/
def interleave : List Block → List Block → List Block
  | a :: t, b :: u => a :: b :: interleave t u
  | a :: _, [] => [a]
  | [], _ => []

/-- The port's block stream: the lanes are deskewed by their ALIGN blocks, at most 32 blocks apart, and ALIGN is taken out.
With no ALIGN in either the deskew of the last one holds, and the lanes are in step. -/
def portStream (r : ChainRx) : List Block :=
  let at_ := fun (l : List Block) => l.findIdx? fun b => blockType b == BLK_ALIGN
  let rest := fun (l : List Block) => l.filter fun b => blockType b != BLK_ALIGN
  match at_ r.lane0, at_ r.lane1 with
  | some i, some j =>
    if i ≤ j + 32 ∧ j ≤ i + 32 then interleave (rest (r.lane0.drop i)) (rest (r.lane1.drop j)) else []
  | none, none => interleave r.lane0 r.lane1
  | _, _ => []

/-- A message in the making: its header, its data blocks so far, and how many are to come. -/
structure ChainPart where
  head : List Byte
  data : List Byte
  left : Nat
  deriving DecidableEq, Repr

/-- The first message that a block stream completes, or else the header of the last one begun. An ABORT, or a START inside
a message, discards the message in progress; any other control block reads as IDLE. -/
def chainTake : Option ChainPart → List Byte → List Block → Option (List Byte) × List Byte
  | _, last, [] => (none, last)
  | p, last, b :: t =>
    if b.ctl then
      if blockType b = BLK_START then
        let h := b.bytes.drop 1
        chainTake (some ⟨h, [], leAt h 4 2⟩) h t
      else if blockType b = BLK_ABORT then chainTake none last t
      else chainTake p last t
    else match p with
      | none => chainTake none last t
      | some x =>
        let d := x.data ++ b.bytes
        if x.left ≤ 1 then (some (x.head ++ d), x.head) else chainTake (some { x with data := d, left := x.left - 1 }) last t

/-- The message that has arrived whole, and the header of the one that arrived or was begun last. -/
def rxMessage (r : ChainRx) : Option (List Byte) := (chainTake none [] (portStream r)).1
def rxHeader (r : ChainRx) : List Byte := (chainTake none [] (portStream r)).2

/-- A message's bytes as blocks: START with the header, then data. -/
def messageBlocks (l : List Byte) : List Block := packetBlockList (0x78 :: l)
/-- The lanes of a port on which a message's blocks arrive in step. -/
def chainRxOf (l : List Byte) : ChainRx := ⟨laneShare 0 (messageBlocks l), laneShare 1 (messageBlocks l)⟩

/-! ### 8b/10b (IEEE 802.3 Clause 36): a group is abcdei fghj, a first and most significant -/

/-- The 6-bit part of a data group by its 5 low bits, at negative running disparity. -/
def d6 (x : Nat) : Nat :=
  [0b100111, 0b011101, 0b101101, 0b110001, 0b110101, 0b101001, 0b011001, 0b111000,
   0b111001, 0b100101, 0b010101, 0b110100, 0b001101, 0b101100, 0b011100, 0b010111,
   0b011011, 0b100011, 0b010011, 0b110010, 0b001011, 0b101010, 0b011010, 0b111010,
   0b110011, 0b100110, 0b010110, 0b110110, 0b001110, 0b101110, 0b011110, 0b101011].getD x 0
/-- The 4-bit part by the 3 high bits, at negative running disparity; `alt` is the alternate form of 7. -/
def d4 (y : Nat) (alt : Bool) : Nat :=
  if y = 7 ∧ alt then 0b0111 else [0b1011, 0b1001, 0b0101, 0b1100, 0b1101, 0b1010, 0b0110, 0b1110].getD y 0
/-- Ones among the low n bits. -/
def ones : Nat → Nat → Nat
  | 0, _ => 0
  | n + 1, v => v % 2 + ones n (v / 2)
/-- A part at a running disparity (true: positive): parts that are not balanced, and D.7 and D.x.3, are sent inverted. -/
def atDisparity (n pos v : Nat) (special : Bool) : Nat :=
  if pos = 1 ∧ (2 * ones n v ≠ n ∨ special) then 2 ^ n - 1 - v else v
/-- The disparity after a part. -/
def dispAfter (n pos v : Nat) : Nat := if 2 * ones n v = n then pos else if n < 2 * ones n v then 1 else 0
/-- A data byte's group, and the disparity after it. -/
def encode10 (pos : Nat) (b : Byte) : Nat × Nat :=
  let x := b.toNat % 32
  let y := b.toNat / 32
  let p := atDisparity 6 pos (d6 x) (x == 7)
  let m := dispAfter 6 pos p
  let alt := if m = 0 then x == 17 || x == 18 || x == 20 else x == 11 || x == 13 || x == 14
  let q := atDisparity 4 m (d4 y alt) (y == 3)
  (p * 16 + q, dispAfter 4 m q)
/-- The special groups used: K28.5, K27.7 and K29.7, at negative disparity. -/
abbrev K28_5 : Nat := 0b0011111010
abbrev K27_7 : Nat := 0b1101101000
abbrev K29_7 : Nat := 0b1011101000
/-- A special group at a disparity. -/
def special10 (pos k : Nat) : Nat := if pos = 1 then 1023 - k else k

/-- The data byte a group stands for at a disparity. -/
def decode10 (pos g : Nat) : Option Byte :=
  match (List.range 32).find? (fun x => atDisparity 6 pos (d6 x) (x == 7) == g / 16) with
  | none => none
  | some x => ((List.range 8).map fun y => BitVec.ofNat 8 (y * 32 + x)).find? fun b => (encode10 pos b).1 == g

/-- The data groups up to K29.7, and what follows it. -/
def data10 : Nat → List (BitVec 10) → Option (List Byte)
  | _, [] => none
  | pos, g :: t =>
    if g.toNat = special10 pos K29_7 then some []
    else match decode10 pos g.toNat with
      | none => none
      | some b => (data10 (encode10 pos b).2 t).map (b :: ·)

/-- The bytes framed by K27.7 and K29.7; none where a group between is not one of the code, or the end is missing (R261). -/
def unframe10 : List (BitVec 10) → Option (List Byte)
  | [] => none
  | g :: t =>
    if g.toNat = K27_7 then data10 (dispAfter 10 0 K27_7) t
    else if g.toNat = special10 1 K27_7 then data10 (dispAfter 10 1 (special10 1 K27_7)) t
    else none

/-- The groups of a packet at a disparity: K27.7, its bytes, K29.7. -/
def groupsOf : Nat → List Byte → List (BitVec 10)
  | pos, [] => [BitVec.ofNat 10 (special10 pos K29_7)]
  | pos, b :: t => BitVec.ofNat 10 (encode10 pos b).1 :: groupsOf (encode10 pos b).2 t
def frame10 (pos : Nat) (l : List Byte) : List (BitVec 10) :=
  BitVec.ofNat 10 (special10 pos K27_7) :: groupsOf (dispAfter 10 pos (special10 pos K27_7)) l
/-- The ordered set that idles a return lane: K28.5, then D16.2 (R261). -/
def returnIdle (pos : Nat) : List (BitVec 10) :=
  let m := dispAfter 10 pos (special10 pos K28_5)
  [BitVec.ofNat 10 (special10 pos K28_5), BitVec.ofNat 10 (encode10 m 0x50).1]

end Sys2Proof.Machine
end

