-- ==== Sys2Proof/Machine/Scan.lean ====
section
/-!
DEFINITION. The scan heads and the tile link (R233 to R265): tile maps and the pixel path, line buffers and their fetches
(R240, R244), grey scans, spread-plane refresh, commits per lane, return packets and tile commands. A command's packets are
left in the lane's `sent`.
-/
namespace Sys2Proof.Machine
open Sys2Proof

def State.lane (s : State) (l : Nat) : Lane := mget (fun _ => {}) s.tileLanes l
def State.setLane (s : State) (l : Nat) (x : Lane) : State := { s with tileLanes := mset (fun _ => {}) s.tileLanes l x }
/-- The lane's active copy of a head register (R251). -/
def State.lnRd (s : State) (l a : Nat) : Word := mget regReset (s.lane l).act a
def State.lnFld (s : State) (l a hi lo : Nat) : Nat := fldOf (s.lnRd l a) hi lo
/-- The value that the lane's slots use (R251). -/
def State.slotRd (s : State) (l a : Nat) : Word := mget regReset (s.lane l).slotAct a
/-- Register of lane l among its head's lane registers. -/
def lnReg (f : Nat → Nat → Nat) (l : Nat) : Nat := f (l / 4) (l % 4)
def State.lnState (s : State) (l : Nat) : Nat := s.fld (lnReg R.SCN_L_STAT l) 1 0
def State.setLnState (s : State) (l st : Nat) : State := s.setF (lnReg R.SCN_L_STAT l) 1 0 st
abbrev LN_DOWN : Nat := 0
abbrev LN_TRAIN : Nat := 1
abbrev LN_RUN : Nat := 2
abbrev LN_SWITCH : Nat := 3
def State.lnSpread (s : State) (l : Nat) : Bool := s.lnFld l (lnReg R.SCN_L_CFG l) 0 0 = 1
def State.lnEn (s : State) (l : Nat) : Bool := bitOf (s.lnRd l (R.SCN_CTRL (l / 4))) (l % 4)
def State.blankMinNs (s : State) (l : Nat) : Nat := s.lnFld l (lnReg R.SCN_L_BLANK l) 15 0 * 1000

/-! ### Packets (R256, R257) -/

/-- A packet: START block, payload and pad, CRC-32C. -/
def tilePacket (h0 h1 : Nat) (h46 : List Byte) (pl : List Byte) : List Byte :=
  let d := (pl.length + 4 + 7) / 8
  let hdr := leBytes 1 h0 ++ leBytes 1 h1 ++ leBytes 2 d ++ h46
  let body := pl ++ List.replicate (d * 8 - 4 - pl.length) 0
  (0x78 : Byte) :: (hdr ++ body ++ leBytes 4 (crc32c (hdr ++ body)).toNat)
/-- A control block (R255). -/
def ctlBlock (ty : Byte) (b : List Byte) : List Byte := ty :: (b ++ List.replicate (7 - b.length) 0)
/-- Blocks of a packet. -/
def packetBlocks (p : List Byte) : Nat := p.length / 8
/-- Blocks of a LINE packet of a tile that is w pixels wide (R239). -/
def lineBlocks (w : Nat) : Nat := 1 + ceilDiv (12 + 6 * w) 8
/-- Nanoseconds of a number of blocks of 5.28 ns. -/
def blockNs (n : Nat) : Nat := (n * 528 + 50) / 100

/-! ### Tile maps (R234 to R236) -/

/-- Entry t of the lane's tile map. -/
def State.tileEntry (s : State) (l t : Nat) : List Byte :=
  let base := s.lnFld l (lnReg R.SCN_L_MAP_HI l) 7 0 * 2 ^ 32 + s.lnFld l (lnReg R.SCN_L_MAP_LO l) 31 5 * 32
  s.oRdBytes (base + t * 32) 32
def tileW (t : List Byte) : Nat := leAt t 4 2
def tileH (t : List Byte) : Nat := leAt t 6 2
/-- A field of a map entry is out of range (R236). -/
def tileBad (t : List Byte) : Bool :=
  decide (7 < leAt t 0 1) || decide (7 < leAt t 1 1) || decide (5 < leAt t 2 1) || decide (3 < leAt t 3 1)
    || tileW t == 0 || decide (4096 < tileW t) || tileH t == 0 || decide (4096 < tileH t)
    || !zeroBytes t 12 16 || !zeroBytes t 24 32

/-- The tiles of a lane in address order, each with whether its pixels are sent dark: a bad entry, or one beyond the
lane's capacity (R236, R243, R249). -/
def markTiles (cap : Nat) : Nat → List (List Byte) → List (List Byte × Bool)
  | _, [] => []
  | used, t :: r =>
    let n := used + tileW t * tileH t
    (t, tileBad t || decide (cap < n)) :: markTiles cap n r
def State.tiles (s : State) (l : Nat) : List (List Byte × Bool) :=
  markTiles (if s.lnSpread l then 24576 else 2097152) 0
    ((List.range (s.lnFld l (lnReg R.SCN_L_CFG l) 14 8)).map (s.tileEntry l))
def State.mapErr (s : State) (l : Nat) : Bool := (s.tiles l).any (·.2)

/-- Entry of a canvas in the scan record of frame f (R234). -/
def State.scanEntry (s : State) (l : Nat) (f : Word) (c : Nat) : List Byte :=
  let h := l / 4
  let base := s.lnFld l (R.SCN_FREC_HI h) 7 0 * 2 ^ 32 + s.lnFld l (R.SCN_FREC_LO h) 31 9 * 512
  s.oRdBytes (base + f.toNat % 2 * 256 + c * 32) 32

/-- The canvas pixel of tile pixel (i, j) (R236). -/
def canvasPixel (t : List Byte) (i j : Nat) : Nat × Nat :=
  let i := if leAt t 1 1 / 4 % 2 = 1 then tileW t - 1 - i else i
  let x0 := leAt t 8 2
  let y0 := leAt t 10 2
  match leAt t 1 1 % 4 with
  | 0 => (x0 + i, y0 + j)
  | 1 => (x0 + tileH t - 1 - j, y0 + i)
  | 2 => (x0 + tileW t - 1 - i, y0 + tileH t - 1 - j)
  | _ => (x0 + j, y0 + tileW t - 1 - i)

/-! ### The pixel path (R237, R238) -/

/-- The calibration matrix applied to one channel (R121). -/
def calRow (m : List Byte) (x : List Nat) (r : Nat) : Nat :=
  let e (c : Nat) : Int := sext 16 (leAt m ((4 * r + c) * 2) 2)
  let acc := e 3 * LUM1 + e 0 * (x.getD 0 0 : Nat) + e 1 * (x.getD 1 0 : Nat) + e 2 * (x.getD 2 0 : Nat)
  (max 0 (min ((acc + 0x1000) / 8192) (LUM1 : Nat))).toNat

/-- The output curve of a lane (R118, R237). -/
def State.lnCurve (s : State) (l x : Nat) : Nat :=
  let a := s.lnFld l (lnReg R.SCN_L_CURVE_HI l) 7 0 * 2 ^ 32 + s.lnFld l (lnReg R.SCN_L_CURVE_LO l) 31 2 * 4
  let n := max 4 (min 12 (s.oRdLe a 1 % 16))
  (curveLane n (fun j => lumClamp (s.oRdW (a + 4 + 4 * j))) (Word.ofNat x)).1.toNat

/-- The three channels of a tile pixel before dither, R, G, B, with the frame's final scales `sc` (R237); a pixel without
a canvas pixel is dark. -/
def State.pixel (s : State) (l : Nat) (f : Word) (sc : Nat → Nat) (t : List Byte) (dark : Bool) (i j : Nat) : List Nat :=
  let e := s.scanEntry l f (leAt t 0 1)
  let (x, y) := canvasPixel t i j
  let w := leAt e 16 2
  if dark ∨ leAt t 3 1 % 2 = 0 ∨ leAt e 22 1 % 2 = 0 ∨ w ≤ x ∨ leAt e 18 2 ≤ y then [0, 0, 0]
  else
    let px := leAt e 0 8 + (y * w + x) * 8
    let v := [0, 1, 2].map fun k => (fcvtLS (f16to32 (s.oRdLe (px + 2 * k) 2)).1).1.toNat
    let v := if leAt t 3 1 / 2 % 2 = 1 then
        let m := s.oRdBytes (leAt t 16 8 + (j * tileW t + i) * 24) 24
        [0, 1, 2].map (calRow m v)
      else v
    let cw := leAt e 20 1 + 1
    let g := s.oRdLe (leAt e 8 8 + y / (leAt e 21 1 + 1) * ceilDiv w cw + x / cw) 1
    let v := if g < 128 then v.map fun c => c * sc (g % 64) / 65536 else v
    if s.lnFld l (lnReg R.SCN_L_CFG l) 16 16 = 1 then v.map (s.lnCurve l) else v

/-- What the pixel path reads for a tile pixel: the canvas pixel, its matrix and its grid byte. -/
def State.pixelReads (s : State) (l : Nat) (f : Word) (t : List Byte) (dark : Bool) (i j : Nat) : List (Nat × Nat) :=
  let e := s.scanEntry l f (leAt t 0 1)
  let (x, y) := canvasPixel t i j
  let w := leAt e 16 2
  if dark ∨ leAt t 3 1 % 2 = 0 ∨ leAt e 22 1 % 2 = 0 ∨ w ≤ x ∨ leAt e 18 2 ≤ y then []
  else
    let cw := leAt e 20 1 + 1
    (leAt e 0 8 + (y * w + x) * 8, 8)
      :: (if leAt t 3 1 / 2 % 2 = 1 then [(leAt t 16 8 + (j * tileW t + i) * 24, 24)] else [])
      ++ [(leAt e 8 8 + y / (leAt e 21 1 + 1) * ceilDiv w cw + x / cw, 1)]

/-- What a lane reads of frame f beside its pixels: its tile map, its scan record and its curve (R40, R41). -/
def State.laneReads (s : State) (l : Nat) (f : Word) : List (Nat × Nat) :=
  let map := s.lnFld l (lnReg R.SCN_L_MAP_HI l) 7 0 * 2 ^ 32 + s.lnFld l (lnReg R.SCN_L_MAP_LO l) 31 5 * 32
  let frec := s.lnFld l (R.SCN_FREC_HI (l / 4)) 7 0 * 2 ^ 32 + s.lnFld l (R.SCN_FREC_LO (l / 4)) 31 9 * 512
  let cur := s.lnFld l (lnReg R.SCN_L_CURVE_HI l) 7 0 * 2 ^ 32 + s.lnFld l (lnReg R.SCN_L_CURVE_LO l) 31 2 * 4
  [(map, s.lnFld l (lnReg R.SCN_L_CFG l) 14 8 * 32), (frec + f.toNat % 2 * 256, 256)]
    ++ (if s.lnFld l (lnReg R.SCN_L_CFG l) 16 16 = 1 then
          [(cur, 4 + 4 * (2 ^ max 4 (min 12 (s.oRdLe cur 1 % 16)) + 1))] else [])

abbrev M_SCN : Nat := 0x4D
/-- A lane's reads are recorded where they meet a byte that is denied. -/
def State.scnNote (s : State) (l : Nat) (rs : List (Nat × Nat)) : State := s.hubNote inDram 0 M_SCN l rs

/-- The matrix B of R238. -/
def ditherB (r c : Nat) : Nat :=
  [0, 8, 2, 10, 12, 4, 14, 6, 3, 11, 1, 9, 15, 7, 13, 5].getD (r * 4 + c) 0
/-- The dither value of tile pixel (i, j) at k (R238). -/
def dither (i j k : Nat) : Nat := ditherB ((j + k / 4) % 4) ((i + k) % 4)
/-- The code shown. -/
def codeOf (x d : Nat) : Nat := min 0xFFFF ((x + d) / 16)
/-- Channel indices in the order of R235. -/
def chanOrder (o : Nat) : List Nat :=
  [[0, 1, 2], [0, 2, 1], [1, 0, 2], [1, 2, 0], [2, 0, 1], [2, 1, 0]].getD o [0, 1, 2]

/-! ### Grey scans (R239 to R241) -/

/-- The channels of line j of a tile, before dither, in the order sent. -/
def State.lineChans (s : State) (l : Nat) (f : Word) (sc : Nat → Nat) (t : List Byte) (dark : Bool) (j : Nat) : List PlaneCh :=
  (List.range (tileW t)).flatMap fun i =>
    let v := s.pixel l f sc t dark i j
    (chanOrder (leAt t 2 1)).map fun k => ⟨i, j, v.getD k 0⟩
/-- The pixel bytes of channels in frame f (R237, R238). -/
def grayBytes (f : Word) (l : List PlaneCh) : List Byte :=
  l.flatMap fun c => leBytes 2 (codeOf c.x (dither c.i c.j (f.toNat % 16)))
/-- A LINE packet, and the pixel bytes in one (R257). -/
def linePkt (f : Word) (e : TileLine) (l : List PlaneCh) : List Byte :=
  tilePacket 0x02 e.2.1 (leBytes 3 (tileW e.2.2.1)) (leBytes 4 f.toNat ++ leBytes 4 e.1 ++ grayBytes f l)
def linePixels (p : List Byte) : List Byte := (p.drop 16).take (6 * leAt p 5 2)

/-- The tile lines of a scan, in the order of R239. -/
def State.scanLines (s : State) (l : Nat) : List TileLine :=
  let ts := (s.tiles l).zipIdx
  let h := ts.foldl (fun m e => max m (tileH e.1.1)) 0
  (List.range h).flatMap fun j =>
    (ts.filter fun e => decide (j < tileH e.1.1)).map fun e => (j, e.2, e.1.1, e.1.2)

/-- A scan's blocks (R239). -/
def State.scanBlocks (s : State) (l : Nat) : Nat :=
  6 + ((s.scanLines l).map fun e => lineBlocks (tileW e.2.2.1)).foldl (· + ·) 0

/-- The lane_crc that a scan of frame f has, read as things stand (R257). -/
def State.scanCrc (s : State) (l : Nat) (f : Word) : Word :=
  crc32c ((s.scanLines l).flatMap fun e => grayBytes f (s.lineChans l f s.scaleOf e.2.2.1 e.2.2.2 e.1))

/-- FRAME_START and FRAME_END packets. -/
def State.frameStartPkt (s : State) (f : Word) (rep : Bool) (n : Nat) : List Byte :=
  tilePacket 0x01 0xFF [0, 0, 0] (leBytes 4 f.toNat ++ [BitVec.ofNat 8 (b2n rep), BitVec.ofNat 8 (s.fld R.CHN_CFG 3 0), 0, 0]
    ++ leBytes 4 n)
def frameEndPkt (f : Word) (n : Nat) (crc : Word) : List Byte :=
  tilePacket 0x03 0xFF [0, 0, 0] (leBytes 4 f.toNat ++ leBytes 4 n ++ leBytes 4 crc.toNat)

/-! ### Fetches and the line buffer (R240, R242 to R245) -/

/-- The final scales of frame f: those of the frame on the outputs, or those computed last (R230). -/
def State.scalesFor (s : State) (f : Word) : Map Nat :=
  if f = s.outTaken then s.outScale
  else setAll ONE16 [] ((List.range 64).map fun g => (g, s.fld (R.LGV_GSCALE g) 16 0))
def Lane.scale (x : Lane) (g : Nat) : Nat := mget (fun _ => ONE16) x.scales g

/-- The lane's fetches that wait are withdrawn. -/
def State.dropReqs (s : State) (l : Nat) : State := { s with dramReqs := s.dramReqs.filter fun r => r.lane ≠ l }

/-- The lane turns to fetching frame f, with nothing fetched yet. -/
def State.beginFetch (s : State) (l : Nat) (f : Word) : State :=
  let x := s.lane l
  let s := ((s.dropReqs l).scnNote l (s.laneReads l f)).setLane l { x with
    plan := s.scanLines l, frame := f, scales := s.scalesFor f, asked := 0, data := [], cur := [], hot := false }
  if s.mapErr l then s.setF (lnReg R.SCN_L_STAT l) 11 11 1 else s

/-- Lines of the frame or scan in hand: a REPEAT has those of the last scan. -/
def Lane.count (x : Lane) : Nat := if x.rep then x.lines.length else x.plan.length
/-- Bytes in the line buffer of 64 KB. -/
def Lane.level (x : Lane) : Nat := (x.data.map fun e => e.2.length).foldl (· + ·) 0
abbrev LINE_BUFFER : Nat := 65536

/-- The class of a grey lane's next fetch (R244); a restart stays at urgent or above until the level reaches urg (R245). -/
def State.scanClass (s : State) (l : Nat) : Nat :=
  let x := s.lane l
  let urg := s.lnFld l (R.SCN_WM (l / 4)) 15 8 * 256
  let crit := s.lnFld l (R.SCN_WM (l / 4)) 7 0 * 256
  if x.level < crit then 2 else if x.level < urg ∨ x.hot then 1 else 0

/-- The device address at which a tile line's pixels begin. -/
def State.lineAddr (s : State) (l : Nat) (f : Word) (e : TileLine) : Nat :=
  ((s.pixelReads l f e.2.2.1 false 0 e.1).head?.map (·.1)).getD 0
/-- The DRAM channel of an address (R30). -/
def dramChan (a : Nat) : Nat := (a / 2 ^ 8 % 16) ^^^ (a / 2 ^ 16 % 16)

/-- A fetch of line k is issued; its class applies to the lane's fetches that wait as well (R44). -/
def State.issueFetch (s : State) (l k cls : Nat) (e : TileLine) : State :=
  let x := s.lane l
  let r : DramReq := ⟨dramChan (s.lineAddr l x.frame e), l, k, cls, s.now⟩
  { s.setLane l { x with asked := k + 1 } with
    dramReqs := (s.dramReqs.map fun q => if q.lane = l then { q with cls := max q.cls cls } else q) ++ [r] }

/-- Line k of a scan, as it is fetched; a REPEAT carries the packets of the scan it repeats (R257). -/
def State.linePacket (s : State) (l k : Nat) : List Byte :=
  let x := s.lane l
  if x.rep then x.lines.getD k []
  else match x.plan[k]? with
    | some e => linePkt x.frame e (s.lineChans l x.frame x.scale e.2.2.1 e.2.2.2 e.1)
    | none => []
/-- The channels of line k of a fill, as it is fetched (R250). -/
def State.fillLine (s : State) (l k : Nat) : List PlaneCh :=
  let x := s.lane l
  match x.plan[k]? with
  | some e => s.lineChans l x.frame x.scale e.2.2.1 e.2.2.2 e.1
  | none => []
/-- What the fetch of line k reads. -/
def State.fetchReads (s : State) (l k : Nat) : List (Nat × Nat) :=
  let x := s.lane l
  match x.plan[k]? with
  | some e => if x.rep then [] else
      (List.range (tileW e.2.2.1)).flatMap fun i => s.pixelReads l x.frame e.2.2.1 e.2.2.2 i e.1
  | none => []

/-- The data of line k arrives. -/
def State.fetched (s : State) (l k : Nat) : State :=
  let x := s.lane l
  let y := if x.filling then { x with got := x.got ++ [(k, s.fillLine l k)] }
           else { x with data := x.data ++ [(k, s.linePacket l k)] }
  let y := if s.lnFld l (R.SCN_WM (l / 4)) 15 8 * 256 ≤ y.level then { y with hot := false } else y
  (s.scnNote l (s.fetchReads l k)).setLane l y

/-- Line k, from the buffer or fetched now. -/
def State.lineNow (s : State) (l k : Nat) : List Byte :=
  match (s.lane l).data.find? fun e => e.1 = k with
  | some e => e.2
  | none => s.linePacket l k

/-- A scan begins at TSU time `t` and tick `k`: after `pre` and `gap` IDLE blocks FRAME_START is sent. -/
def State.beginScan (s : State) (l : Nat) (f : Word) (rep : Bool) (t : Word) (k : Nat) (pre : List (Nat × List Byte)) (gap : Nat) :
    State :=
  let x := s.lane l
  let y := { x with rep := rep }
  s.setLane l { y with
    scanning := true, pre := false, startNs := t, startTick := k, cur := []
    sent := pre ++ [(gap, s.frameStartPkt f rep y.count)] }

/-- Ticks since the last scan ended suffice for `ns` nanoseconds (2.5 ns each). -/
def State.restedFor (s : State) (l ns : Nat) : Bool := decide (ns * 2 ≤ (s.now - (s.lane l).endTick) * 5)
/-- A lane may begin a scan: blanking has run (R241), and the IDLE blocks after a swap of its serializer (R492). -/
def State.blanked (s : State) (l : Nat) : Bool :=
  (!(s.lane l).scanned || s.restedFor l (s.blankMinNs l)) && decide ((s.lane l).restTill ≤ s.now)
/-- Nanoseconds since the scan in progress began. -/
def State.scanAge (s : State) (l : Nat) : Nat := (s.now - (s.lane l).startTick) * 5 / 2

/-- LGV has computed frame F, and no scan is in progress: the lane prefills its buffer with F (R240). -/
def State.prefill (s : State) (l : Nat) : State :=
  let x := s.lane l
  let f := s.rd R.LGV_FRAME
  if s.lnState l ≠ LN_RUN ∨ s.lnSpread l ∨ x.scanning ∨ f ≠ s.committed ∨ (x.scanned ∨ x.pre) ∧ f = x.frame then s
  else
    let s := s.beginFetch l f
    s.setLane l { s.lane l with pre := true }

/-! ### Commits (R247, R251 to R253) -/

/-- The E_ARG checks of a head's commit (R247, SCN_COMMIT). -/
def State.scnBad (s : State) (h : Nat) : Bool :=
  let segs := (List.range 40).map fun j => (s.tFld (R.SCN_SEG h j) 19 16, s.tFld (R.SCN_SEG h j) 12 0)
  (segs.any fun e => e.2 == 0 || decide (4096 < e.2))
    || ((List.range 16).any fun b => ((segs.filter fun e => e.1 == b).map (·.2)).foldl (· + ·) 0 != 2 ^ b)
    || ([0, 1, 2, 3].any fun i => let n := s.tFld (R.SCN_L_CFG h i) 14 8; n == 0 || decide (64 < n))

/-- The commit window of a grey lane has closed: line L − COMMIT_LEAD of the first scan of the newest frame has begun
(R251). -/
def State.windowClosed (s : State) (l : Nat) : Bool :=
  let x := s.lane l
  let n := x.plan.length - s.lnFld l (R.SCN_LEAD (l / 4)) 9 0
  let off := 3 + ((x.plan.take n).map fun e => lineBlocks (tileW e.2.2.1)).foldl (· + ·) 0
  s.lnState l == LN_RUN && !s.lnSpread l && !x.newFrame && (x.scanned || x.scanning)
    && (x.rep || !x.scanning || decide (blockNs off ≤ s.scanAge l))

/-- Commit `no` of a head reaches one of its lanes. -/
def State.commitLane (s : State) (no l : Nat) : State :=
  let x := s.lane l
  if s.windowClosed l then
    (((s.setLane l { x with pend := x.pend ++ [(no, 2)] }).setF (lnReg R.SCN_L_STAT l) 9 9 1).bump
      (lnReg R.SCN_L_CNT1 l) 15 0).log 0x0032 1 l s.fnow.toNat
  else s.setLane l { x with pend := x.pend ++ [(no, 1)] }

/-- The registers a head's commit takes. -/
def scnRanges (h : Nat) : List (Nat × Nat) := [(R.SCN_CTRL h, R.SCN_CTRL (h + 1))]

/-- SCN_COMMIT of head h. -/
def execScnCommit (h : BitVec 3) (s : State) : Res :=
  let n := h.toNat
  let t := s.commitNow (R.SCN_COMMIT n) (scnRanges n) fun u => if u.scnBad n then E_ARG else OK
  .next (match t.commits.find? fun x => x.no = s.writeNo + 1 with
    | some x => [0, 1, 2, 3].foldl (fun (u : State) i => u.commitLane x.no (4 * n + i)) t
    | none => t)

/-- MODE packet (R257). -/
def modePkt (m : Nat) : List Byte := tilePacket 0x05 0xFF [0, 0, 0] (leBytes 12 m)
/-- ENUM packet (R265). -/
def enumPkt (a : Nat) : List Byte := tilePacket 0x10 0xFF [0, 0, 0] (leBytes 12 a)

/-- The slots turn to the lane's active copies; a new anchor is the TSU time nearest now that reads so (R246, R251). -/
def State.slotTurn (s : State) (l : Nat) : State :=
  let x := s.lane l
  let a := R.SCN_RANCH_NS (l / 4)
  s.setLane l { x with
    slotAct := x.act, anchor := if s.lnRd l a = s.slotRd l a then x.anchor else s.tsuNear (s.lnRd l a) }

/-- The tile lines of a fill: tiles in ascending address, then lines (R249). -/
def State.fillPlan (s : State) (l : Nat) : List TileLine :=
  (s.tiles l).zipIdx.flatMap fun e => (List.range (tileH e.1.1)).map fun j => (j, e.2, e.1.1, e.1.2)
/-- A spread-plane lane begins to fill its inactive store with frame f (R250). -/
def State.beginFill (s : State) (l : Nat) (f : Word) : State :=
  let s := s.beginFetch l f
  s.setLane l { s.lane l with plan := s.fillPlan l, filling := true, filled := false, got := [], fillFrame := f }

/-- A lane goes DOWN: what it fetches, scans and fills ends (R253). -/
def State.laneDown (s : State) (l : Nat) : State :=
  let y := s.lane l
  ((s.dropReqs l).setLane l { act := y.act, slotAct := y.slotAct, anchor := y.anchor, pend := y.pend,
                              planes := y.planes }).setLnState l LN_DOWN

/-- A lane takes the values of one commit (R251 to R253). -/
def State.laneTake (l : Nat) (s : State) (c : Commit) : State :=
  let h := l / 4
  let x := s.lane l
  let old := s.lnSpread l
  let st := s.lnState l
  let s := s.setLane l { x with act := c.vals, pend := x.pend.filter fun e => e.1 ≠ c.no }
  let s := if [0, 1, 2, 3].any fun i => (s.lane (4 * h + i)).pend.any fun e => e.1 = c.no then s else s.commitDone c
  let y := s.lane l
  if !s.lnEn l ∨ s.lanesOut.contains l then (s.laneDown l).slotTurn l
  else if st = LN_DOWN then ((s.setLane l { y with trained := false, sent := [] }).slotTurn l).setLnState l LN_TRAIN
  else if old != s.lnSpread l ∧ (st = LN_RUN ∨ st = LN_SWITCH) then
    (((s.dropReqs l).setLane l { y with
      switched := s.lnSpread l, scanning := false, pre := false, slotOn := false, filling := false, filled := false,
      sent := [(0, modePkt (b2n (s.lnSpread l)))] }).slotTurn l).setLnState l LN_SWITCH
  else if s.lnSpread l ∧ y.slotOn then (if y.filling then s.beginFill l y.fillFrame else s)
  else s.slotTurn l

/-- The commits that a lane takes now, in order: those whose boundary has come, and any in DOWN. They are held while LCK is
stopped (R48, R251), and a grey lane's boundary falls between its scans. -/
def State.laneDue (s : State) (l : Nat) : List Commit :=
  let x := s.lane l
  if !s.lckRuns ∨ (x.scanning ∧ !s.lnSpread l) then []
  else (s.waiting (R.SCN_COMMIT (l / 4))).filter fun c =>
    x.pend.any fun e => e.1 == c.no && (e.2 == 0 || s.lnState l == LN_DOWN)
def State.laneApplyDue (s : State) (l : Nat) : State := (s.laneDue l).foldl (State.laneTake l) s

/-- SCN_LANE_COMMIT_APPLY (R251). -/
def execScnLaneCommitApply (l : BitVec 5) (s : State) : Res := .next (s.laneApplyDue l.toNat)

/-! ### Lane events -/

/-- SCAN_START: a grey lane scans the frame its head has taken, prefilled or not (R239, R241). -/
def execScanStart (l : BitVec 5) (s : State) : Res :=
  let n := l.toNat
  .next (
    let t := s.laneApplyDue n
    let x := t.lane n
    if t.lnState n ≠ LN_RUN ∨ t.lnSpread n ∨ x.scanning ∨ !x.newFrame ∨ !t.blanked n then s
    else
      let f := t.outTaken
      let t := if x.pre ∧ x.frame = f then t else t.beginFetch n f
      let t := t.setLane n { t.lane n with newFrame := false }
      ((t.wr (lnReg R.SCN_L_FRAME n) f).wr (lnReg R.SCN_L_SCAN n) (Word.ofNat (blockNs (t.scanBlocks n)))).beginScan n f
        false t.tsuNs t.now [] 0)

/-- SCAN_END: what is left of the scan and FRAME_END have been sent, and blanking begins, with the prefill where LGV has
computed the next frame (R240, R241). -/
def execScanEnd (l : BitVec 5) (s : State) : Res :=
  let n := l.toNat
  let x := s.lane n
  .next (if !x.scanning then s
    else
      let rest := (List.range' x.cur.length (x.count - x.cur.length)).map (s.lineNow n)
      let lines := x.cur ++ rest
      let crc := crc32c (lines.flatMap linePixels)
      let reads := (List.range' x.asked (x.count - x.asked)).flatMap (s.fetchReads n)
      let f := s.rd (lnReg R.SCN_L_FRAME n)
      let t := ((s.dropReqs n).scnNote n reads).setLane n { x with
        scanning := false, scanned := true, endNs := s.tsuNs, endTick := s.now, lines := lines, crc := crc
        data := [], cur := [], hot := false
        sent := (rest ++ [frameEndPkt f lines.length crc]).map fun p => (0, p) }
      (t.wr (lnReg R.SCN_L_CRC n) crc).prefill n)

/-- REPEAT_SCAN: BLANK_MAX has passed since the last scan with no new frame start (R241). -/
def execRepeatScan (l : BitVec 5) (s : State) : Res :=
  let n := l.toNat
  let x := s.lane n
  let blankMax := s.lnFld n (lnReg R.SCN_L_BLANK n) 31 16
  .next (if s.lnState n ≠ LN_RUN ∨ s.lnSpread n ∨ x.scanning ∨ x.newFrame ∨ !x.scanned ∨ blankMax = 0
      ∨ !s.restedFor n (blankMax * 1000) then s
    else
      let f := s.rd (lnReg R.SCN_L_FRAME n)
      let t := (s.dropReqs n).setLane n { x with asked := 0, data := [], hot := false, frame := f }
      (t.beginScan n f true t.tsuNs t.now [] 0).bump (lnReg R.SCN_L_CNT0 n) 15 0)

/-- LINE_UNDERRUN: the next line's data is not in the buffer: ABORT, IDLE for BLANK_MIN, and the same scan again, fetched at
no lower than urgent (R245). -/
def execLineUnderrun (l : BitVec 5) (s : State) : Res :=
  let n := l.toNat
  let x := s.lane n
  let f := s.rd (lnReg R.SCN_L_FRAME n)
  let gap := s.blankMinNs n
  .next (if !x.scanning ∨ x.count ≤ x.cur.length ∨ (x.data.any fun e => e.1 = x.cur.length) then s
    else
      let t := (s.dropReqs n).setLane n { x with asked := 0, data := [], hot := true }
      let t := t.beginScan n f x.rep (t.tsuNs + Word.ofNat gap) (t.now + gap * 2 / 5) [(0, ctlBlock 0x55 (leBytes 4 f.toNat))]
        (ceilDiv (gap * 100) 528)
      ((t.bump (lnReg R.SCN_L_CNT0 n) 31 16).setF (lnReg R.SCN_L_STAT n) 8 8 1).log 0x0030 1 n f.toNat)

/-! ### Spread-plane mode (R246 to R250) -/

/-- TSU time of the start of slot n of a lane, not wrapped, and as TSU_NS (R246). -/
def State.slotStart (s : State) (l n : Nat) : Int := (s.lane l).anchor + (n * 78125 / 12 : Nat)
def State.slotTime (s : State) (l n : Nat) : Word := Word.ofInt (s.slotStart l n)
/-- The number of the last slot to have started by now; 0 while the anchor is ahead. -/
def State.slotNow (s : State) (l : Nat) : Nat := (12 * (s.tsuLong - (s.lane l).anchor).toNat + 11) / 78125
/-- The refresh index of period p from the anchor. -/
def State.refreshIdx (s : State) (l p : Nat) : Word := s.slotRd l (R.SCN_RANCH_IDX (l / 4)) + Word.ofNat p
/-- The first period whose start is at least the TSU time t, not wrapped: a period lasts 781,250 ÷ 3 ns. -/
def State.firstPeriod (s : State) (l : Nat) (t : Int) : Nat := ceilDiv (3 * (t - (s.lane l).anchor).toNat) 781250

/-- The plane values of frame f, up to but not including the dither (R250), in the channel order of R249. -/
def State.planeValues (s : State) (l : Nat) (f : Word) : List PlaneCh :=
  (s.fillPlan l).flatMap fun e => s.lineChans l f s.scaleOf e.2.2.1 e.2.2.2 e.1

/-- The class of a fill's next fetch: normal in the first half of the time to slot 39 of the period before the switch,
urgent in the next quarter, then critical (R250). -/
def State.fillClass (s : State) (l : Nat) : Nat :=
  let x := s.lane l
  let all := (s.slotStart l (40 * x.showFrom - 1) - x.fillFrom).toNat
  let past := (s.tsuLong - x.fillFrom).toNat
  if 2 * past < all then 0 else if 4 * past < 3 * all then 1 else 2

/-- Pack bits, the first in bit 0 of the first byte. -/
def packBits : List Bool → List Byte
  | a :: b :: c :: d :: e :: f :: g :: h :: t =>
    BitVec.ofNat 8 (b2n a + 2 * b2n b + 4 * b2n c + 8 * b2n d + 16 * b2n e + 32 * b2n f + 64 * b2n g + 128 * b2n h)
      :: packBits t
  | [] => []
  | l => [BitVec.ofNat 8 (l.foldr (fun b n => b2n b + 2 * n) 0)]

/-- The PLANE packet of slot j of period p (R249, R257). -/
def State.planePkt (s : State) (l p j : Nat) : List Byte :=
  let seg := s.slotRd l (R.SCN_SEG (l / 4) j)
  let b := fldOf seg 19 16
  let r := s.refreshIdx l p
  let bits := (s.lane l).planes.map fun c => (codeOf c.x (dither c.i c.j (r.toNat % 16))).testBit b
  tilePacket 0x04 0xFF (leBytes 1 j ++ leBytes 2 (fldOf seg 12 0))
    (leBytes 4 r.toNat ++ leBytes 4 (s.rd (lnReg R.SCN_L_FRAME l)).toNat ++ packBits bits)

/-- The period whose slot 0 comes next shows the filled frame, and the slots turn to the lane's active copies; on a grid with
a new anchor the period that begins nearest takes its place. -/
def State.planeSwitch (s : State) (l p : Nat) : State :=
  let x := s.lane l
  let t := s.slotStart l (40 * p)
  let s := (s.setLane l { x with planes := x.fill, fill := [], filled := false, effectNs := some (Word.ofInt t) }).wr
    (lnReg R.SCN_L_FRAME l) x.fillFrame
  let s := (s.wr (lnReg R.SCN_L_CRC l) (crc32c (x.fill.flatMap fun c => leBytes 3 c.x))).slotTurn l
  let y := s.lane l
  if y.anchor = x.anchor then s
  else
    let p' := (6 * (t - y.anchor).toNat + 781250) / (2 * 781250)
    s.setLane l { y with slot := 40 * p' - 1 }

/-- Before the PLANE packet of slot 0 of period p: the switch of R250, or PLANE_LATE. -/
def State.periodTurn (s : State) (l p : Nat) : State :=
  let x := s.lane l
  if x.filled ∧ x.showFrom ≤ p then s.planeSwitch l p
  else if x.filling ∧ x.showFrom ≤ p ∧ !x.lateNoted then
    ((s.setLane l { x with lateNoted := true }).bump (lnReg R.SCN_L_CNT1 l) 31 16).log 0x0031 1 l x.fillFrame.toNat
  else s

/-- SLOT_LATCH: slot n starts; LATCH, then the PLANE packet of the next slot (R246). A trained lane begins at the start of a
period, and one that has switched to spread-plane mode with the plane that R250 shows first (R253). A swap of the
serializer takes the place of the packet (R492). -/
def execSlotLatch (l : BitVec 5) (s : State) : Res :=
  let n := l.toNat
  let x := s.lane n
  let k := if x.slotOn then x.slot + 1 else s.slotNow n
  let last := decide (k % 40 = 39)
  let first := x.filled && last && decide (x.showFrom ≤ k / 40 + 1)
  .next (if !s.lnSpread n ∨ s.tsuLong < s.slotStart n k then s
    else if s.lnState n = LN_TRAIN ∧ x.trained ∧ k % 40 = 0 ∨ s.lnState n = LN_RUN ∧ (!x.switched ∨ first) then
      let latch := ctlBlock 0x4B (leBytes 1 (k % 40) ++ leBytes 2 (s.refreshIdx n (k / 40)).toNat)
      let t := (s.setLane n { x with slot := k, slotOn := true, trained := false, switched := false, dark := false }).setLnState n LN_RUN
      let t := if last then t.periodTurn n (k / 40 + 1) else t
      let y := t.lane n
      t.setLane n { y with
        sent := (if x.switched then [] else [(0, latch)])
          ++ if x.dark then [] else [(0, t.planePkt n ((y.slot + 1) / 40) ((y.slot + 1) % 40))] }
    else s)

/-- PLANE_FILL_DONE: the rest of frame F has been fetched, and the inactive plane store holds it (R250). -/
def execPlaneFillDone (l : BitVec 5) (s : State) : Res :=
  let n := l.toNat
  let t := s.laneApplyDue n
  let x := t.lane n
  .next (if !x.filling then s
    else
      let line := fun (k : Nat) => match x.got.find? fun e => e.1 = k with
        | some e => e.2
        | none => t.fillLine n k
      let reads := (List.range' x.asked (x.plan.length - x.asked)).flatMap (t.fetchReads n)
      ((t.dropReqs n).scnNote n reads).setLane n { x with
        filling := false, filled := true, got := [], fill := (List.range x.plan.length).flatMap line })

/-! ### Training and enumeration (R253, R265) -/

/-- What a lane sends while it sends nothing else: electrical idle in DOWN, else IDLE (R253). -/
def State.laneRest (s : State) (l : Nat) : Option Block := if s.lnState l = LN_DOWN then none else some idleBlock
/-- The blocks that the last command sent on a lane (R254, R255). -/
def State.laneBlocks (s : State) (l : Nat) : List Block :=
  (s.lane l).sent.flatMap fun e => List.replicate e.1 idleBlock ++ packetBlockList e.2
/-- Those blocks on the wire, after what the scrambler holds (R254). -/
def State.laneWire (s : State) (l : Nat) (x : BitVec 58) : List (BitVec 2 × List Bool) := blocksOnWire x (s.laneBlocks l)

/-- LANE_TRAIN_DONE: 65,536 IDLE blocks sent, then ENUM; in Langal strict the links are idle (R324). -/
def execLaneTrainDone (l : BitVec 5) (s : State) : Res :=
  let n := l.toNat
  .next (if s.strict ∨ s.lnState n ≠ LN_TRAIN ∨ (s.lane n).trained then s
    else s.setLane n { s.lane n with trained := true, enumOpen := true, idents := 0, sent := [(65536, enumPkt 0)] })

/-- ENUM_WINDOW_END: the replies are counted (R265). -/
def execEnumWindowEnd (l : BitVec 5) (s : State) : Res :=
  let n := l.toNat
  let x := s.lane n
  let want := s.lnFld n (lnReg R.SCN_L_CFG n) 14 8
  .next (if !x.enumOpen then s
    else
      let s := (s.setLane n { x with enumOpen := false }).setF (lnReg R.SCN_L_STAT n) 23 17 x.idents
      if x.idents = want then s
      else (s.setF (lnReg R.SCN_L_STAT n) 16 16 1).log 0x0033 1 n x.idents want)

/-! ### The return lane (R261 to R263) -/

/-- The entries of R263 for a packet. -/
def State.returnEntries (s : State) (l tile ty : Nat) (pl : List Byte) : Nat → List (List Byte)
  | 0 => []
  | k + 1 =>
    if ty = 0x83 then
      let off := leAt pl 0 4
      let d := pl.drop 4
      if d.isEmpty then []
      else
        let c := d.take 24
        ([BitVec.ofNat 8 l, BitVec.ofNat 8 tile, BitVec.ofNat 8 ty, BitVec.ofNat 8 c.length] ++ leBytes 4 off ++ c)
          :: s.returnEntries l tile ty (leBytes 4 (off + 24) ++ d.drop 24) k
    else
      [[BitVec.ofNat 8 l, BitVec.ofNat 8 tile, BitVec.ofNat 8 ty, BitVec.ofNat 8 (min 24 pl.length)]
        ++ leBytes 4 s.tsuNs.toNat ++ pl.take 24]

/-- Return entries of a lane that wait for room in the FIFO. -/
def State.laneWaiting (s : State) (q l : Nat) : Nat :=
  ((s.fifo q).stalled.filter fun p => p.who = .hw M_SCN l).length

/-- A return packet's bytes arrive (R261 to R263). -/
def State.returnBytes (s : State) (n : Nat) (pkt : List Byte) : State :=
  let len := leAt pkt 2 2
  let body := pkt.take (4 + len)
  let pl := body.drop 4
  let h := n / 4
  let q := s.fld (R.SCN_RETQ h) 7 0
  let good := decide (pkt.length = 8 + len) && decide (len ≤ 1028) && decide ((crc32c body).toNat = leAt pkt (4 + len) 4)
  let ty := leAt pkt 0 1
  let es := s.returnEntries n (leAt pkt 1 1) ty pl 43
  if !good ∨ (s.bit (R.SCN_RETQ h) 8 ∧ 4096 < (s.laneWaiting q n + es.length) * 32) then
    s.bump (lnReg R.SCN_L_RCNT n) 31 16
  else
    let x := s.lane n
    let s := if ty = 0x82 ∧ x.enumOpen then s.setLane n { x with idents := x.idents + 1 } else s
    if !s.bit (R.SCN_RETQ h) 8 then s
    else
      let s := es.foldl (fun (s : State) e => s.hwPush q M_SCN n 32 (wordsOf (e ++ List.replicate (32 - e.length) 0))) s
      s.bump (lnReg R.SCN_L_RCNT n) 15 0

/-- RETURN_PACKET: the code groups of a packet, K27.7 to K29.7 (R261). One with a group that is not of the code is
discarded as one with a failing CRC is. -/
def execReturnPacket (l : BitVec 5) (groups : List (BitVec 10)) (s : State) : Res :=
  .next (s.returnBytes l.toNat ((unframe10 groups).getD []))

/-- RETURN_LANE_LOCK (R261). -/
def execReturnLaneLock (l : BitVec 5) (locked : Bool) (s : State) : Res :=
  .next (s.setF (lnReg R.SCN_L_STAT l.toNat) 10 10 (b2n locked))

/-- Nanoseconds until the frame start that has been announced. -/
def State.startNear (s : State) (ns : Nat) : Bool :=
  match s.flkNext with
  | some x => decide (sdiff x.2.1 s.tsuNs < (ns : Int))
  | none => false
/-- A packet of b blocks fits now: in grey mode in blanking after BLANK_MIN, before the next scan or REPEAT can begin; in
spread-plane mode between the end of the PLANE packet and the next slot (R264). -/
def State.gapFits (s : State) (l b : Nat) : Bool :=
  let x := s.lane l
  let len := blockNs b
  if s.lnSpread l then
    let plane := (x.sent.map fun e => packetBlocks e.2).foldl (· + ·) 0
    !x.slotOn || (decide (s.slotStart l x.slot + blockNs (plane + 1) ≤ s.tsuLong)
      && decide (s.tsuLong + len ≤ s.slotStart l (x.slot + 1)))
  else
    let blankMax := s.lnFld l (lnReg R.SCN_L_BLANK l) 31 16 * 1000
    !x.scanning && s.blanked l && !x.newFrame && !s.startNear len
      && (!x.scanned || blankMax == 0 || decide ((s.now - x.endTick) * 5 + len * 2 ≤ blankMax * 2))

/-- TILE_CMD_SEND: the head pops a command entry and sends its packet in a gap that holds it, or discards it (R264). -/
def execTileCmdSend (h : BitVec 3) (s : State) : Res :=
  let q := s.fld (R.SCN_CMDQ h.toNat) 7 0
  .next (if !s.bit (R.SCN_CMDQ h.toNat) 8 ∨ !s.qCons q G_HW ∨ (s.fifo q).avail = 0 then s
    else
      let p := s.qPop q true
      let e := bytesOfWords p.2.1
      let l := 4 * h.toNat + leAt e 0 1
      let ty := leAt e 2 1
      let pkt := tilePacket ty (leAt e 1 1) [0, 0, 0] ((e.drop 4).take 12)
      let t := p.2.2
      if 3 < leAt e 0 1 ∨ (ty ≠ 0x10 ∧ ty ≠ 0x11) ∨ s.lnState l ≠ LN_RUN then t
      else if !s.gapFits l (packetBlocks pkt) then s
      else
        let x := t.lane l
        let y := { x with sent := x.sent.take (if s.lnSpread l then 2 else 0) ++ [(0, pkt)] }
        t.setLane l (if ty = 0x10 then { y with enumOpen := true, idents := 0 } else y))

/-! ### Frame starts, E and bounds (R186 step 5, R195, R242) -/

/-- A frame start at one lane: commits come one boundary nearer, SWITCH and TRAIN end, and the newest frame is taken. -/
def State.laneAt (s : State) (st : Word) (take : Bool) (l : Nat) : State :=
  let s := s.laneApplyDue l
  let x := s.lane l
  let state := s.lnState l
  let spread := s.lnSpread l
  let go := (state = LN_TRAIN ∧ x.trained ∧ !spread) ∨ state = LN_SWITCH
  let x := { x with pend := x.pend.map fun e => (e.1, e.2 - 1), trained := x.trained && !go }
  let s := if go then (s.setLane l x).setLnState l LN_RUN else s.setLane l x
  if !take then s
  else if spread then
    if state = LN_RUN ∨ state = LN_TRAIN ∨ go then
      let s := s.beginFill l s.outTaken
      let x := s.lane l
      s.setLane l { x with
        fillFrom := s.tsuNear st, lateNoted := false
        showFrom := s.firstPeriod l (s.tsuNear st + 260417) }
    else s
  else s.setLane l { x with newFrame := true }

/-- Frame start at every lane. -/
def State.lanesAt (s : State) (st : Word) (take : Bool) : State :=
  (List.range 32).foldl (fun (s : State) l => s.laneAt st take l) s

/-- A lane's contribution to E (R242). -/
def State.laneEarliest (s : State) (l : Nat) : Option Word :=
  let x := s.lane l
  if s.lnState l ≠ LN_RUN then none
  else if s.lnSpread l then x.effectNs
  else if x.scanning then
    some (x.startNs + Word.ofNat ((s.rd (lnReg R.SCN_L_SCAN l)).toNat + s.blankMinNs l))
  else if x.scanned then some (x.endNs + Word.ofNat (s.blankMinNs l)) else none

/-- The latest of some times; `none` when there is none. -/
def latest (l : List Word) : Option Word :=
  l.foldl (fun m t => match m with
    | some x => some (if 0 ≤ sdiff x t then x else t)
    | none => some t) none

/-- E of one head, SCN_EARLIEST (R242). -/
def State.headEarliest (s : State) (h : Nat) : Option Word :=
  latest ([0, 1, 2, 3].filterMap fun i => s.laneEarliest (4 * h + i))

/-! ### The fabric's share of a tick (R42 to R44, R239, R244) -/

/-- A lane issues its next fetch: a grey lane where the line buffer has room for it beside those that wait, a fill at once. -/
def State.fetchNext (s : State) (l : Nat) : State :=
  let x := s.lane l
  if x.count ≤ x.asked then s
  else if x.filling then match x.plan[x.asked]? with
    | some e => s.issueFetch l x.asked (s.fillClass l) e
    | none => s
  else if x.scanning || x.pre then
    let size := fun (k : Nat) => if x.rep then (x.lines.getD k []).length
      else ((x.plan[k]?).map fun e => 8 * lineBlocks (tileW e.2.2.1)).getD 0
    let waits := ((s.dramReqs.filter fun r => r.lane = l).map fun r => size r.line).foldl (· + ·) 0
    if LINE_BUFFER < x.level + waits + size x.asked then s
    else s.issueFetch l x.asked (s.scanClass l) ((x.plan[x.asked]?).getD (0, 0, [], true))
  else s

/-- The next LINE packet leaves once its place in the sequence has come, if its data is there (R239, R240). -/
def State.sendLine (s : State) (l : Nat) : State :=
  let x := s.lane l
  let off := 3 + (x.cur.map packetBlocks).foldl (· + ·) 0
  if !x.scanning ∨ x.count ≤ x.cur.length ∨ s.scanAge l < blockNs off then s
  else match x.data.find? fun e => e.1 = x.cur.length with
    | some e => s.setLane l { x with
        cur := x.cur ++ [e.2], data := x.data.filter (fun d => d.1 ≠ e.1), sent := x.sent ++ [(0, e.2)] }
    | none => s

/-- The request that a channel serves next: the oldest critical one; else one of the urgent ones; else one of the normal
ones. Among those of one class below critical row hits come first, which is a free value here. -/
def State.dramPick (s : State) (c : Nat) : Option DramReq :=
  let mine := s.dramReqs.filter fun r => r.chan = c
  let of := fun (k : Nat) => mine.filter fun r => r.cls = k
  if !(of 2).isEmpty then (of 2).head?
  else if !(of 1).isEmpty then (of 1)[s.free 78 (of 1).length]?
  else (of 0)[s.free 78 (of 0).length]?

/-- One tick at a channel that holds requests: a burst goes on, a request is served, or a refresh falls due, which
critical requests defer for up to 4 intervals. Which of them comes is a free value (assumption 60). -/
def State.chanTick (c : Nat) (s : State) : State :=
  match s.dramPick c with
  | none => s
  | some r =>
    let w := s.free 79 3
    let s := s.useFree
    let held := mget (fun _ => 0) s.dramRef c
    if w = 0 then s
    else if w = 1 then { s with dramReqs := s.dramReqs.erase r }.fetched r.lane r.line
    else if r.cls = 2 ∧ held < 4 then { s with dramRef := mset (fun _ => 0) s.dramRef c (held + 1) }
    else { s with dramRef := mset (fun _ => 0) s.dramRef c 0 }

/-- What the lanes and the DRAM channels do in a tick while LCK runs. -/
def State.fabricTick (s : State) : State :=
  if !s.lckRuns then s
  else
    let s := s.tileLanes.foldl (fun (s : State) e => (s.fetchNext e.1).sendLine e.1) s
    if s.dramReqs.isEmpty then s else (List.range 16).foldl (fun (s : State) c => s.chanTick c) s

/-- The bound of a lane on the period, ns (R195). -/
def State.lanePmin (s : State) (l : Nat) : Nat :=
  if s.lnState l = LN_DOWN then 0
  else if s.lnSpread l then 520834
  else blockNs (s.scanBlocks l) + s.blankMinNs l

end Sys2Proof.Machine
end

