-- ==== Sys2Proof/Machine/Spread.lean ====
section
/-!
DEFINITION. SPD, the spread drive (R266 to R274, R277 to R279).
-/
namespace Sys2Proof.Machine
open Sys2Proof

def State.sch (s : State) (n : Nat) : SpdCh := mget (fun _ => {}) s.spd n
def State.setSch (s : State) (n : Nat) (x : SpdCh) : State := { s with spd := mset (fun _ => {}) s.spd n x }
/-- State of a channel (R269). -/
def State.schState (s : State) (n : Nat) : Nat := s.fld (R.SPD_CH_STAT n) 31 30
def State.setSchState (s : State) (n st : Nat) : State := s.setF (R.SPD_CH_STAT n) 31 30 st
abbrev CH_FRAME : Nat := 0
abbrev CH_FADE : Nat := 1
abbrev CH_HOLD : Nat := 2

/-- Period and segments in force (R266). -/
def State.spdTp (s : State) : Nat := s.aFld R.SPD_PERIOD 21 0
def State.spdSegs (s : State) : Nat := 2 ^ s.aFld R.SPD_PERIOD 26 24
def State.spdPidx (s : State) : Word := s.rd R.SPD_PIDX
/-- TSU time at which period r starts (R267). -/
def State.periodTime (s : State) (r : Word) : Word :=
  s.aRd R.SPD_ANCH_NS + Word.ofInt (sdiff r (s.aRd R.SPD_ANCH_IDX) * (s.spdTp : Nat) * 5 / 2)

/-! ### Levels and on-times (R268, R277) -/

/-- The derating factor of a channel's group. -/
def State.factOf (s : State) (n : Nat) : Nat := s.fld (R.SPD_GRP_FACT (s.aFld (R.SPD_CH_CFG n) 6 4)) 16 0

/-- On-time in ticks and the new remainder of level x in period r (R268). -/
def onTime (n x tp : Nat) (r : Word) (acc : Nat) : Nat × Nat :=
  let c := codeOf x (dither (n % 4) (n / 4) (r.toNat % 16))
  let t := c * tp
  let a := acc + t % 0xFFFF
  if 0xFFFF ≤ a then (t / 0xFFFF + 1, a - 0xFFFF) else (t / 0xFFFF, a)

/-- Reverse the low k bits. -/
def bitRev (k q : Nat) : Nat := reflect k q
/-- On-time of segment q of a period with on-time N (R268). -/
def segOn (k total q : Nat) : Nat := total / 2 ^ k + (if bitRev k q < total % 2 ^ k then 1 else 0)
/-- Whether the output is active at a tick of segment q (R268): ticks past the segment's end wrap. -/
def State.segActive (s : State) (n q tick : Nat) : Bool :=
  let ts := s.spdTp / s.spdSegs
  let ph := ts * s.aFld (R.SPD_CH_CFG n) 15 8 / 256
  decide ((tick + (ts - ph)) % ts < segOn (s.aFld R.SPD_PERIOD 26 24) (s.sch n).on q)

/-- The level at which SPDn's ball is now: none while it is high-impedance; its inactive level is the one `pol` names
(R268, R278). -/
def State.spdBall (s : State) (n : Nat) : Option Bool :=
  let pol := s.aBit (R.SPD_CH_CFG n) 2
  let tick := (s.tsuNs - s.periodTime s.spdPidx).toNat * 2 / 5
  let ts := s.spdTp / s.spdSegs
  match s.spdDrive n with
  | 0 => none
  | 1 => some pol
  | _ => some (s.segActive n (tick / ts) (tick % ts) != pol)

/-- Bring a channel's derated level and on-time up to date. A period start takes the factor and carries the remainder; a
change within the period leaves both as they were, so that one to the same level changes nothing (R273, R274; assumption
59). -/
def State.schShow (s : State) (n : Nat) (carry : Bool) : State :=
  let x := s.sch n
  if !s.aBit (R.SPD_CH_CFG n) 3 then (s.setSch n { x with on := 0 }).setF (R.SPD_CH_STAT n) 19 0 0
  else
    let x := if carry then { x with fact := s.factOf n, accWas := x.acc } else x
    let lv := x.level * x.fact / 65536
    let o := onTime n lv s.spdTp s.spdPidx x.accWas
    (s.setSch n { x with on := o.1, acc := if carry then o.2 else x.acc }).setF (R.SPD_CH_STAT n) 19 0 lv

/-- The channel returns to its rest source (R269). -/
def State.schRest (s : State) (n : Nat) : State :=
  let x := s.sch n
  if s.aFld (R.SPD_CH_CFG n) 1 0 = 0 then (s.setSch n { x with rest := false, rel := false, level := x.frameVal }).setSchState n CH_FRAME
  else (s.setSch n { x with rest := true, rel := false, level := s.fld (R.SPD_CH_LEVEL n) 19 0 }).setSchState n CH_HOLD

/-! ### Commits (R266, R267) -/

/-- SPD's shadowed registers. -/
def spdRanges : List (Nat × Nat) :=
  [(R.SPD_CTRL, R.SPD_COMMIT), (R.SPD_PERIOD, R.SPD_PIDX), (R.SPD_TRIG 0, R.SPD_CH_CFG 96),
    (R.SPD_SNAP 0 0, R.SPD_SNAP 8 0)]

/-- SPD_COMMIT (R266). -/
def execSpdCommit (s : State) : Res :=
  .next (s.commitNow R.SPD_COMMIT spdRanges fun s =>
    let tp := s.tFld R.SPD_PERIOD 21 0
    let k := s.tFld R.SPD_PERIOD 26 24
    if tp < 4000 ∨ 4000000 < tp ∨ 6 < k ∨ tp % 2 ^ k ≠ 0 then E_ARG else OK)

/-- Channel n after a commit: an enable clears the remainder and enters the rest source (R268, R269). -/
def State.schEnable (s : State) (n : Nat) (was : Bool) : State :=
  if s.aBit (R.SPD_CH_CFG n) 3 ∧ !was then (s.setSch n { s.sch n with acc := 0, go := none }).schRest n else s

/-- A commit is applied at the boundary at TSU time t, which starts period r (R267). -/
def State.spdTurn (r t : Word) (s : State) (x : Commit) : State :=
  let was := (List.range 96).map fun n => s.aBit (R.SPD_CH_CFG n) 3
  let oldA := (s.aRd R.SPD_ANCH_NS, s.aRd R.SPD_ANCH_IDX)
  let oldP := (s.spdTp, s.spdSegs)
  let newA := (x.rd R.SPD_ANCH_NS, x.rd R.SPD_ANCH_IDX)
  let s := s.applyCommit x
  let s :=
    if newA ≠ s.spdAnch then
      let d := sdiff t newA.1 * 2 / (5 * (s.spdTp : Nat))
      { s with spdAnch := newA }.wr R.SPD_PIDX (newA.2 + Word.ofInt d)
    else if (s.spdTp, s.spdSegs) ≠ oldP then (s.aWr R.SPD_ANCH_NS t).aWr R.SPD_ANCH_IDX r
    else (s.aWr R.SPD_ANCH_NS oldA.1).aWr R.SPD_ANCH_IDX oldA.2
  (was.zipIdx).foldl (fun (s : State) e => s.schEnable e.2 e.1) s
/-- Every commit at least 8 ticks old applies at the boundary. -/
def State.spdApply (s : State) (r t : Word) : State :=
  ((s.waiting R.SPD_COMMIT).filter fun x => decide (8 ≤ s.now - x.at_)).foldl (State.spdTurn r t) s

/-! ### Period starts (R268 to R271, R274) -/

/-- The fade of a channel as a record of R127, in periods. -/
def SpdCh.fadeBlock (x : SpdCh) : List Byte :=
  leBytes 4 (x.from_ + fldOf x.fto 23 20 * 2 ^ 20) ++ leBytes 4 (fldOf x.fto 19 0) ++ leBytes 4 x.start.toNat
    ++ leBytes 4 x.len.toNat

/-- A fade begins at period r from the present level. -/
def State.schFade (s : State) (n : Nat) (r fto len : Word) : State :=
  let x := s.sch n
  (s.setSch n { x with from_ := x.level, fto := fto, start := r, len := len, rest := false }).setSchState n CH_FADE

/-- A waiting fade starts at period r. -/
def SpdGo.due (g : SpdGo) (now : Nat) (r : Word) : Bool :=
  g.late || (match g.at_ with
    | some a => decide (0 ≤ sdiff r a)
    | none => decide (400 ≤ now - g.wrote))
/-- Channel n's waiting fade starts if period r is its own. -/
def State.schGo (s : State) (r : Word) (n : Nat) : State :=
  match (s.sch n).go with
  | some g => if g.due s.now r then (s.setSch n { s.sch n with go := none }).schFade n r g.fto g.len else s
  | none => s

/-- Channel n at the start of period r: a release and a fade start, the one written last prevailing, then the frame value
or the fade step. -/
def State.schPeriod (s : State) (r : Word) (n : Nat) : State :=
  if !s.aBit (R.SPD_CH_CFG n) 3 then s.schShow n true
  else
    let rest := fun (s : State) => if (s.sch n).rel then s.schRest n else s
    let s := if (s.sch n).relLast then rest (s.schGo r n) else (rest s).schGo r n
    let x := s.sch n
    let s :=
      if s.schState n = CH_FRAME then s.setSch n { x with level := x.frameVal }
      else if s.schState n = CH_FADE then
        let lv := (fadeMix x.fadeBlock (fadePos x.fadeBlock r)).toNat
        let len := min x.len.toNat 0x7FFFFFFF
        let s := s.setSch n { x with level := lv }
        if (len : Int) ≤ sdiff r x.start then s.setSchState n CH_HOLD else s
      else if x.rest then s.setSch n { x with level := s.fld (R.SPD_CH_LEVEL n) 19 0 }
      else s
    s.schShow n true

/-- What balls drive from the next boundary (R278): the inactive level for one period, then the schedule. -/
def spdNext (drives : Bool) (o : Nat) : Nat := if drives then min 2 (o + 1) else 0
/-- The balls at a period boundary: the package's own outputs, and those its pair owns, which only a PRIMARY or SOLO
package drives (R279, R478). -/
def State.spdBalls (s : State) : State :=
  let oe := s.aBit R.SPD_CTRL 0
  let o := spdNext oe s.spdOut
  { s with spdOut := o, spdPair := if s.pairRole ≤ 1 then o else 0 }.noteDriving

/-! ### The snap table (R272, R273) -/

/-- Entry of row t for channel n. -/
def State.snapOne (s : State) (t n : Nat) : State :=
  let e := s.aRd (R.SPD_SNAP t n)
  if !bitOf e 31 ∨ !s.aBit (R.SPD_CH_CFG n) 3 then s
  else
    let x := s.sch n
    match fldOf e 29 28 with
    | 0 => ((s.setSch n { x with level := fldOf e 19 0, rest := false }).setSchState n CH_HOLD).schShow n false
    | 1 => (s.schFade n s.spdPidx (Word.ofNat (fldOf e 19 0 + s.aFld (R.SPD_TRIG t) 27 24 * 2 ^ 20))
        (s.aRd (R.SPD_TRIGL t))).schShow n false
    | 2 => s.setSch n { x with rel := true, relLast := true }
    | _ => s

/-- Row t is applied when the trigger is enabled (R272). -/
def State.snapRow (s : State) (t : Nat) : State :=
  if !s.aBit (R.SPD_TRIG t) 31 then s else (List.range 96).foldl (fun (s : State) n => s.snapOne t n) s

/-! ### The order of a tick (R274) -/

/-- A write of SPD_CHn_FGO reaches the channel (R269, R271): a fade waits for its start, one whose period has passed for
the next boundary; a release waits for the next boundary. -/
def State.fgoOne (pidx : Word) (s : State) (e : Nat × Option SpdGo) : State :=
  let x := s.sch e.1
  match e.2 with
  | none => s.setSch e.1 { x with rel := true, relLast := true }
  | some g =>
    let late := match g.at_ with
      | some a => decide (sdiff a pidx ≤ 0)
      | none => false
    (if late then s.setF R.SPD_STAT 0 0 1 else s).setSch e.1 { x with go := some { g with late := late }, relLast := false }

/-- The status words of the channels. -/
def State.schStats (s : State) : List Word := (List.range 96).map fun n => s.rd (R.SPD_CH_STAT n)
/-- The channels and their status words become those given. -/
def State.setChans (s : State) (m : Map SpdCh) (l : List Word) : State :=
  l.zipIdx.foldl (fun (s : State) e => s.wr (R.SPD_CH_STAT e.2) e.1) { s with spd := m }

/-- What has reached the channels in the present tick so far. -/
def State.spdNow (s : State) : SpdTick :=
  match s.spdTick with
  | some x => if x.tick = s.now then x else ⟨s.now, s.spdPidx, s.spd, s.schStats, [], false, []⟩
  | none => ⟨s.now, s.spdPidx, s.spd, s.schStats, [], false, []⟩

/-- The channels after all that has reached them in one tick, in the order of R274. -/
def State.spdReplay (s : State) (x : SpdTick) : State :=
  let s := x.gos.foldl (State.fgoOne x.pidx) ({ s with spdTick := some x }.setChans x.chans x.stats)
  let s := if x.period then (List.range 96).foldl (fun (s : State) n => s.schPeriod s.spdPidx n) s else s
  ((List.range 8).filter fun t => x.trigs.contains t).foldl State.snapRow s

/-- One more write of SPD_CHn_FGO in this tick. -/
def State.spdFgo (s : State) (n : Nat) (g : Option SpdGo) : State :=
  let x := s.spdNow
  s.spdReplay { x with gos := x.gos ++ [(n, g)] }
/-- One more trigger in this tick (R272). -/
def State.spdTrig (s : State) (t : Nat) : State :=
  let x := s.spdNow
  s.spdReplay { x with trigs := t :: x.trigs }

abbrev M_SPD : Nat := 0x4F
/-- Where the frame values of the frame on the outputs lie (R270). -/
def State.spdFtab (s : State) : Nat :=
  s.aFld R.SPD_FTAB_HI 7 0 * 2 ^ 32 + s.aFld R.SPD_FTAB_LO 31 9 * 512 + s.outTaken.toNat % 2 * 384
/-- The channels with their frame values read from the table. -/
def State.withFrame (s : State) (m : Map SpdCh) : Map SpdCh :=
  (List.range 96).foldl (fun m n =>
    mset (fun _ => {}) m n { mget (fun _ => {}) m n with frameVal := (lumClamp (s.oRdW (s.spdFtab + 4 * n))).1 }) m
/-- SPD reads the frame values. -/
def State.spdRead (s : State) : State := { s with spdNew := none, spd := s.withFrame s.spd }.hubNote inDram 0 M_SPD 0 [(s.spdFtab, 384)]

/-- SPD_PERIOD_START: the next period boundary has come. SPD runs in RUN, IDLE and DOZE (R278). -/
def execSpdPeriodStart (s : State) : Res :=
  let r := s.spdPidx + 1
  let t := s.periodTime r
  .next (if !s.clocksRun ∨ sdiff s.tsuNs t < 0 then s
    else
      let x := s.spdNow
      let x := if x.period then ⟨s.now, s.spdPidx, s.spd, s.schStats, [], false, []⟩ else x
      let s := (((s.setChans x.chans x.stats).wr R.SPD_PIDX r).spdApply r t).spdBalls
      let s := match s.spdNew with
        | some st => if 0 ≤ sdiff t st then s.spdRead else s
        | none => s
      s.spdReplay { x with chans := s.spd, stats := s.schStats, period := true })

/-- A frame start of target `st`: the frame's values are due at the first boundary at or after it (R270), which may have
come in this tick already. -/
def State.spdAt (s : State) (st : Word) (take : Bool) : State :=
  if !take then s
  else
    let s := { s with spdNew := some st }
    let t := s.periodTime s.spdPidx
    if 0 ≤ sdiff t st ∧ (s.tsuNs - t).toNat * 2 < 5 * s.spdTp then
      let x := s.spdNow
      let s := s.spdRead
      let s := s.spdReplay { x with chans := s.withFrame x.chans }
      if x.period then s
      else (List.range 96).foldl (fun (s : State) n =>
        if s.aBit (R.SPD_CH_CFG n) 3 ∧ s.schState n = CH_FRAME then
          (s.setSch n { s.sch n with level := (s.sch n).frameVal }).schShow n false else s) s
    else s

/-! ### Channel writes (R269, R271) -/

/-- SPD_FADE_GO: FTO, FLEN and FAT are taken as one commit (R271); a fade that waits already gives way (assumption 59). -/
def execSpdFadeGo (n : BitVec 7) (s : State) : Res :=
  let c := n.toNat
  let at_ := s.rd (R.SPD_CH_FAT c)
  .next (if 95 < c then s
    else s.spdFgo c (some
      { fto := s.rd (R.SPD_CH_FTO c), len := s.rd (R.SPD_CH_FLEN c), at_ := if at_ = 0 then none else some at_, wrote := s.now }))

/-- SPD_RELEASE (R269). -/
def execSpdRelease (n : BitVec 7) (s : State) : Res :=
  let c := n.toNat
  .next (if 95 < c then s else s.spdFgo c none)

/-- SPD_LEVEL_WRITE (R269): the register changes now, the channel at its next boundary. -/
def execSpdLevelWrite (n : BitVec 7) (w : Word) (s : State) : Res :=
  let c := n.toNat
  .next (if 95 < c then s else s.wr (R.SPD_CH_LEVEL c) (Word.ofNat (fldOf w 19 0)))

/-! ### Derating (R277) -/

/-- The target factor of group g at whole degrees t. -/
def State.derateTarget (s : State) (g : Nat) (t : Int) : Nat :=
  let knee := sext 8 (s.aFld (R.SPD_GRP_CFG g) 15 8)
  let tmax := sext 8 (s.aFld (R.SPD_GRP_CFG g) 23 16)
  let fmin := s.aFld (R.SPD_GRP_CFG g) 31 24 * 256
  if t ≤ knee then 0x10000
  else if tmax ≤ t then fmin
  else 0x10000 - (0x10000 - fmin) * (t - knee).toNat / (tmax - knee).toNat

/-- DERATE_UPDATE: every 1 ms (R277). -/
def execDerateUpdate (s : State) : Res :=
  .next (if !s.clocksRun then s else (List.range 8).foldl (fun (s : State) g =>
    let target : Int := s.derateTarget g (s.sensorT (s.aFld (R.SPD_GRP_CFG g) 2 0) / 256)
    let fact : Int := s.fld (R.SPD_GRP_FACT g) 16 0
    let step : Int := s.aFld (R.SPD_GRP_STEP g) 15 0
    s.wr (R.SPD_GRP_FACT g) (Word.ofInt (fact + max (-step) (min step (target - fact))))) s)

end Sys2Proof.Machine
end

