-- ==== Sys2Proof/Machine/Dmx.lean ====
section
/-!
DEFINITION. The DMX512 and RDM ports (R309 to R323).
-/
namespace Sys2Proof.Machine
open Sys2Proof

/-! ### Slots and scales (R211, R230), shared with UNV -/

/-- Governed values of a slot string under its slot map: each governed value, most significant slot first, becomes
(v × s) >> 16 of its group (R211). -/
def State.govern (s : State) : Nat → List Byte → List Byte → List Byte
  | 0, v, _ => v
  | _ + 1, [], _ => []
  | _ + 1, v, [] => v
  | k + 1, a :: v, m :: ms =>
    let n := m.toNat / 64
    if n = 0 ∨ v.length + 1 < n then a :: s.govern k v ms
    else
      let x := beNat ((a :: v).take n) * s.scaleOf (m.toNat % 64) / 65536
      (leBytes n x).reverse ++ s.govern k ((a :: v).drop n) ((m :: ms).drop n)

/-- What a packet of frame f reads of universe buffer u: the slots and the slot map. -/
def slotRanges (u : Nat) (f : Word) : List (Nat × Nat) := [(ubufAddr u (f.toNat % 2 * 512), 512), (ubufAddr u 1024, 512)]
/-- The n slots of universe buffer u in frame f, scaled. -/
def State.slots (s : State) (u : Nat) (f : Word) (n : Nat) : List Byte :=
  (s.govern 512 (s.oRdBytes (ubufAddr u (f.toNat % 2 * 512)) 512) (s.oRdBytes (ubufAddr u 1024) 512)).take n

/-! ### Ports -/
def State.dp (s : State) (p : Nat) : DmxPort := mget (fun _ => {}) s.dmx p
def State.setDp (s : State) (p : Nat) (x : DmxPort) : State := { s with dmx := mset (fun _ => {}) s.dmx p x }
/-- The Langal engine owns the DMX ports (R4, R309). -/
def State.langalOwns (s : State) : Bool := s.fld R.SYS_STRAP 5 4 = 1 || s.fld R.SYS_STRAP 5 4 = 2
def State.dmxEn (s : State) (p : Nat) : Bool := s.aBit (R.DMX_P_CFG p) 15
def State.dmxIn (s : State) (p : Nat) : Bool := s.aBit (R.DMX_P_CFG p) 14
def State.dmxLocked (s : State) (p : Nat) : Bool := s.aBit (R.DMX_P_CFG p) 13
def State.dmxOut (s : State) (p : Nat) : Bool := !s.langalOwns && s.dmxEn p && !s.dmxIn p
def State.dmxState (s : State) (p : Nat) : Nat := s.fld (R.DMX_P_STAT p) 1 0
def State.setDmxState (s : State) (p st : Nat) : State := s.setF (R.DMX_P_STAT p) 1 0 st
/-- The port may drive its line: one that the pair owns only in a PRIMARY or SOLO package (R318, R478). -/
def State.dmxMayDrive (s : State) (p : Nat) : Bool := s.dmxOut p && (s.pairRole ≤ 1 || !s.bit R.PAIR_OWN_DMX p)
abbrev usTicks : Nat := 400

/-! ### Commits (R315, R316) -/

/-- The E_ARG checks of R316 on the values taken. -/
def State.dmxBad (s : State) (p : Nat) : Bool :=
  let brk := s.tFld (R.DMX_P_TIME p) 31 22
  let mab := s.tFld (R.DMX_P_TIME p) 21 14
  let mbs := s.tFld (R.DMX_P_TIME p) 13 6
  let bmin := s.tFld (R.DMX_P_TMIN p) 31 22
  let mmin := s.tFld (R.DMX_P_TMIN p) 21 14
  let keep := s.tFld (R.DMX_P_RATE p) 31 22
  let per := s.tFld (R.DMX_P_RATE p) 19 0
  let n := s.tFld (R.DMX_P_CFG p) 9 0
  let c := s.tRd (R.DMX_P_CFG p)
  decide (brk < 92) || decide (1000 < brk) || decide (bmin < 92) || decide (brk < bmin) || decide (mab < 12)
    || decide (mmin < 12) || decide (mab < mmin) || decide (per < 1204) || decide (1000000 < per) || keep == 0
    || decide (1000 < keep) || n == 0 || decide (512 < n) || (bitOf c 13 && mbs != 0) || (bitOf c 14 && bitOf c 12)

/-- The shadowed registers of a port. -/
def dmxRanges (n : Nat) : List (Nat × Nat) :=
  [(R.DMX_P_CFG n, R.DMX_P_COMMIT n), (R.DMX_P_TIME n, R.DMX_P_STAT n), (R.DMX_P_RDMCFG n, R.DMX_P_RDMREQ n)]

/-- DMX_COMMIT; the ports take no commit while the Langal engine owns them (R309). -/
def execDmxCommit (p : BitVec 4) (s : State) : Res :=
  let n := p.toNat
  if s.langalOwns then .next s else
  .next (s.commitNow (R.DMX_P_COMMIT n) (dmxRanges n) fun s => if s.dmxBad n then E_ARG else OK)

/-- A commit is applied; a port newly enabled as an output has taken no frame (R310). -/
def State.dmxTurn (n : Nat) (s : State) (c : Commit) : State :=
  let was := s.dmxOut n
  let s := s.applyCommit c
  let x := s.dp n
  if s.dmxOut n ∧ !was then s.setDp n { x with taken := none, due := none, sentAny := false, driving := s.dmxMayDrive n }
  else if s.dmxOut n then s
  else s.setDp n { x with due := none, driving := false }

/-- 8 DCK cycles, in ticks of 2.5 ns. -/
abbrev dck8 : Nat := 67
/-- The accepted commits of a port that have been in DCK for 8 cycles. -/
def State.dmxDue (s : State) (n : Nat) : List Commit := (s.waiting (R.DMX_P_COMMIT n)).filter fun c => decide (dck8 ≤ s.now - c.at_)
/-- One of some commits changes dir or en. -/
def State.dmxTurns (s : State) (n : Nat) (l : List Commit) : Bool :=
  l.any fun c => c.fld (R.DMX_P_CFG n) 15 14 != s.aFld (R.DMX_P_CFG n) 15 14

/-- A break start: commits at least 8 DCK cycles old apply from it (R314, R316). -/
def State.dmxAtBreak (s : State) (n : Nat) : State := (s.dmxDue n).foldl (State.dmxTurn n) s

/-- A packet or a transaction has ended: a commit that changes dir or en applies (R316). -/
def State.dmxAtEnd (s : State) (n : Nat) : State := if s.dmxTurns n (s.dmxDue n) then s.dmxAtBreak n else s

abbrev M_DMX : Nat := 0x50

/-! ### RDM (R321 to R323) -/

/-- The request in hub SRAM with its checksum. -/
def State.rdmBytes (s : State) (n : Nat) : List Byte :=
  let l := s.hRdBytes (SRAM_BASE + s.fld (R.DMX_P_RDMREQ n) 21 0) (s.fld (R.DMX_P_RDMREQ n) 31 23)
  l ++ (leBytes 2 ((l.map (·.toNat)).foldl (· + ·) 0)).reverse
/-- DISC_UNIQUE_BRANCH: command class 0x10 and PID 0x0001. -/
def rdmDisc (l : List Byte) : Bool := leAt l 20 1 == 0x10 && leAt l 21 1 == 0 && leAt l 22 1 == 1
/-- Destination UID bytes 5 to 8 of the message are all 0xFF: no reply is expected. -/
def rdmBroadcast (l : List Byte) : Bool := ((l.drop 5).take 4).all (· == 0xFF)

/-- The transaction ends with a status and a length; a package that is no longer PRIMARY stops driving (R318). -/
def State.rdmEnd (s : State) (n st len : Nat) : State :=
  let s := s.setDp n { s.dp n with
    rdm := false, rdmSent := [], driving := (s.dp n).driving && (s.dmxState n ≠ 3 || s.dmxMayDrive n) }
  let s := s.wr (R.DMX_P_RDMRES n) (Word.ofNat (0x80000000 + len % 512 * 256 + st))
  if s.dmxState n = 3 then (s.setDmxState n 0).dmxAtEnd n else s

/-- At a packet boundary a waiting request is sent, unless a packet is due, or on a frame-locked port the window does
not fit before the next nominal start (R314, R321, R323). A port that may no longer send it ends it with E_STATE (R322). A request that expects no reply ends at once, but for
discovery, which waits for its replies. -/
def State.rdmTry (s : State) (n : Nat) : State :=
  let x := s.dp n
  let fits := !s.dmxLocked n || decide (sdiff (s.tsuNs + Word.ofNat (s.aFld (R.DMX_P_RDMCFG n) 31 16 * 1000))
    (s.nominal (s.fnow + 1)) ≤ 0)
  if !x.rdm ∨ s.dmxState n ≠ 0 then s
  else if !s.dmxMayDrive n ∨ !s.aBit (R.DMX_P_CFG n) 12 then s.rdmEnd n E_STATE 0
  else if x.due.isSome ∨ !fits then s
  else
    let l := s.rdmBytes n
    let s := s.hubNote hubReach 0 M_DMX n
      [(SRAM_BASE + s.fld (R.DMX_P_RDMREQ n) 21 0, s.fld (R.DMX_P_RDMREQ n) 31 23)]
    let s := s.setDp n { x with rdm := false, rdmSent := l }
    if rdmBroadcast l ∧ !rdmDisc l then s.rdmEnd n OK 0
    else s.setDmxState n 3

/-- DMX_COMMIT_APPLY: the eighth cycle at an idle or disabled port (R316). DCK stops in SLEEP. -/
def execDmxCommitApply (p : BitVec 4) (s : State) : Res :=
  let n := p.toNat
  .next (if s.clocksRun ∧ (s.dmxState n = 0 ∨ !s.dmxEn n) then ((s.waiting (R.DMX_P_COMMIT n)).foldl (State.dmxTurn n) s).rdmTry n
    else s)

/-! ### Output packets (R310 to R314) -/

/-- A packet starts: its break and mark in ticks, and its buffer. -/
def State.dmxSend (s : State) (n st : Nat) (f : Word) (brk mab : Nat) (buf : List Byte) : State :=
  let x := s.dp n
  let s := s.setDp n { x with buf := buf, frame := f, brk := brk, mab := mab, start := s.now, sentAny := true, due := none,
                              rdmLate := false, driving := s.dmxMayDrive n }
  let s := if x.rdmLate ∧ st = 1 then s.bump (R.DMX_P_CNT1 n) 15 0 else s
  ((s.setDmxState n st).wr (R.DMX_P_FRAME n) f).bump (R.DMX_P_CNT0 n) 31 0

/-- The packet of frame f: start code 0x00 and the slots. -/
def State.dmxPacket (s : State) (n : Nat) (f : Word) : List Byte :=
  0 :: s.slots (s.aFld (R.DMX_P_CFG n) 31 16) f (s.aFld (R.DMX_P_CFG n) 9 0)

/-- A packet of frame f starts: its slots are read now (R310). -/
def State.dmxSendFrame (s : State) (n : Nat) (f : Word) (brk mab : Nat) : State :=
  (s.hubNote inDram 0 M_DMX n (slotRanges (s.aFld (R.DMX_P_CFG n) 31 16) f)).dmxSend n 1 f brk mab (s.dmxPacket n f)

/-- Break and mark of a frame-locked packet of lag l ticks (R311). -/
def State.dmxTimes (s : State) (n l : Nat) : Nat × Nat :=
  let brk := s.aFld (R.DMX_P_TIME n) 31 22 * usTicks
  let b := max (s.aFld (R.DMX_P_TMIN n) 31 22 * usTicks) (brk - l)
  (b, max (s.aFld (R.DMX_P_TMIN n) 21 14 * usTicks) (s.aFld (R.DMX_P_TIME n) 21 14 * usTicks - (l - (brk - b))))

/-- DMX_BREAK_START: the frame-locked packet that waits starts when no packet or transaction is on the line; it ends a
repeat, with L = 0 (R311, R313). -/
def execDmxBreakStart (p : BitVec 4) (s : State) : Res :=
  let n := p.toNat
  .next (match (s.dp n).due with
    | none => s
    | some (f, t) =>
      if !s.dmxOut n ∨ !s.dmxLocked n ∨ s.dmxState n = 1 ∨ s.dmxState n = 3 then s
      else
        let l := if s.dmxState n = 2 then 0 else s.now - t
        let s := s.dmxAtBreak n
        if !s.dmxOut n then s.rdmTry n
        else let bm := s.dmxTimes n l; s.dmxSendFrame n f bm.1 bm.2)

/-- DMX_FREE_PERIOD: a free-running port starts a packet with the latest frame it has taken (R312). -/
def execDmxFreePeriod (p : BitVec 4) (s : State) : Res :=
  let n := p.toNat
  .next (if !s.dmxOut n ∨ s.dmxLocked n ∨ s.dmxState n ≠ 0 ∨ (s.dp n).taken.isNone then s
    else
      let s := s.dmxAtBreak n
      match (s.dp n).taken with
      | some f =>
        if !s.dmxOut n ∨ s.dmxLocked n then s.rdmTry n
        else s.dmxSendFrame n f (s.aFld (R.DMX_P_TIME n) 31 22 * usTicks) (s.aFld (R.DMX_P_TIME n) 21 14 * usTicks)
      | none => s)

/-- DMX_REPEAT: keep_ms without a frame start; the packet buffer is sent again (R313). -/
def execDmxRepeat (p : BitVec 4) (s : State) : Res :=
  let n := p.toNat
  let x := s.dp n
  .next (if !s.dmxOut n ∨ !s.dmxLocked n ∨ s.dmxState n ≠ 0 ∨ !x.sentAny ∨ x.due.isSome then s
    else
      let s := s.dmxAtBreak n
      if !s.dmxOut n ∨ !s.dmxLocked n then s.rdmTry n
      else (s.dmxSend n 2 x.frame (s.aFld (R.DMX_P_TIME n) 31 22 * usTicks) (s.aFld (R.DMX_P_TIME n) 21 14 * usTicks)
        x.buf).bump (R.DMX_P_CNT1 n) 31 16)

/-! ### RDM transactions (R321, R322) -/

/-- DMX_RDMGO: ignored while a transaction runs (R321, R322), and while the Langal engine owns the ports (R309). -/
def execDmxRdmgo (p : BitVec 4) (s : State) : Res :=
  let n := p.toNat
  let x := s.dp n
  .next (if s.langalOwns ∨ x.rdm ∨ s.dmxState n = 3 then s
    else if !s.dmxMayDrive n ∨ !s.aBit (R.DMX_P_CFG n) 12 then s.rdmEnd n E_STATE 0
    else ((s.setF (R.DMX_P_RDMRES n) 31 31 0).setDp n { x with rdm := true }).rdmTry n)

/-- DMX_PACKET_END: the last slot has been sent; a package that is no longer PRIMARY stops driving (R318), a commit of dir or en applies, and a request may go (R316, R321). -/
def execDmxPacketEnd (p : BitVec 4) (s : State) : Res :=
  let n := p.toNat
  .next (if s.dmxState n ≠ 1 ∧ s.dmxState n ≠ 2 then s
    else
      let s := s.setDmxState n 0
      let s := s.setDp n { s.dp n with driving := (s.dp n).driving && s.dmxMayDrive n }
      (s.dmxAtEnd n).rdmTry n)

/-- The UID of a discovery reply, when it decodes with a good checksum (R322; the encoding of E1.20, assumption 10). -/
def rdmUid (l : List Byte) : Option (List Byte) :=
  let k := ((l.take 8).findIdx? (· != 0xFE)).getD 8
  let d := l.drop k
  let e := (d.drop 1).take 12
  let u := (List.range 6).map fun i => e.getD (2 * i) 0 &&& e.getD (2 * i + 1) 0
  let c := [0, 1].map fun i => d.getD (13 + 2 * i) 0 &&& d.getD (14 + 2 * i) 0
  if d.getD 0 0 = 0xAA ∧ d.length = 17 ∧ ((e.map (·.toNat)).foldl (· + ·) 0) % 65536 = beNat c then some u else none

/-- The checksum of a response is good. -/
def rdmGood (l : List Byte) : Bool :=
  decide (3 ≤ l.length) && ((l.take (l.length - 2)).map (·.toNat)).foldl (· + ·) 0 % 65536 == beNat (l.drop (l.length - 2))

/-- DMX_RDM_RESPONSE: the bytes received, and whether a framing error was seen (R321, R322). -/
def execDmxRdmResponse (p : BitVec 4) (data : List Byte) (framing : Bool) (s : State) : Res :=
  let n := p.toNat
  let x := s.dp n
  .next (if s.dmxState n ≠ 3 then s
    else
      let s := s.hubWr hubReach M_DMX n (SRAM_BASE + s.fld (R.DMX_P_RDMREQ n) 21 0 + 0x200) data
      if rdmDisc x.rdmSent then
        match rdmUid data with
        | some u =>
          ((s.wr (R.DMX_P_RDMUID_LO n) (Word.ofNat (beNat (u.drop 2)))).wr (R.DMX_P_RDMUID_HI n)
            (Word.ofNat (beNat (u.take 2)))).rdmEnd n OK data.length
        | none => s.rdmEnd n E_CHECK data.length
      else s.rdmEnd n (if framing ∨ !rdmGood data then E_CHECK else OK) data.length)

/-- DMX_RDM_TIMEOUT (R322). -/
def execDmxRdmTimeout (p : BitVec 4) (s : State) : Res :=
  .next (if s.dmxState p.toNat ≠ 3 then s else s.rdmEnd p.toNat E_ABSENT 0)

/-! ### Inputs (R319, R320) -/

/-- DMX_INPUT_PACKET (R319). -/
def execDmxInputPacket (p : BitVec 4) (startCode : Byte) (data : List Byte) (framing : Bool) (s : State) : Res :=
  let n := p.toNat
  let x := s.dp n
  .next (if s.langalOwns ∨ !s.dmxEn n ∨ !s.dmxIn n then s
    else if framing then s.bump (R.DMX_P_CNT2 n) 15 8
    else if startCode ≠ 0 then s.bump (R.DMX_P_CNT2 n) 7 0
    else
      let d := data.take 512
      ((s.setDp n { x with inSlots := d ++ x.inSlots.drop d.length, inGot := d.length }).setF (R.DMX_P_STAT n) 3 3 1).bump
        (R.DMX_P_CNT2 n) 31 16)

/-- DMX_INPUT_LOSS: 1,250 ms without a packet (R319). -/
def execDmxInputLoss (p : BitVec 4) (s : State) : Res :=
  .next (if s.langalOwns ∨ !s.dmxIn p.toNat then s else s.setF (R.DMX_P_STAT p.toNat) 3 3 0)

/-- A 16-byte status and 512 slots placed in copy F & 1 of an input buffer (R307, R319). -/
def State.latchInput (s : State) (master unit base : Nat) (f : Word) (slots status : List Byte) : State :=
  let c := f.toNat % 2
  (s.hubWr inDram master unit (base + c * 512)
    ((slots ++ List.replicate (512 - slots.length) 0).take 512)).hubWr inDram master unit (base + 1024 + c * 16)
    ((status ++ List.replicate (16 - status.length) 0).take 16)

/-- The input buffer of a port. -/
def State.dmxIbuf (s : State) (n : Nat) : Nat :=
  s.aFld (R.DMX_P_IBUF_HI n) 7 0 * 2 ^ 32 + s.aFld (R.DMX_P_IBUF_LO n) 31 11 * 2048

/-- What an input port latches at frame start f: slots and status (R319). -/
def State.dmxLatched (s : State) (n : Nat) (f : Word) : List Byte × List Byte :=
  let x := s.dp n
  (x.inSlots, [BitVec.ofNat 8 (s.fld (R.DMX_P_STAT n) 3 3), 0] ++ leBytes 2 x.inGot ++ leBytes 4 f.toNat)

/-! ### Frame starts -/

/-- Frame start k at one port, with the frame the outputs take (R310, R313, R319). -/
def State.dmxPortAt (s : State) (k : Word) (take : Bool) (n : Nat) : State :=
  let x := s.dp n
  if s.langalOwns ∨ !s.dmxEn n then s
  else if s.dmxIn n then
    if s.aBit (R.DMX_P_CFG n) 11 ∧ 1 < s.fld R.PAIR_ROLE 2 0 then s
    else
      let l := s.dmxLatched n k
      (s.latchInput M_DMX n (s.dmxIbuf n) k l.1 l.2).wr (R.DMX_P_FRAME n) k
  else if take then
    s.setDp n { x with taken := some s.outTaken,
                       due := if s.dmxLocked n then some (s.outTaken, s.now) else none,
                       rdmLate := x.rdmLate || (s.dmxLocked n && s.dmxState n = 3) }
  else s

def State.dmxAt (s : State) (k : Word) (take : Bool) : State :=
  (List.range 16).foldl (fun (s : State) n => s.dmxPortAt k take n) s

/-! ### The balls (R317, R318) -/

/-- A role that leaves a pair-owned port undriven. -/
def State.dmxMute (s : State) (n : Nat) : Bool := s.bit R.PAIR_OWN_DMX n && decide (1 < s.pairRole)
/-- DMXn_DE: none while it is high-impedance. The line is released while a response is awaited. -/
def State.dmxDe (s : State) (n : Nat) : Option Bool :=
  if !s.clocksRun then none
  else if !s.langalOwns ∧ (!s.dmxEn n ∨ s.dmxIn n) then some false
  else if (s.dp n).driving then some (s.dmxState n != 3)
  else if s.dmxMute n ∨ s.dmxOut n then none else some false
/-- DMXn_TX rests high; none while it is high-impedance. -/
def State.dmxTx (s : State) (n : Nat) : Option Bool := (s.dmxDe n).map fun _ => true

/-- The bound of a frame-locked port on the period, ns (R195). -/
def State.dmxPmin (s : State) (n : Nat) : Nat :=
  if s.dmxOut n ∧ s.dmxLocked n then
    (s.aFld (R.DMX_P_TMIN n) 31 22 + s.aFld (R.DMX_P_TMIN n) 21 14) * 1000 + (s.aFld (R.DMX_P_CFG n) 9 0 + 1) * 44000
  else 0

end Sys2Proof.Machine
end

