-- ==== Sys2Proof/Machine/MacBase.lean ====
section
/-!
DEFINITION. What the Ethernet ports share: counters, the parts of a received frame, descriptor rings (R287 to R289) and
the places packets wait for the transmitter (R282).
-/
namespace Sys2Proof.Machine
open Sys2Proof

def State.mac (s : State) (p : Nat) : MacPort := mget (fun _ => {}) s.macs p
def State.setMac (s : State) (p : Nat) (x : MacPort) : State := { s with macs := mset (fun _ => {}) s.macs p x }
/-- Count an event of a port (MAC_Pp_CNTn). -/
def State.macCnt (s : State) (p n : Nat) : State := s.bump (R.MAC_P_CNT p n) 31 0
abbrev RX_OK : Nat := 0
abbrev RX_RUNT : Nat := 1
abbrev RX_OVERSIZE : Nat := 2
abbrev RX_FCS : Nat := 3
abbrev RX_ADDR : Nat := 4
abbrev RX_CTRL : Nat := 5
abbrev PFC_RX : Nat := 6
abbrev RX_DROP : Nat := 7
abbrev RX_NO_BUFFER : Nat := 8
abbrev RX_FIFO_DROP : Nat := 9
abbrev PAUSE_RX : Nat := 10
abbrev PAUSE_RX_ZERO : Nat := 11
abbrev TX_OK : Nat := 12
abbrev TX_ERR : Nat := 13
abbrev TX_LINK_DOWN : Nat := 14
abbrev PAUSE_TX : Nat := 15
abbrev FP_SENT : Nat := 16
abbrev FP_DISCARDED : Nat := 17
abbrev M_MAC : Nat := 0x51

def State.linkUp (s : State) (p : Nat) : Bool := s.bit (R.MAC_P_STAT p) 0
def State.macEn (s : State) (p : Nat) : Bool := s.aBit (R.MAC_P_CFG p) 31
def State.maxFrame (s : State) (p : Nat) : Nat := s.aFld (R.MAC_P_CFG p) 13 0

/-! ### Parts of a frame -/

/-- The frame carries an 802.1Q tag. -/
def frTagged (f : List Byte) : Bool := beNat ((f.drop 12).take 2) = 0x8100
def frTci (f : List Byte) : Nat := if frTagged f then beNat ((f.drop 14).take 2) else 0
/-- Offset of the EtherType after any tag. -/
def frEtOff (f : List Byte) : Nat := if frTagged f then 16 else 12
def frEt (f : List Byte) : Nat := beNat ((f.drop (frEtOff f)).take 2)
/-- The bytes after the EtherType, without the FCS. -/
def frBody (f : List Byte) : List Byte := (f.take (f.length - 4)).drop (frEtOff f + 2)
/-- An IPv4 frame that is no fragment (R283). -/
def frIp (f : List Byte) : Option (List Byte) :=
  let b := frBody f
  if frEt f = 0x0800 ∧ leAt b 0 1 / 16 = 4 ∧ beNat ((b.drop 6).take 2) % 0x4000 = 0 then some b else none
def ipProto (b : List Byte) : Nat := leAt b 9 1
def ipDst (b : List Byte) : Nat := beNat ((b.drop 16).take 4)
def ipSrc (b : List Byte) : Nat := beNat ((b.drop 12).take 4)
/-- The UDP header and payload of an IPv4 packet. -/
def ipUdp (b : List Byte) : List Byte := (b.take (beNat ((b.drop 2).take 2))).drop (leAt b 0 1 % 16 * 4)
def udpSport (u : List Byte) : Nat := beNat (u.take 2)
def udpDport (u : List Byte) : Nat := beNat ((u.drop 2).take 2)
def udpPayload (u : List Byte) : List Byte := (u.take (beNat ((u.drop 4).take 2))).drop 8
/-- The UDP payload of a frame. -/
def frUdp (f : List Byte) : Option (List Byte) :=
  match frIp f with
  | some b => if ipProto b = 17 then some (ipUdp b) else none
  | none => none

/-! ### Rings (R287 to R289) -/
def State.ringEn (s : State) (p r : Nat) : Bool := s.bit (R.MAC_P_R_CFG p r) 31
def State.ringSize (s : State) (p r : Nat) : Nat := 2 ^ max 4 (min 12 (s.fld (R.MAC_P_R_CFG p r) 19 16))
def State.ringHead (s : State) (p r : Nat) : Nat := s.fld (R.MAC_P_R_HEAD p r) 11 0
def State.ringTail (s : State) (p r : Nat) : Nat := s.fld (R.MAC_P_R_TAIL p r) 11 0
/-- Descriptors the device owns. -/
def State.ringOwned (s : State) (p r : Nat) : Nat :=
  if !s.ringEn p r then 0 else (s.ringTail p r + s.ringSize p r - s.ringHead p r) % s.ringSize p r
/-- Device address of descriptor i of a ring. -/
def State.descAddr (s : State) (p r i : Nat) : Nat :=
  s.fld (R.MAC_P_R_BASE_HI p r) 7 0 * 2 ^ 32 + s.fld (R.MAC_P_R_BASE_LO p r) 31 4 * 16 + i % s.ringSize p r * 16
/-- HEAD moves past one descriptor. -/
def State.ringNext (s : State) (p r : Nat) : State :=
  s.setF (R.MAC_P_R_HEAD p r) 11 0 ((s.ringHead p r + 1) % s.ringSize p r)

/-- Write back bytes 6 to 12 of the descriptor at HEAD, and advance HEAD. -/
def State.writeBack (s : State) (p r len flags tci st : Nat) : State :=
  let a := s.descAddr p r (s.ringHead p r)
  (s.hubWr hubReach M_MAC p (a + 6) (leBytes 2 len ++ leBytes 2 flags ++ leBytes 2 tci ++ leBytes 1 st)).ringNext p r

/-- One frame of a ring has completed: its counter and its interrupt (R288, R290). -/
def State.ringDone (s : State) (p r : Nat) : State := (s.bump (R.MAC_P_R_CNT p r) 31 0).irq (0x060 + 16 * p + r)

/-- Fill receive buffers from HEAD with the rest of a frame (R288, R289): buffer by buffer, until the frame ends or no
descriptor is left. -/
def State.ringFill (s : State) (p r ts tag tci rule : Nat) : Nat → Bool → List Byte → State
  | 0, _, _ => s
  | n + 1, sop, l =>
    let cap := s.fld (R.MAC_P_R_CFG p r) 15 0
    let d := s.descAddr p r (s.ringHead p r)
    let part := l.take cap
    let rest := l.drop cap
    let last := rest.isEmpty
    let aborted := !last && n == 0
    let fl := 1 + (b2n sop) * 2 + (b2n (last || aborted)) * 4 + (b2n aborted) * 8 + ts * 16 + tag * 32
    let s := s.hubNote hubReach 0 M_MAC p [(d, 16)]
    let s := s.hubWr hubReach M_MAC p (s.hRdLe d 5) part
    let s := s.writeBack p r part.length fl tci rule
    if last then s.ringDone p r
    else if aborted then (s.macCnt p RX_NO_BUFFER).ringDone p r
    else s.ringFill p r ts tag tci rule n false rest

/-- A frame steered to a receive ring (R288, R289). -/
def State.ringReceive (s : State) (p r ts rule : Nat) (f : List Byte) : State :=
  let k := s.ringOwned p r
  if k = 0 then s.macCnt p RX_NO_BUFFER
  else s.ringFill p r ts (b2n (frTagged f)) (frTci f) rule k true f

/-! ### Packets due for a port (R282) -/

/-- A UNV packet is due for a port; with the link down it is discarded. -/
def State.queueUnv (s : State) (p : Nat) (f : Word) (k : UnvKind) (x : NetPkt) : State :=
  if !s.linkUp p then s.macCnt p TX_LINK_DOWN
  else let m := s.mac p; s.setMac p { m with unvq := m.unvq ++ [(f, k, x)] }
/-- A fast-path packet is due for a port. -/
def State.queueFp (s : State) (p : Nat) (x : List Byte) : State :=
  if !s.linkUp p then s.macCnt p TX_LINK_DOWN
  else let m := s.mac p; s.setMac p { m with fpq := m.fpq ++ [x] }

/-- Length of a frame on the wire, the FCS included and padded to 64 bytes. -/
def State.wireLen (s : State) (p : Nat) : NetPkt → Nat
  | .udp _ _ _ _ _ pl => max 64 (14 + (if s.aBit (R.MAC_P_VLAN p) 16 then 4 else 0) + 28 + pl.length + 4)
  | .raw b => max 64 (b.length + 4)
  | .pause _ => 64

/-- The port's own address as the bytes of a frame (assumption 14). -/
def State.macAddr (s : State) (p : Nat) : List Byte :=
  beBytes 2 (s.aFld (R.MAC_P_ADDR_HI p) 15 0) ++ beBytes 4 (s.aRd (R.MAC_P_ADDR_LO p)).toNat
/-- The tag of a port's UNV packets, and the EtherType after it. -/
def State.macTag (s : State) (p : Nat) : List Byte :=
  if s.aBit (R.MAC_P_VLAN p) 16 then [0x81, 0x00] ++ beBytes 2 (s.aFld (R.MAC_P_VLAN p) 15 0) else []

/-- The ones' complement sum of bytes as 16-bit words in network order (the checksum of IPv4 and UDP). -/
def onesSum : List Byte → Nat
  | a :: b :: t => a.toNat * 256 + b.toNat + onesSum t
  | [a] => a.toNat * 256
  | [] => 0
def ipCheck (l : List Byte) : Nat :=
  let f := fun n => n % 65536 + n / 65536
  65535 - f (f (onesSum l))

/-- An IPv4 header (R297): the port's address, UNV's TTL; the identification and the don't-fragment bit are not stated,
and free values (assumption 11). -/
def State.ipHeader (s : State) (p dip dscp len : Nat) : List Byte :=
  let h := fun (c : Nat) => [0x45, BitVec.ofNat 8 (dscp * 4)] ++ beBytes 2 (20 + len) ++ beBytes 2 (s.free 75 65536)
    ++ [BitVec.ofNat 8 (s.free 76 2 * 64), 0, BitVec.ofNat 8 (s.aFld R.UNV_IPCFG 31 24), 17] ++ beBytes 2 c
    ++ beBytes 4 (s.aRd (R.MAC_P_IP p)).toNat ++ beBytes 4 dip
  h (ipCheck (h 0))

/-- A UDP header; whether its checksum is used is not stated: a free value. -/
def State.udpHeader (s : State) (p dip sport dport : Nat) (pl : List Byte) : List Byte :=
  let n := 8 + pl.length
  let h := fun (c : Nat) => beBytes 2 sport ++ beBytes 2 dport ++ beBytes 2 n ++ beBytes 2 c
  let c := ipCheck (beBytes 4 (s.aRd (R.MAC_P_IP p)).toNat ++ beBytes 4 dip ++ [0, 17] ++ beBytes 2 n ++ h 0 ++ pl)
  h (if s.free 77 2 = 0 then 0 else if c = 0 then 65535 else c)

/-- The bytes of a packet before padding and FCS (R290, R292, R297). -/
def State.frameHead (s : State) (p : Nat) : NetPkt → List Byte
  | .raw b => b
  | .pause q => [0x01, 0x80, 0xC2, 0x00, 0x00, 0x01] ++ s.macAddr p ++ [0x88, 0x08, 0x00, 0x01] ++ beBytes 2 q
  | .udp dmac dip dscp sport dport pl =>
    beBytes 6 dmac ++ s.macAddr p ++ s.macTag p ++ [0x08, 0x00] ++ s.ipHeader p dip dscp (8 + pl.length)
      ++ s.udpHeader p dip sport dport pl ++ pl

/-- The frame check sequence: CRC-32 of IEEE 802.3, least significant byte first. -/
def CRC32 : CrcParam := ⟨0x04C11DB7, 0xFFFFFFFF, 0xFFFFFFFF, 32, true, true⟩
def fcs (l : List Byte) : List Byte := leBytes 4 (crcOf CRC32 l)
/-- A frame on the wire: padded to 64 bytes with its FCS; one that a denied read has ended carries the FCS inverted
(R290). -/
def wireFrame (bad : Bool) (l : List Byte) : List Byte :=
  if bad then l ++ (fcs l).map (~~~ ·) else
    let l := l ++ List.replicate (60 - l.length) 0
    l ++ fcs l

/-- Line rate of a port, Mbit/s (R280). -/
def State.lineRate (s : State) (p : Nat) : Nat := [25000, 10000, 1000, 1000].getD (s.aFld (R.MAC_P_CFG p) 30 29) 1000

end Sys2Proof.Machine
end

