-- ==== Sys2Proof/Machine/KeyOps.lean ====
section
/-!
DEFINITION. The commands of the KEY engine: writes of KEY_GO (R413), the host commands that run the same operations,
the eviction after a life-cycle move (R412), KEY_TRNG and tamper (R397, R398).
-/
namespace Sys2Proof.Machine
open Sys2Proof

/-! ### Registers as read -/

/-- KEY_SLOTn. -/
def State.keySlotWord (s : State) (n : Nat) : Word :=
  match s.keySlot n with
  | some k => Word.ofNat (2 ^ 31 + hdrType k.hdr * 2 ^ 28 + hdrParent k.hdr % 4096 * 65536 + hdrId k.hdr % 4096)
  | none => 0
/-- KEY_STATUS: overrun is stored; busy and used are counted. -/
def State.keyStatus (s : State) : Word :=
  Word.ofNat (b2n (s.bit R.KEY_STATUS 9) * 512 + b2n s.keys.pend.isSome * 256 + s.keys.slots.length)

/-! ### KEY_GO and the end of an operation (R413) -/

abbrev M_KEY : Nat := 0x49
def State.keyPend (s : State) (st : Nat) (resv : Nat) (out : List Byte) (addr : Nat) : State :=
  (s.setKeys { s.keys with pend := some ⟨st, Word.ofNat resv, out, addr⟩ }).setF R.KEY_RES 31 31 0

/-- A write of 1 to KEY_GO: the operation's effect takes place, and its output and status wait for its end. -/
def State.keyStart (s : State) : State :=
  let a := s.fld R.KEY_IN_HI 7 0 * 2 ^ 32 + s.fld R.KEY_IN_LO 31 0
  let o := s.fld R.KEY_OUT_HI 7 0 * 2 ^ 32 + s.fld R.KEY_OUT_LO 31 0
  let n := s.fld R.KEY_INLEN 15 0
  let w : KeyWho := ⟨s.fld R.KEY_OPCFG 10 8, s.fld R.KEY_OPCFG 0 0⟩
  if (firstOut hubReach a n).isSome then (s.hubNote hubReach 0 M_KEY 0 [(a, n)]).keyPend E_ABSENT 0 [] o
  else
    let r := s.keyRun (s.fld R.KEY_OPCFG 31 24) (s.fld R.KEY_OPCFG 21 16) w (s.rd R.KEY_ARG) (s.rdBytes a n)
      (s.fld R.KEY_OUTCAP 15 0)
    if (firstOut hubReach o r.out.length).isSome then
      (s.hubNote hubReach 1 M_KEY 0 [(o, r.out.length)]).keyPend E_ABSENT 0 [] o
    else r.st.keyPend r.status r.resv r.out o

/-- A GO while an operation runs is ignored and sets overrun. -/
def State.keyGo (s : State) : State := if s.bit R.KEY_RES 31 then s.keyStart else s.setF R.KEY_STATUS 9 9 1

/-- The GO write of one operation, as KEY_OPCFG.op names it. -/
def State.keyGoOp (s : State) (op : Nat) : State := if s.fld R.KEY_OPCFG 31 24 = op then s.keyGo else s

/-- KEY_OP_LOAD (R408). -/
def execKeyOpLoad (s : State) : Res := .next (s.keyGoOp 0x01)
/-- KEY_OP_UNLOAD (R408). -/
def execKeyOpUnload (s : State) : Res := .next (s.keyGoOp 0x02)
/-- KEY_OP_DERIVE (R406). -/
def execKeyOpDerive (s : State) : Res := .next (s.keyGoOp 0x03)
/-- KEY_OP_WRAP (R413). -/
def execKeyOpWrap (s : State) : Res := .next (s.keyGoOp 0x04)
/-- KEY_OP_DESTROY (R405). -/
def execKeyOpDestroy (s : State) : Res := .next (s.keyGoOp 0x05)
/-- KEY_OP_HMAC (R413). -/
def execKeyOpHmac (s : State) : Res := .next (s.keyGoOp 0x06)
/-- KEY_OP_SIGN (R413). -/
def execKeyOpSign (s : State) : Res := .next (s.keyGoOp 0x07)
/-- KEY_OP_VERIFY (R413). -/
def execKeyOpVerify (s : State) : Res := .next (s.keyGoOp 0x08)
/-- KEY_OP_GCM_ENC (R413). -/
def execKeyOpGcmEnc (s : State) : Res := .next (s.keyGoOp 0x09)
/-- KEY_OP_GCM_DEC (R413). -/
def execKeyOpGcmDec (s : State) : Res := .next (s.keyGoOp 0x0A)
/-- KEY_OP_ATTEST (R415). -/
def execKeyOpAttest (s : State) : Res := .next (s.keyGoOp 0x0B)
/-- KEY_OP_LIFECYCLE (R400). -/
def execKeyOpLifecycle (s : State) : Res := .next (s.keyGoOp 0x0C)
/-- KEY_OP_SHA256 (R413). -/
def execKeyOpSha256 (s : State) : Res := .next (s.keyGoOp 0x0D)

/-- KEY_OP_DONE: the output is written, KEY_RES and KEY_RESV are set, and source 0x144 fires (R413). -/
def execKeyOpDone (s : State) : Res :=
  .next (match s.keys.pend with
    | none => s
    | some d =>
      let s := s.wrBytes d.addr d.out
      let s := (s.wr R.KEY_RES (Word.ofNat (2 ^ 31 + d.out.length * 256 + d.status))).wr R.KEY_RESV d.resv
      (s.setKeys { s.keys with pend := none }).irq 0x144)

/-- KEY_TRNG_READ: the random word that the generator gives, or none when no entropy is ready. -/
def execKeyTrngRead (entropy : Option Word) (s : State) : Res :=
  .next (match entropy with
    | some w => { s.wr R.KEY_TRNG w with hostRead := w }
    | none => { s.setF R.KEY_TRNGST 0 0 1 with hostRead := s.rd R.KEY_TRNG })

/-! ### Host commands -/

/-- The host on a session path: master host, normal world (R410). -/
def KEY_HOST : KeyWho := ⟨0, 0⟩

/-- Run an operation for a host command; its output follows a 4-byte result word. -/
def State.keyHost (s : State) (net : Bool) (code op : Nat) (sub : List Byte → Bool) (slot : List Byte → Nat)
    (arg : List Byte → Word) (inp : List Byte → List Byte) : State :=
  s.hostCmd net code sub fun s r =>
    let x := s.keyRun op (slot r.payload) KEY_HOST (arg r.payload) (inp r.payload) 4064
    (x.st, x.status, if x.status = OK then leBytes 4 x.resv ++ x.out else [])

def noSlot (_ : List Byte) : Nat := 0
def argWord (l : List Byte) : Word := Word.ofNat (leAt l 0 4)

/-- KEY_LOAD: bytes 0–3 as KEY_ARG, then the blob. The firmware keeps a provisioning key that comes back under the fused
device key in NVS (R402, chapter 15). -/
def execKeyLoad (net : Bool) (s : State) : Res :=
  .next (s.hostCmd net 0x0040 anyPayload fun s r =>
    let l := r.payload
    let x := s.keyRun 0x01 0 KEY_HOST (argWord l) (l.drop 4) 4064
    let keep := decide (x.status = OK) && x.out.length == 80 && hdrId x.out == 4095 && hdrParent x.out == 0xFFFF
    (if keep then x.st.setKeys { x.st.keys with pk := x.out } else x.st, x.status,
      if x.status = OK then leBytes 4 x.resv ++ x.out else []))
/-- KEY_DERIVE: the 28 bytes of R406, then the slot in bytes 28–31. -/
def execKeyDerive (net : Bool) (s : State) : Res :=
  .next (s.keyHost net 0x0041 0x03 anyPayload (fun l => leAt l 28 4) argWord (List.take 28))
/-- KEY_DESTROY (R405). -/
def execKeyDestroy (net : Bool) (s : State) : Res :=
  .next (s.keyHost net 0x0042 0x05 anyPayload noSlot argWord (List.drop 4))
/-- ATTEST (R415): the payload is the verifier's nonce. -/
def execAttest (net : Bool) (s : State) : Res :=
  .next (s.keyHost net 0x0043 0x0B anyPayload noSlot argWord id)

/-- LIFECYCLE, told apart by payload byte 0, the target state (R400). -/
def State.lifecycleCmd (s : State) (net : Bool) (sub : Nat → Bool) : State :=
  s.keyHost net 0x0044 0x0C (fun l => sub (leAt l 0 1)) noSlot (fun l => Word.ofNat (leAt l 0 1)) (List.drop 4)
/-- LIFECYCLE_PROVISION; also a target that is no transition's, which R400 refuses. -/
def execLifecycleProvision (net : Bool) (s : State) : Res :=
  .next (s.lifecycleCmd net fun t => t != 2 && t != 3 && t != 4)
/-- LIFECYCLE_DEPLOY (R400). -/
def execLifecycleDeploy (net : Bool) (s : State) : Res := .next (s.lifecycleCmd net (· == 2))
/-- LIFECYCLE_RMA (R400). -/
def execLifecycleRma (net : Bool) (s : State) : Res := .next (s.lifecycleCmd net (· == 3))
/-- LIFECYCLE_SCRAP (R400). -/
def execLifecycleScrap (net : Bool) (s : State) : Res := .next (s.lifecycleCmd net (· == 4))

/-- LIFECYCLE_EVICT: once the response has been sent, slots whose lc lacks the new state are evicted (R412). -/
def execLifecycleEvict (s : State) : Res :=
  .next (match s.keys.evict with
    | none => s
    | some lc =>
      if s.host.resps.any (fun x => x.req.code = 0x0044) ∨ s.keys.pend.isSome then s
      else (s.setKeys { s.keys with evict := none }).evictSlots fun k => !(attrOf (hdrAttr k.hdr)).lc.testBit lc)

/-! ### Tamper (R397, R398) -/

/-- The enable bit of a source in SPR_TAMP_CFG: inputs 0 to 3, then the voltage, clock and temperature monitors. -/
def tampEnBit (k : Nat) : Nat := if k < 4 then k else k + 4

/-- Steps 2 and 3 of R397 and the cause: root, slots, sessions and the operation in progress. -/
def State.zeroize (s : State) (k : Nat) : State :=
  let first := s.fld R.SPR_TAMP_STAT 6 0 = 0
  let s := s.zeroRoot.setF R.SPR_TAMP_STAT k k 1
  let s := if first then s.wr R.SPR_TAMP_TIME (s.rd R.SPR_RTC_SEC) else s
  let s := (s.setF R.SPR_TAMP_CFG 31 31 0).evictSlots fun _ => true
  s.setKeys { s.keys with pend := s.keys.pend.map fun d => ⟨E_FAULT, 0, [], d.addr⟩ }

/-- Step 4 of R397. -/
def State.tamperLog (s : State) : State := s.log 0x0043 2 (s.rd R.SPR_TAMP_STAT).toNat (s.rd R.SPR_TAMP_TIME).toNat

/-- The zeroized or rootless device leaves PROVISIONED and DEPLOYED (R400), and a record that waited is made (R397). -/
def State.rootCheck (s : State) : State :=
  let s := if !s.rootValid ∧ (s.lc = 1 ∨ s.lc = 2) then s.setLifeCycle 3 else s
  if s.keys.tamperDue then (s.setKeys { s.keys with tamperDue := false }).tamperLog else s

/-- A kept blob is loaded by the management firmware. -/
def State.reload (s : State) (b : List Byte) : State := if b.isEmpty then s else (s.keyRun 0x01 0 ⟨1, 1⟩ 0 b 0).st

/-- The firmware reloads the blobs that it keeps in NVS: PK in MANUFACTURE and RMA, and the transferred key (R401, R402,
R407). -/
def State.reloadKeys (s : State) : State :=
  (if s.lc = 0 ∨ s.lc = 3 then s.reload s.keys.pk else s).reload s.keys.kept

/-- TAMPER_TRIP: an enabled source trips, qualified. With the H-die off its record waits for the next boot or wake. -/
def execTamperTrip (source : Nat) (s : State) : Res :=
  .next (if 6 < source ∨ !s.bit R.SPR_TAMP_CFG (tampEnBit source) then s
    else
      let s := s.zeroize source
      if !s.clocksRun then s.setKeys { s.keys with tamperDue := true }
      else
        let s := s.tamperLog
        if s.lc = 1 ∨ s.lc = 2 then s.setLifeCycle 3 else s)

end Sys2Proof.Machine
end

