-- ==== Sys2Proof/Machine/Calibrate.lean ====
section
/-!
DEFINITION. CAL: the calibration runs (R428 to R434).
-/
namespace Sys2Proof.Machine
open Sys2Proof

def State.setCalib (s : State) (x : CalEng) : State := { s with calib := x }

abbrev CAL_REF : Nat := 0

/-- Every byte of an extent lies within the vent DMA reach: its three ranges are whole extents. -/
def extentReach (a n : Nat) : Bool :=
  n = 0 || (inDram a && inDram (a + n - 1)) || (inScratch a && inScratch (a + n - 1))
    || (inHubSram a && inHubSram (a + n - 1))

/-- The fields of a payload are in range, and those its kind does not use are 0 (R428). -/
def calFormOk (l : List Byte) : Bool :=
  let kind := leAt l 0 1
  let method := leAt l 1 1
  let count := leAt l 4 4
  l.length == 44 && decide (method ≤ 1) &&
    (if kind = 1 then 1 ≤ count && count ≤ 4194304 && (method == CAL_REF || zeroBytes l 32 44)
     else if kind = 2 then
      count ≤ 255 && zeroBytes l 8 32 && zeroBytes l 34 44 && (method == CAL_REF || zeroBytes l 32 34)
     else kind == 3 && method == 1 && zeroBytes l 4 44)

/-- The status that refuses a run, or OK (R429). -/
def State.calStatus (s : State) (l : List Byte) : Nat :=
  let kind := leAt l 0 1
  let n := leAt l 4 4
  firstErr [(s.calib.run.isSome, BUSY), (!calFormOk l, E_ARG),
    (decide (2 ≤ s.lc) || (kind == 3 && s.lc != 0), E_STATE),
    (kind == 1 && !(extentReach (leAt l 8 8) (12 * n) && extentReach (leAt l 16 8) (12 * n)
      && extentReach (leAt l 24 8) (24 * n)), E_ABSENT)]

/-- CAL_RUN for the payloads that `sub` selects: the run begins, and its response follows when it ends. -/
def State.calRun (s : State) (net : Bool) (sub : Nat → Bool) : State :=
  s.takeCmd net 0x0060 (fun l => sub (leAt l 0 1)) fun s r =>
    let st := s.calStatus r.payload
    if st ≠ OK then s.respond r st []
    else
      let s := s.setCalib { s.calib with run := some r }
      (s.wr R.CAL_STAT (Word.ofNat (2 ^ 31 + 0x100 + leAt r.payload 0 1))).setF R.CAL_RES 31 31 0

/-- CAL_RUN_PIXEL_GAIN; also a kind that is none. -/
def execCalRunPixelGain (net : Bool) (s : State) : Res := .next (s.calRun net fun k => k != 2 && k != 3)
/-- CAL_RUN_SENSOR. -/
def execCalRunSensor (net : Bool) (s : State) : Res := .next (s.calRun net fun k => k == 2)
/-- CAL_RUN_ADC_OFFSET. -/
def execCalRunAdcOffset (net : Bool) (s : State) : Res := .next (s.calRun net fun k => k == 3)

/-! ### Results -/

/-- What a run finds: disagreements, the index of the first, the largest, the coefficients clamped. -/
structure CalOut where
  nfail : Nat := 0
  first : Nat := 0
  maxdev : Nat := 0
  nclamp : Nat := 0
  deriving DecidableEq, Repr

/-- Compare two lists of candidates index by index. -/
def calCompare (tol : Nat) : Nat → List Int → List Int → CalOut → CalOut
  | i, a :: t, b :: u, o =>
    let d := (a - b).natAbs
    let o := if tol < d then { o with nfail := o.nfail + 1, first := if o.nfail = 0 then i else o.first } else o
    calCompare tol (i + 1) t u { o with maxdev := max o.maxdev d }
  | _, _, _, o => o

def insertSorted (x : Int) : List Int → List Int
  | [] => [x]
  | y :: t => if x ≤ y then x :: y :: t else y :: insertSorted x t
/-- The median; of an even count the lower middle value (R430). -/
def medianLow (l : List Int) : Int := (l.foldr insertSorted []).getD ((l.length - 1) / 2) 0

/-- A coefficient of PIXEL_GAIN, s2.13 (R430). -/
def pixelGain (t m : Nat) : Nat := if m = 0 then 32767 else min 32767 ((t * 8192 + m / 2) / m)
def pixelClamped (t m : Nat) : Bool := m = 0 || decide (32767 < (t * 8192 + m / 2) / m)

/-- The luminances of channel c in a measurement array. -/
def State.calChannel (s : State) (base count c : Nat) : List Nat :=
  (List.range count).map fun i => s.rdLe (base + 12 * i + 4 * c) 4
/-- The three targets of an array. -/
def State.calTargets (s : State) (l : List Byte) (base : Nat) : List Nat :=
  [0, 1, 2].map fun c =>
    if leAt l 1 1 = CAL_REF then leAt l (32 + 4 * c) 4
    else (medianLow ((s.calChannel base (leAt l 4 4) c).map Int.ofNat)).toNat
/-- Target and luminance of every coefficient of an array, in the order 3 × pixel + c. -/
def State.calPairs (s : State) (l : List Byte) (base : Nat) : List (Nat × Nat) :=
  let t := s.calTargets l base
  (List.range (3 * leAt l 4 4)).map fun i => (t.getD (i % 3) 0, s.rdLe (base + 4 * i) 4)

/-- A pixel's 24-byte matrix from its three diagonal elements (R121). -/
def gainMatrix (d : List Nat) : List Byte :=
  (List.range 12).flatMap fun i => leBytes 2 (if i % 5 = 0 then d.getD (i / 5) 0 else 0)

/-- A run ends: CAL_RES, CAL_STAT, source 0x146 and the response (R429). -/
def State.calEnd (s : State) (r : Request) (st : Nat) (o : CalOut) : State :=
  let s := s.setCalib { s.calib with run := none }
  let s := (s.wr R.CAL_STAT (Word.ofNat (leAt r.payload 0 1))).wr R.CAL_RES (Word.ofNat (2 ^ 31 + st))
  let s := (((s.wr R.CAL_NFAIL (Word.ofNat o.nfail)).wr R.CAL_FIRST (Word.ofNat o.first)).wr R.CAL_MAXDEV
    (Word.ofNat o.maxdev)).wr R.CAL_NCLAMP (Word.ofNat o.nclamp)
  let s := (if st = OK then s.wr R.CAL_RUNCNT (s.rd R.CAL_RUNCNT + 1) else s).irq 0x146
  if (s.session? r.sid).isSome then
    s.respond r st (leBytes 4 o.nfail ++ leBytes 4 o.first ++ leBytes 4 o.maxdev)
  else s

/-- The status of a comparison (R431). -/
def CalOut.status (o : CalOut) : Nat := if o.nfail = 0 then OK else E_CHECK

/-- PIXEL_GAIN (R430, R431). -/
def State.calPixel (s : State) (r : Request) : State :=
  let l := r.payload
  let pa := s.calPairs l (leAt l 8 8)
  let pb := s.calPairs l (leAt l 16 8)
  let ga := pa.map fun e => pixelGain e.1 e.2
  let gb := pb.map fun e => pixelGain e.1 e.2
  let o := calCompare (leAt l 2 2) 0 (ga.map Int.ofNat) (gb.map Int.ofNat)
    { nclamp := ((pa ++ pb).filter fun e => pixelClamped e.1 e.2).length }
  if o.nfail ≠ 0 then s.calEnd r E_CHECK o
  else
    let g := (ga.zip gb).map fun e => (e.1 + e.2 + 1) / 2
    let out := (List.range (leAt l 4 4)).flatMap fun i => gainMatrix ((g.drop (3 * i)).take 3)
    let s := s.wrBytes (leAt l 24 8) out
    let rec_ : CalRecord := ⟨(s.rd R.CAL_RUNCNT).toNat + 1, leAt l 2 2, leAt l 4 4, sha256 out⟩
    (s.setCalib { s.calib with records := rec_ :: s.calib.records }).calEnd r OK o

/-- The sensors a SENSOR run works on: those of its mask that are enabled (R432). -/
def State.calSensors (s : State) (l : List Byte) : List Nat :=
  (List.range 8).filter fun k => (leAt l 4 4).testBit k && s.bit R.SNS_CTRL k

/-- The offsets of one repeat: each sensor's mean code through its table, against the reference or the median. -/
def State.calOffsets (s : State) (l : List Byte) (ks : List Nat) (x : List (List Nat)) : List Int :=
  let ts := ks.map fun k => s.snsTemp k (meanCode (s.fld R.CAL_ADCOFF 15 0) (x.getD k []))
  let ref := if leAt l 1 1 = CAL_REF then sext 16 (leAt l 32 2) else medianLow ts
  ts.map fun t => ref - t

/-- The table of sensor k with an amount added to every entry, saturating. -/
def State.linPlus (s : State) (k : Nat) (d : Int) : List (BitVec 16) :=
  (List.range 33).map fun i =>
    BitVec.ofInt 16 (max (-32768) (min 32767 (sext 16 (s.fld (R.SNS_LIN k i) 15 0) + d)))
def State.loadLin (s : State) (k : Nat) (l : List (BitVec 16)) : State :=
  (l.zip (List.range 33)).foldl (fun (s : State) e => s.setF (R.SNS_LIN k e.2) 15 0 e.1.toNat) s

/-- SENSOR (R432). -/
def State.calSensor (s : State) (r : Request) (a b : List (List Nat)) : State :=
  let l := r.payload
  let ks := s.calSensors l
  if s.bit R.SNS_LOCK 0 ∨ ks.any (fun k => s.fld (R.SNS_TEMP k) 17 16 ≠ 0) then s.calEnd r E_STATE {}
  else
    let da := s.calOffsets l ks a
    let db := s.calOffsets l ks b
    let o := calCompare (leAt l 2 2) 0 da db {}
    let o := { o with first := ks.getD o.first 0 }
    if o.nfail ≠ 0 then s.calEnd r E_CHECK o
    else
      ((ks.zip (da.zip db)).foldl (fun (s : State) e =>
        let t := s.linPlus e.1 ((e.2.1 + e.2.2).tdiv 2)
        (s.loadLin e.1 t).setCalib { s.calib with lin := mset (fun _ => []) s.calib.lin e.1 t }) s).calEnd r OK
        { o with first := 0 }

/-- A mean in units of 1/16 code, rounded to nearest (R433). -/
def meanSixteenth (l : List Nat) : Nat := if l.isEmpty then 0 else (32 * l.foldl (· + ·) 0 + l.length) / (2 * l.length)

/-- ADC_OFFSET (R433). -/
def State.calAdc (s : State) (r : Request) (a b : List (List Nat)) : State :=
  let ma := meanSixteenth (a.getD 0 [])
  let mb := meanSixteenth (b.getD 0 [])
  let o := calCompare (leAt r.payload 2 2) 0 [(ma : Int)] [(mb : Int)] {}
  (if o.nfail = 0 then s.setF R.CAL_ADCOFF 15 0 ((ma + mb + 1) / 2) else s).calEnd r o.status o

/-- CAL_RUN_DONE: the run in progress ends. `a` and `b` are the codes sampled in its two repeats, by sensor, or in the
first list the conversions of the ground reference. -/
def execCalRunDone (a b : List (List Nat)) (s : State) : Res :=
  .next (match s.calib.run with
    | none => s
    | some r => match leAt r.payload 0 1 with
      | 1 => s.calPixel r
      | 2 => s.calSensor r a b
      | _ => s.calAdc r a b)

/-- What a boot loads: the corrected sensor tables, before SNS_LOCK is set in DEPLOYED (R434). -/
def State.calBoot (s : State) : State :=
  let s := s.calib.lin.foldl (fun (s : State) e => s.loadLin e.1 e.2) s
  if s.lc = 2 then s.setF R.SNS_LOCK 0 0 1 else s

/-- What NVS holds of CAL. -/
def CalEng.kept (x : CalEng) : CalEng := { x with run := none }

end Sys2Proof.Machine
end

