-- ==== Sys2Proof/Machine/Dma.lean ====
section
/-!
DEFINITION. Crater DMA (R23, R101 to R106): the descriptor, the four instructions, admission to the crater queue, and
the transfer itself.
-/
namespace Sys2Proof.Machine
open Sys2Proof

/-! ### The descriptor (R101) -/
def dmaFill (l : List Byte) : Bool := leAt l 22 2 % 2 = 1
def dmaRowBytes (l : List Byte) : Nat := leAt l 16 4
def dmaRows (l : List Byte) : Nat := leAt l 20 2
/-- The refusals of R102. -/
def dmaOk (l : List Byte) : Bool :=
  leAt l 6 2 = 0 && leAt l 14 2 = 0 && leAt l 22 2 / 2 = 0 && leAt l 13 1 ≤ 1 && (dmaFill l || leAt l 5 1 ≤ 1)
    && 1 ≤ dmaRowBytes l && dmaRowBytes l ≤ 65536 && dmaRows l ≠ 0

/-- The address of row r, byte k on one side, modulo 2^40 (kind 0) or 2^32 (kind 1). -/
def dmaAddr (kind base stride r k : Nat) : Nat :=
  let m : Nat := if kind = 0 then 2 ^ 40 else 2 ^ 32
  ((base % m : Nat) + (r : Int) * sext 32 stride + (k : Int)).emod m |>.toNat

/-- Where a transfer's byte lies: the vent's local store, a device address within the reach of crater DMA (R41), or
outside. -/
def dmaMap (n kind a : Nat) : VAddr :=
  if kind = 0 then if inDram a || inScratch a || inHubSram a then .scratch a else .outside
  else ventMap n a

/-- Record a byte outside reach (R516). -/
def State.dmaRange (s : State) (n kind a acc : Nat) : State :=
  if kind = 0 then s.busRange a acc 0x21 n else s.busRangeRaw a acc 0x21 n

/-- The byte at a place of a transfer; none for a double-bit scratch error (R22). -/
def State.dmaRead (s : State) (n : Nat) (m : VAddr) : Option Byte × State :=
  match m with
  | .local off => (some ((s.vent n).lsByte off), s)
  | .scratch a =>
    if inScratch a then
      let r := s.eccCheck a
      (if r.1 then some (r.2.rdB a) else none, r.2)
    else (some (s.rdB a), s)
  | .outside => (none, s)

/-- Store one byte; false for a double-bit error of a word that the row covers only in part (R22). `whole` says that
the row covers all of the word that holds the byte. -/
def State.dmaWrite (s : State) (n : Nat) (m : VAddr) (whole first : Bool) (b : Byte) : Bool × State :=
  match m with
  | .local off =>
    let v := s.vent n
    (true, s.setVent n { v with ls := minsert (merase v.ls off) off b })
  | .scratch a =>
    if inScratch a then
      if whole then (true, { s with ecc := merase s.ecc (a / 4 * 4) }.wrB a b)
      else if first then
        let r := s.eccCheck a
        (r.1, if r.1 then r.2.wrB a b else r.2)
      else (true, s.wrB a b)
    else (true, s.wrB a b)
  | .outside => (false, s)

/-- The address, of the kind given, that names a place. -/
def dmaPlace (n kind : Nat) (m : VAddr) : Option Nat :=
  match m with
  | .local off => if kind = 0 then none else some off
  | .scratch a =>
    let base := scratchAddr (ventCrater n) 0
    if kind = 0 then some a
    else if base ≤ a ∧ a < base + 0x100000 then some (0x100000 + (a - base)) else none
  | .outside => none

/-- Whether a place is a source byte of the transfer: what such a byte holds as a destination is unspecified (R106). -/
def dmaInSource (n : Nat) (l : List Byte) (m : VAddr) : Bool :=
  let sk := leAt l 5 1
  match dmaPlace n sk m with
  | some a =>
    !dmaFill l && (List.range (dmaRows l)).any fun r =>
      let base := dmaAddr sk (leAt l 0 5) (leAt l 24 4) r 0
      (if sk = 0 then (a + 2 ^ 40 - base) % 2 ^ 40 else (a + 2 ^ 32 - base) % 2 ^ 32) < dmaRowBytes l
  | none => false

/-- The byte that a place holds. -/
def State.dmaOld (s : State) (n : Nat) (m : VAddr) : Byte :=
  match m with
  | .local off => (s.vent n).lsByte off
  | .scratch a => s.rdB a
  | .outside => 0

/-- Move bytes i, i + 1, … of a transfer in order until it ends (R104): the status and the count done. -/
def State.dmaMove (s : State) (n : Nat) (l : List Byte) : Nat → Nat → Nat × Nat × State
  | 0, i => (OK, i, s)
  | f + 1, i =>
    let rb := dmaRowBytes l
    let r := i / rb
    let k := i % rb
    let sk := leAt l 5 1
    let dk := leAt l 13 1
    let sa := dmaAddr sk (leAt l 0 5) (leAt l 24 4) r k
    let da := dmaAddr dk (leAt l 8 5) (leAt l 28 4) r k
    let src := if dmaFill l then (some (l.getD (k % 4) 0), s) else s.dmaRead n (dmaMap n sk sa)
    if !dmaFill l && dmaMap n sk sa = .outside then (E_ABSENT, i, s.dmaRange n sk sa 0)
    else match src.1 with
      | none => (E_FAULT, i, src.2)
      | some b =>
        let s := src.2
        if dmaMap n dk da = .outside then (E_ABSENT, i, s.dmaRange n dk da 1)
        else
          let whole := decide (da % 4 ≤ k) && decide (k + (4 - da % 4) ≤ rb)
          let m := dmaMap n dk da
          let w := s.dmaWrite n m whole (k = 0 || da % 4 = 0) (if dmaInSource n l m then s.dmaOld n m else b)
          if w.1 then w.2.dmaMove n l f (i + 1) else (E_FAULT, i, w.2)

/-- The first f destination bytes of a transfer that are source bytes too hold free values (R106; assumption 57). -/
def State.dmaOverlap (s : State) (n : Nat) (l : List Byte) : Nat → State
  | 0 => s
  | f + 1 =>
    let s := s.dmaOverlap n l f
    let dk := leAt l 13 1
    let m := dmaMap n dk (dmaAddr dk (leAt l 8 5) (leAt l 28 4) (f / dmaRowBytes l) (f % dmaRowBytes l))
    if dmaInSource n l m then (s.dmaWrite n m true false (BitVec.ofNat 8 (s.free 71 256))).2.useFree else s

/-- One whole transfer: status, count done and the state it leaves. -/
def State.dmaRun (s : State) (n : Nat) (l : List Byte) : Nat × Nat × State :=
  let r := s.dmaMove n l (dmaRowBytes l * dmaRows l) 0
  (r.1, r.2.1, r.2.2.dmaOverlap n l r.2.1)

/-! ### Slots and tickets (R103) -/

def Vent.slot (v : Vent) (i : Nat) : DmaSlot := v.slots.getD i ({} : DmaSlot)
def Vent.setSlot (v : Vent) (i : Nat) (x : DmaSlot) : Vent :=
  { v with slots := ((v.slots ++ List.replicate 8 ({} : DmaSlot)).take 8).set i x }

/-- The slot that a ticket names, if it names a transfer of this run. -/
def Vent.ticket (v : Vent) (t : Word) : Option DmaSlot :=
  let count := fldOf t 31 3
  let slot := fldOf t 2 0
  let x := v.slot slot
  if count < v.dmaCount ∧ count % 8 = slot ∧ x.used ∧ x.count = count then some x else none

/-- The ticket of the k-th DMAGO of a run. -/
def ticketOf (k : Nat) : Word := Word.ofNat (k % 2 ^ 29 * 8 + k % 8)

/-- A DMAGO whose descriptor has been read takes its slot, or waits for the slot or for a place in the crater queue
(R23, R102, R103). -/
def State.dmaStart (s : State) (n rd : Nat) (l : List Byte) (admitted : Bool) : State :=
  let v := s.vent n
  let c := n / 16
  let x := s.crater c
  let i := v.dmaCount % 8
  let slot : DmaSlot := { used := true, count := v.dmaCount % 2 ^ 29, busy := dmaOk l,
                          status := if dmaOk l then BUSY else E_ARG, done := 0, total := dmaRowBytes l * dmaRows l,
                          desc := l }
  let go := fun (s : State) =>
    let v := { v.setSlot i slot with dmaCount := v.dmaCount + 1, stall := none }
    ((s.setVent n v).setGv n rd (ticketOf (v.dmaCount - 1))).retire (.vent (BitVec.ofNat 10 n))
  let stall := Stall.dmaGo (BitVec.ofNat 5 rd) l (dmaOk l)
  if (v.slot i).busy then s.stallVent n stall
  else if !dmaOk l then go s
  else if x.dmaq.length ≥ 64 ∨ (!admitted ∧ !x.dmaStall.isEmpty) then
    let m := if 0 < x.dmaCyc.2 && s.sameCycle x.dmaCyc.1 then x.dmaCyc.2 else 0
    let s := if 0 < x.dmaCyc.2 then s.askedCycle x.dmaCyc.1 else s
    (s.setCrater c { x with dmaStall := insCycle id m x.dmaStall n, dmaCyc := (s.now, m + 1) }).stallVent n stall
  else go (s.setCrater c { x with dmaq := x.dmaq ++ [(n, i)] })

/-- DMAGO (R103): the descriptor address is checked, then the descriptor is read once. -/
def execDmago (n : VentNo) (d a : GReg) (s : State) : Res :=
  .next (s.issue (.vent n) fun s =>
    let ad := (s.gv n.toNat a.toNat).toNat
    if ad % 32 ≠ 0 then s.fault (.vent n) C_ALIGN (Word.ofNat ad)
    else if !ventReach ad 32 then (s.ventRange n.toNat ad 0).fault (.vent n) C_RANGE (Word.ofNat ad)
    else
      let r := s.eccCheckAll (ventWords n.toNat ad 32)
      if r.1 then r.2.dmaStart n.toNat d.toNat (r.2.vrdBytes n.toNat ad 32) false
      else r.2.fault (.vent n) C_ECC (Word.ofNat ad))

/-- What DMAWAIT writes for an ended transfer. -/
def State.dmaWaited (s : State) (n : VentNo) (d : Nat) (t : Word) : State :=
  match (s.vent n.toNat).ticket t with
  | some x =>
    let s := if x.done < x.total then s.orFlags (.vent n) FL_TR else s
    (s.setGv n.toNat d (Word.ofNat x.done)).retire (.vent n)
  | none => (s.setGv n.toNat d 0).retire (.vent n)

/-- DMAWAIT (R103). -/
def execDmawait (n : VentNo) (d a : GReg) (s : State) : Res :=
  .next (s.issue (.vent n) fun s =>
    let t := s.gv n.toNat a.toNat
    match (s.vent n.toNat).ticket t with
    | some x => if x.busy then s.stallVent n.toNat (.dmaWait d t) else s.dmaWaited n d.toNat t
    | none => s.dmaWaited n d.toNat t)
/-- DMAPOLL (R103). -/
def execDmapoll (n : VentNo) (d a : GReg) (s : State) : Res :=
  .next (s.issue (.vent n) fun s =>
    let busy := match (s.vent n.toNat).ticket (s.gv n.toNat a.toNat) with
      | some x => x.busy
      | none => false
    (s.setGv n.toNat d.toNat (if busy then 0 else 1)).retire (.vent n))
/-- DMASTAT (R103). -/
def execDmastat (n : VentNo) (d a : GReg) (s : State) : Res :=
  .next (s.issue (.vent n) fun s =>
    let st := match (s.vent n.toNat).ticket (s.gv n.toNat a.toNat) with
      | some x => x.status
      | none => E_ABSENT
    (s.setGv n.toNat d.toNat (Word.ofNat st)).retire (.vent n))

/-- DMA_QUEUE_ADMIT: the earliest stalled DMAGO of a crater takes a free queue entry (R23). No effect while the queue
is full or nothing is stalled. -/
def execDmaQueueAdmit (c : BitVec 6) (s : State) : Res :=
  let c := c.toNat
  let x := s.crater c
  .next (match x.dmaStall with
    | [] => s
    | n :: t =>
      if x.dmaq.length ≥ 64 then s
      else
        let s := s.setCrater c { x with dmaStall := t, dmaCyc := (0, 0) }
        match (s.vent n).stall with
        | some (.dmaGo rd l _) => s.dmaStart n rd.toNat l true
        | _ => s)

/-- A transfer of vent n in slot i has ended: instructions of the vent that waited for it go on. -/
def State.dmaWake (s : State) (n : Nat) : State :=
  match (s.vent n).stall with
  | some (.dmaWait d t) =>
    if (match (s.vent n).ticket t with | some x => x.busy | none => false) then s
    else (s.unstallVent n).dmaWaited (BitVec.ofNat 10 n) d.toNat t
  | some (.dmaGo rd l _) =>
    if ((s.vent n).slot ((s.vent n).dmaCount % 8)).busy ∨ (s.crater (n / 16)).dmaStall.contains n then s
    else (s.unstallVent n).dmaStart n rd.toNat l false
  | _ => s.drained n

/-- DMA_TRANSFER_END: entry i of a crater's queue, the oldest of its vent, moves its bytes and ends (R104, R105). -/
def execDmaTransferEnd (c : BitVec 6) (i : Nat) (s : State) : Res :=
  let c := c.toNat
  let x := s.crater c
  .next (match x.dmaq[i]? with
    | none => s
    | some (n, slot) =>
      if (x.dmaq.take i).any (fun e => e.1 = n) then s
      else
        let l := ((s.vent n).slot slot).desc
        let r := s.dmaRun n l
        let s := r.2.2
        let v := s.vent n
        let y := s.crater c
        let s := s.setVent n (v.setSlot slot { v.slot slot with busy := false, status := r.1, done := r.2.1 })
        let s := s.setCrater c { y with dmaq := y.dmaq.eraseIdx i }
        let s := if s.craterIdle c then s.setCrater c { s.crater c with idleSince := s.now } else s
        s.dmaWake n)

end Sys2Proof.Machine
end

