-- ==== Sys2Proof/Machine/Sched.lean ====
section
/-!
DEFINITION. The caldera scheduler (R148 to R156, R165 to R169) and what it does with runs that end (R70, R105, R138).
-/
namespace Sys2Proof.Machine
open Sys2Proof

/-! ### The dispatch decision (R150 to R152) -/

/-- A die that runs. -/
def State.dieRuns (s : State) (d : Nat) : Bool := (s.die d).on && !(s.die d).lost

/-- Whether a head task fits (R150). -/
def State.fits (s : State) (k : Nat) (t : Task) : Bool :=
  let b := s.budget k
  let q : Int := s.quantum k t.desc.cls
  let resv : Int := (s.aFld (R.CAL_RESV k) 15 0 * 1024 : Nat)
  decide (s.bcap k ≤ b)
    || (if 24 ≤ t.desc.prio || (t.desc.critical && s.bit R.BGT_STATUS 0 && s.bit R.BGT_CTRL 5)
        then decide (0 ≤ b - q) else decide (resv ≤ b - q))

/-- A logical vent is free, within the affinity, on a position with a working slot, and not on a slot where the task
has met a hardware fault (R72, R152, R518). -/
def State.eligible (s : State) (t : Task) (n : Nat) : Bool :=
  (s.vent n).task.isNone && !(s.crater (n / 16)).off.contains (n % 16)
    && (t.desc.affKind ≠ 2 || t.desc.affTarget = n / 16) && !t.badSlots.contains (s.phys n)

/-- Vents busy in a crater. -/
def State.busyVents (s : State) (c : Nat) : Nat := (s.vents.filter fun e => e.1 / 16 = c && e.2.task.isSome).length

/-- The vent in the crater with the fewest busy vents; ties go to the lowest crater and position. -/
def State.leastBusy (s : State) : List Nat → Option Nat → Option Nat
  | [], b => b
  | n :: l, none => s.leastBusy l (some n)
  | n :: l, some m => s.leastBusy l (some (if s.busyVents (n / 16) < s.busyVents (m / 16) then n else m))

/-- The vent that a task of caldera k would take: in an open crater, else in a gated one (R152). -/
def State.pickVent (s : State) (k : Nat) (t : Task) : Option Nat :=
  let all := ((List.range 64).map (k * 64 + ·)).filter (s.eligible t)
  match s.leastBusy (all.filter fun n => s.craterUp (n / 16)) none with
  | some n => some n
  | none => s.leastBusy all none

/-- The head task of a level. -/
def State.head (s : State) (k lvl : Nat) : Option (Nat × Task) :=
  match s.readyQ k lvl with
  | key :: _ => (s.task? key).map fun t => (key, t)
  | [] => none

/-- The highest guarded level whose task still waits (R156). -/
def State.guardLevel (s : State) (k : Nat) : Option Nat :=
  ((s.cal k).guard.filter fun e => (s.readyQ k e.1).contains e.2).foldl
    (fun b e => match b with | none => some e.1 | some l => some (max l e.1)) none

/-- Scan the levels `lvl − 1` down to 0: the dispatch (level, task, vent) if any, and the levels passed over. -/
def State.scanLevels (s : State) (k : Nat) (guard : Nat) : Nat → List Nat → Option (Nat × Nat × Task × Nat) × List Nat
  | 0, past => (none, past)
  | lvl + 1, past =>
    match s.head k lvl with
    | none => s.scanLevels k guard lvl past
    | some (key, t) =>
      if lvl < guard then s.scanLevels k guard lvl past
      else match s.pickVent k t with
        | none => s.scanLevels k guard lvl past
        | some n => if s.fits k t then (some (lvl, key, t, n), past) else s.scanLevels k guard lvl (lvl :: past)

/-- The vent state at dispatch (R68): the other registers, predicates and local-store bytes are free values. -/
def ventStart (key : Nat) (t : Task) (run : Nat) : Vent :=
  let fr := Config.freeWord run
  { task := some key, pc := t.pc, run := run, cls := t.desc.cls,
    g := (List.range 32).map fun i =>
      if i = 1 then t.desc.arg else if i = 2 then t.desc.user else if i = 30 then 0x4000
      else if i = 31 then 0xFFFFFFFC else fr i,
    v := (List.range 16).map fun r => lanes.map fun i => fr (32 + 8 * r + i),
    p := (List.range 8).map fun i => BitVec.ofNat 8 (fr (160 + i)).toNat,
    slots := List.replicate 8 {} }

/-- Dispatch a task on a vent (R66, R68, R154): the charge is deducted, the wait is counted (R169), and a gated crater
begins to open (R25). -/
def State.dispatch (s : State) (k lvl key : Nat) (t : Task) (n : Nat) : State :=
  let q := s.quantum k t.desc.cls
  let s := s.setReadyQ k lvl ((s.readyQ k lvl).drop 1)
  let s := s.moveB n (-(q : Int))
  let x := s.cal k
  let s := s.setCal k { x with
    waitNs := mset (fun _ => 0) x.waitNs lvl (mget (fun _ => 0) x.waitNs lvl + (s.now - t.since) * 5 / 2),
    waitCnt := mset (fun _ => 0) x.waitCnt lvl (mget (fun _ => 0) x.waitCnt lvl + 1) }
  let c := n / 16
  let up := s.craterUp c
  let opening := !(s.crater c).isOpen
  let s := if up then s else (s.setCrater c { s.crater c with isOpening := true }).setF R.PWC_STATE 2 0 0
  let v := ventStart key t s.fresh
  let v := { v with opening := opening, opened := !up, start := s.now, startVck := (s.die (n / 256)).half, qStart := s.now,
                    qCharge := q, qUs := s.aFld (R.CAL_QUANTUM k) 7 0 }
  ((s.useFree.setVent n v).setTask key { t with st := .running n, runPc := t.pc }).noteDepth k lvl

/-- Start the pass-over timers of R156 for levels whose heads were passed over, and note a refusal for R163. -/
def State.notePassed (s : State) (k : Nat) (dispatched : Bool) (past : List Nat) : State :=
  let x := s.cal k
  let starve := past.foldl (fun m lvl =>
    match s.readyQ k lvl with
    | key :: _ => (match m.find? fun (e : Nat × Nat × Nat) => e.1 = lvl with
        | some e => if e.2.1 = key then m else minsert (merase m lvl) lvl (key, s.now)
        | none => minsert m lvl (key, s.now))
    | [] => m) x.starve
  s.setCal k { x with starve := if dispatched then starve else x.starve, refused := x.refused || !past.isEmpty }

/-- DISPATCH: one decision of a caldera's scheduler (R151 to R154). -/
def execDispatch (k : BitVec 4) (s : State) : Res :=
  let k := k.toNat
  .next (if 15 < k ∨ !s.bit R.SCH_CTRL 0 ∨ !s.aBit (R.CAL_CTRL k) 0 ∨ !s.dieRuns (k / 4) then s
    else
      let r := s.scanLevels k ((s.guardLevel k).getD 0) 32 []
      let s := s.notePassed k r.1.isSome r.2
      match r.1 with
      | some (lvl, key, t, n) => s.dispatch k lvl key t n
      | none => s)

/-- STARVE_GUARD: the pass-over timer of a level reaches SCH_STARVE.starve_us (R156). -/
def execStarveGuard (k : BitVec 4) (level : BitVec 5) (s : State) : Res :=
  let k := k.toNat
  let level := level.toNat
  let x := s.cal k
  .next (match x.starve.find? fun e => e.1 = level, s.readyQ k level with
    | some (_, key, since), head :: _ =>
      if key = head ∧ s.fld R.SCH_STARVE 15 0 * 400 ≤ s.now - since then
        s.setCal k { x with guard := (level, key) :: x.guard.filter fun e => e.1 ≠ level }
      else s
    | _, _ => s)

/-- CAL_GUARD as read. -/
def State.calGuard (s : State) (k : Nat) : Word :=
  match s.guardLevel k with
  | some l => Word.ofNat (256 + l)
  | none => 0

/-- QUANTUM_CHARGE: another q_us of run time has passed on vent n (R154, R155). -/
def execQuantumCharge (n : VentNo) (s : State) : Res :=
  let v := s.vent n.toNat
  let k := n.toNat / 64
  .next (if v.task.isNone ∨ s.now - v.qStart < v.qUs * 400 then s
    else
      let q := s.quantum k v.cls
      (s.moveB n.toNat (-(q : Int))).setVent n.toNat
        { v with qStart := v.qStart + v.qUs * 400, qCharge := q, qUs := s.aFld (R.CAL_QUANTUM k) 7 0 })

/-- RUNLIMIT: a task that has reached the run limit ends FAULT, and an instruction that is stalled has no effect (R71,
R138). -/
def execRunlimit (n : VentNo) (s : State) : Res :=
  let v := s.vent n.toNat
  let lim := s.fld R.SCH_RUNLIMIT 15 0
  .next (if v.task.isNone ∨ v.ended.isSome ∨ lim = 0 ∨ s.now - v.start < lim * 400 then s
    else s.endRun n.toNat (.fault C_RUNLIMIT v.pc) v.pc)

/-- VENT_RELEASE: the transfers of a run that ended have drained (R105, R155). -/
def execVentRelease (n : VentNo) (s : State) : Res := .next (s.releaseVent n.toNat)

/-! ### Completion and admission -/

/-- The 16-byte completion record (R70). -/
def completionRecord (key : Nat) (t : Task) (endState cause : Nat) : List Word :=
  [handleOf key t.seq, Word.ofNat (endState + cause * 256), t.desc.user, t.desc.tag]

/-- TASK_COMPLETION_POST: the record of an ended task is posted once its target has room, and the pool entry frees
(R70, R350). -/
def execTaskCompletionPost (key : Nat) (s : State) : Res :=
  .next (match s.task? key with
    | some t => (match t.st with
      | .ended es cause =>
        let rec4 := completionRecord key t es (if es = 1 then cause else 0)
        let n := t.desc.doneTarget
        if t.desc.doneKind = 1 then
          if !s.qProd n G_HW || s.qWords n * 4 < 16 then (s.qHwRefused n 0x22 t.at_).freeTask key t
          else
            let s := (s.qCheck n).2
            if s.qReady n then (s.qAppend n rec4).freeTask key t else s
        else match s.mbxPostDir n (16 + t.at_) with
          | none => s.freeTask key t
          | some fwd =>
            let c := s.chan n
            if (c.words fwd).length + 4 ≤ 8 ∧ (c.waiting fwd).isEmpty then
              (rec4.foldl (fun (s : State) w => s.mbxAppend n fwd w) s).freeTask key t
            else s
      | _ => s)
    | none => s)

/-- Finish a submission through port m (R167). -/
def State.portResult (s : State) (m st : Nat) (handle : Word) : State :=
  (s.wr (R.SCH_P_SUB m) (Word.ofNat (2 ^ 31 + st))).wr (R.SCH_P_HANDLE m) handle

/-- A core whose write to DESC7 was held goes on. -/
def State.portGoes (s : State) (m : Nat) : State :=
  if m = 0 then s
  else
    let c := s.core (m - 1)
    if c.stall = some (.submit m) then s.setCore (m - 1) { c with stall := none, pc := c.pc + 4 } else s

/-- Queue an admitted submission. -/
def State.admitted (s : State) (q : Submission) : State :=
  let r := s.addTask q.k q.desc
  let h := handleOf r.1 (mget (fun _ => 0) r.2.seqs r.1)
  match q.who with
  | .port m => (r.2.portResult m OK h).portGoes m
  | .vent n =>
    match (r.2.vent n).stall with
    | some (.spawn rd _ _) =>
      ((r.2.unstallVent n).setPair (.vent (BitVec.ofNat 10 n)) rd.toNat 0 h).retire (.vent (BitVec.ofNat 10 n))
    | _ => r.2

/-- Admit stalled submitters of caldera k in order while any has room (R148). -/
def State.admitAll (s : State) (k : Nat) : Nat → State
  | 0 => s
  | f + 1 =>
    let l := (s.cal k).stalled
    match l.findIdx? fun q => s.room k q.desc.prio with
    | some i =>
      (match l[i]? with
        | some q => ((s.setCal k { s.cal k with stalled := l.eraseIdx i, stallCyc := (0, 0) }).admitted q).admitAll k f
        | none => s)
    | none => s

/-- SUBMIT_ADMIT: room has appeared in a caldera (R148). -/
def execSubmitAdmit (k : BitVec 4) (s : State) : Res :=
  let k := k.toNat
  .next (s.admitAll k (s.cal k).stalled.length)

/-! ### Islands and memory requests -/

/-- PWC_CGATE shows whether the island of crater c is open (R439). -/
def State.showIsland (s : State) (c : Nat) : State :=
  s.setF (if c < 32 then R.PWC_CGATE_LO else R.PWC_CGATE_HI) (c % 32) (c % 32) (b2n (s.crater c).isOpen)

/-- CRATER_GATE: a crater idle for 10 µs is gated (R25, R439). -/
def execCraterGate (c : BitVec 6) (s : State) : Res :=
  let c := c.toNat
  let x := s.crater c
  .next (if 63 < c ∨ !x.isOpen ∨ !s.craterIdle c ∨ s.now - x.idleSince < 4000 then s
    else
      ((s.setCrater c { x with isOpen := false, counters := [] }).showIsland c).idleIfGated)

/-- CRATER_OPEN_DONE: an opening island completes and its vents fetch (R152, R439). -/
def execCraterOpenDone (c : BitVec 6) (s : State) : Res :=
  let c := c.toNat
  let x := s.crater c
  .next (if !x.isOpening then s
    else
      let s := (s.setCrater c { x with isOpen := true, isOpening := false, idleSince := s.now }).showIsland c
      { s with vents := s.vents.map fun (e : Nat × Vent) =>
          (e.1, if e.1 / 16 = c then { e.2 with opening := false } else e.2) })

/-- REQUEST_PROMOTE: a normal DRAM request that has waited 4 µs becomes urgent (R43). -/
def execRequestPromote (i : Nat) (s : State) : Res :=
  .next (match s.dramReqs[i]? with
    | some r => if r.cls = 0 ∧ 1600 ≤ s.now - r.since then { s with dramReqs := s.dramReqs.set i { r with cls := 1 } } else s
    | none => s)

/-! ### Migration (R165) -/

/-- Insert sorted by a key. -/
def bestBy {α : Type} (lt : α → α → Bool) : List α → Option α → Option α
  | [], b => b
  | x :: l, none => bestBy lt l (some x)
  | x :: l, some b => bestBy lt l (some (if lt x b then x else b))

/-- The candidate: the oldest READY ROAM task with affinity any of the highest level that holds one. -/
def State.roamCandidate (s : State) (k : Nat) : Nat → Option (Nat × Nat × Task)
  | 0 => none
  | lvl + 1 =>
    let c := (s.readyQ k lvl).filterMap fun key => match s.task? key with
      | some t => if t.desc.roam && t.desc.affKind = 0 then some (key, t) else none
      | none => none
    match bestBy (fun (a b : Nat × Task) => decide (a.2.since < b.2.since)) c none with
    | some (key, t) => some (lvl, key, t)
    | none => s.roamCandidate k lvl

/-- The destination: the coolest caldera that accepts and has room; ties to the fewest READY tasks, then the lowest. -/
def State.roamTarget (s : State) (src lvl : Nat) : Option Nat :=
  bestBy (fun (a b : Nat) => decide ((s.cal a).temp < (s.cal b).temp)
      || (decide ((s.cal a).temp = (s.cal b).temp) && decide (s.readyCount a < s.readyCount b)))
    ((List.range 16).filter fun k => k ≠ src && s.aBit (R.CAL_CTRL k) 1 && s.room k lvl) none

/-- Move up to `n` tasks from a caldera. -/
def State.rotate (s : State) (src : Nat) : Nat → State
  | 0 => s
  | n + 1 =>
    match s.roamCandidate src 32 with
    | none => s
    | some (lvl, key, t) =>
      match s.roamTarget src lvl with
      | none => s
      | some k =>
        let s := s.setReadyQ src lvl ((s.readyQ src lvl).filter (· ≠ key))
        let s := s.setTask key { t with
          at_ := k, holds := if t.holds.contains k then t.holds else k :: t.holds,
          moved := some (s.now, src, !t.holds.contains k) }
        let s := (s.setReadyQ k lvl (s.readyQ k lvl ++ [key])).noteDepth k lvl
        (((s.noteDepth src lvl).bump (R.CAL_MIGCNT src) 31 16).bump (R.CAL_MIGCNT k) 15 0).rotate src n

/-- FUMAROLE_ROTATION: one check (R165). -/
def execFumaroleRotation (s : State) : Res :=
  let en := (List.range 16).filter fun k => s.aBit (R.CAL_CTRL k) 0
  .next (if !s.bit R.SCH_CTRL 1 then s
    else match bestBy (fun a b => decide ((s.cal b).temp < (s.cal a).temp)) en none,
        bestBy (fun a b => decide ((s.cal a).temp < (s.cal b).temp)) en none with
      | some h, some c =>
        if (s.fld R.BGT_ROT 23 16 : Int) ≤ (s.cal h).temp - (s.cal c).temp then s.rotate h (s.fld R.BGT_ROT 31 24) else s
      | _, _ => s)

/-! ### Caldera registers (R158, R166) -/

/-- The shadowed registers of caldera k. -/
def calRanges (k : Nat) : List (Nat × Nat) :=
  [(R.CAL_CTRL k, R.CAL_CTRL k + 4), (R.CAL_RESV k, R.CAL_QUANTUM k + 4), (R.CAL_QCAP k 0, R.CAL_QCAP k 32)]

/-- CALDERA_COMMIT: a write of 1 to CAL_COMMIT.commit takes the shadow values. -/
def execCalderaCommit (k : BitVec 4) (s : State) : Res :=
  let k := k.toNat
  .next (if 15 < k then s
    else
      (s.takeShadows (R.CAL_COMMIT k) (calRanges k)).setF (R.CAL_COMMIT k) 31 31 1)

/-- Put a raised value into the active copy, and into the shadow unless software has written it since commit `no`. -/
def State.raise (s : State) (no a v : Nat) : State := (s.aWr a (Word.ofNat v)).backShadow no a (Word.ofNat v)

/-- A caldera commit is applied: a reserve below 2,000 and a cap too near it are raised (R158, R166). -/
def State.calCommit (k : Nat) (s : State) (x : Commit) : State :=
  let s := { s.applyVals x with commits := s.commits.filter fun y => y.no ≠ x.no }
  let s := if s.aFld (R.CAL_RESV k) 15 0 < 2000 then s.raise x.no (R.CAL_RESV k) 2000 else s
  let low := s.aFld (R.CAL_RESV k) 15 0 + 1000
  if s.aFld (R.CAL_BCAP k) 16 0 < low then s.raise x.no (R.CAL_BCAP k) low else s

/-- CALDERA_COMMIT_APPLY: the commit is applied between two decisions, unless the die is off (R48, R158, R166). -/
def execCalderaCommitApply (k : BitVec 4) (s : State) : Res :=
  let k := k.toNat
  .next (if 15 < k ∨ !s.bit (R.CAL_COMMIT k) 31 ∨ !s.dieRuns (k / 4) then s
    else
      let s := (s.commits.filter fun x => x.reg == R.CAL_COMMIT k).foldl (State.calCommit k) s
      (s.setF (R.CAL_COMMIT k) 31 31 0).setBudget k (s.budget k))

/-! ### Ports (R167, R168) -/

/-- The port of a master. -/
def portOwner : Master → Nat
  | .host => 0
  | .mgmt _ => 1
  | .svc n _ => n.toNat + 2
  | .langal => 10
  | .lhb => 11

/-- The caldera for a port submission of any affinity. -/
def State.anyCaldera (s : State) : Nat :=
  let en := (List.range 16).filter fun k => s.aBit (R.CAL_CTRL k) 0
  (bestBy (fun a b => decide (s.readyCount a < s.readyCount b)) (if en.isEmpty then List.range 16 else en) none).getD 0

/-- The descriptor in a port's registers. -/
def State.portDesc (s : State) (m : Nat) : List Byte := bytesOfWords (lanes.map fun i => s.rd (R.SCH_P_DESC m i))

/-- A write to SCH_Pm_DESC7 submits: true when it completed, false when the write is held for room (R148, R167). -/
def State.portSubmit (s : State) (m : Nat) (w : Word) : Bool × State :=
  let s := (s.wr (R.SCH_P_DESC m 7) w).setF (R.SCH_P_SUB m) 31 31 0
  let desc := s.portDesc m
  let st := s.submitStatus desc (m = 1)
  if st ≠ OK then (true, s.portResult m st 0)
  else
    let d := parseDesc desc
    let k := if d.affKind = 1 then d.affTarget else if d.affKind = 2 then d.affTarget / 4 else s.anyCaldera
    if s.admitNow k d.prio then (true, s.admitted ⟨.port m, k, d⟩) else (false, s.stallSubmit ⟨.port m, k, d⟩)

/-- SCH_PORT_SUBMIT (R167). -/
def execSchPortSubmit (m : BitVec 4) (who : Master) (w : Word) (s : State) : Res :=
  let m := m.toNat
  .next (if 9 < m then s
    else if portOwner who ≠ m then s.refuseAccess who (R.SCH_P_DESC m 7) 1
    else (s.portSubmit m w).2)
/-- SCH_PORT_CANCEL (R66, R69, R167). -/
def execSchPortCancel (m : BitVec 4) (who : Master) (h : Word) (s : State) : Res :=
  let m := m.toNat
  .next (if 9 < m then s
    else if portOwner who ≠ m then s.refuseAccess who (R.SCH_P_CANCEL m) 1
    else if 1 < m then s
    else let r := s.cancelTask h; r.2.wr (R.SCH_P_CRES m) (Word.ofNat (2 ^ 31 + r.1)))
/-- SCH_EVENT_WRITE (R168). -/
def execSchEventWrite (w : Word) (s : State) : Res :=
  .next (let e := fldOf w 10 0; if 0x400 ≤ e then s.fireEvent e else s)

/-! ### Snapshots (R169) -/

/-- SCH_SNAP_GO: a write of 1 to SCH_SNAP.go. -/
def execSchSnapGo (s : State) : Res := .next { s.setF R.SCH_SNAP 31 31 0 with snapReq := true }

/-- Microseconds that vent v of caldera k has had a task resident. -/
def State.busyUs (s : State) (k v : Nat) : Nat :=
  let x := s.vent (k * 64 + v)
  (mget (fun _ => 0) (s.cal k).busyUs v + (if x.task.isSome then s.now - x.start else 0)) / 400

/-- Capture the load registers of one caldera; the largest depths then start again from 0. -/
def State.snapCaldera (s : State) (k : Nat) : State :=
  let x := s.cal k
  let s := s.setCal k { x with qMax := [] }
  let s := (List.range 32).foldl (fun (s : State) l =>
    let w := mget (fun _ => 0) x.waitNs l
    (((s.wr (R.CAL_QWAIT_LO k l) (Word.ofNat w)).wr (R.CAL_QWAIT_HI k l) (Word.ofNat (w / 2 ^ 32))).wr
      (R.CAL_QWAIT_CNT k l) (Word.ofNat (mget (fun _ => 0) x.waitCnt l))).setF (R.CAL_QDEP k l) 28 16
        (mget (fun _ => 0) x.qMax l)) s
  (List.range 64).foldl (fun (s : State) v => s.wr (R.CAL_VBUSY k v) (Word.ofNat (s.busyUs k v))) s

/-- SCH_SNAP_CAPTURE: the capture that was asked for takes place. -/
def execSchSnapCapture (s : State) : Res :=
  .next (if !s.snapReq then s
    else
      let s := (List.range 16).foldl State.snapCaldera s
      { s.setF R.SCH_SNAP 31 31 1 with snapReq := false })

end Sys2Proof.Machine
end

