-- ==== Sys2Proof/Machine/Governor.lean ====
section
/-!
DEFINITION. BGT, the budget governor: refill and thermal weight (R157 to R160), cost learning (R161), clock and voltage
of the C-dies (R162 to R164, R506, R507).
-/
namespace Sys2Proof.Machine
open Sys2Proof

/-- A signed byte field. -/
def State.s8 (s : State) (a hi lo : Nat) : Int := sext 8 (s.fld a hi lo)
/-- t_soft, t_hard and w_min of BGT_THERM. -/
def State.tSoft (s : State) : Int := s.s8 R.BGT_THERM 7 0
def State.tHard (s : State) : Int := s.s8 R.BGT_THERM 15 8
def State.wMin (s : State) : Nat := s.fld R.BGT_THERM 23 16

/-- The weight of a caldera at temperature t (R159). -/
def State.thermWeight (s : State) (t : Int) : Nat :=
  if t ≤ s.tSoft then 256
  else if s.tHard ≤ t then s.wMin
  else (256 - ((256 - s.wMin : Nat) * (t - s.tSoft)) / (s.tHard - s.tSoft)).toNat

/-- G of R157, bu per µs. -/
def State.pool (s : State) : Nat := (s.fld R.BGT_LIMIT 7 0 * 1000 - s.fld R.BGT_FIXED 17 0) * 1024 / 1000

/-- A caldera that takes refill: enabled, and its die runs. -/
def State.refills (s : State) (k : Nat) : Bool := s.aBit (R.CAL_CTRL k) 0 && s.dieRuns (k / 4)

/-- BUDGET_REFILL: the refill of one microsecond; `temps` holds T of R159 for the 16 calderas (R157, R159). -/
def execBudgetRefill (temps : List Int) (s : State) : Res :=
  let t := fun k => temps.getD k 0
  let w := fun k => s.thermWeight (t k)
  let g := s.pool
  let sum := (List.range 16).foldl (fun a k => if s.refills k then a + w k else a) 0
  .next (if !s.clocksRun then s else (List.range 16).foldl (fun (s' : State) k =>
    let r := if s.refills k ∧ sum ≠ 0 then g * w k / sum else 0
    let s' := s'.setCal k { s'.cal k with temp := t k }
    let s' := s'.wr (R.CAL_THERM k) (Word.ofNat ((t k % 256).toNat * 65536 + w k))
    let s' := s'.wr (R.CAL_REFILL k) (Word.ofNat (r % 2 ^ 24))
    s'.refillB k r) (s.wr R.BGT_POOL (Word.ofNat (g % 2 ^ 24))))

/-- COST_LEARN: the costs of each die and class after 1 ms; the lists hold E and N of R161 at 8 × die + class. -/
def execCostLearn (energy vus : List Nat) (s : State) : Res :=
  .next (if !s.clocksRun ∨ !s.bit R.BGT_CTRL 1 then s
    else (List.range 32).foldl (fun (s : State) i =>
      let n := vus.getD i 0
      let a := R.BGT_COST (i / 8) (i % 8)
      if n < 100 then s
      else
        let c : Int := s.fld a 23 0
        s.wr a (Word.ofNat ((c + ((energy.getD i 0 / n : Nat) - c).tdiv (2 ^ s.fld R.BGT_LEARN 3 0 : Nat)) % 2 ^ 24).toNat)) s)

/-- Energy factors of the six points, in thousandths (R162). -/
def pointFactor (p : Nat) : Nat := [1519, 1000, 613, 360, 210, 95].getD p 95

/-- The costs of a die follow a change of point, rounded to nearest (R163). -/
def State.scaleCosts (s : State) (d old new : Nat) : State :=
  lanes.foldl (fun (s : State) c =>
    let a := R.BGT_COST d c
    s.wr a (Word.ofNat ((2 * s.fld a 23 0 * pointFactor new + pointFactor old) / (2 * pointFactor old) % 2 ^ 24))) s

/-- Die d is at a new point. -/
def State.setPoint (s : State) (d new : Nat) : State :=
  let x := s.die d
  ((s.scaleCosts d x.point new).setDie d { x with point := new }).setF (R.BGT_DIE d) 2 0 new

/-- VDD_C of each point, typical, mV (R162). -/
def pointMv (p : Nat) : Nat := [900, 800, 700, 620, 580, 550].getD p 550
/-- The voltage fused for a point of die d, µV: within 50 mV of the typical value and from 0.55 to 0.90 V (R506). -/
def fusedUv (d p : Nat) : Nat :=
  let lo := max 550000 (pointMv p * 1000 - 50000)
  let hi := min 900000 (pointMv p * 1000 + 50000)
  max lo (min hi (Config.railUv d p))
/-- VOUT_COMMAND of a point: V × 4,096, rounded (R506). -/
def voutWord (d p : Nat) : Nat := (fusedUv d p * 4096 + 500000) / 1000000
/-- The VOUT_COMMAND that the regulator of die d holds: the point's, or that of a rise in progress; with no write, or for
a die that is off, the 0.80 V at which the regulator starts (R506, R507). -/
def State.railCommand (s : State) (d : Nat) : Nat :=
  let x := s.die d
  if x.noRail ∨ !x.on then 3277
  else match x.target with
    | some p => voutWord d (min p x.point)
    | none => voutWord d x.point

/-- The floor and the ceiling of a die (R163, R507). -/
def State.dieFloor (s : State) (d : Nat) : Nat := if (s.die d).noRail then 1 else min 5 (s.fld (R.BGT_DIE d) 10 8)
def State.dieCeil (s : State) (d : Nat) : Nat :=
  if (s.die d).noRail then 1 else min (s.fld (R.BGT_DIE d) 6 4) (s.dieFloor d)

/-- Whether boost is granted to a die at temperature t (R164). -/
def State.boostOk (s : State) (t : Int) : Bool :=
  (s.bit R.BGT_CTRL 3 || (s.bit R.BGT_STATUS 0 && s.bit R.BGT_CTRL 4)) && decide (t < s.tSoft)
    && decide ((15000 : Int) ≤ (s.fld R.BGT_LIMIT 7 0 * 1000 : Nat) - (s.fld R.BGT_PKG 17 0 : Int))

/-- Whether the scheduler of a die refused a head task for budget since the last evaluation; the notes clear. -/
def State.dieRefused (s : State) (d : Nat) : Bool := [0, 1, 2, 3].any fun i => (s.cal (d * 4 + i)).refused
def State.clearRefused (s : State) (d : Nat) : State :=
  [0, 1, 2, 3].foldl (fun (s : State) i => s.setCal (d * 4 + i) { s.cal (d * 4 + i) with refused := false }) s

/-- The point that R163 asks for. -/
def State.nextPoint (s : State) (d : Nat) (x : CDie) (t : Int) (boost : Bool) : Nat :=
  let floor := s.dieFloor d
  let ceil := if boost ∧ !x.noRail then 0 else s.dieCeil d
  let p := x.target.getD x.point
  if s.tHard ≤ t then (if p < floor then p + 1 else p)
  else if p < ceil then ceil
  else if boost ∧ !x.noRail then 0
  else if 10 ≤ x.cool ∧ x.refAge < 10 ∧ ceil < p then p - 1
  else p

/-- One evaluation of a die (R163, R164). A step faster does not restart the count of 10 cool evaluations (DESIGN CHOICE,
assumption 53). -/
def State.evalDie (s : State) (temps : List Int) (d : Nat) : State :=
  let t := temps.getD d 0
  let x := s.die d
  if !s.dieRuns d then s
  else
    let boost := s.boostOk t
    let x := { x with temp := t, fallOld := none,
                      cool := if t ≤ s.tSoft - 5 then x.cool + 1 else 0,
                      refAge := if s.dieRefused d then 0 else x.refAge + 1 }
    let p := s.nextPoint d x t boost
    let x := if p ≠ x.point then { x with target := some p, naks := 0 } else { x with target := none }
    let s := ((s.clearRefused d).setDie d x).setF (R.BGT_DIE d) 23 16 (t % 256).toNat
    s.setF R.BGT_STATUS (4 + d) (4 + d) (b2n boost)

/-- DVFS_EVALUATE: the evaluation of every die after 1 ms; `temps` holds T_d (R163, R164). -/
def execDvfsEvaluate (temps : List Int) (s : State) : Res :=
  .next (if s.clocksRun ∧ s.bit R.BGT_CTRL 2 then [0, 1, 2, 3].foldl (fun s d => s.evalDie temps d) s else s)

/-- VCK_SWITCH: VCK takes the point of the change in progress: after the voltage has risen, or before it falls (R163,
R506). -/
def execVckSwitch (d : BitVec 2) (s : State) : Res :=
  let d := d.toNat
  let x := s.die d
  .next (match x.target with
    | some p =>
      let old := x.point
      let s := s.setPoint d p
      s.setDie d { s.die d with vck := p, target := none, naks := 0, fallOld := if old < p then some old else none }
    | none => s)

/-- RAIL_NAK: a regulator did not acknowledge. After two retries the change is abandoned: the die keeps its old point,
and a failed fall leaves the lower VCK (R507). -/
def execRailNak (d : BitVec 2) (s : State) : Res :=
  let d := d.toNat
  let x := s.die d
  .next (if x.naks < 2 then
      (if x.target.isSome ∨ x.fallOld.isSome then s.setDie d { x with naks := x.naks + 1 } else s)
    else match x.target, x.fallOld with
      | some _, _ => s.setDie d { x with target := none, naks := 0 }
      | none, some old =>
        let s := s.setPoint d old
        s.setDie d { s.die d with fallOld := none, naks := 0 }
      | none, none => s)

/-- Every die one point slower, down to its floor (R160). -/
def State.allSlower (s : State) : State :=
  [0, 1, 2, 3].foldl (fun (s : State) d =>
    let x := s.die d
    let p := x.target.getD x.point
    if s.dieRuns d ∧ p < s.dieFloor d then s.setDie d { x with target := some (p + 1), naks := 0 } else s) s

/-- BGT_PKG_PERIOD: the package power of 1 ms and the part not attributed to vents (R160). -/
def execBgtPkgPeriod (pkgMw fixedMw : Nat) (s : State) : Res :=
  let run := s.clocksRun
  let s := if run then
      (s.wr R.BGT_PKG (Word.ofNat (pkgMw % 2 ^ 18))).wr R.BGT_FIXED (Word.ofNat (fixedMw % 2 ^ 18))
    else s
  let lim := s.fld R.BGT_LIMIT 7 0
  .next (if !run then s
    else if lim * 1000 < pkgMw then
      let n := s.bgtOver + 1
      if n % 4 = 0 then
        ({ s with bgtOver := n, bgtUnder := 0 }.setF R.BGT_STATUS 1 1 1).allSlower.log 0x0012 1 pkgMw lim
      else { s with bgtOver := n, bgtUnder := 0 }
    else
      let n := s.bgtUnder + 1
      let s := { s with bgtOver := 0, bgtUnder := n }
      if 4 ≤ n then s.setF R.BGT_STATUS 1 1 0 else s)

end Sys2Proof.Machine
end

