-- ==== Sys2Proof/Machine/Video.lean ====
section
/-!
DEFINITION. Video flows: frame stores and their selection (R223 to R225, R294).
-/
namespace Sys2Proof.Machine
open Sys2Proof

def State.vst (s : State) (v i : Nat) : VStore := mget (fun _ => {}) s.vid (v * 4 + i)
def State.setVst (s : State) (v i : Nat) (x : VStore) : State := { s with vid := mset (fun _ => {}) s.vid (v * 4 + i) x }
/-- The timestamp of the video frame a flow discarded last. -/
def State.vidDropped (s : State) (v : Nat) : Option Word := mget (fun _ => none) s.vidDrop v
def State.setVidDrop (s : State) (v : Nat) (x : Option Word) : State :=
  { s with vidDrop := mset (fun _ => none) s.vidDrop v x }
def State.vfEn (s : State) (v : Nat) : Bool := s.aBit (R.MAC_VF_CFG v) 31
def State.vfRgb (s : State) (v : Nat) : Bool := s.aBit (R.MAC_VF_CFG v) 30
def State.vfD8 (s : State) (v : Nat) : Bool := s.aBit (R.MAC_VF_CFG v) 29
def State.vfW (s : State) (v : Nat) : Nat := s.aFld (R.MAC_VF_CFG v) 26 14
def State.vfH (s : State) (v : Nat) : Nat := s.aFld (R.MAC_VF_CFG v) 11 0
/-- Samples per pixel. -/
def State.vfSpp (s : State) (v : Nat) : Nat := if s.vfRgb v then 3 else 2
/-- Device address of store i (R294). -/
def State.vfStore (s : State) (v i : Nat) : Nat :=
  let size := s.vfW v * s.vfH v * (2 * s.vfSpp v)
  s.aFld (R.MAC_VF_BASE_HI v) 7 0 * 2 ^ 32 + s.aFld (R.MAC_VF_BASE_LO v) 31 12 * 4096 + i * (ceilDiv size 4096 * 4096)

/-- MAC_VFv_CFG and its base take effect when en changes from 0 to 1; a flow outside R223 stays disabled. -/
def State.vfEnable (s : State) (v : Nat) : State :=
  let en := s.bit (R.MAC_VF_CFG v) 31
  if !en then s.aWr (R.MAC_VF_CFG v) (setFld (s.aRd (R.MAC_VF_CFG v)) 31 31 0)
  else if s.vfEn v ∨ !s.vfOk v then s
  else
    let s := [R.MAC_VF_CFG v, R.MAC_VF_BASE_LO v, R.MAC_VF_BASE_HI v].foldl (fun (s : State) a => s.aWr a (s.rd a)) s
    [0, 1, 2, 3].foldl (fun (s : State) i => s.setVst v i {}) (s.setVidDrop v none)

/-- A store becomes partial and is counted (R224). -/
def State.vfPartial (s : State) (v i : Nat) : State :=
  let x := s.vst v i
  if x.st = .partial_ then s
  else (s.setVst v i { x with st := .partial_ }).bump (R.MAC_VF_CNT0 v) 31 16

/-- A store that an unretired show frame has selected is held (R224). -/
def State.vstHeld (s : State) (x : VStore) : Bool := match x.selBy with
  | some f => !s.retired f
  | none => false

/-- The store with the smallest order among some. -/
def State.oldest (s : State) (v : Nat) : List Nat → Option Nat → Option Nat
  | [], b => b
  | i :: t, b =>
    s.oldest v t (if s.vstHeld (s.vst v i) then b else match b with
      | some j => if (s.vst v i).order < (s.vst v j).order then some i else b
      | none => some i)

/-- The store that holds timestamp ts, or a new one (R224): a frame that was still filling in the flow becomes partial
when a new timestamp starts. With every store held the whole video frame is discarded and counted once. -/
def State.vfTake (s : State) (v : Nat) (ts : Word) : Option Nat × State :=
  match [0, 1, 2, 3].find? fun i => (s.vst v i).st ≠ .empty ∧ (s.vst v i).ts = ts with
  | some i => (some i, s)
  | none =>
    if s.vidDropped v = some ts then (none, s)
    else
    let s := [0, 1, 2, 3].foldl (fun (s : State) i => if (s.vst v i).st = .filling then s.vfPartial v i else s) s
    match s.oldest v [0, 1, 2, 3] none with
    | none => (none, (s.setVidDrop v (some ts)).bump (R.MAC_VF_CNT0 v) 15 0)
    | some i =>
      let n := ([0, 1, 2, 3].foldl (fun m j => max m (s.vst v j).order) 0) + 1
      (some i, s.setVst v i { st := .filling, ts := ts, order := n })

/-- The bits of a byte string, most significant first. -/
def bitsOf (l : List Byte) : List Bool :=
  l.flatMap fun b => [7, 6, 5, 4, 3, 2, 1, 0].map fun i => b.getLsbD i
/-- Samples of d bits. -/
def samplesOf (d : Nat) : Nat → List Bool → List Nat
  | 0, _ => []
  | n + 1, l => if l.length < d then [] else ((l.take d).foldl (fun a b => 2 * a + b2n b) 0) :: samplesOf d n (l.drop d)

/-- The sample row data headers of a payload: (length, field, row, offset), until one has no continuation bit. -/
def srdHeaders : Nat → List Byte → List (Nat × Bool × Nat × Nat)
  | 0, _ => []
  | n + 1, l =>
    let row := beNat ((l.drop 2).take 2)
    let off := beNat ((l.drop 4).take 2)
    (beNat (l.take 2), decide (0x8000 ≤ row), row % 0x8000, off % 0x8000)
      :: (if 0x8000 ≤ off then srdHeaders n (l.drop 6) else [])

/-- Place the samples of each header in the store (R294): 16-bit samples, 8-bit ones shifted left by 2 (R223). -/
def State.vfWrite (s : State) (p v i : Nat) : List (Nat × Bool × Nat × Nat) → List Byte → State
  | [], _ => s
  | (len, _, row, off) :: t, l =>
    let d := if s.vfD8 v then 8 else 10
    let spp := s.vfSpp v
    let sm := samplesOf d (len * 8 / d) (bitsOf (l.take len))
    let sm := if s.vfD8 v then sm.map (· * 4) else sm
    let x := s.vst v i
    let got := mget (fun _ => 0) x.rows row + sm.length
    let s := s.setVst v i { x with rows := mset (fun _ => 0) x.rows row got }
    let s := s.hubWr hubReach M_MAC p (s.vfStore v i + (row * s.vfW v + off) * (2 * spp)) (sm.flatMap (leBytes 2))
    s.vfWrite p v i t (l.drop len)

/-- Every line of a store is present. -/
def State.vfWhole (s : State) (v i : Nat) : Bool :=
  (List.range (s.vfH v)).all fun r => mget (fun _ => 0) (s.vst v i).rows r == s.vfW v * s.vfSpp v

/-- VIDEO_PACKET: the RTP packet of a frame steered to flow v (R294). -/
def State.videoPacket (s : State) (p v : Nat) (rtp : List Byte) : State :=
  let base := 12 + 4 * (leAt rtp 0 1 % 16)
  let hdr := if leAt rtp 0 1 / 16 % 2 = 1 then base + 4 + 4 * beNat ((rtp.drop (base + 2)).take 2) else base
  let marker := 128 ≤ leAt rtp 1 1
  let ts := Word.ofNat (beNat ((rtp.drop 4).take 4))
  let seq := beNat ((rtp.drop hdr).take 2) * 65536 + beNat ((rtp.drop 2).take 2)
  let hs := srdHeaders 3 (rtp.drop (hdr + 2))
  if !s.vfEn v ∨ leAt rtp 0 1 / 64 ≠ 2 ∨ rtp.length < hdr + 8 then s.macCnt p RX_DROP
  else
    match s.vfTake v ts with
    | (none, s) => s
    | (some i, s) =>
      let x := s.vst v i
      let gap := match x.lastSeq with
        | some q => decide ((q + 1) % 2 ^ 32 ≠ seq)
        | none => false
      let s := s.setVst v i { x with lastSeq := some seq }
      let d := if s.vfD8 v then 8 else 10
      let bad := hs.any fun h =>
        h.2.1 || decide (s.vfH v ≤ h.2.2.1) || decide (s.vfW v * s.vfSpp v < h.2.2.2 * s.vfSpp v + h.1 * 8 / d)
      let s := if gap then s.vfPartial v i else s
      if bad then s.vfPartial v i
      else
        let s := s.vfWrite p v i hs (rtp.drop (hdr + 2 + 6 * hs.length))
        if !marker then s
        else if (s.vst v i).st = .partial_ then s
        else if s.vfWhole v i then (s.setVst v i { s.vst v i with st := .complete }).wr (R.MAC_VF_TS v) ts
        else s.vfPartial v i

/-! ### Selection (R225) -/

/-- The best complete store of flow v at ts. -/
def State.bestStore (s : State) (v : Nat) (ts : Word) : List Nat → Option Nat → Option Nat
  | [], b => b
  | i :: t, b =>
    let x := s.vst v i
    s.bestStore v ts t (if x.st = .complete ∧ 0 ≤ sdiff ts x.ts then
      match b with
      | some j => if 0 < sdiff x.ts (s.vst v j).ts then some i else b
      | none => some i
    else b)

/-- The 90 kHz timestamp of N_F − delay × P, rounded down (R225). The PTP time of a TSU time is the firmware's: TSU counts
PTP nanoseconds here, and where it began is a free value (assumption 12). -/
def State.videoTs (s : State) (f : Word) (delay : Nat) : Word :=
  Word.ofInt ((((Config.freeNat 20 0 : Nat) * 4294967296 + s.tsuNear (s.nominal f)) * (s.rateD : Nat)
    - (delay * 1000 * s.rateN : Nat)) * 9 / (100000 * s.rateD : Nat))

/-- The newest of the stores of a flow is newer than the one selected by at least a frame of the flow: the flow's frame
rate places another store at ts (R225). The flow's frame interval is taken from its last two timestamps. -/
def State.storeStale (s : State) (v i : Nat) (ts : Word) : Bool :=
  let x := s.vst v i
  let older := ([0, 1, 2, 3].filter fun j => (s.vst v j).order + 1 = x.order).map fun j => sdiff x.ts (s.vst v j).ts
  match older with
  | d :: _ => decide (0 < d) && decide (d ≤ sdiff ts x.ts)
  | [] => false

/-- Where a frame's store of layer l is kept. -/
def layerKey (f : Word) (l : Nat) : Nat := f.toNat % 2 * 16 + l
def State.setLayerStore (s : State) (f : Word) (l i : Nat) : State :=
  { s with layerStore := mset (fun _ => 4) s.layerStore (layerKey f l) i }

/-- Layer l of frame f takes its store, or none (R225). -/
def State.videoSelectOne (s : State) (f : Word) (l : Nat) (r : List Byte) : State :=
  if layerKind r ≠ 2 then s.setLayerStore f l 4
  else
    let v := layerSrc r
    let ts := s.videoTs f (leAt r 14 2)
    let s := { s with layerTs := mset (fun _ => 0) s.layerTs (layerKey f l) ts }
    match s.bestStore v ts [0, 1, 2, 3] none with
    | some i =>
      let s := if s.storeStale v i ts then s.bump (R.MAC_VF_CNT1 v) 15 0 else s
      (s.setVst v i { s.vst v i with selBy := some f }).setLayerStore f l i
    | none => (s.bump (R.MAC_VF_CNT1 v) 31 16).setLayerStore f l 4

/-- VIDEO_STORE_SELECT at frame start f. -/
def State.videoAt (s : State) (f : Word) : State :=
  s.tbl.layer.foldl (fun (s : State) e => s.videoSelectOne f e.1 (e.2.at f)) s

end Sys2Proof.Machine
end

