-- ==== Sys2Proof/Machine/Kernel.lean ====
section
/-!
DEFINITION. The frame work of the fixture and pixel kernels (R207 to R209, R214 to R218, R226): what stands in the state
blocks, the universe buffers, the canvases and the drive sums when a frame commits, and the generators that the firmware
spawns for a frame (R215). The work of a frame is done whole before its commit (assumption 51).
-/
namespace Sys2Proof.Machine
open Sys2Proof

/-- The fade time in the argument blocks of frame f (R126): what it was at frame start f. -/
def State.fadeOf (s : State) (f : Word) : Word :=
  match s.fadeFrames.find? fun e => e.1 = f with
  | some e => e.2
  | none => s.showFade f

/-! ### The fixture kernel (R207 to R209) -/

/-- Record i of the copy of a state block that frame f writes. -/
def State.blockRec (s : State) (r : List Byte) (f : Word) (i : Nat) : List Byte :=
  s.rdBytes (fixBlock r + f.toNat % 2 * 1024 + 16 * i) 16

/-- The fade that a step entry begins at time t from a level (R206, R207). -/
def stepFade (level : Word) (e : List Byte) (t : Word) : List Byte :=
  leBytes 4 (level.toNat + leAt e 2 1 / 16 * 2 ^ 20) ++ leBytes 4 (leAt e 0 4 % 2 ^ 20)
    ++ leBytes 4 (t + Word.ofNat (leAt e 8 4)).toNat ++ leBytes 4 (leAt e 4 4)

/-- Record i of the state copy of frame f: the pending step begins in frame go_frame, and every other record is kept. -/
def State.nextFade (s : State) (r p : List Byte) (f t : Word) (i : Nat) : List Byte :=
  let old := s.blockRec r (f - 1) i
  let e := s.rdBytes (fixStep r + 16 * i) 16
  if fixEn r ∧ fixGo r = f ∧ f ≠ NO_FRAME ∧ fixStep r ≠ 0 ∧ i < persN p ∧ leAt e 3 1 % 2 = 1 then
    stepFade (fadeLevel old t) e t
  else old

/-- A parameter's curve (R205): linear, built in, or a user table as frame f sees it. -/
def State.curveOf (s : State) (c : Nat) (f x : Word) : Word :=
  if c = 0 then x
  else if c ≤ 8 then (gammaLane (c - 1) x).1
  else
    let a := leNat ((slotOf s.tbl.curve (c - 0x100)).at f)
    let k := curveBits (s.rdLe a 1)
    (curveTable k (s.rdBytes a (4 + 4 * (2 ^ k + 1))) x).1

/-- A level moved by the effect offset of parameter i (R207). -/
def State.withOffset (s : State) (r : List Byte) (i : Nat) (x : Word) : Word :=
  if fixFx r = 0 then x
  else
    let o := s.rdW (fixFx r + 4 * i)
    if 0 ≤ o.toInt then (aluAddl x o).1 else (aluSubl x (-o)).1

/-- The 24-bit wire value of a lum20 level. -/
def wireOf (x : Word) : Nat := x.toNat * 16 + x.toNat / 65536

/-- The wire value v of parameter i in frame f (R207); the default while the fixture is disabled (R208). -/
def State.wireValue (s : State) (r p : List Byte) (f t : Word) (i : Nat) : Nat :=
  if !fixEn r then leAt p (68 + 8 * i) 3
  else
    match fixProg r i with
    | some v => v
    | none =>
      let v := wireOf (s.curveOf (persCurve p i) f (s.withOffset r i (fadeLevel (s.nextFade r p f t i) t)))
      if 32768 ≤ persF p i then 0xFFFFFF - v else v

/-- The bytes of a parameter in its slots, lowest slot first (R209). -/
def wireBytesOf (width order v : Nat) : List Byte :=
  let l := leBytes width (v / 2 ^ (8 * (3 - width)))
  if order = 1 then l else l.reverse

/-- Byte k of a footprint; the slots that no parameter covers take `idle`, for the spec gives them no value. -/
def footByte (p : List Byte) (v : Nat → Nat) (idle : List Byte) (k : Nat) : Byte :=
  match (List.range (persN p)).find? fun i => (persSlots p i).contains k with
  | some i => (wireBytesOf (persWidth p i) (persOrder p i) (v i)).getD (k - persOff p i) 0
  | none => idle.getD k 0

/-- The kernel of fixture i in frame f: the state copy of f in full, then every slot of its footprint in the universe copy
of f. -/
def State.fixtureWork (s : State) (f : Word) (i : Nat) : State :=
  let r := s.fixAt i f
  if r.isEmpty then s
  else
    let p := s.persAt (fixPers r) f
    let t := s.fadeOf f
    let odd := f.toNat % 2
    let recs := (List.range 64).flatMap (s.nextFade r p f t)
    let slots := (List.range (persFoot p)).map (footByte p (s.wireValue r p f t) (s.freeBytes 81 (persFoot p)))
    ((s.useFree.wrBytes (fixBlock r + odd * 1024) recs).wrBytes (ubufAddr (fixBuf r) (odd * 512 + fixSlot r - 1)) slots)

/-! ### Texels (R216) -/

/-- An integer in fp32, and a quotient of two. -/
def f32Int (x : Int) : Word := (fcvtSW (Word.ofInt x)).1
def f32Quot (a b : Int) : Word := (fDiv (f32Int a) (f32Int b)).1
/-- A rational in fp32. -/
def f32Rat (a : Int) (b : Nat) : Word := (pack32 (decide (a < 0)) (if a = 0 then 0 else divSticky a.natAbs b) (-65)).1

/-- VGAMMA.decode of a lum20 value, in fp32 (R58); 0xFF is no curve. -/
def decodeLum (k : Nat) (c : Word) : Word := (fcvtSL (if k = 0xFF then c else (gammaLane k c).1)).1
/-- A colour clamped to 0 to 1.0, then decoded (formats 2 and 3). -/
def decodeUnit (k : Nat) (w : Word) : Word :=
  if k = 0xFF then (fMin ONE32 (fMax 0 w).1).1 else decodeLum k (fcvtLS w).1

/-- The luma weights of red and blue in BT.709 and BT.2020, in ten-thousandths (assumption 63). -/
def lumaWeights (m : Nat) : Int × Int := if m = 0 then (2126, 722) else (2627, 593)
/-- The matrix from Y′, Cb, Cr to R′, G′, B′, with no offset. -/
def yccMatrix (m row col : Nat) : ResF :=
  let (kr, kb) := lumaWeights m
  let kg := 10000 - kr - kb
  plain (match row, col with
    | _, 0 => ONE32
    | 0, 2 => f32Rat (2 * (10000 - kr)) 10000
    | 1, 1 => f32Rat (-2 * kb * (10000 - kb)) (10000 * kg).toNat
    | 1, 2 => f32Rat (-2 * kr * (10000 - kr)) (10000 * kg).toNat
    | 2, 1 => f32Rat (2 * (10000 - kb)) 10000
    | _, _ => 0)

/-- What a layer samples: the device address of its first texel, the pitch and the size. -/
structure Source where
  base : Nat
  pitch : Nat
  w : Nat
  h : Nat
  deriving DecidableEq, Repr

/-- Twice the chroma sample at byte `o` of a pair for pixel x of a line: its own, or the mean with the next pair's. -/
def State.chroma2 (s : State) (line w x o : Nat) : Nat :=
  let c (j : Nat) := s.rdLe (line + 8 * j + o) 2
  if x % 2 = 0 ∨ w ≤ x + 1 then 2 * c (x / 2) else c (x / 2) + c (x / 2 + 1)

/-- Texel (x, y) of a source, in linear premultiplied fp32 (R216). -/
def State.texel (s : State) (src : Source) (l : List Byte) (x y : Nat) : List Word :=
  let k := leAt l 5 1
  let line := src.base + y * src.pitch
  match leAt l 4 1 with
  | 0 => [0, 1, 2, 3].map fun i => (f16to32 (s.rdLe (line + 8 * x + 2 * i) 2)).1
  | 1 =>
    let c (i : Nat) := s.rdLe (line + 4 * x + i) 1
    let alpha := f32Quot (c 3) 255
    ([0, 1, 2].map fun i => (fMul (decodeLum k (Word.ofNat ((c i * LUM1 + 127) / 255))) alpha).1) ++ [alpha]
  | 2 =>
    let ycc (i : Nat) := plain (match i with
      | 0 => f32Quot (s.rdLe (line + x / 2 * 8 + x % 2 * 4 + 2) 2 - 64) 876
      | 1 => f32Quot (s.chroma2 line src.w x 0 - 1024) 1792
      | _ => f32Quot (s.chroma2 line src.w x 4 - 1024) 1792)
    ([0, 1, 2].map fun r => decodeUnit k (matrixRow (yccMatrix (leAt l 7 1) r) ycc).1) ++ [ONE32]
  | _ => ([0, 1, 2].map fun i => decodeUnit k (f32Quot (s.rdLe (line + 6 * x + 2 * i) 2 - 64) 876)) ++ [ONE32]

/-! ### Sampling (R217) -/

/-- The source of a layer in frame f; none where a layer of kind 2 has no store (R225). -/
def State.sourceOf (s : State) (f : Word) (n : Nat) (l : List Byte) : Option Source :=
  let b := s.buf (layerSrc l + (if layerKind l = 3 then f.toNat % 2 else 0))
  if layerKind l ≠ 2 then some ⟨b.base, b.pitch, leAt l 10 2, leAt l 12 2⟩
  else
    let v := layerSrc l
    let i := mget (fun _ => 4) s.layerStore (layerKey f n)
    if i = 4 then none else some ⟨s.vfStore v i, s.vfW v * texelBytes (leAt l 4 1), s.vfW v, s.vfH v⟩

/-- The texel one form of VSAMPA answers at (u, v): transparent black outside the wrap modes. -/
def State.sampleAt (s : State) (src : Source) (l : List Byte) (dx dy : Nat) (u v : Word) : List Word :=
  match wrapCoord (s32sat (floorS32 u + dx)) src.w (leAt l 6 1 % 4),
      wrapCoord (s32sat (floorS32 v + dy)) src.h (leAt l 6 1 / 4 % 4) with
  | some x, some y => s.texel src l x y
  | _, _ => [0, 0, 0, 0]

/-- Nearest or bilinear filtering at (u, v): along x, then along y. -/
def State.filterAt (s : State) (src : Source) (l : List Byte) (u v : Word) : List Word :=
  if leAt l 3 1 % 2 = 0 then s.sampleAt src l 0 0 u v
  else
    let u := (fSub u 0x3F000000).1
    let v := (fSub v 0x3F000000).1
    let t (dx dy : Nat) := s.sampleAt src l dx dy u v
    let wx := (fFract u).1
    let wy := (fFract v).1
    [0, 1, 2, 3].map fun i =>
      let c (dx dy : Nat) := (t dx dy).getD i 0
      (lerp wy (lerp wx (c 0 0) (c 1 0)).1 (lerp wx (c 0 1) (c 1 1)).1).1

/-- Vertex (i, j) of a layer's mesh: component 0 is u, 1 is v. -/
def State.meshVertex (s : State) (l : List Byte) (i j c : Nat) : Word :=
  s.rdW ((s.buf (leAt l 60 2)).base + (j * leAt l 64 2 + i) * 8 + 4 * c)

/-- The position of a pixel centre in a mesh of n columns over the w pixels from p0: the cell and the place in it. -/
def meshCell (p : Word) (p0 n w : Nat) : Nat × Word :=
  let g := (fDiv (fMul (fSub p (f32Int p0)).1 (f32Int (n - 1))).1 (f32Int w)).1
  let i := (min (floorS32 g) (n - 2 : Nat)).toNat
  (i, (fSub g (f32Int i)).1)

/-- The source position of canvas pixel (x, y) (R217). -/
def State.position (s : State) (l : List Byte) (x y : Nat) : Word × Word :=
  let px := (fAdd (f32Int x) 0x3F000000).1
  let py := (fAdd (f32Int y) 0x3F000000).1
  if layerMesh l then
    let (i, fx) := meshCell px (leAt l 16 2) (leAt l 64 2) (leAt l 20 2)
    let (j, fy) := meshCell py (leAt l 18 2) (leAt l 66 2) (leAt l 22 2)
    let at_ (c : Nat) :=
      (lerp fy (lerp fx (s.meshVertex l i j c) (s.meshVertex l (i + 1) j c)).1
        (lerp fx (s.meshVertex l i (j + 1) c) (s.meshVertex l (i + 1) (j + 1) c)).1).1
    (at_ 0, at_ 1)
  else
    let h (i : Nat) := plain (Word.ofNat (leAt l (24 + 4 * i) 4))
    ((projU h px py).1, (projV h px py).1)

/-! ### Compositing (R214, R215, R218) -/

/-- Canvas pixel (x, y) lies within the layer's rect. -/
def inRect (l : List Byte) (x y : Nat) : Bool :=
  decide (leAt l 16 2 ≤ x) && decide (x < leAt l 16 2 + leAt l 20 2)
    && decide (leAt l 18 2 ≤ y) && decide (y < leAt l 18 2 + leAt l 22 2)

/-- A layer's opacity at time t (R218). -/
def layerOpacity (l : List Byte) (t : Word) : Word := (fcvtSL (fadeLevel ((l.drop 68).take 16) t)).1

/-- A canvas pixel, as four halfwords, after layer n of frame f: blended in fp32 and stored as fp16. -/
def State.blendPixel (s : State) (f : Word) (x y : Nat) (d : List Nat) (n : Nat) (l : List Byte) : List Nat :=
  let o := layerOpacity l (s.fadeOf f)
  let m := leAt l 2 1
  if !inRect l x y ∨ (o = 0 ∧ m ≠ 0) then d
  else
    match s.sourceOf f n l with
    | none => d
    | some src =>
      let (u, v) := s.position l x y
      let t := s.filterAt src l u v
      [0, 1, 2, 3].map fun i =>
        (f32to16 (blendLane m (i = 3) (f16to32 (d.getD i 0)).1 (t.getD i 0) (t.getD 3 0) (opacity o)).1).1

/-- Pixel (x, y) of canvas c in frame f: the clear colour, then the enabled layers that target it, in ascending order. -/
def State.compose (s : State) (f : Word) (c : Nat) (r : List Byte) (x y : Nat) : List Nat :=
  (List.range 16).foldl (fun d n =>
      let l := (slotOf s.tbl.layer n).at f
      if layerKind l = 0 ∨ leAt l 1 1 ≠ c then d else s.blendPixel f x y d n l)
    ([0, 1, 2, 3].map fun i => leAt r (8 + 2 * i) 2)

/-- The pixels of a canvas, row by row. -/
def canvasPixels (r : List Byte) : List (Nat × Nat) :=
  (List.range (canvasH r)).flatMap fun y => (List.range (canvasW r)).map fun x => (x, y)

/-- The canvases enabled in frame f. -/
def State.canvasesOn (s : State) (f : Word) : List (Nat × List Byte) :=
  ((List.range 8).map fun c => (c, (slotOf s.tbl.canvas c).at f)).filter fun e => canvasEn e.2

/-- Canvas c in frame f, written whole (R214). -/
def State.canvasBytes (s : State) (f : Word) (c : Nat) (r : List Byte) : List Byte :=
  (canvasPixels r).flatMap fun p => (s.compose f c r p.1 p.2).flatMap (leBytes 2)

/-! ### Drive sums (R226) -/

/-- What canvas c adds in frame f: group × 4 + channel, and the value. -/
def State.canvasDrive (s : State) (f : Word) (c : Nat) (r : List Byte) : List (Nat × Nat) :=
  let cw := leAt r 18 1 + 1
  let ch := leAt r 19 1 + 1
  (canvasPixels r).flatMap fun p =>
    let g := s.rdLe ((s.buf (canvasGrid r)).base + p.2 / ch * ceilDiv (canvasW r) cw + p.1 / cw) 1
    if 128 ≤ g then []
    else
      let d := s.compose f c r p.1 p.2
      [0, 1, 2].map fun i => (g % 64 * 4 + i, (fcvtLS (f16to32 (d.getD i 0)).1).1.toNat)

/-- What a fixture adds in frame f. -/
def State.fixDrive (s : State) (f : Word) (r : List Byte) : List (Nat × Nat) :=
  if r.isEmpty ∨ !fixEn r ∨ fixExempt r then []
  else
    let p := s.persAt (fixPers r) f
    let v (i : Nat) := s.wireValue r p f (s.fadeOf f) i / 16
    let ps := List.range (persN p)
    let dim := ps.find? fun i => persKind p i == 1
    match ps.filter fun i => 2 ≤ persKind p i, dim with
    | [], some i => [(fixGroup r * 4 + 3, v i)]
    | l, some i => l.map fun j => (fixGroup r * 4 + (persKind p j - 2), lumMulNat (v j) (v i))
    | l, none => l.map fun j => (fixGroup r * 4 + (persKind p j - 2), v j)

/-- The partial results of frame f, each as if in the rank slot of a task of its own, and the combiner's sums. -/
def State.drivePartials (s : State) (f : Word) : List (List (Nat × Nat)) :=
  (s.canvasesOn f).map (fun e => s.canvasDrive f e.1 e.2) ++ s.tbl.fix.map fun e => s.fixDrive f (s.fixAt e.1 f)
def combine (l : List (List (Nat × Nat))) (i : Nat) : Nat :=
  (l.map fun x => ((x.filter fun e => e.1 == i).map (·.2)).foldl (· + ·) 0).foldl (· + ·) 0

/-- The whole copy of frame f's drive sums. -/
def State.driveBytes (s : State) (f : Word) : List Byte :=
  let ps := s.drivePartials f
  (List.range 256).flatMap fun i => leBytes 8 (combine ps i)

/-! ### Frame work -/

/-- The work of frame f, done before it commits: the fixtures, the canvases, and the drive sums where the computation for f
will read them. A show with no fixture and no canvas has no frame work. -/
def State.frameWork (s : State) (f : Word) : State :=
  if s.tbl.fix.isEmpty ∧ s.tbl.canvas.isEmpty then s
  else
    let t := s.tbl.fix.foldl (fun (t : State) e => t.fixtureWork f e.1) s
    let t := (s.canvasesOn f).foldl (fun (t : State) e =>
      t.wrBytes (s.buf (canvasBuf (decide (f.toNat % 2 = 1)) e.2)).base (s.canvasBytes f e.1 e.2)) t
    t.wrBytes ((s.lgvApply f).lgvSums f) (s.driveBytes f)

/-! ### Generators (R215) -/

/-- Frame start k: the firmware has the generators of the next frame to spawn, and of the first frame its own. -/
def State.gensFor (s : State) (f : Word) : List GenTask :=
  (List.range 16).filterMap fun n =>
    let l := (slotOf s.tbl.layer n).at f
    if layerKind l ≠ 3 ∨ s.gens.any (fun g => g.frame = f ∧ g.layer = n) then none
    else some ⟨f, n, Word.ofNat (leAt l 84 4), none⟩

/-- The first IDLE gate at or after i (modulo 1,024), searching n gates. -/
def State.freeGate (s : State) (i : Nat) : Nat → Option Nat
  | 0 => none
  | n + 1 => if (mget (fun _ => ({} : Gate)) s.gates (i % 1024)).armed then s.freeGate (i + 1) n else some (i % 1024)

/-- The descriptor of a generator: its entry, its frame and start_kind 1. The fields that the spec leaves to the firmware
are free values (assumption 63). -/
def State.genDesc (s : State) (g : GenTask) : TaskDesc :=
  { entry := g.pc, arg := Word.ofNat (s.free 82 (2 ^ 27) * 32), prio := s.free 83 32, cls := s.free 84 8,
    tag := g.frame, roam := s.free 85 2 = 1, critical := s.free 86 2 = 1, startKind := 1,
    user := Word.ofNat (s.free 87 (2 ^ 32)) }

/-- Spawn a generator with a gate of its own, armed for one arrival, in a caldera that accepts and has room; it stays to be
spawned where there is none. -/
def State.genSpawn (s : State) (g : GenTask) : GenTask × State :=
  let d := s.genDesc g
  let ks := (List.range 16).filter fun k => s.aBit (R.CAL_CTRL k) 1 && s.room k d.prio
  match g.gate, s.freeGate (s.free 88 1024) 1024, ks[s.free 89 ks.length]? with
  | none, some x, some k =>
    ({ g with gate := some x }, ({ s.useFree with gates := mset (fun _ => {}) s.gates x ⟨true, 1, 0⟩ }.addTask k d).2)
  | _, _, _ => (g, s)

/-- The generators that still have to be spawned are tried. -/
def State.genTick (s : State) : State :=
  let r := s.gens.foldl (fun (r : List GenTask × State) g => let x := r.2.genSpawn g; (r.1 ++ [x.1], x.2)) ([], s)
  { r.2 with gens := r.1 }

/-- Frame start k: the generators of frame k + 1, and of frame k itself at the first start; those of frames that have
committed are done. The fade time of frame k goes into its arguments. -/
def State.kernelAt (s : State) (k : Word) (first : Bool) : State :=
  let keep := s.gens.filter fun g => decide (0 < sdiff g.frame s.committed)
  let old := s.fadeFrames.filter fun e => e.1 != k && decide (0 < sdiff e.1 s.committed)
  let s := { s with gens := keep, fadeFrames := (k, s.showFade k) :: old }
  { s with gens := s.gens ++ (if first then s.gensFor k else []) ++ s.gensFor (k + 1) }.genTick

/-- A generator of frame f has still to arrive at its gate, so the frame's compositing waits. -/
def State.gensBusy (s : State) (f : Word) : Bool :=
  s.gens.any fun g => g.frame = f && (match g.gate with
    | some x => (mget (fun _ => ({} : Gate)) s.gates x).armed
    | none => true)

end Sys2Proof.Machine
end

