-- ==== Sys2Proof/Machine/Universe.lean ====
section
/-!
DEFINITION. The universe engine: the packets of a frame (R295 to R303), keep-alive repeats (R300), sACN input and its
latch (R306 to R308), and UNIV_SET. The constant bytes of E1.31 packets are the standard's (assumption 13).
-/
namespace Sys2Proof.Machine
open Sys2Proof

abbrev M_UNV : Nat := 0x52
def State.setUnv (s : State) (u : Unv) : State := { s with unv := u }

/-! ### Commits -/

/-- UNV_COMMIT: the shadows are taken and checked, and the source name is read (R517). -/
def execUnvCommit (s : State) : Res :=
  let no := s.writeNo + 1
  let s := s.commitNow R.UNV_COMMIT [(R.UNV_CTRL, R.UNV_COMMIT), (R.UNV_UTAB_LO, R.UNV_STAT)] fun s =>
    if 4096 < s.tFld R.UNV_UCOUNT 31 16 ∨ 1024 < s.tFld R.UNV_IN_CFG 10 0 then E_ARG else OK
  let nm := s.tFld R.UNV_NAME_HI 7 0 * 2 ^ 32 + s.tFld R.UNV_NAME_LO 31 6 * 64
  .next ((s.setUnv { s.unv with nameTaken := (no, s.oRdBytes nm 64) :: s.unv.nameTaken }).hubNote inDram 0 M_UNV 0 [(nm, 64)])

/-- A commit is applied with the source name it read. -/
def State.unvTurn (s : State) (x : Commit) : State :=
  let s := s.applyCommit x
  match s.unv.nameTaken.find? fun e => e.1 = x.no with
  | some e => s.setUnv { s.unv with name := e.2, nameTaken := s.unv.nameTaken.filter fun e => decide (x.no < e.1) }
  | none => s
/-- The first frame start at least 1 µs after a commit applies it. -/
def State.unvApply (s : State) : State :=
  ((s.waiting R.UNV_COMMIT).filter fun x => decide (400 ≤ s.now - x.at_)).foldl State.unvTurn s

/-! ### Universe table entries (R296) -/
def ueBuf (e : List Byte) : Nat := leAt e 0 2
def ueUniv (e : List Byte) : Nat := leAt e 2 2
def ueFlag (e : List Byte) (i : Nat) : Bool := (e.getD 5 0).getLsbD i
def ueSlots (e : List Byte) : Nat := leAt e 6 2
def ueSync (e : List Byte) : Nat := leAt e 8 2
def uePorts (e : List Byte) : Nat := leAt e 10 2 % 1024

/-- The E_ARG ranges of an entry. -/
def ueBad (e : List Byte) : Bool :=
  e.length != 32 || ueUniv e == 0 || decide (63999 < ueUniv e) || decide (200 < leAt e 4 1) || decide (15 < leAt e 5 1)
    || ueSlots e == 0 || decide (512 < ueSlots e) || decide (63999 < ueSync e) || decide (1023 < leAt e 10 2)
    || decide (63 < leAt e 22 1) || !zeroBytes e 23 32

/-- Two enabled entries name one universe on one port. -/
def ueClash (e g : List Byte) : Bool :=
  ueFlag e 0 && ueFlag g 0 && ueUniv e == ueUniv g && (uePorts e &&& uePorts g) != 0

/-- A base register pair: address bits [31:5] and [39:32]. -/
def State.unvBase (s : State) (lo : Nat) : Nat := s.aFld (lo + 4) 7 0 * 2 ^ 32 + s.aFld lo 31 5 * 32
def State.unvEntry (s : State) (f : Word) (i : Nat) : List Byte :=
  s.oRdBytes (s.unvBase R.UNV_UTAB_LO + f.toNat % 2 * s.aFld R.UNV_UCOUNT 15 0 * 32 + i * 32) 32
def State.unvStream (s : State) (f : Word) (i : Nat) : List Byte :=
  s.oRdBytes (s.unvBase R.UNV_STAB_LO + f.toNat % 2 * s.aFld R.UNV_UCOUNT 31 16 * 256 + i * 256) 256

/-! ### E1.31 packets (R297, R298) -/

/-- An E1.31 length field with flags 0x7. -/
def flagsLen (n : Nat) : List Byte := beBytes 2 (0x7000 + n)
/-- Bytes 0 to 15 of the root layer. -/
def acnHead : List Byte :=
  [0x00, 0x10, 0x00, 0x00, 0x41, 0x53, 0x43, 0x2D, 0x45, 0x31, 0x2E, 0x31, 0x37, 0x00, 0x00, 0x00]
/-- UNV_CID0 to UNV_CID3 in network order. -/
def State.unvCid (s : State) : List Byte := [0, 1, 2, 3].flatMap fun i => beBytes 4 (s.aRd (R.UNV_CID i)).toNat

/-- The data packet of entry e with slot values v (R297); bit 6 of the options where the universe terminates (R299). -/
def State.sacnData (s : State) (e v : List Byte) (seq : Nat) (term : Bool) : List Byte :=
  let n := v.length
  acnHead ++ flagsLen (110 + n) ++ beBytes 4 4 ++ s.unvCid
    ++ flagsLen (88 + n) ++ beBytes 4 2 ++ s.unv.name ++ [e.getD 4 0] ++ beBytes 2 (ueSync e) ++ beBytes 1 seq
    ++ [BitVec.ofNat 8 (b2n (ueFlag e 1) * 128 + b2n term * 64 + b2n (ueFlag e 3) * 32)] ++ beBytes 2 (ueUniv e)
    ++ flagsLen (11 + n) ++ [0x02, 0xA1, 0x00, 0x00, 0x00, 0x01] ++ beBytes 2 (n + 1) ++ [0x00] ++ v

/-- A synchronisation packet. -/
def State.sacnSync (s : State) (addr seq : Nat) : List Byte :=
  acnHead ++ flagsLen 33 ++ beBytes 4 8 ++ s.unvCid ++ flagsLen 11 ++ beBytes 4 1 ++ beBytes 1 seq ++ beBytes 2 addr
    ++ [0x00, 0x00]

/-- The multicast group of a universe and its MAC address (RFC 1112). -/
def mcastIp (u : Nat) : Nat := 239 * 2 ^ 24 + 255 * 2 ^ 16 + u
def mcastMac (u : Nat) : Nat := 0x01005E000000 + mcastIp u % 2 ^ 23

/-- The packet of a universe; network addresses in the tables are little-endian numbers (R8, assumption 14). -/
def State.dataPkt (s : State) (e v : List Byte) (seq : Nat) (term : Bool) : NetPkt :=
  let uni := ueFlag e 2
  .udp (if uni then leAt e 16 6 else mcastMac (ueUniv e))
    (if uni then leAt e 12 4 else mcastIp (ueUniv e))
    (leAt e 22 1 % 64) (s.aFld R.UNV_IPCFG 15 0) 5568 (s.sacnData e v seq term)
/-- The DSCP of a synchronisation packet is not stated: a free value. -/
def State.syncPkt (s : State) (addr seq : Nat) : NetPkt :=
  .udp (mcastMac addr) (mcastIp addr) (Config.freeNat 21 addr % 64) (s.aFld R.UNV_IPCFG 15 0) 5568 (s.sacnSync addr seq)

/-! ### Native packets (R302, R303) -/
def stEn (e : List Byte) : Bool := (e.getD 13 0).getLsbD 0
def stPorts (e : List Byte) : Nat := leAt e 10 2 % 1024
def stBlk (e : List Byte) (b : Nat) : List Byte := (e.drop (32 + 8 * b)).take 8
/-- Slots padded to a multiple of 4. -/
def pad4 (l : List Byte) : List Byte := l ++ List.replicate ((4 - l.length % 4) % 4) 0
/-- Payload bytes of a stream's packet. -/
def stLen (e : List Byte) : Nat :=
  36 + ((List.range (leAt e 12 1)).map fun b => 8 + ceilDiv (leAt (stBlk e b) 4 2) 4 * 4).foldl (· + ·) 0

/-- The native packet of stream i for frame f, sent at a frame start of scheduled time S. -/
def State.nativeData (s : State) (f : Word) (i : Nat) (e : List Byte) : List Byte :=
  let blocks := (List.range (leAt e 12 1)).flatMap fun b =>
    let k := stBlk e b
    let n := leAt k 4 2
    leBytes 2 (leAt k 2 2) ++ leBytes 2 n ++ [k.getD 6 0, 0, 0, 0] ++ pad4 (s.slots (leAt k 0 2) f n)
  let apply := s.flkS + Word.ofNat (s.aFld R.UNV_NFP 31 16)
  let body := [0x50, 0x56, 0x4E, 0x46, 0x01, BitVec.ofNat 8 (b2n (s.aBit R.LGV_CTRL 0))] ++ leBytes 2 f.toNat
    ++ leBytes 4 f.toNat ++ leBytes 2 i ++ [BitVec.ofNat 8 s.chnId, e.getD 12 0] ++ leBytes 4 apply.toNat
    ++ [0, 0, 0, 0] ++ leBytes 4 blocks.length ++ [0, 0, 0, 0] ++ blocks
  body ++ leBytes 4 (crc32c body).toNat

def State.nativePkt (s : State) (f : Word) (i : Nat) (e : List Byte) : NetPkt :=
  .udp (leAt e 4 6) (leAt e 0 4) (leAt e 14 1 % 64) (s.aFld R.UNV_IPCFG 15 0)
    (s.aFld R.UNV_NFP 15 0) (s.nativeData f i e)

/-! ### The packets of a frame (R295, R299) -/

/-- Data packets in table order: (entry, slots, whether it terminates), with the index. -/
def State.unvData (s : State) (f : Word) : List (Nat × List Byte × List Byte × Bool) :=
  (List.range (s.aFld R.UNV_UCOUNT 15 0)).filterMap fun i =>
    let e := s.unvEntry f i
    if ueFlag e 0 then some (i, e, s.slots (ueBuf e) f (ueSlots e), false)
    else match s.unv.lastSent.find? fun x => x.1 = i with
      | some x => some (i, x.2.1, x.2.2, true)
      | none => match s.unv.term.find? fun x => x.1 = i with
        | some x => some (i, x.2.1, x.2.2.1, true)
        | none => none

/-- The universe buffers that the packets of frame f read. -/
def State.unvUsed (s : State) (f : Word) : List Nat :=
  ((List.range (s.aFld R.UNV_UCOUNT 15 0)).filterMap fun i =>
      let e := s.unvEntry f i
      if ueFlag e 0 then some (ueBuf e) else none)
    ++ (List.range (s.aFld R.UNV_UCOUNT 31 16)).flatMap fun i =>
      let e := s.unvStream f i
      if stEn e then (List.range (leAt e 12 1)).map fun b => leAt (stBlk e b) 0 2 else []

/-- Insert in ascending order without repeats. -/
def insAsc (n : Nat) : List Nat → List Nat
  | [] => [n]
  | m :: t => if n = m then m :: t else if n < m then n :: m :: t else m :: insAsc n t

/-- The packets of frame f on port p, in order. -/
def State.unvPackets (s : State) (f : Word) (data : List (Nat × List Byte × List Byte × Bool)) (p : Nat) :
    List (UnvKind × NetPkt) :=
  let seq := f.toNat % 256
  let d := data.filter fun x => (uePorts x.2.1).testBit p
  let native := (List.range (s.aFld R.UNV_UCOUNT 31 16)).filterMap fun i =>
    let e := s.unvStream f i
    if stEn e && (stPorts e).testBit p then some (UnvKind.native, s.nativePkt f i e) else none
  let sync := (d.map fun x => ueSync x.2.1).foldl (fun l a => if a = 0 then l else insAsc a l) []
  (d.map fun x => (UnvKind.data, s.dataPkt x.2.1 x.2.2.1 seq x.2.2.2)) ++ native
    ++ (sync.map fun a => (UnvKind.sync, s.syncPkt a seq))

/-- Queue packets for a port. -/
def State.queueAll (s : State) (p : Nat) (f : Word) (l : List (UnvKind × NetPkt)) : State :=
  l.foldl (fun (s : State) x => s.queueUnv p f x.1 x.2) s

/-- At frame start k the packets of frame k − 2 and earlier that are still unsent are discarded (R301). -/
def State.unvBehind (s : State) (k : Word) (p : Nat) : State :=
  let m := s.mac p
  let old := fun (x : Word × UnvKind × NetPkt) => decide (2 ≤ sdiff k x.1)
  match m.unvq.find? old with
  | some x =>
    let s := s.setMac p { m with unvq := m.unvq.filter fun y => !old y }
    ((s.bump (R.UNV_CNT 4) 31 0).setF R.UNV_STAT 0 0 1).log 0x0036 1 p x.1.toNat
  | none => s

/-- UNV sends nothing in a SYNCING or FAULTED package (R481), nor in one that is not PRIMARY while the render_ids of its
pair differ (R467). -/
def State.unvSilent (s : State) : Bool := decide (3 ≤ s.pairRole) || (s.pairRole == 2 && s.bit R.PAIR_STAT 5)
/-- The UDP payload of a packet. -/
def NetPkt.udpPayload : NetPkt → List Byte
  | .udp _ _ _ _ _ pl => pl
  | _ => []

/-- UNV builds the packets of frame f and begins to send them (R295). -/
def State.unvSend (s : State) (f : Word) : State :=
  let s := s.hubNote inDram 0 M_UNV 0
    ([(s.unvBase R.UNV_UTAB_LO + f.toNat % 2 * s.aFld R.UNV_UCOUNT 15 0 * 32, s.aFld R.UNV_UCOUNT 15 0 * 32),
      (s.unvBase R.UNV_STAB_LO + f.toNat % 2 * s.aFld R.UNV_UCOUNT 31 16 * 256, s.aFld R.UNV_UCOUNT 31 16 * 256)]
      ++ (s.unvUsed f).flatMap fun u => slotRanges u f)
  let data := s.unvData f
  let per := (List.range 10).map fun p => (p, s.unvPackets f data p)
  let built := per.flatMap fun x => (x.2.filter fun y => decide (y.1 ≠ .native)).map fun y => (x.1, y.1, y.2)
  let term := data.filterMap fun x =>
    if !x.2.2.2 then none
    else
      let left := match s.unv.term.find? fun y => y.1 = x.1 with
        | some y => y.2.2.2 - 1
        | none => 2
      if left = 0 then none else some (x.1, x.2.1, x.2.2.1, left)
  let live := data.filterMap fun x => if x.2.2.2 then none else some (x.1, x.2.1, x.2.2.1)
  let crc := crc32c (per.flatMap fun x => x.2.flatMap fun y => y.2.udpPayload)
  let s := (s.setUnv { s.unv with frame := f, began := true, term := term, lastSent := live, built := built, crc := crc })
  if s.unvSilent then s
  else per.foldl (fun (s : State) x => s.queueAll x.1 f x.2) (s.wr R.UNV_FRAME f)

/-- Frame start k at the sending side: the commit that is due, what is behind, and the packets of the frame taken. -/
def State.unvAt (s : State) (k : Word) (take : Bool) : State :=
  let s := s.unvApply
  let s := (List.range 10).foldl (fun (s : State) p => s.unvBehind k p) s
  let s := (s.setUnv { s.unv with began := false, reps := 0 }).setF R.UNV_STAT 1 1 0
  if take ∧ s.aBit R.UNV_CTRL 0 then s.unvSend s.outTaken
  else if s.aBit R.UNV_CTRL 0 then s
  else (s.setUnv { s.unv with lastSent := [], term := [] })

/-- A data or synchronisation packet with another sequence number. -/
def reseq (seq : Nat) : UnvKind × NetPkt → UnvKind × NetPkt
  | (k, .udp m d c sp dp pl) =>
    let i := if k = .sync then 44 else 111
    (k, .udp m d c sp dp (pl.take i ++ beBytes 1 seq ++ pl.drop (i + 1)))
  | x => x

/-- UNV_KEEPALIVE: the data and synchronisation packets go out again (R300). -/
def execUnvKeepalive (s : State) : Res :=
  .next (if !s.aBit R.UNV_CTRL 0 ∨ !s.unv.began ∨ s.unvSilent then s
    else
      let k := s.unv.reps + 1
      let seq := (s.unv.frame.toNat + 128 * (k % 2)) % 256
      let s := ((s.setUnv { s.unv with reps := k }).setF R.UNV_STAT 1 1 1).bump (R.UNV_CNT 3) 31 0
      s.unv.built.foldl (fun (s : State) x =>
        let y := reseq seq x.2
        s.queueUnv x.1 s.unv.frame y.1 y.2) s)

/-! ### Limits (R301) -/

/-- The entry that a universe of the table sends in frame f: its own, or while it terminates the one it had (R299). -/
def TblSlot.sends (t : TblSlot) (f : Word) : Option (List Byte) :=
  [f, f - 1, f - 2, f - 3].findSome? fun g => if ueFlag (t.at g) 0 then some (t.at g) else none

/-- Wire bytes of the packets of frame f at a port, by the tables: frame length + 20 each. -/
def State.wireBytes (s : State) (t : Tables) (f : Word) (p : Nat) : Nat × Nat :=
  let tag := if s.aBit (R.MAC_P_VLAN p) 16 then 4 else 0
  let len := fun (pl : Nat) => max 64 (46 + tag + pl) + 20
  let us := (t.univ.filterMap fun e => e.2.sends f).filter fun e => (uePorts e).testBit p
  let ss := (t.stream.map fun e => e.2.at f).filter fun e => stEn e && (stPorts e).testBit p
  let sync := (us.map ueSync).foldl (fun l a => if a = 0 then l else insAsc a l) []
  let ls := us.map (fun e => len (126 + ueSlots e)) ++ ss.map (fun e => len (stLen e)) ++ sync.map (fun _ => len 49)
  (ls.foldl (· + ·) 0, ls.length)

/-- Both limits hold in frame f for tables t at rate n, d. -/
def State.packetsOkAt (s : State) (t : Tables) (f : Word) (n d : Nat) : Bool :=
  let per := (List.range 10).map fun p => (p, s.wireBytes t f p)
  let pk := (per.map fun x => x.2.2).foldl (· + ·) 0
  decide (pk * 1000000 * d ≤ 4200000 * n)
    && (per.all fun x => decide (x.2.1 * 8 * 1000 * 4 ≤ 3 * (1000 * n / d) * s.lineRate x.1))

/-- The frames at which the universe and stream tables change, from frame a on. -/
def Tables.univFrames (t : Tables) (a : Word) : List Word :=
  a :: ((t.univ ++ t.stream).flatMap fun e =>
    (e.2.edits.flatMap fun x => [x.1, x.1 + 1, x.1 + 2, x.1 + 3]).filter fun f => decide (0 < sdiff f a))

/-- The limits of R301 hold for every frame from a on. -/
def State.packetsOk (s : State) (t : Tables) (a : Word) (n d : Nat) : Bool :=
  (t.univFrames a).all fun f => s.packetsOkAt t f n d
/-- The same at the rate each frame has, changes accepted included. -/
def State.packetsFit (s : State) (t : Tables) (a : Word) : Bool :=
  (t.univFrames a ++ s.rateFrames a).all fun f => s.packetsOkAt t f (s.rateAt f).1 (s.rateAt f).2

/-! ### UNIV_SET -/

/-- Distinct sync addresses of the entries of frame f. -/
def Tables.syncCount (t : Tables) (f : Word) : Nat :=
  (((t.univ.map fun e => ueSync (e.2.at f))).foldl (fun l a => if a = 0 then l else insAsc a l) []).length

/-- The E_ARG ranges of a stream descriptor. -/
def State.streamBad (s : State) (e : List Byte) : Bool :=
  let nb := leAt e 12 1
  e.length != 256 || decide (1023 < leAt e 10 2) || nb == 0 || decide (16 < nb) || decide (1 < leAt e 13 1)
    || decide (63 < leAt e 14 1) || !zeroBytes e 15 32 || !zeroBytes e 160 256
    || ((List.range nb).any fun b => let k := stBlk e b
      leAt k 4 2 == 0 || decide (512 < leAt k 4 2) || leAt k 7 1 != 0)
    || ((List.range 10).any fun p => (stPorts e).testBit p
      && decide (s.maxFrame p < 46 + (if s.aBit (R.MAC_P_VLAN p) 16 then 4 else 0) + stLen e))

/-- The tables with the edit of a UNIV_SET payload: bytes 0–3 the index, with bit 31 for the stream table, then the
record. -/
def State.univEdit (s : State) (r : Request) : Tables :=
  let i := leAt r.payload 0 4
  let e := r.payload.drop 4
  if 2 ^ 31 ≤ i then { s.tbl with stream := editSlot s.tbl.stream (i - 2 ^ 31) r.frame e }
  else { s.tbl with univ := editSlot s.tbl.univ i r.frame e }

/-- The record of an index that frame f sees. -/
def univRecord (t : Tables) (i : Nat) (f : Word) : List Byte :=
  if 2 ^ 31 ≤ i then (slotOf t.stream (i - 2 ^ 31)).at f else (slotOf t.univ i).at f

/-- Entry i of the universe table clashes with another in frame f. -/
def ueClashAt (t : Tables) (i : Nat) (f : Word) : Bool :=
  t.univ.any fun x => x.1 != i && ueClash ((slotOf t.univ i).at f) (x.2.at f)

/-- The checks of UNIV_SET (R296, R298, R301, R303). -/
def State.univCheck (s : State) (r : Request) : Nat :=
  let i := leAt r.payload 0 4
  let e := r.payload.drop 4
  let t := s.univEdit r
  let arg := if 2 ^ 31 ≤ i then decide (4095 < i - 2 ^ 31) || s.streamBad e
    else decide (65535 < i) || ueBad e
      || (t.univFrames r.frame).any fun f => ueClashAt t i f
  firstErr [(arg, E_ARG), (s.editLate r.frame, E_LATE),
    ((t.univFrames r.frame).any fun f => decide (64 < t.syncCount f), E_SPACE),
    (!s.packetsFit t r.frame, E_SPACE)]

/-- Where the firmware writes the record in copy c of its table, by the base and count software has written last. -/
def State.univAddr (s : State) (i c : Nat) : Nat :=
  if 2 ^ 31 ≤ i then
    s.fld R.UNV_STAB_HI 7 0 * 2 ^ 32 + s.fld R.UNV_STAB_LO 31 5 * 32 + c * s.fld R.UNV_UCOUNT 31 16 * 256
      + (i - 2 ^ 31) * 256
  else
    s.fld R.UNV_UTAB_HI 7 0 * 2 ^ 32 + s.fld R.UNV_UTAB_LO 31 5 * 32 + c * s.fld R.UNV_UCOUNT 15 0 * 32 + i * 32

/-- UNIV_SET: the record is in force from frame A on; copy A & 1 is written once the outputs have taken frame A − 1, and
the other copy one frame later, each with the record its frame sees (R200). -/
def execUnivSet (net : Bool) (s : State) : Res :=
  .next (s.hostDo net 0x0029 anyPayload State.univCheck fun s r =>
    let i := leAt r.payload 0 4
    let a := r.frame
    let c := a.toNat % 2
    let t := s.univEdit r
    ({ s with tbl := t }.writeAt a (s.univAddr i c) (r.payload.drop 4)).writeAt (a + 1) (s.univAddr i (1 - c))
      (univRecord t i (a + 1)))

/-! ### sACN input (R306) -/
def State.unvIn (s : State) (i : Nat) : List SacnSrc := mget (fun _ => []) s.unv.inputs i
def State.setUnvIn (s : State) (i : Nat) (l : List SacnSrc) : State :=
  (s.setUnv { s.unv with inputs := mset (fun _ => []) s.unv.inputs i l })
def State.inEntry (s : State) (i : Nat) : List Byte := s.oRdBytes (s.unvBase R.UNV_ITAB_LO + i * 16) 16
def inFlag (e : List Byte) (i : Nat) : Bool := (e.getD 2 0).getLsbD i
/-- The enabled input universe of a number. -/
def State.inputOf (s : State) (u : Nat) : Option Nat :=
  (List.range (s.aFld R.UNV_IN_CFG 10 0)).find? fun i => inFlag (s.inEntry i) 0 && leAt (s.inEntry i) 0 2 == u
def State.unvCnt (s : State) (n : Nat) : State := s.bump (R.UNV_CNT n) 31 0
def State.unvTimeout (s : State) : Nat := s.aFld R.UNV_IN_CFG 31 20 * 400000

/-- An E1.31 data packet with start code 0x00: its property count is covered by the bytes present. -/
def sacnIsData (u : List Byte) : Bool :=
  126 ≤ u.length && u.take 16 == acnHead && beNat ((u.drop 18).take 4) == 4 && beNat ((u.drop 40).take 4) == 2
    && (u.drop 117).take 6 == [0x02, 0xA1, 0x00, 0x00, 0x00, 0x01] && 1 ≤ beNat ((u.drop 123).take 2)
    && beNat ((u.drop 123).take 2) ≤ 513 && 125 + beNat ((u.drop 123).take 2) ≤ u.length && u.getD 125 0 == 0
def sacnIsSync (u : List Byte) : Bool :=
  49 ≤ u.length && u.take 16 == acnHead && beNat ((u.drop 18).take 4) == 8 && beNat ((u.drop 40).take 4) == 1

/-- Held data of a sync address is applied. -/
def SacnSrc.release (addr : Nat) (x : SacnSrc) : SacnSrc :=
  match x.held with
  | some d => if x.sync = addr then { x with slots := d, held := none, active := true } else x
  | none => x

/-- A synchronisation packet arrives. -/
def State.sacnSyncIn (s : State) (addr : Nat) : State :=
  (s.setUnv { s.unv with
      inputs := s.unv.inputs.map fun (e : Nat × List SacnSrc) => (e.1, e.2.map (SacnSrc.release addr)),
      syncSeen := minsert (merase s.unv.syncSeen addr) addr s.now })

/-- A synchronisation packet for the address has arrived within timeout_ms. -/
def State.syncLive (s : State) (addr : Nat) : Bool :=
  match s.unv.syncSeen.find? fun e => e.1 = addr with
  | some e => decide (s.now - e.2 ≤ s.unvTimeout)
  | none => false

/-- A data packet for input universe i: the checks in the order of R306, and the source's new values. -/
def State.sacnDataIn (s : State) (i : Nat) (u : List Byte) : State :=
  let l := s.unvIn i
  let e := s.inEntry i
  let cid := (u.drop 22).take 16
  let seq := leAt u 111 1
  let opt := u.getD 112 0
  let old := l.find? fun x => x.cid = cid
  let rest := l.filter fun x => x.cid ≠ cid
  let stale := match old with
    | some x => let d := sext 8 ((seq + 256 - x.seq) % 256); decide (-20 < d) && decide (d ≤ 0)
    | none => false
  if old.isNone ∧ 8 ≤ l.length then s.unvCnt 8
  else if stale then s.unvCnt 6
  else if 200 < leAt u 108 1 then s.unvCnt 7
  else if opt.getLsbD 6 ∨ (opt.getLsbD 7 ∧ !inFlag e 2) then s.setUnvIn i rest
  else
    let v := (u.drop 126).take (beNat ((u.drop 123).take 2) - 1)
    let addr := beNat ((u.drop 109).take 2)
    let hold := inFlag e 3 && addr != 0 && s.syncLive addr
    let x := old.getD { cid := cid }
    let x := { x with prio := leAt u 108 1, seq := seq, order := s.unv.arrivals + 1 }
    let x := if hold then { x with held := some v, sync := addr }
             else { x with slots := v, held := none, active := true }
    let s := (s.setUnv { s.unv with arrivals := s.unv.arrivals + 1 })
    (s.setUnvIn i (rest ++ [x])).unvCnt 5

/-- A frame passed to UNV's input on port p (R306): what it does not consume goes to the auxiliary ring. -/
def State.sacnInput (s : State) (p ts rule : Nat) (f : List Byte) : State :=
  let aux (s : State) := (s.unvCnt 9).ringReceive p (s.aFld R.UNV_IN_CFG 19 17) ts rule f
  if !s.aBit R.UNV_CTRL 1 then aux s
  else match frUdp f with
    | some h =>
      let u := udpPayload h
      if sacnIsSync u then s.sacnSyncIn (beNat ((u.drop 45).take 2))
      else if sacnIsData u then
        let s := s.hubNote inDram 0 M_UNV 0 [(s.unvBase R.UNV_ITAB_LO, s.aFld R.UNV_IN_CFG 10 0 * 16)]
        match s.inputOf (beNat ((u.drop 113).take 2)) with
        | some i => s.sacnDataIn i u
        | none => aux s
      else aux s
    | none => aux s

/-- SACN_SOURCE_TIMEOUT. -/
def execSacnSourceTimeout (i : BitVec 10) (cid : List Byte) (s : State) : Res :=
  .next (s.setUnvIn i.toNat ((s.unvIn i.toNat).filter fun x => x.cid ≠ cid))

/-! ### The latch (R307, R308) -/

/-- The merge of an input universe's sources: HTP, or the last to arrive of the highest priority. -/
def sacnMerge (ltp : Bool) (act : List SacnSrc) : List Byte :=
  let pw := act.foldl (fun m x => max m x.prio) 0
  let w := act.filter fun x => x.prio = pw
  if ltp then (w.foldl (fun (b : Nat × List Byte) x => if b.1 ≤ x.order then (x.order, x.slots) else b) (0, [])).2
  else (List.range 512).map fun k => BitVec.ofNat 8 (w.foldl (fun m x => max m (leAt x.slots k 1)) 0)

/-- What input universe i latches at frame start f: slots and status. -/
def State.sacnLatched (s : State) (i : Nat) (f : Word) : List Byte × List Byte :=
  let e := s.inEntry i
  let act := (s.unvIn i).filter (·.active)
  let base := s.unvBase R.UNV_IBUF_LO + i * 2048
  if act.isEmpty then
    (if inFlag e 4 then s.oRdBytes (base + (f.toNat + 1) % 2 * 512) 512 else [], leBytes 4 0 ++ leBytes 4 f.toNat)
  else
    (sacnMerge (inFlag e 1) act,
      leBytes 4 (1 + act.length * 256 + act.foldl (fun m x => max m x.prio) 0 * 65536) ++ leBytes 4 f.toNat)

/-- SACN_LATCH at frame start f; a package whose role is neither PRIMARY nor SOLO takes the PRIMARY's copies instead
when pair_in = 1. -/
def State.sacnAt (s : State) (f : Word) : State :=
  if !s.aBit R.UNV_CTRL 1 ∨ (s.aBit R.UNV_CTRL 2 ∧ 1 < s.fld R.PAIR_ROLE 2 0) then s
  else (List.range (s.aFld R.UNV_IN_CFG 10 0)).foldl (fun (s : State) i =>
    let base := s.unvBase R.UNV_IBUF_LO + i * 2048
    let l := s.sacnLatched i f
    let s := if inFlag (s.inEntry i) 4 ∧ !(s.unvIn i).any (·.active) then
        s.hubNote inDram 0 M_UNV 0 [(base + (f.toNat + 1) % 2 * 512, 512)] else s
    s.latchInput M_UNV 0 base f l.1 l.2) s

end Sys2Proof.Machine
end

