-- ==== Sys2Proof/Machine/Ethernet.lean ====
section
/-!
DEFINITION. The Ethernet ports: reception and steering (R281 to R286), PAUSE (R292, R293), transmission (R282, R290,
R291), links and commits (R280), the fast path (R304) and trigger edges (R272, R273).
-/
namespace Sys2Proof.Machine
open Sys2Proof

/-! ### Reception (R281, R283 to R286) -/

/-- The receive address check. -/
def State.macAccepts (s : State) (p : Nat) (f : List Byte) : Bool :=
  s.aBit (R.MAC_P_CFG p) 24 || f.take 6 == s.macAddr p || (f.getD 0 0).getLsbD 0

/-- Rule i matches a frame (R283). -/
def State.ruleMatches (s : State) (p : Nat) (f : List Byte) (i : Nat) : Bool :=
  let c := s.aRd (R.MAC_RULE_CTRL i)
  let m := s.aRd (R.MAC_RULE_MATCH i)
  let vp := s.aRd (R.MAC_RULE_VP i)
  let port := s.aRd (R.MAC_RULE_PORT i)
  let mask := s.aRd (R.MAC_RULE_DMASK i)
  bitOf c 31 && bitOf c (20 + p)
    && (!bitOf m 31 || frEt f == fldOf m 15 0)
    && (!bitOf m 30 || (frTagged f && frTci f % 4096 == fldOf vp 27 16))
    && (!bitOf m 29 || (match frIp f with | some b => ipProto b == fldOf vp 7 0 | none => false))
    && (!bitOf m 28 || (match frUdp f with
      | some u => fldOf port 15 0 ≤ udpDport u && udpDport u ≤ fldOf port 31 16
      | none => false))
    && (!bitOf m 27 || (match frIp f with
      | some b => (Word.ofNat (ipDst b) &&& mask) == (s.aRd (R.MAC_RULE_DIP i) &&& mask)
      | none => false))

/-- What the table in force decides for a frame; rule 0xFF and ring 0 where none matches. -/
def State.steerOf (s : State) (p : Nat) (f : List Byte) : RxItem :=
  match (List.range 128).find? (s.ruleMatches p f) with
  | some i =>
    let c := s.aRd (R.MAC_RULE_CTRL i)
    ⟨i, bitOf c 30, fldOf c 19 16, fldOf c 15 0, s.tsuNs, f⟩
  | none => ⟨0xFF, false, 0, 0, s.tsuNs, f⟩

/-- Cut a byte string into pieces of n bytes. -/
def chunks (n : Nat) : Nat → List Byte → List (List Byte)
  | 0, _ => []
  | k + 1, l => if l.isEmpty ∨ n = 0 then [] else l.take n :: chunks n k (l.drop n)

/-- A frame pushed to a FIFO as entries of its width (R285). -/
def State.frameToFifo (s : State) (p q : Nat) (x : RxItem) : State :=
  if 2048 < x.frame.length then s.macCnt p RX_DROP
  else
    let w := s.qWords q * 4
    let l := leBytes 2 x.frame.length ++ [BitVec.ofNat 8 p, BitVec.ofNat 8 x.rule] ++ leBytes 4 x.ns.toNat ++ x.frame
    (chunks w l.length l).foldl (fun (s : State) e => s.hwPush q M_MAC p 64 (wordsOf e)) s

/-- The effect of a rule's action (R284). The class E event of a frame outside the timing filter is its completion
(R176). -/
def State.macAct (s : State) (p : Nat) (x : RxItem) : State :=
  let t := match x.action with
    | 0 => s.ringReceive p x.target (b2n x.ts) x.rule x.frame
    | 1 => s.frameToFifo p x.target x
    | 2 => s.sacnInput p (b2n x.ts) x.rule x.frame
    | 3 => match frUdp x.frame with
      | some h => s.videoPacket p x.target (udpPayload h)
      | none => s.macCnt p RX_DROP
    | _ => s.macCnt p RX_DROP
  if x.ts then t else t.irq (0x040 + p)

/-- A push of the port waits for room. -/
def State.macStalled (s : State) (p : Nat) : Bool :=
  s.fifos.any fun e => e.2.stalled.any fun q => q.who = .hw M_MAC p
/-- Bytes in the receive buffer. -/
def State.rxLevel (s : State) (p : Nat) : Nat := ((s.mac p).rxq.map fun x => x.frame.length).foldl (· + ·) 0

/-- Frames that waited are handled in order while no push of the port waits. -/
def State.macDrain (s : State) (p : Nat) : Nat → State
  | 0 => s
  | n + 1 =>
    if s.macStalled p then s
    else match (s.mac p).rxq with
      | x :: t => ((s.setMac p { s.mac p with rxq := t }).macAct p x).macDrain p n
      | [] => s
def State.macDrainAll (s : State) : State :=
  (List.range 10).foldl (fun (s : State) p => s.macDrain p (s.mac p).rxq.length) s

/-- A frame that passed the checks is counted and its rule decides what happens. For a frame of the timing filter, whose
rule has ts = 1, the class E event is that of its delimiter (R176, R284). -/
def State.macSteer (s : State) (p : Nat) (f : List Byte) : State :=
  let x := s.steerOf p f
  let s := s.macCnt p RX_OK
  let s := if x.ts then s.irq (0x040 + p) else s
  let s := if x.rule = 0xFF then s else s.bump (R.MAC_RULE_HITS x.rule) 31 0
  let s := s.macDrain p (s.mac p).rxq.length
  if s.macStalled p then
    if 131072 < s.rxLevel p + f.length then s.macCnt p RX_FIFO_DROP
    else s.setMac p { s.mac p with rxq := (s.mac p).rxq ++ [x] }
  else s.macAct p x

/-- A PAUSE frame is received (R292). -/
def State.pauseIn (s : State) (p q : Nat) : State :=
  let active := s.bit (R.MAC_P_STAT p) 1
  if !s.aBit (R.MAC_P_CFG p) 26 then s.macCnt p PAUSE_RX
  else if 0 < q then (s.macCnt p PAUSE_RX).setF (R.MAC_P_STAT p) 1 1 1
  else if active then (s.macCnt p PAUSE_RX).setF (R.MAC_P_STAT p) 1 1 0
  else s.macCnt p PAUSE_RX_ZERO

/-- RX_FRAME: the frame with its FCS, and whether the FCS is right. -/
def execRxFrame (p : BitVec 4) (frame : List Byte) (fcsOk : Bool) (s : State) : Res :=
  let n := p.toNat
  let op := beNat ((frBody frame).take 2)
  .next (if 9 < n ∨ !s.macEn n ∨ !s.linkUp n then s
    else if frame.length < 64 then s.macCnt n RX_RUNT
    else if s.maxFrame n < frame.length then s.macCnt n RX_OVERSIZE
    else if !fcsOk then s.macCnt n RX_FCS
    else if !s.macAccepts n frame then s.macCnt n RX_ADDR
    else if frEt frame = 0x8808 then
      if op = 0x0001 then s.pauseIn n (beNat (((frBody frame).drop 2).take 2))
      else if op = 0x0101 then s.macCnt n PFC_RX
      else s.macCnt n RX_CTRL
    else s.macSteer n frame)

/-- PAUSE_EXPIRY (R292). -/
def execPauseExpiry (p : BitVec 4) (s : State) : Res :=
  .next (if 9 < p.toNat then s else s.setF (R.MAC_P_STAT p.toNat) 1 1 0)

/-- QUE_STALLED_PUSH_DONE: room has appeared; stalled pushes complete (R352), and frames behind them go on (R285). -/
def execQueStalledPushDone (n : BitVec 8) (s : State) : Res :=
  let n := n.toNat
  .next (s.qAdmit n (s.fifo n).stalled.length).macDrainAll

/-- QUE_DISABLE: a write that clears en (R351). -/
def execQueDisable (n : BitVec 8) (s : State) : Res :=
  let n := n.toNat
  .next (if !s.qEn n then s else (s.qDisable n).macDrainAll)

/-! ### Sending PAUSE (R293) -/

/-- Pause sources above their low marks: FIFOs in HIGH assigned to the port, and 256 for the receive buffer. -/
def State.pauseSources (s : State) (p : Nat) : List Nat :=
  (s.fifos.filterMap fun e =>
    if e.2.high && s.qEn e.1 && s.bit (R.QUE_Q_FLOW e.1) 23 && s.fld (R.QUE_Q_FLOW e.1) 19 16 == p then some e.1
    else none)
    ++ (if (s.mac p).rxHigh then [256] else [])

/-- The receive buffer's place between its marks. -/
def State.rxMarks (s : State) (p : Nat) : State :=
  let hi := s.aFld (R.MAC_P_WM p) 31 16 * 1024
  let lo := s.aFld (R.MAC_P_WM p) 15 0 * 1024
  let l := s.rxLevel p
  let m := s.mac p
  s.setMac p { m with rxHigh := if m.rxHigh then decide (lo < l) else decide (hi ≤ l) }

/-- A PAUSE frame waits to be sent. -/
def State.pauseQueue (s : State) (p q : Nat) : State :=
  let m := s.mac p
  s.setMac p { m with pauseq := m.pauseq ++ [q] }

/-- The port looks at its pause sources: a new one sends PAUSE, and the last one to go sends quanta zero. -/
def State.pauseEval (s : State) (p : Nat) : State :=
  let s := s.rxMarks p
  let src := s.pauseSources p
  let seen := (s.mac p).pauseSeen
  let s := s.setMac p { s.mac p with pauseSeen := src }
  if !s.aBit (R.MAC_P_CFG p) 25 then s.setF (R.MAC_P_STAT p) 2 2 0
  else
    let s := s.setF (R.MAC_P_STAT p) 2 2 (b2n !src.isEmpty)
    if src.any fun x => !seen.contains x then s.pauseQueue p (s.aFld (R.MAC_P_PAUSE p) 31 16)
    else if src.isEmpty ∧ !seen.isEmpty then s.pauseQueue p 0
    else s

/-- PAUSE_SEND: a pause source crosses a mark. -/
def execPauseSend (p : BitVec 4) (s : State) : Res := .next (if 9 < p.toNat then s else s.pauseEval p.toNat)

/-- PAUSE_REFRESH: refresh_us has passed while a source stays above its low mark. -/
def execPauseRefresh (p : BitVec 4) (s : State) : Res :=
  let n := p.toNat
  .next (if 9 < n then s
    else
      let s := s.pauseEval n
      if s.bit (R.MAC_P_STAT n) 2 then s.pauseQueue n (s.aFld (R.MAC_P_PAUSE n) 31 16) else s)

/-! ### Transmission (R282, R290, R291) -/

/-- Descriptors of the frame at HEAD: their number, whether an eop has been found. -/
def State.txDescs (s : State) (p r : Nat) : Nat → Nat → Option Nat
  | 0, _ => none
  | n + 1, i =>
    if bitOf (Word.ofNat (s.hRdLe (s.descAddr p r (s.ringHead p r + i) + 8) 2)) 2 then some (i + 1)
    else s.txDescs p r n (i + 1)

/-- Buffers of the k descriptors from HEAD: address and length. -/
def State.txParts (s : State) (p r k : Nat) : List (Nat × Nat) :=
  (List.range k).map fun i =>
    let d := s.descAddr p r (s.ringHead p r + i)
    (s.hRdLe d 5, s.hRdLe (d + 6) 2)
/-- The bytes of buffers up to the first that is denied to the MAC, and whether there is one. -/
def State.gather (s : State) : List (Nat × Nat) → List Byte × Bool
  | [] => ([], false)
  | x :: t => match firstOut hubReach x.1 x.2 with
    | some a => (s.hRdBytes x.1 (a - x.1), true)
    | none => let r := s.gather t; (s.hRdBytes x.1 x.2 ++ r.1, r.2)
/-- The bytes of the frame at HEAD, and whether one of them is denied to the MAC. -/
def State.txBytes (s : State) (p r k : Nat) : List Byte × Bool := s.gather (s.txParts p r k)
/-- Length of the frame at HEAD. -/
def State.txLen (s : State) (p r k : Nat) : Nat := ((s.txParts p r k).map (·.2)).foldl (· + ·) 0

/-- A frame of a ring is returned: every descriptor is written back, the status on the last, and it is counted. -/
def State.txReturn (s : State) (p r st : Nat) : Nat → State
  | 0 => s.ringDone p r
  | k + 1 =>
    let d := s.descAddr p r (s.ringHead p r)
    let fl := s.hRdLe (d + 8) 2 / 2 % 0x4000 * 2 + 1
    (s.writeBack p r (s.hRdLe (d + 6) 2) fl 0 (if k = 0 then st else 0)).txReturn p r st k

/-- The frame at HEAD of a ring: sent, or returned without being sent (R290). Whether a buffer the MAC may not read is
met before the frame starts depends on how far ahead it reads, which the spec does not say: a free value. -/
def State.txRing (s : State) (p r k : Nat) : State :=
  let b := s.txBytes p r k
  let early := s.free 22 2 = 0
  if s.maxFrame p < max 60 (s.txLen p r k) + 4 then s.txReturn p r E_ARG k
  else
    let s := s.hubNote hubReach 0 M_MAC p (s.txParts p r k)
    if b.2 ∧ early then s.useFree.txReturn p r E_ABSENT k
    else
      let ts := bitOf (Word.ofNat (s.hRdLe (s.descAddr p r (s.ringHead p r) + 8) 2)) 4
      let s := if b.2 then s.useFree else s
      let s := s.setMac p { s.mac p with
        tx := some (.ring r k (if b.2 then E_ABSENT else OK), .raw b.1), stamped := ts
        rr := if r = 8 then (s.mac p).rr else r }
      if ts then s.irq (0x04A + p) else s

/-- A whole frame waits at HEAD of a transmit ring. -/
def State.txReady (s : State) (p r : Nat) : Option Nat := s.txDescs p r (s.ringOwned p r) 0

/-- The device reads the descriptor at HEAD of every transmit ring that holds one. -/
def State.txPeek (s : State) (p : Nat) : State :=
  s.hubNote hubReach 0 M_MAC p (((List.range 8).filter fun i => s.ringOwned p (8 + i) ≠ 0).map fun i =>
    (s.descAddr p (8 + i) (s.ringHead p (8 + i)), 16))

/-- Rings 9 to 15 from the one after `rr`. -/
def rrOrder (rr : Nat) : List Nat := (List.range 7).map fun i => 9 + (rr - 9 + 1 + i) % 7

/-- The choice of R291 at a frame boundary. -/
def State.txSelect (s : State) (p : Nat) : State :=
  let m := s.mac p
  match m.pauseq with
  | q :: t => s.setMac p { m with pauseq := t, tx := some (.pause, .pause q) }
  | [] =>
    if s.bit (R.MAC_P_STAT p) 1 then s
    else match m.fpq with
      | b :: t => s.setMac p { m with fpq := t, tx := some (.fastPath, .raw b) }
      | [] => match s.txReady p 8 with
        | some k => s.txRing p 8 k
        | none => match m.unvq with
          | x :: t => s.setMac p { m with unvq := t, tx := some (.unv x.2.1, x.2.2) }
          | [] => match (rrOrder m.rr).find? fun r => (s.txReady p r).isSome with
            | some r => s.txRing p r ((s.txReady p r).getD 0)
            | none => s

/-- TX_FRAME_SELECT: an enabled port with its link up, between frames. -/
def execTxFrameSelect (p : BitVec 4) (s : State) : Res :=
  let n := p.toNat
  .next (if 9 < n ∨ !s.macEn n ∨ !s.linkUp n ∨ (s.mac n).tx.isSome then s else ((s.pauseEval n).txPeek n).txSelect n)

/-- The frame that has been sent, as it was on the wire. -/
def State.wireBytesOf (s : State) (p : Nat) (src : TxSource) (pk : NetPkt) : List Byte :=
  wireFrame (match src with | .ring _ _ st => decide (st ≠ OK) | _ => false) (s.frameHead p pk)

/-- TX_FRAME_DONE: the frame's end is counted; the transmit event of a frame not marked for stamping is its completion,
and that of a marked one came with its delimiter (R176, R290). -/
def execTxFrameDone (p : BitVec 4) (s : State) : Res :=
  let n := p.toNat
  .next (match (s.mac n).tx with
    | none => s
    | some (src, pk) =>
      let m := s.mac n
      let w := s.wireBytesOf n src pk
      let s := s.useFree.setMac n { m with tx := none, stamped := false, sent := some pk, wire := w }
      let s := if m.stamped then s else s.irq (0x04A + n)
      match src with
      | .pause => s.macCnt n PAUSE_TX
      | .fastPath => (s.macCnt n TX_OK).macCnt n FP_SENT
      | .unv .data => (s.macCnt n TX_OK).unvCnt 0
      | .unv .sync => (s.macCnt n TX_OK).unvCnt 1
      | .unv .native => (s.macCnt n TX_OK).unvCnt 2
      | .ring r k st => (s.macCnt n (if st = OK then TX_OK else TX_ERR)).txReturn n r st k)

/-- RING_TAIL_WRITE (R287). -/
def execRingTailWrite (p r : BitVec 4) (w : Word) (s : State) : Res :=
  .next (if 9 < p.toNat then s else s.setF (R.MAC_P_R_TAIL p.toNat r.toNat) 11 0 w.toNat)

/-! ### Links (R280, R282) -/

/-- The link goes down: what UNV and the fast path have due is discarded, and a ring's frame in progress stays at
HEAD. -/
def State.linkDown (s : State) (p : Nat) : State :=
  if !s.linkUp p then s
  else
    let m := s.mac p
    let lost := m.unvq.length + m.fpq.length + (match m.tx with
      | some (.unv _, _) => 1
      | some (.fastPath, _) => 1
      | _ => 0)
    let s := s.setMac p { m with unvq := [], fpq := [], pauseq := [], tx := none, stamped := false }
    ((s.addF (R.MAC_P_CNT p TX_LINK_DOWN) 31 0 lost).setF (R.MAC_P_STAT p) 0 0 0).irq (0x054 + p)

/-- LINK_CHANGE: the link of an enabled port comes up, or goes down; an SGMII control word with another speed keeps it
down (R280); in Langal strict the ports are idle (R324). -/
def execLinkChange (p : BitVec 4) (up badSpeed : Bool) (s : State) : Res :=
  let n := p.toNat
  .next (if 9 < n then s
    else if !up then s.linkDown n
    else if !s.macEn n ∨ s.strict then s
    else if badSpeed ∧ s.aFld (R.MAC_P_CFG n) 30 29 = 3 then (s.linkDown n).setF (R.MAC_P_STAT n) 3 3 1
    else if s.linkUp n then s
    else (s.setF (R.MAC_P_STAT n) 0 0 1).irq (0x054 + n))

/-! ### Commits -/

/-- A mode or field out of range in the values taken. -/
def State.macBad (s : State) (p : Nat) : Bool :=
  let mode := s.tFld (R.MAC_P_CFG p) 30 29
  let mx := s.tFld (R.MAC_P_CFG p) 13 0
  (if p < 8 then 1 < mode else mode < 2) || decide (mx < 64) || decide (9216 < mx)
    || decide (128 < s.tFld (R.MAC_P_WM p) 31 16) || decide (128 < s.tFld (R.MAC_P_WM p) 15 0)

/-- MAC_COMMIT: the port's shadows are taken and checked (R517). -/
def execMacCommit (p : BitVec 4) (s : State) : Res :=
  let n := p.toNat
  .next (if 9 < n then s
    else
      s.commitNow (R.MAC_P_COMMIT n) [(R.MAC_P_CFG n, R.MAC_P_COMMIT n), (R.MAC_P_ADDR_LO n, R.MAC_P_STAT n)] fun s =>
        if s.macBad n then E_ARG else OK)

/-- MAC_COMMIT_APPLY: an inter-frame gap; a change of mode, fec, an or max_frame takes the link down, and so does a
cleared en. -/
def execMacCommitApply (p : BitVec 4) (s : State) : Res :=
  let n := p.toNat
  .next (if 9 < n ∨ (s.waiting (R.MAC_P_COMMIT n)).isEmpty ∨ (s.mac n).tx.isSome then s
    else
      let old := s.aRd (R.MAC_P_CFG n)
      let s := s.applyWaiting (R.MAC_P_COMMIT n) fun _ => true
      let new := s.aRd (R.MAC_P_CFG n)
      let same := fldOf old 30 27 = fldOf new 30 27 ∧ fldOf old 13 0 = fldOf new 13 0
      if same ∧ bitOf new 31 then s else s.linkDown n)

/-- Rule i of the values taken names an action or a target out of range (R284). -/
def State.ruleBad (s : State) (i : Nat) : Bool :=
  let t := s.tFld (R.MAC_RULE_CTRL i) 15 0
  match s.tFld (R.MAC_RULE_CTRL i) 19 16 with
  | 0 => decide (7 < t)
  | 1 => decide (255 < t)
  | 2 => false
  | 3 => decide (15 < t)
  | 4 => false
  | _ => true

/-- MAC_RCOMMIT: the rule table applies to all ports together, or is refused (R284, R286). -/
def execMacRcommit (s : State) : Res :=
  .next ((s.commitNow R.MAC_RCOMMIT [(R.MAC_RULE_CTRL 0, R.MAC_RULE_CTRL 128)] fun s =>
    if (List.range 128).any s.ruleBad then E_ARG else OK).applyWaiting R.MAC_RCOMMIT fun _ => true)

/-! ### Fast path (R304) -/
def State.fpPacket (s : State) (e : Nat) : Option (List Byte) := (s.fpArmed.find? fun x => x.1 = e).map (·.2)
def State.fpPort (s : State) (e : Nat) : Nat := s.fld (R.MAC_FP_CFG e) 29 27
def State.fpTrig (s : State) (e : Nat) : Nat := s.fld (R.MAC_FP_CFG e) 26 23
def State.fpLen (s : State) (e : Nat) : Nat := s.fld (R.MAC_FP_CFG e) 10 0
/-- Bytes of the armed entries of a port. -/
def State.fpUsed (s : State) (p : Nat) : Nat :=
  ((s.fpArmed.filter fun x => s.fpPort x.1 = p).map fun x => x.2.length).foldl (· + ·) 0

/-- The status of an arm. -/
def State.fpStatus (s : State) (e : Nat) : Nat :=
  let off := s.fld (R.MAC_FP_ADDR e) 21 0
  firstErr [((s.fpPacket e).isSome, E_STATE),
    (decide (8 < s.fpTrig e) || decide (s.fpLen e < 60) || decide (1532 < s.fpLen e)
      || decide (0x400000 < off + s.fpLen e), E_ARG),
    (decide (8192 < s.fpUsed (s.fpPort e) + s.fpLen e), E_SPACE)]

/-- FP_ARM. -/
def execFpArm (e : BitVec 5) (s : State) : Res :=
  let n := e.toNat
  let st := s.fpStatus n
  let s := s.setF (R.MAC_FP_CTRL n) 15 8 st
  .next (if st ≠ OK then s
    else
      { s.setF (R.MAC_FP_CTRL n) 31 31 1 with
        fpArmed := minsert (merase s.fpArmed n) n (s.rdBytes (SRAM_BASE + s.fld (R.MAC_FP_ADDR n) 21 0) (s.fpLen n)) })

/-- An entry disarms. -/
def State.fpDisarm (s : State) (e : Nat) : State :=
  { s.setF (R.MAC_FP_CTRL e) 31 31 0 with fpArmed := merase s.fpArmed e }

/-- An armed entry fires: its packet is queued, or with prim_only discarded and counted where the role is neither
PRIMARY nor SOLO; with rearm = 0 it disarms. -/
def State.fpFire (s : State) (e : Nat) : State :=
  match s.fpPacket e with
  | none => s
  | some b =>
    let p := s.fpPort e
    let s := if s.bit (R.MAC_FP_CFG e) 30 ∧ 1 < s.fld R.PAIR_ROLE 2 0 then s.macCnt p FP_DISCARDED else s.queueFp p b
    if s.bit (R.MAC_FP_CFG e) 31 then s else s.fpDisarm e

/-- FP_FIRE. -/
def execFpFire (e : BitVec 5) (s : State) : Res := .next (s.fpFire e.toNat)
/-- FP_DISARM. -/
def execFpDisarm (e : BitVec 5) (s : State) : Res := .next (s.fpDisarm e.toNat)

/-- TRIGGER_EDGE: snap row t (R272), event 0x300 + t in every caldera (R135), and the fast-path entries of trigger t in
ascending order (R304); source 0x010 + t is pending, or caught in SLEEP (R364, R372). -/
def execTriggerEdge (t : BitVec 3) (s : State) : Res :=
  let n := t.toNat
  let u := s.edgeL (0x010 + n)
  .next (if !s.clocksRun then u else (List.range 32).foldl (fun (s : State) e => if s.fpTrig e = n then s.fpFire e else s)
    ((u.spdTrig n).fireEvent (0x300 + n)))

end Sys2Proof.Machine
end

