-- ==== Sys2Proof/Machine/Pmin.lean ====
section
/-!
DEFINITION. What the outputs ask of the frame clock: the longest lower bound on a period (R195) and the earliest start
E (R188, R242).
-/
namespace Sys2Proof.Machine
open Sys2Proof

/-- FLK_PMIN brought up to date: the longest bound of the outputs (R195). -/
def State.updatePmin (s : State) : State :=
  let l := (List.range 32).map s.lanePmin ++ (List.range 16).map s.dmxPmin
  s.wr R.FLK_PMIN (Word.ofNat (l.foldl max 0))

/-- E: the latest of the heads' earliest starts, or the last frame start where no head constrains it. -/
def State.localE (s : State) : Word :=
  (latest ((List.range 8).filterMap s.headEarliest)).getD s.flkS

end Sys2Proof.Machine
end

