-- ==== Sys2Proof/Machine/FrameHooks.lean ====
section
/-!
DEFINITION. What the outputs and inputs do at a frame start beside FLK itself (R186 step 5 and after).
-/
namespace Sys2Proof.Machine
open Sys2Proof

/-- LGV_COMPUTE: within 8 µs of the commit of a frame (R227, R230); the grey lanes prefill with it (R240). -/
def execLgvCompute (s : State) : Res :=
  .next (if !s.flkFired ∨ s.rd R.LGV_FRAME = s.committed then s
    else (List.range 32).foldl State.prefill (s.lgvCompute s.committed))

/-- The zone powers when a frame takes effect (R419): P_g = idle_g + ((D_g × s_g) >> 16), mW. -/
def State.zonePowers (s : State) : State :=
  (List.range 64).foldl (fun (s : State) g =>
    s.wr (R.NRG_ZPWR g) (Word.ofNat ((s.aRd (R.LGV_GIDLE g)).toNat
      + mget (fun _ => 0) s.lgvD g * s.scaleOf g / 65536))) s

/-- Frame start k of scheduled time `st`: the tables of frame k, the outputs with frame k − 1 when they take it, the
inputs of frame k and the video stores of frame k. Lanes hold the frame last taken where R467 and R481 say so. -/
def State.outputsAt (s : State) (k st : Word) (take : Bool) : State :=
  let s := (s.tablesAt k).lgvAt k take
  let s := if take then s.zonePowers else s
  let s := (s.lanesAt st (take && !s.unvSilent)).spdAt st take
  let s := (s.dmxAt k take).unvAt k take
  (s.sacnAt k).videoAt k

end Sys2Proof.Machine
end

