-- ==== Sys2Proof/Machine/PairBase.lean ====
section
/-!
DEFINITION. What a package of a pair does at its frame starts: digest records (R483 to R485), the sending side of the
input log (R489), and snapshots (R490).
-/
namespace Sys2Proof.Machine
open Sys2Proof

/-! ### Digest records (R483, R484) -/

/-- The CRC of lane i's part of frame f: the scan's or the plane store's (R257); a SYNCING package, which sends no scan
of f, computes it all the same. -/
def State.laneDigest (s : State) (f : Word) (i : Nat) : Word :=
  if !s.bit R.PAIR_OWN_LANE i then 0
  else if s.pairRole ≠ 3 then s.rd (lnReg R.SCN_L_CRC i)
  else if s.lnSpread i then crc32c ((s.planeValues i f).flatMap fun c => leBytes 3 c.x)
  else s.scanCrc i f

/-- The start code and slots of frame f's packet on port n. -/
def State.dmxDigest (s : State) (f : Word) (n : Nat) : List Byte :=
  if s.bit R.PAIR_OWN_DMX n ∧ s.dmxOut n ∧ (s.dp n).frame = f then (s.dp n).buf else []

/-- The 400 bytes of frame f's record. -/
def State.digestRecord (s : State) (f : Word) : List Byte :=
  leBytes 4 f.toNat ++ leBytes 4 (s.rd R.UPD_RENDER).toNat
    ++ ((List.range 32).flatMap fun i => leBytes 4 (s.laneDigest f i).toNat)
    ++ ((List.range 64).flatMap fun g => leBytes 4 (s.scaleOf g))
    ++ leBytes 4 (if s.unv.frame = f then s.unv.crc.toNat else (crc32c []).toNat)
    ++ leBytes 4 (crc32c ((List.range 16).flatMap fun n => s.dmxDigest f n)).toNat

/-- A temperature factor that this package owns (R232, R484). -/
def State.ownsFactor (s : State) (g : Nat) : Bool := s.bit R.PAIR_OWN_DMX (16 + s.fld (R.NRG_ZCFG g) 26 24)

/-- The DIGEST message's body (R484). -/
def State.digestBody (s : State) (f : Word) (rec_ : List Byte) : List Byte :=
  rec_ ++ leBytes 8 ((List.range 64).foldl (fun m g => m + b2n (s.ownsFactor g) * 2 ^ g) 0)
    ++ ((List.range 64).flatMap fun g => leBytes 3 (mget (fun _ => ONE16) (s.tfAt f) g))
    ++ [BitVec.ofNat 8 (s.fld R.PAIR_OWN_DMX 23 16), 0, 0, 0]
    ++ ((List.range 8).flatMap fun k => leBytes 2 (s.fld (R.SNS_TEMP k) 15 0))

/-- Index of the first byte that differs. -/
def firstDiff : List Byte → List Byte → Nat → Option Nat
  | a :: t, b :: u, i => if a = b then firstDiff t u (i + 1) else some i
  | _, _, _ => none

/-- Two records of frame f are compared. -/
def State.compared (s : State) (f : Word) (diff : Option Nat) : State :=
  let s := s.wr R.PAIR_CMPFRAME f
  match diff with
  | none =>
    let s := s.setF R.PAIR_MATCH 31 16 (min 65535 (s.fld R.PAIR_MATCH 31 16 + 1))
    let n := match s.pair.caughtFrom with
      | some c => if 0 ≤ sdiff f c then s.pair.syncRun + 1 else s.pair.syncRun
      | none => 0
    let s := s.setPairEng { s.pair with misRun := 0, syncRun := n }
    if s.pairRole = 3 ∧ n = 3 then { s with roleAt := some (2, s.fnow + 1) } else s
  | some i =>
    let s := ((s.setF R.PAIR_MATCH 31 16 0).setF R.PAIR_MATCH 15 0 i).bump R.PAIR_CNT 31 16
    let n := s.pair.misRun + 1
    let s := s.setPairEng { s.pair with misRun := n, syncRun := 0 }
    let s := if s.bit R.PAIR_STAT 6 then s.swapBack else s
    if max 1 (s.fld R.PAIR_CFG 23 20) ≤ n then
      (((s.setPairEng { s.pair with misRun := 0 }).log 0x0052 2 f.toNat i).setF R.PAIR_STAT 2 2 1).setF R.SPA_STAT 31 31 1
    else s

/-- Records of frame f held from both packages are compared, unless their render_ids differ (R467, R484). -/
def State.digestCompare (s : State) (f : Word) : State :=
  match s.pair.own.find? (fun e => e.1 = f), s.pair.theirs.find? (fun e => e.1 = f) with
  | some a, some b =>
    let s := s.setPairEng { s.pair with
      own := s.pair.own.filter fun e => e.1 ≠ f, theirs := s.pair.theirs.filter fun e => e.1 ≠ f }
    if leAt a.2 4 4 ≠ leAt b.2 4 4 then s else s.compared f (firstDiff a.2 b.2 0)
  | _, _ => s

/-- The record of the frame on the outputs is complete when the next frame start comes (assumption 19): it is kept and
sent. -/
def State.digestAt (s : State) : State :=
  let f := s.outTaken
  if !s.pairEn ∨ s.pairRole = 0 ∨ s.pairRole = 4 ∨ f = NO_FRAME ∨ s.pair.made = some f then s
  else
    let r := s.digestRecord f
    let s := s.setPairEng { s.pair with own := (f, r) :: s.pair.own, made := some f }
    (s.chnSend 3 s.partner f (s.digestBody f r)).digestCompare f

/-! ### The input log at a frame start (R489) -/

/-- Slots and status latched in copy f & 1 of an input buffer. -/
def State.latched (s : State) (base : Nat) (f : Word) : List Byte :=
  let c := f.toNat % 2
  s.oRdBytes (base + c * 512) 512 ++ s.oRdBytes (base + 1024 + c * 16) 16
def State.sacnBuf (s : State) (i : Nat) : Nat := s.unvBase R.UNV_IBUF_LO + i * 2048

/-- The inputs that the pair shares: kind, index and buffer. -/
def State.sharedInputs (s : State) : List (Nat × Nat × Nat) :=
  (if s.aBit R.UNV_CTRL 1 && s.aBit R.UNV_CTRL 2 then
      ((List.range (s.aFld R.UNV_IN_CFG 10 0)).filter fun i => inFlag (s.inEntry i) 0).map fun i => (1, i, s.sacnBuf i)
    else [])
  ++ ((List.range 16).filter fun n => s.dmxEn n && s.dmxIn n && s.aBit (R.DMX_P_CFG n) 11 && !s.langalOwns).map fun n =>
    (2, n, s.dmxIbuf n)

/-- The inputs of frame f are in their buffers: PAIR_INDONE and the software event. -/
def State.inputsDone (s : State) (f : Word) : State :=
  let s := s.wrW (SRAM_BASE + s.fld R.PAIR_INDONE 21 2 * 4) f
  let e := s.fld R.PAIR_CFG 10 0
  if e = 0 then s else s.fireEvent e

/-- The PRIMARY sends what it has latched for frame f, and END. -/
def State.inlogAt (s : State) (f : Word) : State :=
  if !s.pairEn ∨ s.pairRole ≠ 1 then s
  else
    let l := s.sharedInputs
    let s := l.foldl (fun (s : State) e =>
      s.chnSend 7 s.partner f ([BitVec.ofNat 8 e.1, 0] ++ leBytes 2 e.2.1 ++ s.latched e.2.2 f)) s
    (s.chnSend 7 s.partner f ([0, 0] ++ leBytes 2 l.length)).inputsDone f

/-! ### Snapshots (R490) -/
abbrev M_PAIR : Nat := 0x56

/-- The regions of the snapshot list: address and length. -/
def State.snapRegions (s : State) : List (Nat × Nat) :=
  let base := s.fld R.PAIR_SNAPLIST 31 4 * 256
  ((List.range 64).map fun i => (s.hRdLe (base + 16 * i) 5, s.hRdLe (base + 16 * i + 8) 4)).filter fun r => r.2 ≠ 0
def State.snapArea (s : State) : Nat := s.fld R.PAIR_SNAPAREA 31 4 * 256
def State.snapLen (s : State) : Nat := (s.snapRegions.map (·.2)).foldl (· + ·) 0

/-- Bytes of the whole area: the regions and the LGV record. -/
def State.snapTotal (s : State) : Nat := s.snapLen + 1024

/-- The regions are copied into the area, as they are at the commit of frame n. -/
def State.snapTake (s : State) (n : Word) : State :=
  let s := s.hubNote hubReach 0 M_PAIR 0 [(s.fld R.PAIR_SNAPLIST 31 4 * 256, 1024)]
  let r := s.snapRegions.foldl (fun (x : Nat × State) e =>
    let s := x.2.hubNote hubReach 0 M_PAIR 0 [e]
    (x.1 + e.2, s.hubWr hubReach M_PAIR 0 x.1 (s.hRdBytes e.1 e.2))) (s.snapArea, s)
  (r.2.setPairEng { s.pair with snapWant := false, snap := some n, snapLgv := [] }).setF R.PAIR_STAT 0 0 1

/-- A commit of frame n takes the snapshot that has been asked for. -/
def State.snapAt (s : State) (n : Word) : State := if s.pair.snapWant ∧ s.pairRole = 1 then s.snapTake n else s

/-- Frame start k while a copy of frame k − 2 is not complete: the seal of frame k is held. -/
def State.snapHold (s : State) (k : Word) : State :=
  if s.pair.snap = some (k - 2) ∧ s.sealHold.isNone then { s with sealHold := some k } else s

end Sys2Proof.Machine
end

