-- ==== Sys2Proof/Machine/SpareBase.lean ====
section
/-!
DEFINITION. Taking a spare (R492, R518): the counts, the records and the interrupt that every kind of spare shares.
-/
namespace Sys2Proof.Machine
open Sys2Proof

def State.spareUsed (s : State) (k : Nat) : Nat := s.fld (R.SPA_KIND k) 15 0
def State.spareTotal (s : State) (k : Nat) : Nat := s.fld (R.SPA_KIND k) 31 16
/-- A wear event of a kind (R494). -/
def State.spareEvent (s : State) (k : Nat) : State := s.bump (R.SPA_EVT k) 31 0

/-- A swap is recorded and fires source 0x142. -/
def State.spareDone (s : State) (k unit spare logical : Nat) : State :=
  ((s.bump (R.SPA_KIND k) 15 0).log 0x0060 0 k unit spare logical).irq 0x142
/-- A spare is needed and none is left. -/
def State.spareNone (s : State) (k unit : Nat) : State := s.log 0x0061 2 k unit

/-- Take the next spare of a kind whose spares are one pool: whether there was one. -/
def State.takeSpare (s : State) (k unit : Nat) : Bool × State :=
  if s.spareUsed k < s.spareTotal k then (true, s.spareDone k unit (s.spareUsed k) 0) else (false, s.spareNone k unit)

end Sys2Proof.Machine
end

