-- ==== Sys2Proof/Machine/Langal.lean ====
section
/-!
DEFINITION. Langal mode (R324 to R345): the Langal engine and its LCI instructions, the LG-16 host bus and its commands,
ticks and DMX packets. An LCI command executes when the engine runs and the instruction at its PC is that one.
-/
namespace Sys2Proof.Machine
open Sys2Proof

def State.setLgl (s : State) (x : Langal) : State := { s with lgl := x }
abbrev LGL_BOOT : Nat := 0
abbrev LGL_STOPPED : Nat := 1
abbrev LGL_RUNNING : Nat := 2
def State.lglState (s : State) : Nat := s.fld R.LGL_STAT 1 0
def State.setLglState (s : State) (st : Nat) : State := s.setF R.LGL_STAT 1 0 st
/-- The LHB answers and the engine is ready (R326). -/
def State.lglReady (s : State) : Bool := s.langalOwns && s.lglState != LGL_BOOT
def State.lglSession (s : State) : Bool := s.bit R.LGL_STAT 4
/-- Langal-plus. -/
def State.lglPlus (s : State) : Bool := s.fld R.SYS_STRAP 5 4 = 2
def State.lglPc (s : State) : Nat := s.fld R.LGL_PC 11 0
def State.setLglPc (s : State) (pc : Nat) : State := s.setF R.LGL_PC 11 0 pc
/-- Raise bits of LGL_HIRQ. -/
def State.lglIrq (s : State) (m : Byte) : State := s.setLgl { s.lgl with irq := s.lgl.irq ||| m }
/-- LHB_IRQ_N is low (R335). -/
def State.lhbIrq (s : State) : Bool := s.lgl.irq &&& s.lgl.irqEn != 0

/-! ### The data space (R328, R340) -/

def State.lglWord (s : State) (m : Langal → Map (BitVec 16)) (i : Nat) : BitVec 16 := mget (fun _ => 0) (m s.lgl) i

/-- A data word as the engine and the host read it. -/
def State.lglLoad (s : State) (a : Nat) : BitVec 16 :=
  if a < 0x4800 then s.lglWord Langal.data a
  else if a < 0x5000 then
    if s.lglPlus ∧ s.bit R.LGL_CTRL 1 then
      BitVec.ofNat 16 (s.rdLe (SRAM_BASE + s.fld R.LGL_NWIN 21 12 * 4096 + (a - 0x4800) * 2) 2)
    else 0xFFFF
  else if a = 0x5000 then s.lgl.portEn
  else 0xFFFF

/-- A write of a data word; bits [15:8] of a slot word are ignored. -/
def State.lglStore (s : State) (a : Nat) (w : BitVec 16) : State :=
  if a < 0x2000 then s.setLgl { s.lgl with data := mset (fun _ => 0) s.lgl.data a (w &&& 0x00FF) }
  else if a < 0x4800 then s.setLgl { s.lgl with data := mset (fun _ => 0) s.lgl.data a w }
  else if a = 0x5000 then s.setLgl { s.lgl with portEn := w }
  else s

/-! ### LCI (R331) -/

/-- The LCI instructions. -/
inductive Lci where
  | nop | halt | waitt | ret | ldi | ldh | add | sub | and | or | xor | mov | shl | shr | adds | subs | mulh | addi
  | ld | st | bz | bnz | bc | jmp | call | fade | inp | out
  deriving DecidableEq, Repr

/-- Fields of an LCI word. -/
def lciOp (w : BitVec 16) : Nat := w.toNat / 4096
def lciX (w : BitVec 16) : Nat := w.toNat / 256 % 16
def lciY (w : BitVec 16) : Nat := w.toNat / 16 % 16
def lciZ (w : BitVec 16) : Nat := w.toNat % 16
def lciImm (w : BitVec 16) : Nat := w.toNat % 256

/-- The instruction an LCI word is; undefined codes are NOP. -/
def lciDecode (w : BitVec 16) : Lci :=
  match lciOp w with
  | 0x0 => [Lci.nop, .halt, .waitt, .ret].getD (lciZ w) .nop
  | 0x1 => .ldi
  | 0x2 => .ldh
  | 0x3 => .add
  | 0x4 => .sub
  | 0x5 => [Lci.and, .or, .xor, .mov, .shl, .shr, .adds, .subs, .mulh].getD (lciZ w) .nop
  | 0x6 => .addi
  | 0x7 => .ld
  | 0x8 => .st
  | 0x9 => .bz
  | 0xA => .bnz
  | 0xB => .bc
  | 0xC => .jmp
  | 0xD => .call
  | 0xE => .fade
  | _ => [Lci.inp, .out].getD (lciZ w) .nop

/-- The word is a NOP that comes from an undefined z. -/
def lciUndef (w : BitVec 16) : Bool := lciDecode w = .nop && !(lciOp w = 0 && lciZ w = 0)

def State.la (s : State) (i : Nat) : BitVec 16 := s.lgl.a.getD i 0
def State.setLa (s : State) (i : Nat) (v : BitVec 16) : State := s.setLgl { s.lgl with a := lset 0 s.lgl.a i v }
def State.setLc (s : State) (c : Bool) : State := s.setLgl { s.lgl with c := c }
def State.setLz (s : State) (v : BitVec 16) : State := s.setLgl { s.lgl with z := decide (v = 0) }

/-- The word at the engine's PC. -/
def State.lciWord (s : State) : BitVec 16 := s.lglWord Langal.prog s.lglPc

/-- Execute the instruction at the PC when it is this one: `f` runs with the PC already at the next instruction. -/
def State.lci (s : State) (op : Lci) (f : State → BitVec 16 → State) : Res :=
  let w := s.lciWord
  .next (if !s.langalOwns ∨ s.lglState ≠ LGL_RUNNING ∨ s.lgl.waiting ∨ lciDecode w ≠ op then s
    else f (s.setLglPc (s.lglPc + 1)) w)

/-- A result with both flags, or with Z and a given C. -/
def State.lciRes (s : State) (x : Nat) (v : BitVec 16) (c : Bool) : State := ((s.setLa x v).setLc c).setLz v

def execLciNop (s : State) : Res := s.lci .nop fun s w =>
  if lciUndef w then (s.bump R.LGL_CNT 31 16).setF R.LGL_STAT 9 9 1 else s
def execLciHalt (s : State) : Res := s.lci .halt fun s _ => (s.setLglState LGL_STOPPED).lglIrq 0x04
def execLciWaitt (s : State) : Res := s.lci .waitt fun s _ => s.setLgl { s.lgl with waiting := true, tickSeen := false }
/-- LCI_WAITT_RESUME: a tick has come (R330). -/
def execLciWaittResume (s : State) : Res :=
  .next (if s.lgl.waiting ∧ s.lgl.tickSeen then s.setLgl { s.lgl with waiting := false, tickSeen := false } else s)
/-- A return with no entry left pops the oldest slot again (R327). -/
def execLciRet (s : State) : Res := s.lci .ret fun s _ =>
  let x := s.lgl
  if x.depth = 0 then s.setLglPc (x.stack.getD x.top 0).toNat
  else
    let i := (x.top + 7) % 8
    (s.setLgl { x with top := i, depth := x.depth - 1 }).setLglPc (x.stack.getD i 0).toNat
def execLciLdi (s : State) : Res := s.lci .ldi fun s w => s.setLa (lciX w) (BitVec.ofNat 16 (lciImm w))
def execLciLdh (s : State) : Res := s.lci .ldh fun s w =>
  s.setLa (lciX w) (BitVec.ofNat 16 (lciImm w * 256 + (s.la (lciX w)).toNat % 256))
def execLciAdd (s : State) : Res := s.lci .add fun s w =>
  let t := (s.la (lciY w)).toNat + (s.la (lciZ w)).toNat
  s.lciRes (lciX w) (BitVec.ofNat 16 t) (decide (65536 ≤ t))
def execLciSub (s : State) : Res := s.lci .sub fun s w =>
  let a := s.la (lciY w)
  let b := s.la (lciZ w)
  s.lciRes (lciX w) (a - b) (decide (a.toNat < b.toNat))
/-- A bitwise result: C is unchanged. -/
def State.lciBits (s : State) (w : BitVec 16) (f : BitVec 16 → BitVec 16 → BitVec 16) : State :=
  let v := f (s.la (lciX w)) (s.la (lciY w))
  (s.setLa (lciX w) v).setLz v
def execLciAnd (s : State) : Res := s.lci .and fun s w => s.lciBits w (· &&& ·)
def execLciOr (s : State) : Res := s.lci .or fun s w => s.lciBits w (· ||| ·)
def execLciXor (s : State) : Res := s.lci .xor fun s w => s.lciBits w (· ^^^ ·)
def execLciMov (s : State) : Res := s.lci .mov fun s w => s.lciRes (lciX w) (s.la (lciY w)) false
def execLciShl (s : State) : Res := s.lci .shl fun s w =>
  let a := s.la (lciY w)
  s.lciRes (lciX w) (a <<< 1) (a.getLsbD 15)
def execLciShr (s : State) : Res := s.lci .shr fun s w =>
  let a := s.la (lciY w)
  s.lciRes (lciX w) (a >>> 1) (a.getLsbD 0)
def execLciAdds (s : State) : Res := s.lci .adds fun s w =>
  let t := (s.la (lciX w)).toNat + (s.la (lciY w)).toNat
  s.lciRes (lciX w) (BitVec.ofNat 16 (min 0xFFFF t)) (decide (65536 ≤ t))
def execLciSubs (s : State) : Res := s.lci .subs fun s w =>
  let a := s.la (lciX w)
  let b := s.la (lciY w)
  s.lciRes (lciX w) (BitVec.ofNat 16 (a.toNat - b.toNat)) (decide (a.toNat < b.toNat))
/-- The C of MULH is not stated (a shift by 16 loses sixteen bits): a free value. -/
def execLciMulh (s : State) : Res := s.lci .mulh fun s w =>
  let t := (s.la (lciX w)).toNat * (s.la (lciY w)).toNat
  s.useFree.lciRes (lciX w) (BitVec.ofNat 16 (t / 65536)) (decide (s.free 23 2 = 1))
def execLciAddi (s : State) : Res := s.lci .addi fun s w =>
  let t := (s.la (lciX w)).toNat + (BitVec.ofInt 16 (sext 8 (lciImm w))).toNat
  s.lciRes (lciX w) (BitVec.ofNat 16 t) (decide (65536 ≤ t))
/-- Data address ay + z modulo 2^16. -/
def State.lciAddr (s : State) (w : BitVec 16) : Nat := ((s.la (lciY w)).toNat + lciZ w) % 65536
def execLciLd (s : State) : Res := s.lci .ld fun s w => s.setLa (lciX w) (s.lglLoad (s.lciAddr w))
def execLciSt (s : State) : Res := s.lci .st fun s w => s.lglStore (s.lciAddr w) (s.la (lciX w))
/-- A branch adds simm8 to the address of the next instruction; the PC wraps at 0xFFF. -/
def State.lciBranch (s : State) (w : BitVec 16) (take : Bool) : State :=
  if take then s.setLglPc ((s.lglPc + (BitVec.ofInt 12 (sext 8 (lciImm w))).toNat) % 4096) else s
def execLciBz (s : State) : Res := s.lci .bz fun s w => s.lciBranch w (decide (s.la (lciX w) = 0))
def execLciBnz (s : State) : Res := s.lci .bnz fun s w => s.lciBranch w (decide (s.la (lciX w) ≠ 0))
def execLciBc (s : State) : Res := s.lci .bc fun s w =>
  s.lciBranch w ([s.lgl.c, !s.lgl.c, s.lgl.z, !s.lgl.z].getD (lciX w) false)
def execLciJmp (s : State) : Res := s.lci .jmp fun s w => s.setLglPc (w.toNat % 4096)
/-- A ninth CALL overwrites the oldest entry (R327). -/
def execLciCall (s : State) : Res := s.lci .call fun s w =>
  let x := s.lgl
  (s.setLgl { x with stack := lset 0 x.stack x.top (BitVec.ofNat 12 s.lglPc), top := (x.top + 1) % 8,
                     depth := min 8 (x.depth + 1) }).setLglPc (w.toNat % 4096)
def execLciFade (s : State) : Res := s.lci .fade fun s w =>
  let y := s.la (lciY w)
  let z := s.la (lciZ w)
  let t := s.la 14
  s.setLa (lciX w) (if t = 0xFFFF then z
    else BitVec.ofInt 16 ((y.toNat : Int) + ((z.toNat : Int) - (y.toNat : Int)) * (t.toNat : Int) / 65536))
def execLciIn (s : State) : Res := s.lci .inp fun s w =>
  s.setLa (lciX w) (if lciY w = 0xB then BitVec.ofNat 16 s.lgl.h2e.toNat
    else if lciY w = 0xD then BitVec.ofNat 16 (s.fld R.LGL_TICK 7 0) else 0x00FF)
def execLciOut (s : State) : Res := s.lci .out fun s w =>
  if lciY w = 0xC then (s.setLgl { s.lgl with e2h := BitVec.ofNat 8 (s.la (lciX w)).toNat }).lglIrq 0x02 else s

/-! ### Boot, ticks and packets (R326, R329, R341, R343) -/

/-- The engine becomes ready: program and cues come from NVS, the rest of the data space reads 0, and with autorun set
the program starts at 0. Until tick 0 the ports go on with a snapshot kept over an activation (R464). -/
def State.lglStart (s : State) : State :=
  let x := s.lgl
  let y : Langal := {
    prog := x.nvProg, data := x.nvCues, snap := x.snap, snapEn := x.snapEn, trim := x.trim, trimNext := x.nvTrim, busy := false,
    autorun := x.nvAutorun, pace := s.bit R.LGL_CTRL 0, nvProg := x.nvProg, nvCues := x.nvCues, nvTrim := x.nvTrim,
    nvAutorun := x.nvAutorun, nvHash := x.nvHash, sent := x.sent, irqEn := 0, lhbSpi := x.lhbSpi }
  (((s.setLgl y).wr R.LGL_TANCH (s.tsuNs + Word.ofNat 10000000)).setLglPc 0).setLglState
    (if x.nvAutorun then LGL_RUNNING else LGL_STOPPED)

/-- LANGAL_BOOT_CHECK: the check of the engine, and of the spare that takes its place (R326, R492). -/
def execLangalBootCheck (ok spareOk : Bool) (s : State) : Res :=
  .next (if !s.langalOwns ∨ s.lglState ≠ LGL_BOOT then s
    else if ok then s.lglStart
    else
      let r := s.takeSpare 7 0
      if r.1 ∧ spareOk then r.2.lglStart
      else ((r.2.setLgl { r.2.lgl with absent := true }).log 0x0046 2))

/-- The trimmed byte of port p, slot k (from 0) of the snapshot. -/
def State.lglSlot (s : State) (p k : Nat) : Byte :=
  let v := (mget (fun _ => 0) s.lgl.snap (p * 0x200 + k)).toNat % 256
  mget (fun i => BitVec.ofNat 8 i) s.lgl.trim (p * 256 + v)

abbrev M_LGL : Nat := 0x58
/-- LANGAL_TICK: at the tick's TSU time, the snapshot, the trims and the pace in force, and the mirror. -/
def execLangalTick (s : State) : Res :=
  let n : Word := if s.lgl.ticked then s.rd R.LGL_TICK + 1 else 0
  .next (if !s.lglReady ∨ sdiff s.tsuNs (s.rd R.LGL_TANCH + n * 25000000) < 0 then s
    else
      let x := s.lgl
      let s := (s.setLgl { x with
        ticked := true, snap := mrange x.data 0 0x2000, snapEn := x.portEn, trim := x.trimNext,
        pace := s.bit R.LGL_CTRL 0, toggle := !x.toggle, irq := x.irq ||| 0x08, tickSeen := x.waiting }).wr R.LGL_TICK n
      let s := s.irq 0x151
      if s.lglPlus ∧ s.bit R.LGL_CTRL 2 then
        let base := s.fld R.LGL_MIRROR_HI 7 0 * 2 ^ 32 + s.fld R.LGL_MIRROR_LO 31 15 * 32768 + n.toNat % 2 * 0x4000
        let l := (List.range 16).flatMap fun p => (List.range 512).map (s.lglSlot p)
        s.hubWr hubReach M_LGL 0 base (l ++ leBytes 4 n.toNat)
      else s)

/-- LANGAL_PORT_PACKET: port p sends the packet of the last tick's snapshot, also while the engine restarts (R464); _DE is
driven whenever a port is enabled (R341). -/
def execLangalPortPacket (p : BitVec 4) (s : State) : Res :=
  let n := p.toNat
  .next (if !s.langalOwns ∨ (!s.lgl.ticked ∧ s.lgl.snapEn = 0) then s
    else if !s.lgl.snapEn.getLsbD n then s.setDp n { s.dp n with driving := false }
    else
      let s := s.setLgl { s.lgl with sent := mset (fun _ => []) s.lgl.sent n (0 :: (List.range 512).map (s.lglSlot n)) }
      s.setDp n { s.dp n with driving := true, brk := 100 * usTicks, mab := 12 * usTicks, start := s.now })

/-! ### The host bus (R335 to R337) -/

/-- LGL_HSTATUS as read. -/
def State.lglHstatus (s : State) : Byte :=
  let x := s.lgl
  if x.absent then 0xC0
  else if !s.lglReady then 0x80
  else BitVec.ofNat 8 (b2n (x.busy || x.firstRead) * 128 + b2n x.err * 64 + b2n s.lglSession * 32
    + b2n (decide (s.lglState = LGL_RUNNING)) * 16 + b2n x.toggle * 8 + b2n x.autorun * 4)

/-- LGL_HSTATUS_READ. -/
def execLglHstatusRead (s : State) : Res :=
  .next (if !s.langalOwns then s else s.setLgl { s.lgl with out := s.lglHstatus, firstRead := false })

/-- Bytes in each space. -/
def spaceSize (sp : Nat) : Nat := [8192, 65536, 4096, 8].getD sp 1
/-- One byte of a word, little-endian. -/
def wordByte (w : BitVec 16) (b : Nat) : Byte := BitVec.ofNat 8 (w.toNat / 256 ^ (b % 2))
def setWordByte (w : BitVec 16) (b : Nat) (v : Byte) : BitVec 16 :=
  if b % 2 = 0 then BitVec.ofNat 16 (w.toNat / 256 * 256 + v.toNat) else BitVec.ofNat 16 (v.toNat * 256 + w.toNat % 256)

/-- The byte at the pointer. -/
def State.lhbByte (s : State) : Byte :=
  let p := s.lgl.ptr % spaceSize s.lgl.space
  match s.lgl.space with
  | 0 => wordByte (s.lglWord Langal.prog (p / 2)) p
  | 1 => wordByte (s.lglLoad (p / 2)) p
  | 2 => mget (fun _ => 0) s.lgl.stage p
  | _ => 0
/-- Prefetch at the pointer (R337). -/
def State.lhbPrefetch (s : State) : State := s.setLgl { s.lgl with pre := s.lhbByte }

/-- LGL_HADDRH_WRITE: the pointer takes both bytes. -/
def execLglHaddrhWrite (b : Byte) (s : State) : Res :=
  .next (if !s.lglReady then s
    else
      let p := b.toNat * 256 + s.lgl.addrl.toNat
      (s.setLgl { s.lgl with addrh := b, ptr := p % spaceSize s.lgl.space }).lhbPrefetch)

/-- LGL_HSPACE_WRITE. -/
def execLglHspaceWrite (b : Byte) (s : State) : Res :=
  .next (if !s.lglReady then s else (s.setLgl { s.lgl with space := b.toNat % 4 }).lhbPrefetch)

/-- A byte written at the pointer. -/
def State.lhbWrite (s : State) (v : Byte) : State :=
  let x := s.lgl
  let p := x.ptr % spaceSize x.space
  match x.space with
  | 0 => s.setLgl { x with prog := mset (fun _ => 0) x.prog (p / 2) (setWordByte (s.lglWord Langal.prog (p / 2)) p v) }
  | 1 => s.lglStore (p / 2) (setWordByte (s.lglLoad (p / 2)) p v)
  | 2 => s.setLgl { x with stage := mset (fun _ => 0) x.stage p v }
  | _ => s.setLgl { x with pw := lset 0 x.pw p v }

/-- LGL_HDATA_ACCESS: a write of a byte, or a read that returns the prefetched one; the pointer moves on (R337). -/
def execLglHdataAccess (w : Option Byte) (s : State) : Res :=
  .next (if !s.langalOwns then s
    else if !s.lglReady then (match w with
      | some _ => s
      | none => s.setLgl { s.lgl with out := 0 })
    else
      let s := match w with
        | some v =>
          if (!s.lglSession ∧ s.lgl.space ≠ 3) ∨ (s.lgl.space = 0 ∧ s.lglState = LGL_RUNNING) then
            s.setLgl { s.lgl with err := true }
          else s.lhbWrite v
        | none => s.setLgl { s.lgl with out := s.lgl.pre }
      (s.setLgl { s.lgl with ptr := (s.lgl.ptr + 1) % spaceSize s.lgl.space }).lhbPrefetch)

/-! ### Commands (R338, R339, R344) -/

/-- The word {ARG1, ARG0}. -/
def State.lglArg (s : State) : Nat := s.lgl.arg1.toNat * 256 + s.lgl.arg0.toNat
/-- Codes of commands, and those that need a session. -/
def lglCodes : List Nat := [0x01, 0x02, 0x03, 0x04, 0x05, 0x10, 0x11, 0x12]
def lglNeeds (c : Nat) : Bool := c != 0x10 && c != 0x12
/-- SHA-256 of the UID followed by the password (R339). -/
def State.lglHash (s : State) : List Byte := sha256 ((List.range 16).map Config.uidByte ++ s.lgl.pw)
/-- Sum modulo 2^16 of the program words. -/
def State.lglSum (s : State) : Nat := ((s.lgl.prog.map fun e => e.2.toNat).foldl (· + ·) 0) % 65536
/-- The staging entry v of port p. -/
def State.lglStaged (s : State) (p v : Nat) : Nat := (mget (fun _ => 0) s.lgl.stage (p * 256 + v)).toNat
/-- The plausibility test of R344. -/
def State.trimOk (s : State) (p : Nat) : Bool :=
  ((List.range 255).all fun v => decide (s.lglStaged p v ≤ s.lglStaged p (v + 1)))
    && ((List.range 256).all fun v => decide (s.lglStaged p v ≤ v + 48) && decide (v ≤ s.lglStaged p v + 48))

/-- The status a command's checks give (R338), and its own (R339, R344: life cycle DEPLOYED or later, as R429 has it). -/
def State.lglStatus (s : State) (c : Nat) : Nat :=
  let running := decide (s.lglState = LGL_RUNNING)
  firstErr [(!lglCodes.contains c, E_ARG), (lglNeeds c && !s.lglSession, E_AUTH),
    ((c == 0x01 || c == 0x03) && running, E_STATE),
    (c == 0x03 && s.lglSum != s.lglArg, E_CHECK),
    (c == 0x04 && decide (2 ≤ s.fld R.KEY_LC 2 0), E_STATE), (c == 0x04 && !s.trimOk (s.lgl.arg0.toNat % 16), E_CHECK),
    (c == 0x10 && (s.bit R.LGL_STAT 8 || s.lglHash != s.lgl.nvHash), E_AUTH)]

/-- The effect of a command that ends OK. -/
def State.lglDo (s : State) (c : Nat) : State :=
  let x := s.lgl
  match c with
  | 0x01 => ((s.setLgl { x with a := List.replicate 16 0, c := false, z := false, stack := List.replicate 8 0, top := 0,
                                depth := 0, waiting := false, tickSeen := false }).setLglPc (s.lglArg % 4096)).setLglState LGL_RUNNING
  | 0x02 => (s.setLgl { x with waiting := false, tickSeen := false }).setLglState LGL_STOPPED
  | 0x03 => s.setLgl { x with nvProg := x.prog, nvCues := mrange x.data 0x2000 0x4000 }
  | 0x04 =>
    let p := x.arg0.toNat % 16
    let t := (List.range 256).foldl (fun m v =>
      mset (fun i => BitVec.ofNat 8 i) m (p * 256 + v) (BitVec.ofNat 8 (s.lglStaged p v))) x.trimNext
    s.setLgl { x with trimNext := t, nvTrim := t }
  | 0x05 => s.setLgl { x with autorun := x.arg0.getLsbD 0, nvAutorun := x.arg0.getLsbD 0 }
  | 0x10 => (s.setLgl { x with fails := 0 }).setF R.LGL_STAT 4 4 1
  | 0x11 => s.setLgl { x with nvHash := s.lglHash }
  | _ => s.setF R.LGL_STAT 4 4 0

/-- A failed LOGIN is counted; the third in a row starts the lockout (R339). -/
def State.loginFailed (s : State) : State :=
  let n := s.lgl.fails + 1
  let s := (s.setLgl { s.lgl with fails := n }).bump R.LGL_CNT 15 0
  if 3 ≤ n then s.setF R.LGL_STAT 8 8 1 else s

/-- A write of a code to LGL_HCMD: discarded before the engine is ready, and with err while busy (R326, R336). -/
def State.lglCmd (s : State) (c : Nat) : State :=
  if !s.lglReady then s
  else if s.lgl.busy then s.setLgl { s.lgl with err := true }
  else
    let st := s.lglStatus c
    let s := (s.setLgl { s.lgl with busy := true, firstRead := true, err := false,
                                    pendRes := BitVec.ofNat 8 st }).irq 0x150
    if st = OK then s.lglDo c else if c = 0x10 then s.loginFailed else s

def execLglRun (s : State) : Res := .next (s.lglCmd 0x01)
def execLglStop (s : State) : Res := .next (s.lglCmd 0x02)
def execLglStore (s : State) : Res := .next (s.lglCmd 0x03)
def execLglTrim (s : State) : Res := .next (s.lglCmd 0x04)
def execLglAutorun (s : State) : Res := .next (s.lglCmd 0x05)
def execLglLogin (s : State) : Res := .next (s.lglCmd 0x10)
def execLglSetpw (s : State) : Res := .next (s.lglCmd 0x11)
def execLglLogout (s : State) : Res := .next (s.lglCmd 0x12)

/-- LGL_COMMAND_DONE: busy clears, the result is valid and done is raised (R335, R336). -/
def execLglCommandDone (s : State) : Res :=
  .next (if !s.lglReady ∨ !s.lgl.busy then s
    else (s.setLgl { s.lgl with busy := false, result := s.lgl.pendRes }).lglIrq 0x01)

/-- LOGIN_LOCKOUT_END: 10 s after the third failure (R339). -/
def execLoginLockoutEnd (s : State) : Res := .next ((s.setLgl { s.lgl with fails := 0 }).setF R.LGL_STAT 8 8 0)

/-- A read of an LHB register (R335): the byte read stands in `out`. Before the engine is ready LGL_HSTATUS, LGL_HREV and
LGL_HID read as R326 gives, and the others what they hold. -/
def State.lhbRegRead (s : State) (a : Nat) : State :=
  let x := s.lgl
  let b := fun (v : Byte) => s.setLgl { x with out := v }
  if !s.langalOwns then s
  else match a with
    | 0x0 => s.setLgl { x with out := s.lglHstatus, firstRead := false }
    | 0x1 => b 0
    | 0x2 => b x.arg0
    | 0x3 => b x.arg1
    | 0x4 => b x.result
    | 0x5 => b x.addrl
    | 0x6 => b x.addrh
    | 0x7 => (match execLglHdataAccess none s with
      | .next t => t
      | _ => s)
    | 0x8 => b (BitVec.ofNat 8 x.space)
    | 0x9 => b x.irq
    | 0xA => b x.irqEn
    | 0xB => b x.h2e
    | 0xC => b x.e2h
    | 0xD => b (BitVec.ofNat 8 (s.rd R.LGL_TICK).toNat)
    | 0xE => b 0x03
    | _ => b 0x16

/-- A write to an LHB register without an action of its own (R335). -/
def State.lhbRegWrite (s : State) (a : Nat) (b : Byte) : State :=
  let x := s.lgl
  if !s.lglReady then s
  else match a with
    | 0x1 => s.lglCmd b.toNat
    | 0x2 => s.setLgl { x with arg0 := b }
    | 0x3 => s.setLgl { x with arg1 := b }
    | 0x5 => s.setLgl { x with addrl := b }
    | 0x9 => s.setLgl { x with irq := x.irq &&& ~~~b }
    | 0xA => s.setLgl { x with irqEn := b &&& 0x0F }
    | 0xB => s.setLgl { x with h2e := b }
    | _ => s

end Sys2Proof.Machine
end

