-- ==== Sys2Proof/Machine/SpareSwap.lean ====
section
/-!
DEFINITION. Swapping a unit for a spare (R36, R492, R493, R518): the units, the states in which each kind may swap, the
swap of each kind, and the swaps that wait for a frame boundary.
-/
namespace Sys2Proof.Machine
open Sys2Proof

/-! ### The reset of a core -/

/-- The mailbox party of a core, by interrupt target number (R357). -/
def coreParty (n : Nat) : Nat := partyOf (coreOfTarget n)

/-- Nothing of a core waits at a FIFO or a channel any more. -/
def State.dropCoreWaits (s : State) (n : Nat) : State :=
  let other := fun (w : Pusher) => match w with | .core m _ => m != n | _ => true
  { s with
    fifos := s.fifos.map fun (e : Nat × Fifo) => (e.1, { e.2 with stalled := e.2.stalled.filter fun q => other q.who })
    chans := s.chans.map fun (e : Nat × Channel) =>
      (e.1, { e.2 with stF := e.2.stF.filter (fun q => other q.who), stR := e.2.stR.filter (fun q => other q.who) }) }

/-- A core resets: its registers, its world, its stack of interrupts (R76, R368); it is halted. -/
def State.resetCore (s : State) (n : Nat) : State :=
  let s := (s.dropCoreWaits n).setCore n { start := s.sck }
  (s.unfreeze n).setTarget n {}

/-! ### Units (R518) -/

/-- The number of units of each kind. -/
def unitCount (kind : Nat) : Nat := [1088, 65536, 8192, 32, 32, 1, 8, 1, 64].getD kind 0
def spareForm (kind unit : Nat) : Bool := kind ≤ 8 && unit < unitCount kind

/-- The logical position that a slot of crater c serves. -/
def State.slotPos (s : State) (c slot : Nat) : Option Nat :=
  (List.range 16).find? fun p => mget id (s.crater c).slotMap p == slot && !(s.crater c).off.contains p

/-- Whether a spare is left for a unit. -/
def State.spareLeft (s : State) (kind unit : Nat) : Bool :=
  match kind with
  | 0 => s.fld (R.SPA_CR (unit / 17)) 31 27 == 31 && !s.bit (R.SPA_CR (unit / 17)) 16
  | 1 => decide (mget (fun _ => 0) (s.crater (unit / 1024)).rowSpares (unit / 64 % 16) < 8)
  | k => decide (s.spareUsed k < s.spareTotal k)

/-- The unit may swap as things stand: a vent with no task resident, a transmit serializer of a grey lane in
blanking after BLANK_MIN, the
management core before it starts, the Langal engine while STOPPED, a key slot while empty (R492). -/
def State.swapState (s : State) (kind unit : Nat) : Bool :=
  match kind with
  | 0 => match s.slotPos (unit / 17) (unit % 17) with
    | some p => (s.vent (unit / 17 * 16 + p)).task.isNone
    | none => false
  | 3 => s.lnState unit ≠ LN_RUN ∨ s.lnSpread unit ∨ !(s.lane unit).scanning ∧ s.blanked unit
  | 5 => decide ((s.core 0).run = .halted)
  | 7 => decide (s.lglState = LGL_STOPPED)
  | 8 => (s.keySlot unit).isNone
  | _ => true

/-! ### Swaps -/

/-- A vent's spare slot takes over its position; the retired slot is marked. -/
def State.swapVent (s : State) (unit : Nat) : State :=
  let c := unit / 17
  let slot := unit % 17
  match s.slotPos c slot with
  | none => s
  | some p =>
    let x := s.crater c
    let s := s.setCrater c { x with slotMap := mset id x.slotMap p 16 }
    let s := (s.setF (R.SPA_CR c) slot slot 1).setF (R.SPA_CR c) 31 27 p
    s.spareDone 0 unit (c * 17 + 16) (c * 16 + p)

/-- The first byte address of word k of row r of bank b in a crater (R19). -/
def rowWord (c b r k : Nat) : Nat := scratchAddr c (16384 * r + 64 * k + 4 * b)
/-- A row's contents are copied to a spare row, which takes its place: its single-bit errors are corrected, and the row is
no longer marked. -/
def State.swapRow (s : State) (unit : Nat) : State :=
  let c := unit / 1024
  let b := unit / 64 % 16
  let r := unit % 64
  let x := s.crater c
  let n := mget (fun _ => 0) x.rowSpares b
  let ecc := (List.range 256).foldl (fun m k =>
    if mget (fun _ => 0) m (rowWord c b r k) = 1 then merase m (rowWord c b r k) else m) s.ecc
  let x := { x with rowSpares := mset (fun _ => 0) x.rowSpares b (n + 1), marked := x.marked.filter (· ≠ (b, r))
                    rowCorr := mset (fun _ => 0) x.rowCorr (b * 64 + r) 0 }
  ({ s with ecc := ecc }.setCrater c x).spareDone 1 unit n 0

/-- A lane continues on the spare transmit serializer: in grey mode after 1,024 IDLE blocks; in spread-plane mode one PLANE
packet is left out. -/
def State.swapSerializer (s : State) (l : Nat) : State :=
  if s.lnState l ≠ LN_RUN then s
  else if s.lnSpread l then s.setLane l { s.lane l with dark := true }
  else s.setLane l { s.lane l with sent := [(1024, [])], restTill := s.now + ceilDiv (1024 * 528) 250 }

/-- A unit is swapped for a spare; a service core restarts as for SYS_DRST. -/
def State.swapUnit (s : State) (kind unit : Nat) : State :=
  let s := { s with failedUnits := s.failedUnits.filter (· ≠ (kind, unit)) }
  match kind with
  | 0 => s.swapVent unit
  | 1 => s.swapRow unit
  | 3 => (s.swapSerializer unit).takeSpare 3 unit |>.2
  | 6 => (((s.resetCore (unit + 1)).epochBump (coreParty (unit + 1))).takeSpare 6 unit).2
  | k => (s.takeSpare k unit).2

/-- No spare is left: a vent's position stays out of dispatch, a serializer's lane is DOWN. -/
def State.unitOut (s : State) (kind unit : Nat) : State :=
  let s := { s with failedUnits := s.failedUnits.filter (· ≠ (kind, unit)) }.spareNone kind unit
  match kind with
  | 0 =>
    let c := unit / 17
    let s := s.setF (R.SPA_CR c) (unit % 17) (unit % 17) 1
    match s.slotPos c (unit % 17) with
    | some p => s.setCrater c { s.crater c with off := p :: (s.crater c).off }
    | none => s
  | 3 => { s.laneDown unit with lanesOut := unit :: s.lanesOut.filter (· ≠ unit) }
  | 4 => { s.laneDown unit with lanesOut := unit :: s.lanesOut.filter (· ≠ unit) }
  | _ => s

/-! ### Swaps at a frame boundary (R36, R492) -/

/-- The kinds that swap at a frame boundary only: a vent, a scratch row, a service core. -/
def swapWaits (kind : Nat) : Bool := kind == 0 || kind == 1 || kind == 6

/-- The unit still serves: a slot that serves no position has nothing to swap. -/
def State.unitServes (s : State) (kind unit : Nat) : Bool :=
  kind != 0 || (s.slotPos (unit / 17) (unit % 17)).isSome

/-- The swap of a unit has ended with a status: the response to the command that asked, or SPA_SWAPRES. -/
def State.swapAnswer (s : State) (d : SwapDue) (st : Nat) : State :=
  let s := if d.reg then s.wr R.SPA_SWAPRES (Word.ofNat (2 ^ 31 + st)) else s
  match d.req with
  | some r => if (s.session? r.sid).isSome then s.respond r st [] else s
  | none => s

/-- One waiting swap at a frame boundary: it waits on while a task is resident on its vent. Where another swap has taken
the last spare, a retired unit goes out. -/
def State.swapTurn (s : State) (d : SwapDue) : State :=
  if !s.unitServes d.kind d.unit then s.swapAnswer d E_STATE
  else if !s.swapState d.kind d.unit then { s with swapsDue := s.swapsDue ++ [d] }
  else if s.spareLeft d.kind d.unit then (s.swapUnit d.kind d.unit).swapAnswer d OK
  else if d.req.isNone ∧ !d.reg then s.unitOut d.kind d.unit
  else s.swapAnswer d E_SPACE

/-- A frame boundary: each waiting swap in turn. -/
def State.frameSwaps (s : State) : State :=
  s.swapsDue.foldl (fun (s : State) d => s.swapTurn d) { s with swapsDue := [] }

end Sys2Proof.Machine
end

