-- ==== Sys2Proof/Machine/FrameTime.lean ====
section
/-!
DEFINITION. TSU and FLK commands: time-base commits and captures (R171 to R173), FLK commits (R183, R198, R199), frame
starts and commits (R183, R186 to R191) and late frames (R193 to R197).
-/
namespace Sys2Proof.Machine
open Sys2Proof

/-- TSU_COMMIT: a write of 1 to TSU_COMMIT.commit takes the shadows (R47, R517). -/
def execTsuCommit (s : State) : Res :=
  .next ((s.commitStart R.TSU_COMMIT).takeShadows R.TSU_COMMIT [(R.TSU_INC_FR, R.TSU_STEP + 4)])

/-- The limits of R171. -/
abbrev INC_MIN : Nat := 0x027F600000
abbrev INC_MAX : Nat := 0x0280A00000

/-- TSU_COMMIT_APPLY: the fourth tick after the commit reached the domain (R171, R172). -/
def execTsuCommitApply (s : State) : Res :=
  .next (match s.unchecked R.TSU_COMMIT with
    | none => s
    | some x =>
      let step := x.rd R.TSU_STEP
      if step ≠ 0 ∧ s.aBit R.FLK_CTRL 0 then s.commitChecked x E_STATE
      else
        let inc := x.fld R.TSU_INC_NS 7 0 * 2 ^ 32 + (x.rd R.TSU_INC_FR).toNat
        let v := max INC_MIN (min INC_MAX inc)
        let fr := Word.ofNat v
        let ns := Word.ofNat (v / 2 ^ 32)
        let s := ((s.applyVals x).aWr R.TSU_INC_FR fr).aWr R.TSU_INC_NS ns
        let s := if v = inc then s
          else ((s.setF R.TSU_STATUS 0 0 1).backShadow x.no R.TSU_INC_FR fr).backShadow x.no R.TSU_INC_NS ns
        let s := { s.backShadow x.no R.TSU_STEP 0 with
          tsuAcc := (s.tsuAcc + step.toNat * 2 ^ 32) % 2 ^ 64
          tsuHi := (s.tsuHi * 2 ^ 64 + s.tsuAcc + step.toInt * 2 ^ 32) / 2 ^ 64 }
        (s.commitChecked x OK).commitDone x)

/-- TSU_CAP_GO (R173). -/
def execTsuCapGo (s : State) : Res := .next { s.setF R.TSU_CAP 31 31 0 with capReq := true }
/-- TSU_CAPTURE (R173). -/
def execTsuCapture (s : State) : Res :=
  .next (if !s.capReq then s
    else
      let s := (s.wr R.TSU_CAP_NS s.tsuNs).wr R.TSU_CAP_FRAC (Word.ofNat s.tsuAcc)
      { s.setF R.TSU_CAP 31 31 1 with capReq := false })

/-! ### FLK commits (R182, R183, R198, R199) -/

/-- The ranges of FLK's shadowed registers. -/
def flkRanges : List (Nat × Nat) := [(R.FLK_CTRL, R.FLK_LAG + 4), (R.FLK_FSYNC, R.FLK_LTCCFG + 4)]

/-- A write of 1 to FLK_COMMIT.commit (R47, R517). -/
def State.flkCommitWrite (s : State) : State := (s.commitStart R.FLK_COMMIT).takeShadows R.FLK_COMMIT flkRanges

/-- FLK_COMMIT. -/
def execFlkCommit (s : State) : Res := .next s.flkCommitWrite

/-- Re-anchor at frame k (R182): the active copies and, unless software has written them since commit `no`, the
shadows. -/
def State.reAnchor (s : State) (no : Nat) (k : Word) : State :=
  let n := s.nominal k
  (((s.aWr R.FLK_ANCH_NS n).aWr R.FLK_ANCH_FRAME k).backShadow no R.FLK_ANCH_NS n).backShadow no R.FLK_ANCH_FRAME k

/-- A new rate, taken by commit `no`, applies at frame k: fade time continues from its value there, and the schedule is
re-anchored. -/
def State.setRate (s : State) (no : Nat) (k : Word) (n d : Nat) : State :=
  if n = s.rateN ∧ d = s.rateD then s
  else
    let t := s.baseFade k
    let s := { s with fadeFc := k, fadeTc := t,
                      host := if s.showState = RUNNING then { s.host with runT := s.showFade k, runFrame := k } else s.host }
    ((s.reAnchor no k).aWr R.FLK_RATE_N (Word.ofNat n)).aWr R.FLK_RATE_D (Word.ofNat d)

/-- A new trim applies at frame k. -/
def State.setTrim (s : State) (no : Nat) (k w : Word) : State :=
  if w = s.aRd R.FLK_TRIM then s else (s.reAnchor no k).aWr R.FLK_TRIM w

/-- The checks of R181 and R183 on the values a commit took. -/
def State.flkCheck (s : State) (x : Commit) : Nat :=
  if !rateOk (x.fld R.FLK_RATE_N 23 0) (x.fld R.FLK_RATE_D 7 0) then E_ARG
  else if bitOf (x.rd R.FLK_CTRL) 0 && !s.flkEn then
    let d := (x.rd R.FLK_ANCH_NS - s.tsuNs).toNat
    if 1000000 ≤ d ∧ d ≤ 2000000000 then OK else E_ARG
  else OK

/-- Frames begin to run (R183): FLK_COMMITTED becomes k_A − 1. -/
def State.flkEnabled (s : State) : State :=
  { s.wr R.FLK_COMMITTED (s.aRd R.FLK_ANCH_FRAME - 1) with
    flkFired := false, flkNext := none, lateNoted := none, sealed := none, relTaken := none }

/-- An accepted commit is applied while no frames run: whole, its rate too (R199). -/
def State.flkApplyIdle (s : State) (x : Commit) : State :=
  let was := s.flkEn
  let s : State := { s.applyCommit x with flkNo := x.no, ratePend := none }
  if s.flkEn ∧ !was then s.flkEnabled else s

/-- FLK_COMMIT_APPLY: the commit is checked; with no frames running it is applied at the fourth tick, and so is one that
the last frame start left waiting; otherwise it waits for its frame start (R199). -/
def execFlkCommitApply (s : State) : Res :=
  .next (
    let idle := fun (s : State) => if s.flkEn then s else (s.waiting R.FLK_COMMIT).foldl State.flkApplyIdle s
    let s := idle s
    match s.unchecked R.FLK_COMMIT with
    | none => s
    | some x => idle (s.commitChecked x (s.flkCheck x)))

/-- A commit is applied at frame start k, but for its rate, which waits for FLK_RCHG.at_frame and replaces one that waits
already (R198; assumption 58). -/
def State.flkApplyAt (k : Word) (s : State) (x : Commit) : State :=
  let n := x.fld R.FLK_RATE_N 23 0
  let d := x.fld R.FLK_RATE_D 7 0
  let t := (((s.applyVals x).aWr R.FLK_RATE_N (s.aRd R.FLK_RATE_N)).aWr R.FLK_RATE_D (s.aRd R.FLK_RATE_D)).aWr R.FLK_TRIM
    (s.aRd R.FLK_TRIM)
  { (t.commitDone x).setTrim x.no k (x.rd R.FLK_TRIM) with
    flkNo := x.no, ratePend := if n = s.rateN ∧ d = s.rateD then none else some (n, d, x.rd R.FLK_RCHG, x.no) }

/-- At frame start k every commit that has waited at least 400 TBC cycles applies (R199); a rate whose frame has come
applies, and one that missed it is recorded (R198). FLK_COMMIT.pending clears with the commit, also while its rate still
waits for FLK_RCHG.at_frame (R517 is silent; DESIGN CHOICE, assumption 58). -/
def State.flkAtFrame (s : State) (k : Word) : State :=
  let s := ((s.waiting R.FLK_COMMIT).filter fun x => decide (400 ≤ s.now - x.at_)).foldl (State.flkApplyAt k) s
  match s.ratePend with
  | some (n, d, a, no) =>
    let late := sdiff k a
    if late < 0 then s
    else
      let s := { s.setRate no k n d with ratePend := none }
      if 0 < late then s.log 0x0025 1 k.toNat else s
  | none => s

/-- The FSYNC_OUT edge of a frame start, when enabled (R186 step 2). -/
def State.fsyncEdge (s : State) : State := if s.aBit R.FLK_CTRL 2 then { s with fsyncAt := some s.now } else s
/-- The level of FSYNC_OUT: active for out_width ticks from its edge, at the polarity in force. -/
def State.fsyncOut (s : State) : Bool :=
  let on := match s.fsyncAt with
    | some t => s.aBit R.FLK_CTRL 2 && decide (s.now - t < s.aFld R.FLK_FSYNC 14 0)
    | none => false
  on != s.aBit R.FLK_FSYNC 15

/-! ### Frame starts (R183, R186, R191, R196, R197) -/

/-- FRAME_LAG raised or cleared, with BGT_STATUS (R197). -/
def State.setLag (s : State) (b : Bool) : State :=
  if s.bit R.FLK_STATUS 1 = b then s
  else ((s.setF R.FLK_STATUS 1 1 (b2n b)).setF R.BGT_STATUS 0 0 (b2n b)).irq 0x00B

/-- Seal frames up to and including k, unless the seal is held (R187, R463, R490). -/
def State.sealTo (s : State) (k : Word) : State :=
  let k := match s.sealHold with
    | some h => if 0 ≤ sdiff k h then h - 1 else k
    | none => k
  match s.sealed with
  | some x => if 0 < sdiff k x then { s with sealed := some k } else s
  | none => { s with sealed := some k }

/-- A swap has ended with a status: PAIR_SWAPRES, and the response to the command that asked (R486). -/
def State.swapEnd (s : State) (st : Nat) : State :=
  match s.pair.swap with
  | none => s
  | some x =>
    let s := (s.setPairEng { s.pair with swap := none, retryAt := if st = OK then 0 else if x.auto then s.now + 60 * 400000000 else s.pair.retryAt }).setF
      R.PAIR_STAT 1 1 0
    match x.req with
    | some r => if (s.session? r.sid).isSome then s.respond r st [] else s
    | none => if s.fld R.PAIR_SWAPRES 31 31 = 1 then s else s.wr R.PAIR_SWAPRES (Word.ofNat (2 ^ 31 + st))

/-- The pair-role change that was set for frame a takes effect: a swap begins its check window, a swap back is recorded
(R486, R488). -/
def State.roleTurn (s : State) (r : Nat) (a : Word) : State :=
  let swapped := match s.pair.swap with
    | some x => x.accepted && x.at_ == a
    | none => false
  let back := s.pair.back
  let s := { s.setPairEng { s.pair with back := false } with roleAt := none }.setRole r
  let s := if back then s.log 0x0056 2 a.toNat else s
  if swapped then
    let s := ((s.log 0x0055 0 a.toNat r).bump R.PAIR_CNT 15 0).setF R.PAIR_STAT 6 6 1
    (s.setPairEng { s.pair with checkFrom := s.now }).swapEnd OK
  else s

/-- A pair-role change at frame a: at once while no frames run. -/
def State.roleOn (s : State) (r : Nat) (a : Word) : State :=
  if s.flkEn then { s with roleAt := some (r, a) } else s.roleTurn r a

/-- The show transition and the pair-role change that wait for frame k (R200, R479). -/
def State.frameTransitions (s : State) (k : Word) : State :=
  let s := s.showTurn k s.host.showAt
  match s.roleAt with
  | some (r, a) => if 0 ≤ sdiff k a then s.roleTurn r a else s
  | none => s

/-- Frame start k with scheduled time S (R186): the counters of FLK, the seal, the outputs, the tasks it wakes and the
swaps that wait for it (R36). The first after an enable counts as taking frame k − 1, but the outputs keep the state they have (R183). -/
def State.frameStart (s : State) (k st : Word) (trim : Word) : State :=
  let first := !s.flkFired
  let old := s.phase
  let s := (s.flkAtFrame k).fsyncEdge
  let s := if s.isMaster then s else s.setTrim s.flkNo k trim
  let phi := (max 0 (sdiff st (s.nominal k))).toNat
  let backlog := min 15 (phi / s.pInt)
  let inPhase := decide (phi ≤ s.aFld R.FLK_SHORTEN 31 16 * 1000)
  let s := if first then s else s.wr R.FLK_PERIOD (st - s.flkS)
  let s := (s.wr R.FLK_PHASE (Word.ofNat phi)).wr R.FLK_FRAME k
  let s := (s.setF R.FLK_STATUS 7 4 backlog).setF R.FLK_STATUS 0 0 (b2n inPhase)
  let s := if !first ∧ phi < old then s.bump R.FLK_SHORTCNT 31 0 else s
  let next := match s.flkNext with
    | some x => if 0 < sdiff x.1 k then some x else none
    | none => none
  let s := { s with flkFired := true, flkS := st, flkNext := next }
  let s := match s.upd.hold with
    | some a => if k = a + 1 then { s.wr R.UPD_PAUSE (Word.ofNat (phi / 1000)) with upd := { s.upd with hold := none } } else s
    | none => s
  let s := s.updatePmin.notePmin
  let s := if s.isMaster then
      (if s.lagMax * s.pInt < phi ∧ !s.bit R.FLK_STATUS 1 then (s.setLag true).log 0x0021 2 k.toNat backlog
       else if inPhase then s.setLag false else s)
    else s
  let s := (s.frameTransitions k)
  let s := s.digestAt.snapHold k
  let s := if s.aBit R.FLK_CTRL 1 ∧ s.showState ≠ FAULTED then s.sealTo k else s
  let take := !first && decide (0 ≤ sdiff s.committed (k - 1))
  let s := if take then { s with outTaken := k - 1 } else s
  let s := if first || take then { s with relTaken := some (k - 1) } else s
  let s := if first then s.setPairEng { s.pair with made := some (k - 1) } else s
  let s := (((s.outputsAt k st take).kernelAt k first).inlogAt k).frameSwaps
  (s.irq 0x008).wakeFrames.fireEvent 0x308

/-- In catch-up the commit of k came before the announced target of frame k + 1, so that it fires there (R491). -/
def State.catchTarget (s : State) : Option (Word × Word × Bool) :=
  match s.flkNext with
  | some (k, target, trim, lag) =>
    if k = s.fnow + 1 ∧ s.committed = s.fnow ∧ sdiff s.committedNs target < 0 then some (target, trim, lag) else none
  | none => none

/-- FRAME_START: the announced start fires at the first tick at or past its target (R186). A package in catch-up fires
so only when its commit came before the target, and leaves catch-up (R491). -/
def execFrameStart (s : State) : Res :=
  .next (if !s.flkEn then s
    else if s.bit R.PAIR_STAT 7 then
      (match s.catchTarget with
      | some (target, trim, lag) =>
        if sdiff s.tsuNs target < 0 then s
        else
          let k := s.fnow + 1
          let s := (s.setF R.PAIR_STAT 7 7 0).setPairEng { s.pair with caughtFrom := some k, syncRun := 0 }
          (s.frameStart k target trim).setLag lag
      | none => s)
    else match s.flkNext with
      | some (k, target, trim, lag) =>
        if sdiff s.tsuNs target < 0 then s
        else
          let s' := s.frameStart k target trim
          if s.isMaster then s' else s'.setLag lag
      | none => s)

/-- CATCHUP_FRAME_START: in catch-up frame start k + 1 fires at the package's own commit of k (R491). -/
def execCatchupFrameStart (s : State) : Res :=
  .next (if !s.flkEn ∨ !s.bit R.PAIR_STAT 7 ∨ s.committed ≠ s.fnow ∨ s.catchTarget.isSome then s
    else s.frameStart (s.fnow + 1) s.tsuNs (s.aRd R.FLK_TRIM))

/-- FLK_SEAL_WRITE (R187). -/
def execFlkSealWrite (w : Word) (s : State) : Res := .next (s.sealTo w)

/-- A submission or task counts against frame k (R132, R187); one tagged 0xFFFF_FFFF is not frame work (R63). -/
def State.frameBusy (s : State) (k : Word) : Bool :=
  k != NO_FRAME &&
    ((s.tasks.any fun e => e.2.desc.tag = k && (match e.2.st with | .ended _ _ => false | _ => true))
      || (s.cals.any fun e => e.2.stalled.any fun q => q.desc.tag = k)
      || (s.vents.any fun e => match e.2.stall with
          | some (.spawn _ desc _) => (parseDesc desc).tag = k
          | _ => false)
      || s.gensBusy k)

/-- A notice of this package (R188). -/
def State.ownNotice (s : State) (k : Word) : Notice :=
  ⟨k, s.localE, (s.rd R.FLK_PMIN).toNat, s.fld R.PAIR_ROLE 2 0, s.tsuNs⟩

/-- FRAME_COMMIT: the frame after the last committed one commits when R187 allows, its frame work done (R207, R214, R226).
The tables that the kernels read then take the edits for later frames (R200). -/
def execFrameCommit (s : State) : Res :=
  let k := s.committed + 1
  .next (if !s.flkFired ∨ 0 < sdiff k s.fnow ∨ s.frameBusy k
      ∨ !(match s.sealed with | some x => decide (sdiff k x ≤ 0) | none => false) then s
    else
      let s := s.frameWork k
      let s := { s.wr R.FLK_COMMITTED k with committedNs := s.tsuNs }.updatePmin.snapAt k
      let n := s.ownNotice k
      let s := { s with notices := minsert (merase s.notices s.chnId) s.chnId n }.notePmin
      let body := leBytes 4 n.e.toNat ++ leBytes 4 n.pmin ++ [BitVec.ofNat 8 n.role, BitVec.ofNat 8 (s.fld R.TSU_SYNC 1 0), 0, 0]
      (((s.copiesAt k).chnSend 2 0xFF k body).irq 0x009).fireEvent 0x309)

/-- FRAME_ANNOUNCE: the master fixes the next start once it can, and announces it (R188, R189). The first start of an
enable is frame k_A at A (R183). -/
def execFrameAnnounce (s : State) : Res :=
  .next (if !s.flkEn ∨ !s.isMaster ∨ s.flkNext.isSome then s
    else
      let k := if s.flkFired then s.fnow + 1 else s.aRd R.FLK_ANCH_FRAME
      if s.flkFired ∧ !s.allNoticed s.fnow then s
      else
        let ns := if s.flkFired then s.noticesOf s.fnow else []
        let st := ns.foldl (fun t n => later (later t (n.at_ + Word.ofNat s.leadNs)) n.e)
          (if s.flkFired then s.sigma else s.aRd R.FLK_ANCH_NS)
        let trim := s.aRd R.FLK_TRIM
        let lag := s.bit R.FLK_STATUS 1
        let s := s.wr R.FLK_PMIN_CHAIN (Word.ofNat s.pminChain)
        let body := leBytes 4 st.toNat ++ leBytes 4 trim.toNat ++ [BitVec.ofNat 8 (b2n lag), 0, 0, 0]
        { s.chnSend 1 0xFF k body with flkNext := some (k, st, trim, lag) })

/-- LATE_DEADLINE: at σ − lead a notice is missing, or an E lies past σ (R193). -/
def execLateDeadline (s : State) : Res :=
  let k := s.fnow
  let sg := s.sigma
  .next (if !s.flkEn ∨ !s.isMaster ∨ !s.flkFired ∨ s.lateNoted = some k then s
    else if sdiff s.tsuNs (sg - Word.ofNat s.leadNs) < 0 then s
    else if s.allNoticed k ∧ !((s.noticesOf k).any fun n => decide (0 < sdiff n.e sg)) then s
    else (({ s with lateNoted := some k }.bump R.FLK_LATECNT 31 0).log 0x0020 1 k.toNat).irq 0x00A)

/-- FRAME_LAG: the next frame start is overdue by lag_max periods (R197). -/
def execFrameLag (s : State) : Res :=
  let k := s.fnow + 1
  let d := sdiff s.tsuNs (s.nominal k)
  .next (if !s.flkEn ∨ !s.isMaster ∨ !s.flkFired ∨ s.bit R.FLK_STATUS 1 ∨ d ≤ (s.lagMax * s.pInt : Nat) then s
    else (s.setLag true).log 0x0021 2 k.toNat (min 15 (d.toNat / s.pInt)))

/-- ORPHAN_FIRE: no announcement of frame k by N_k + lead (R190). -/
def execOrphanFire (s : State) : Res :=
  let k := if s.flkFired then s.fnow + 1 else s.aRd R.FLK_ANCH_FRAME
  let t := s.nominal k + Word.ofNat s.leadNs
  .next (if !s.flkEn ∨ s.isMaster ∨ s.flkNext.isSome ∨ s.bit R.PAIR_STAT 7 ∨ sdiff s.tsuNs t < 0 then s
    else ((s.setF R.FLK_STATUS 2 2 1).log 0x0023 2 k.toNat).frameStart k t (s.aRd R.FLK_TRIM))

/-! ### References (R184, R185) -/

/-- LTC_SYNC_WORD: the decoded timecode and its user bits. -/
def execLtcSyncWord (ltc user : Word) (s : State) : Res :=
  .next ((if s.clocksRun then (s.wr R.FLK_LTC (setFld ltc 31 31 1)).wr R.FLK_LTC_USER user else s).edgeL 0x00D)
/-- FSYNC_IN_EDGE: in SLEEP the Spring latch catches it, as the other references (R372). -/
def execFsyncInEdge (s : State) : Res := .next (s.edgeL 0x00C)
/-- WCLK_EVENT. -/
def execWclkEvent (s : State) : Res := .next (s.edgeL 0x00E)

end Sys2Proof.Machine
end

