-- ==== Sys2Proof/Machine/RateCmds.lean ====
section
/-!
DEFINITION. RATE_SET (R181, R198, R213, R301) and TIME_SOURCE (R184).
-/
namespace Sys2Proof.Machine
open Sys2Proof

/-- RATE_SET: payload bytes 0–3 N, 4–7 D. The firmware writes the rate and FLK_RCHG = A and commits. -/
def execRateSet (net : Bool) (s : State) : Res :=
  .next (s.hostDo net 0x002A anyPayload
    (fun s r =>
      let n := leAt r.payload 0 4
      let d := leAt r.payload 4 4
      firstErr [(r.payload.length != 8 || decide (0xFFFFFF < n) || decide (0xFF < d) || !rateOk n d, E_ARG),
        (s.editLate r.frame, E_LATE), (!s.tbl.pixelsOk r.frame n d, E_SPACE), (!s.packetsOk s.tbl r.frame n d, E_SPACE)])
    fun s r =>
      let s := s.setF R.FLK_RATE_N 23 0 (leAt r.payload 0 4)
      let s := s.setF R.FLK_RATE_D 7 0 (leAt r.payload 4 4)
      (s.wr R.FLK_RCHG r.frame).flkCommitWrite)

/-- TIME_SOURCE: payload byte 0 the reference, 0 to 5, and bytes 1 to 3 zero (assumption 8). -/
def execTimeSource (net : Bool) (s : State) : Res :=
  .next (s.hostDo net 0x0030 anyPayload
    (fun _ r => firstErr [(r.payload.length != 4 || !zeroBytes r.payload 1 4 || decide (5 < leAt r.payload 0 1), E_ARG)])
    fun s r => (s.setF R.FLK_CTRL 6 4 (leAt r.payload 0 1)).flkCommitWrite)

end Sys2Proof.Machine
end

