-- ==== Sys2Proof/Machine/Chain.lean ====
section
/-!
DEFINITION. The chain link (R468 to R477): messages, reception, forwarding, the receive ring, and what FLK and CHN do
with the messages they consume.
-/
namespace Sys2Proof.Machine
open Sys2Proof

/-! ### Messages (R471) -/

/-- A message as bytes: header m0 to m6, payload, pad and CRC-32C. -/
def ChnMsg.bytes (m : ChnMsg) : List Byte :=
  let n := m.body.length
  let d := (12 + n + 7) / 8
  let b := [BitVec.ofNat 8 m.typ, BitVec.ofNat 8 m.src, BitVec.ofNat 8 m.dst, BitVec.ofNat 8 m.ttl] ++ leBytes 2 d
    ++ [0] ++ leBytes 2 m.alive ++ leBytes 2 n ++ leBytes 4 m.frame.toNat ++ m.body
    ++ List.replicate (8 * d - 12 - n) 0
  b ++ leBytes 4 (crc32c b).toNat

/-- A message read from its bytes, if its CRC holds and D and n are consistent. -/
def chnParse (l : List Byte) : Option ChnMsg :=
  let d := leAt l 4 2
  let n := leAt l 9 2
  if l.length = 7 + 8 * d ∧ 1 ≤ d ∧ d ≤ 514 ∧ n ≤ 4096 ∧ d = (12 + n + 7) / 8
      ∧ leAt l (3 + 8 * d) 4 = (crc32c (l.take (3 + 8 * d))).toNat then
    some ⟨leAt l 0 1, leAt l 1 1, leAt l 2 1, leAt l 3 1, leAt l 7 2, Word.ofNat (leAt l 11 4), (l.drop 15).take n⟩
  else none

/-- Types that the chain carries (R473). -/
def chnType (t : Nat) : Bool := (1 ≤ t && t ≤ 7) || (0x10 ≤ t && t ≤ 0x1F)

/-! ### Reception (R472, R474) -/

abbrev CRX_OK : Nat := 0
abbrev CRX_CRC : Nat := 1
abbrev CRX_REPEAT : Nat := 2
abbrev CRX_LOST : Nat := 3
abbrev CRX_GAP : Nat := 4
abbrev CRX_FULL : Nat := 5
abbrev CRX_FORWARDED : Nat := 7
def State.chnCnt (s : State) (i : Nat) : State := s.bump (R.CHN_CNT i) 31 0

/-- What R474 makes of an alive counter: accepted, repeated, counters lost, a gap, out of step, and the new window. -/
structure RxVerdict where
  ok : Bool
  rep : Bool := false
  lost : Nat := 0
  gap : Bool := false
  skip : Bool := false               -- not the counter after the last one
  win : RxWin
  deriving DecidableEq, Repr

def rxCheck (gapMax : Nat) (x : Option RxWin) (alive : Nat) : RxVerdict :=
  match x with
  | none => { ok := true, win := ⟨alive, 1, 1⟩ }
  | some x =>
    let d := sext 16 (alive + 65536 - x.last)
    if 0 < d ∧ d ≤ gapMax then
      let n := d.toNat
      let left := ((List.range x.w).filter fun p => decide (64 ≤ p + n) && !x.mask.testBit p).length
      { ok := true, lost := left + (n - 64), skip := decide (n ≠ 1)
        win := ⟨alive, (x.mask * 2 ^ n + 1) % 2 ^ 64, min 64 (x.w + n)⟩ }
    else if -64 < d ∧ d ≤ 0 then
      let p := (-d).toNat
      if x.mask.testBit p then { ok := false, rep := true, win := x }
      else { ok := true, win := { x with mask := x.mask + 2 ^ p } }
    else { ok := true, gap := true, skip := true, win := ⟨alive, 1, 1⟩ }

/-- Whether a message comes from the partner. -/
def State.fromPartner (s : State) (m : ChnMsg) : Bool := s.pairEn && m.src == s.partner

/-- The partner is heard: a package that had lost it asks again for what it lacks (R480, R490). -/
def State.heard (s : State) (m : ChnMsg) : State :=
  if !s.fromPartner m then s
  else
    let was := s.pair.lost
    let s := (s.setPairEng { s.pair with heard := s.now, lost := false }).setF R.PAIR_STAT 3 3 0
    if was ∧ s.pairRole = 3 ∧ !s.bit R.PAIR_STAT 7 then s.sendRole 4 0 else s

/-- A message arrives whole on a port (R468, R470) and, if `want` says that this is the command for it, is checked by R472 and R474 and
handed to `f` with whether its counter was the next one. -/
def State.chnRecv (s : State) (west : Bool) (rx : ChainRx) (want : ChnMsg → Bool)
    (f : State → ChnMsg → Bool → State) : State :=
  if !s.chnEn ∨ !s.chnUp west ∨ rxMessage rx = none then s
  else match (rxMessage rx).bind chnParse with
    | none => s.chnCnt CRX_CRC
    | some m =>
      if !chnType m.typ then s.chnCnt CRX_CRC
      else if !want m ∨ m.src = s.chnId ∨ (m.dst ≠ s.chnId ∧ m.dst ≠ 0xFF) then s
      else
        let k := m.src * 256 + m.typ
        let v := rxCheck (s.fld R.CHN_CFG 15 4) ((s.chnWin.find? fun e => e.1 = k).map (·.2)) m.alive
        let s := { s with chnWin := minsert (merase s.chnWin k) k v.win }
        let s := s.addF (R.CHN_CNT CRX_LOST) 31 0 v.lost
        let s := if v.gap then s.chnCnt CRX_GAP else s
        if !v.ok then (s.chnCnt CRX_REPEAT).heard m
        else f ((s.chnCnt CRX_OK).heard m) m v.skip

/-- CHAIN_MESSAGE_FORWARD: out of the other port with one hop fewer, before the CRC is known; one that fails it, or that
was broken off, is ended with ABORT (R472). -/
def execChainMessageForward (west : Bool) (rx : ChainRx) (s : State) : Res :=
  let h := rxHeader rx
  .next (if !s.chnEn ∨ !s.chnUp west ∨ !s.chnUp (!west) ∨ h.length < 7 ∨ leAt h 1 1 = s.chnId ∨ leAt h 3 1 ≤ 1
      ∨ leAt h 2 1 = s.chnId then s
    else
      let m := ((rxMessage rx).bind chnParse).map fun (m : ChnMsg) => { m with ttl := m.ttl - 1 }
      { s with chnFwd := s.chnFwd ++ [(!west, m)], chnQ := s.chnQ ++ [ChnTx.mk (!west) 3 m] }.chnCnt CRX_FORWARDED)

/-! ### The ports (R469, R475) -/

/-- The blocks of a message at a port: one ended with ABORT is cut after its START. -/
def ChnTx.blocks (x : ChnTx) : List Block :=
  match x.msg with
  | some m => messageBlocks m.bytes
  | none => [abortBlock]
/-- The next message of a port: the first of the lowest class. -/
def State.chnNext (s : State) (west : Bool) : Option ChnTx :=
  let mine := s.chnQ.filter fun x => x.west == west
  [1, 2, 3, 4, 5, 6].findSome? fun c => mine.find? fun x => x.cls = c
/-- A port that is free at a block boundary begins its next message, which runs to its end at 1.28 ns a block (R468,
R475). -/
def State.chnPort (s : State) (west : Bool) : State :=
  match s.chnNext west with
  | none => s
  | some x =>
    if !s.chnUp west ∨ s.now < mget (fun _ => 0) s.chnTill (b2n west) then s
    else { s with
      chnQ := s.chnQ.erase x, chnLine := s.chnLine ++ [x]
      chnTill := mset (fun _ => 0) s.chnTill (b2n west) (s.now + ceilDiv (x.blocks.length * 128) 250) }
/-- What the chain ports do in a tick while LCK runs. -/
def State.chainTick (s : State) : State :=
  if s.chnQ.isEmpty ∨ !s.lckRuns then s else (s.chnPort false).chnPort true

/-- CHAIN_PORT_CHANGE: a port comes up or goes down (R469); what waits at a port that goes down is lost (assumption 61). -/
def execChainPortChange (west up : Bool) (s : State) : Res :=
  let b := if west then 5 else 4
  .next (if s.chnUp west = up ∨ (up ∧ (!s.chnEn ∨ s.strict ∨ !s.lckRuns)) then s
    else
      let s := s.setF R.CHN_STAT b b (b2n up)
      let s := if up then s else { s.chnCnt (if west then 9 else 8) with chnQ := s.chnQ.filter fun x => x.west != west }
      (s.log 0x0050 1 (b2n west) (b2n up)).irq 0x141)

/-! ### FLK's messages (R188, R190, R477, R491) -/

/-- CHAIN_ANNOUNCE. A package in catch-up only notes the target; an announcement of a frame that has started says
nothing new. -/
def execChainAnnounce (west : Bool) (rx : ChainRx) (s : State) : Res :=
  .next (s.chnRecv west rx (fun m => m.typ == 1) fun s m _ =>
    if m.src ≠ s.announcerId then s
    else
      let k := m.frame
      let target := Word.ofNat (leAt m.body 0 4)
      let trim := Word.ofNat (leAt m.body 4 4)
      let lag := leAt m.body 8 1 % 2 = 1
      let s := (s.setF R.CHN_STAT 3 0 m.src).setF R.FLK_STATUS 2 2 0
      if !s.flkEn ∨ (s.flkFired ∧ sdiff k s.fnow ≤ 0) then s
      else if s.bit R.PAIR_STAT 7 ∨ sdiff s.tsuNs target ≤ 0 then { s with flkNext := some (k, target, trim, lag) }
      else ((s.log 0x0022 1 k.toNat).frameStart k target trim).setLag lag)

/-- CHAIN_NOTICE. -/
def execChainNotice (west : Bool) (rx : ChainRx) (s : State) : Res :=
  .next (s.chnRecv west rx (fun m => m.typ == 2) fun s m _ =>
    let n : Notice := ⟨m.frame, Word.ofNat (leAt m.body 0 4), leAt m.body 4 4, leAt m.body 8 1, s.tsuNs⟩
    { s with notices := minsert (merase s.notices m.src) m.src n }.notePmin)

/-! ### STATUS (R473, R477, R480) -/

/-- CHAIN_STATUS_SEND: every 1 ms. -/
def execChainStatusSend (s : State) : Res :=
  .next (s.chnSend 5 0xFF NO_FRAME
    ([BitVec.ofNat 8 s.pairRole, BitVec.ofNat 8 s.showState, BitVec.ofNat 8 (s.fld R.TSU_SYNC 1 0),
      BitVec.ofNat 8 (s.partnerOf s.chnId)]
      ++ leBytes 4 s.committed.toNat ++ leBytes 4 (s.rd R.UPD_RENDER).toNat ++ uidBytes))

/-- What the partner's STATUS makes of this package's role: the survivor of a FAULTED PRIMARY, or the loser of a
split. -/
def State.partnerStatus (s : State) (p : Peer) : State :=
  let s := (s.setF R.PAIR_ROLE 18 16 p.role).setF R.PAIR_STAT 5 5 (b2n (p.renderId != s.rd R.UPD_RENDER))
  if s.pairRole = 2 ∧ p.role = 4 ∧ s.roleAt.isNone then s.roleOn 1 (s.fnow + 1)
  else if s.pairRole = 1 ∧ p.role = 1 ∧ !s.bit R.PAIR_STAT 6 ∧ s.partner < s.chnId then
    ((s.setF R.PAIR_STAT 4 4 1).log 0x0054 2 s.partner).setRole 3
  else s

/-- CHAIN_STATUS. A STATUS with this package's own ID is looked at for its UID before it is discarded. -/
def execChainStatus (west : Bool) (rx : ChainRx) (s : State) : Res :=
  .next (match s.chnEn && s.chnUp west, (rxMessage rx).bind chnParse with
    | true, some m =>
      if m.typ = 5 ∧ m.src = s.chnId then
        if (m.body.drop 12).take 16 ≠ uidBytes then
          (s.setF R.CHN_STAT 9 9 1).log 0x0051 2 m.src (leAt m.body 12 4)
        else s
      else s.chnRecv west rx (fun m => m.typ == 5) fun s m _ =>
        let p : Peer := {
          role := leAt m.body 0 1, show_ := leAt m.body 1 1, tsu := leAt m.body 2 1, partner := leAt m.body 3 1,
          committed := Word.ofNat (leAt m.body 4 4), renderId := Word.ofNat (leAt m.body 8 4),
          uid := (m.body.drop 12).take 16, heard := s.now }
        let s := { s with peers := minsert (merase s.peers m.src) m.src p }
        if s.fromPartner m then s.partnerStatus p else s
    | _, _ => s.chnRecv west rx (fun m => m.typ == 5) fun s _ _ => s)

/-! ### Firmware's messages (R476) -/

/-- Receive slots, and how many are free. -/
def State.chnSlots (s : State) : Nat := 2 ^ max 4 (min 12 (s.fld R.CHN_RXBUF_HI 19 16))
def State.chnFree (s : State) : Nat := s.chnSlots - s.chnUsed
abbrev M_CHN : Nat := 0x59

/-- CHAIN_USER: the body goes to the next receive slot, and its notice to CHN_RXQ.fifo. -/
def execChainUser (west : Bool) (rx : ChainRx) (s : State) : Res :=
  .next (s.chnRecv west rx (fun m => decide (0x10 ≤ m.typ)) fun s m _ =>
    if !s.bit R.CHN_RXQ 8 ∨ s.chnFree = 0 then s.chnCnt CRX_FULL
    else
      let slot := s.chnSlot % s.chnSlots
      let base := s.fld R.CHN_RXBUF_HI 7 0 * 2 ^ 32 + s.fld R.CHN_RXBUF_LO 31 12 * 4096
      let s := { s.hubWr hubReach M_CHN 0 (base + slot * 4096) m.body with
        chnSlot := (slot + 1) % s.chnSlots, chnUsed := s.chnUsed + 1 }
      let note := [BitVec.ofNat 8 m.src, BitVec.ofNat 8 m.typ, BitVec.ofNat 8 (b2n west), 0] ++ leBytes 2 m.alive
        ++ leBytes 2 m.body.length ++ leBytes 4 m.frame.toNat ++ leBytes 4 slot ++ leBytes 4 s.tsuNs.toNat
        ++ List.replicate 12 0
      s.hwPush (s.fld R.CHN_RXQ 7 0) M_CHN 0 32 (wordsOf note))

/-- CHN_RXREL_WRITE: slots are returned in order. -/
def execChnRxrelWrite (w : Word) (s : State) : Res := .next { s with chnUsed := s.chnUsed - fldOf w 12 0 }

/-- CHN_TXQ_SEND: the head entry of CHN_TXQ.fifo is sent once its body is read. An entry of another type or length, or
whose body lies outside the reach, is popped and not sent. -/
def execChnTxqSend (s : State) : Res :=
  let q := s.fld R.CHN_TXQ 7 0
  .next (if !s.chnEn ∨ !s.bit R.CHN_TXQ 8 ∨ !s.qCons q G_HW ∨ (s.fifo q).avail = 0 then s
    else
      let p := s.qPop q true
      let e := bytesOfWords p.2.1
      let a := leAt e 0 5
      let t := leAt e 5 1
      let n := leAt e 8 2
      let body := p.2.2.reachBytes a n
      if (t ≠ 7 ∧ !(0x10 ≤ t && t ≤ 0x1F)) ∨ 4096 < n then p.2.2
      else if body.length < n then p.2.2.busRange (a + body.length) 0 M_CHN 0
      else p.2.2.chnSend t (leAt e 6 1) (Word.ofNat (leAt e 12 4)) body 6)

end Sys2Proof.Machine
end

