-- ==== Sys2Proof/Machine/Session.lean ====
section
/-!
DEFINITION. Command frames (R383 to R387) and sessions (R388 to R390): the doorbell and UDP paths, the checks of R385,
responses and event frames.
-/
namespace Sys2Proof.Machine
open Sys2Proof

/-! ### Command frames (R383) -/

abbrev NO_SID : Word := 0
abbrev ANY_FRAME : Word := 0xFFFFFFFF

/-- A frame with its CRC: kind, alive, code, session, tag, frame, status, flags, payload. -/
def cmdFrame (kind alive code : Nat) (sid tag frame : Word) (status flags : Nat) (pl : List Byte) : List Byte :=
  let b := [0x50, 0x43, 0x01, BitVec.ofNat 8 kind] ++ leBytes 2 alive ++ leBytes 2 code ++ leBytes 4 sid.toNat
    ++ leBytes 4 tag.toNat ++ leBytes 4 frame.toNat ++ leBytes 2 pl.length
    ++ [BitVec.ofNat 8 status, BitVec.ofNat 8 flags] ++ pl
  b ++ leBytes 4 (crc32c b).toNat

/-- Step 1 of R385: the form of a request. -/
def cmdFormOk (f : List Byte) : Bool :=
  let n := leAt f 20 2
  decide (28 ≤ f.length) && decide (f.length ≤ 4096) && leAt f 0 2 == 0x4350 && leAt f 2 1 == 1 && leAt f 3 1 == 0
    && n % 4 == 0 && f.length == 28 + n && leAt f (24 + n) 4 == (crc32c (f.take (24 + n))).toNat

/-- Steps 4 to 6 of R385. -/
def State.cmdStatus (s : State) (code role : Nat) : Nat :=
  match cmdTable.find? fun e => e.1 = code with
  | none => E_ARG
  | some (_, low, _) => if role < low then E_AUTH else if s.cmdOpen code then OK else E_STATE

/-- A response built already waits to be delivered. -/
def State.respondRaw (s : State) (r : Request) (f : List Byte) : State :=
  s.setHost { s.host with resps := s.host.resps ++ [⟨r, 0, [], some f⟩] }

/-- A request passes steps 1 to 6 of R385 and waits to be executed. -/
def State.queueReq (s : State) (r : Request) : State := s.setHost { s.host with reqs := s.host.reqs ++ [r] }

/-- The session a request names, open on its path and, on the network, bound to its source (R385 step 2). -/
def State.boundSession (s : State) (r : Request) : Option Session :=
  match s.session? r.sid with
  | some x => if x.isOpen ∧ sidNet x.id = r.net ∧ (!r.net ∨ x.addr = r.addr) then some x else none
  | none => none

/-- The alive state word of a session's receive counter (R143, R385 step 3). -/
def State.aliveState (s : State) (x : Session) : Word :=
  Word.ofNat (x.rxLast + 15 * 65536 + s.fld R.HST_CFG 11 0 * 2 ^ 20)

/-- Steps 2 to 6 of R385 on a well-formed request with alive value `al`. -/
def State.admitReq (s : State) (r : Request) (al : Nat) : State :=
  if r.code = 0x0001 ∨ r.code = 0x0002 then
    if al ≠ 0 then s.respond r E_ARG [] else s.queueReq r
  else match s.boundSession r with
    | none => s.respond r E_AUTH []
    | some x =>
      let v := aliveCheck (s.aliveState x) (Word.ofNat al)
      if fldOf v.1 1 0 = 1 then
        let s := s.bump R.HST_CNT 15 0
        if x.lastResp.isEmpty then s else s.respondRaw r x.lastResp
      else
        let s := s.updSession r.sid fun x => { x with rxLast := fldOf v.2 15 0, since := s.now }
        let r := { r with gap := decide (fldOf v.1 1 0 ≠ 0) }
        let st := s.cmdStatus r.code x.role
        if st = OK then s.queueReq r
        else
          let s := if st = E_STATE then s.cmdErr r.code r.sid else s
          s.respond r st []

/-- A frame arrives on a path (R384, R385). -/
def State.cmdArrives (s : State) (net : Bool) (addr port : Nat) (f : List Byte) : State :=
  let r : Request := {
    net := net, addr := addr, port := port, code := leAt f 6 2, sid := Word.ofNat (leAt f 8 4),
    tag := Word.ofNat (leAt f 12 4), frame := Word.ofNat (leAt f 16 4), payload := (f.drop 24).take (leAt f 20 2) }
  if cmdFormOk f then s.admitReq r (leAt f 4 2)
  else
    let s := s.bump R.HST_CNT 31 16
    if net then s else s.respondRaw { net := false } (cmdFrame 1 0 0 0 0 0 E_CHECK 0 [])

/-! ### The two paths (R384) -/

/-- A host-port command is outstanding: it or its response waits, or it runs on for a session that is still open. -/
def State.hostBusy (s : State) : Bool :=
  let runs := fun (r : Request) => !r.net && (s.session? r.sid).isSome
  s.host.reqs.any (fun r => !r.net && !r.drop) || s.host.resps.any (fun x => !x.req.net)
    || s.upd.block.any runs || s.calib.run.any runs || s.pair.swap.any (fun x => x.req.any runs)

/-- The bytes of HST_CMDBUF. -/
def State.cmdBuf (s : State) (n : Nat) : List Byte :=
  (bytesOfWords ((List.range ((n + 3) / 4)).map fun i => s.rd (R.HST_CMDBUF i))).take n

/-- HOST_DOORBELL: the frame of the length written is copied; one written while a command is outstanding is ignored
and sets overrun. In Langal strict and with the hub's islands off the link is down (R4, R442). -/
def execHostDoorbell (w : Word) (s : State) : Res :=
  .next (if s.strict ∨ !s.clocksRun then s
    else if s.hostBusy then s.setF R.HST_RSP 30 30 1
    else (s.setF R.HST_RSP 31 31 0).cmdArrives false 0 0 (s.cmdBuf (min (fldOf w 12 0) 4096)))

/-- Pop the entries that hold one frame of the network FIFO (R285): its first entry gives its length. -/
def State.popFrame (s : State) (q : Nat) : Option (List Byte × State) :=
  let first := bytesOfWords (s.qHead q)
  let w := s.qWords q * 4
  let k := (8 + leAt first 0 2 + w - 1) / w
  if (s.fifo q).avail < max 1 k then none
  else
    let r := (List.range (max 1 k)).foldl (fun (a : List Byte × State) _ =>
      let x := a.2.qPop q true; (a.1 ++ bytesOfWords x.2.1, x.2.2)) ([], s)
    some (r.1.take (8 + leAt first 0 2), r.2)

/-- NET_COMMAND_FRAME: the firmware takes the next steered frame from FIFO HST_NET.fifo while no network request waits;
the frame counts if it is a UDP datagram to port HST_NET.port. -/
def execNetCommandFrame (s : State) : Res :=
  let q := s.fld R.HST_NET 7 0
  .next (if !s.bit R.HST_NET 8 ∨ !s.qCons q G_MGMT ∨ s.host.reqs.any (fun r => r.net && !r.drop) then s
    else match s.popFrame q with
      | none => s
      | some (b, s) =>
        let f := b.drop 8
        match frIp f, frUdp f with
        | some ip, some u =>
          if udpDport u = s.fld R.HST_NET 31 16 then
            s.cmdArrives true (ipSrc ip * 65536 + udpSport u) (leAt b 2 1) (udpPayload u)
          else s
        | _, _ => s)

/-- Take the oldest response of a path. -/
def takeResp (net : Bool) : List Response → Option (Response × List Response)
  | [] => none
  | r :: t => if r.req.net = net then some (r, t) else (takeResp net t).map fun x => (x.1, r :: x.2)

/-- Deliver a frame: HST_RSPBUF, HST_RSP and source 0x3F0 on the host port, a UDP datagram on the network (R384). -/
def State.deliverResp (s : State) (r : Request) (f : List Byte) : State :=
  if r.net then s.setHost { s.host with udpOut := some (r.addr, f) }
  else
    let s := ((wordsOf f).zip (List.range 1024)).foldl (fun (s : State) x => s.wr (R.HST_RSPBUF x.2) x.1) s
    ((s.setF R.HST_RSP 31 31 1).setF R.HST_RSP 12 0 f.length).irq 0x3F0

/-- COMMAND_RESPONSE: the oldest response of a path is sent. It advances the session's alive counter, but for
SESSION_OPEN and SESSION_AUTH (R386), and is kept for a repeat. -/
def execCommandResponse (net : Bool) (s : State) : Res :=
  .next (match takeResp net s.host.resps with
    | none => s
    | some (x, rest) =>
      let s := s.setHost { s.host with resps := rest }
      match x.raw with
      | some f => s.deliverResp x.req f
      | none =>
        let r := x.req
        let plain := r.code = 0x0001 || r.code = 0x0002
        let al := match s.session? r.sid with
          | some y => if plain ∨ !y.isOpen then 0 else (y.tx + 1) % 65536
          | none => 0
        let f := cmdFrame 1 al r.code r.sid r.tag r.frame x.status (b2n r.gap) x.payload
        let s := s.updSession r.sid fun y =>
          { y with tx := if plain ∨ !y.isOpen then y.tx else al, lastResp := f }
        s.deliverResp r f)

/-! ### Event frames (R387) -/

/-- The frame of a held event. -/
def eventFrame (x : Session) (e : HostEvent) : List Byte :=
  cmdFrame 2 ((x.tx + 1) % 65536) e.code x.id 0 e.frame 0 0 (leBytes 4 e.data.toNat)

/-- Send the oldest held event of one session, where its path has room. -/
def State.sendEvent (s : State) (x : Session) : State :=
  match x.held with
  | [] => s
  | e :: t =>
    let q := s.fld R.HST_EVQ 7 0
    let f := eventFrame x e
    let sent := s.updSession x.id fun y => { y with held := t, tx := (y.tx + 1) % 65536 }
    if sidNet x.id then sent.setHost { sent.host with udpOut := some (x.addr, f) }
    else if s.bit R.HST_EVQ 8 && s.qProd q G_MGMT && s.qWords q == 16 && s.qReady q then sent.qAppend q (wordsOf f)
    else s
/-- The firmware sends each session its oldest held event. -/
def State.sendEvents (s : State) : State := s.host.sessions.foldl (fun (s : State) x => s.sendEvent x) s

/-! ### Sessions (R388 to R390) -/

/-- The status that refuses a session with this role and key, in the order of R388; OK if none does. -/
def State.openStatus (s : State) (net : Bool) (role key : Nat) (res : Bool) : Nat :=
  let cap := if net then 16 else 4
  let k : Nat × KeyRef × Bool :=
    if key = 4094 then (if s.lc = 0 then OK else E_ABSENT, keyFactory, false)
    else match s.keySlotOf key with
      | some (_, x) => (OK, ⟨x.mat, attrOf (hdrAttr x.hdr)⟩,
          hdrPgen x.hdr != s.gen (hdrParent x.hdr) || s.parentRetired (hdrParent x.hdr))
      | none => (E_ABSENT, keyDevice, false)
  firstErr [(role == 0 || decide (5 < role) || !res, E_ARG), (role == 5 && s.lc != 0, E_STATE), (s.lc == 4, E_STATE),
    (decide (cap ≤ (s.host.sessions.filter fun x => sidNet x.id == net).length), E_SPACE), (k.1 != OK, k.1),
    (k.2.2, E_ORPHAN),
    (!k.2.1.attr.usage.testBit U_MAC || !k.2.1.attr.admits s.lc 0 0 || !k.2.1.attr.roles.testBit (role - 1), E_ATTR)]

/-- The material of a session's key. -/
def State.sessionKey (s : State) (key : Nat) : List Byte :=
  if key = 4094 then keyFactory.mat
  else match s.keySlotOf key with
    | some (_, x) => x.mat
    | none => []

/-- The lowest free session slot of a path. -/
def State.freeSession (s : State) (net : Bool) : Nat :=
  ((List.range 16).find? fun n => !(s.host.sessions.any fun x => sidNet x.id == net && sidSlot x.id == n)).getD 0

/-- SESSION_OPEN (R388). -/
def execSessionOpen (net : Bool) (s : State) : Res :=
  .next (s.hostCmd net 0x0001 anyPayload fun s r =>
    let role := leAt r.payload 0 1
    let key := leAt r.payload 4 4
    let st := s.openStatus net role key (r.payload.length == 8 && zeroBytes r.payload 1 4)
    if st ≠ OK then (s, st, [])
    else
      let sid := Word.ofNat (b2n net * 2 ^ 28 + s.freeSession net * 2 ^ 24 + s.host.nextSeq % 2 ^ 24)
      let nonce := s.freeBytes 38 16
      let x : Session := {
        id := sid, role := role, key := key, nonce := nonce, since := s.now, addr := r.addr, port := r.port }
      let s := s.useFree
      (s.setHost { s.host with sessions := s.host.sessions ++ [x], nextSeq := s.host.nextSeq + 1 }, OK,
        leBytes 4 sid.toNat ++ nonce))

/-- SESSION_AUTH (R389): the HMAC under the key of the nonce, the role and the UID. -/
def execSessionAuth (net : Bool) (s : State) : Res :=
  .next (s.hostCmd net 0x0002 anyPayload fun s r =>
    match s.session? r.sid with
    | none => (s, E_AUTH, [])
    | some x =>
      if x.isOpen ∨ sidNet x.id ≠ net ∨ (net ∧ x.addr ≠ r.addr) then (s, E_AUTH, [])
      else if hmac (s.sessionKey x.key) (x.nonce ++ [BitVec.ofNat 8 x.role] ++ uidBytes) = r.payload then
        (s.updSession r.sid fun y => { y with isOpen := true, rxLast := 0, tx := 0, since := s.now }, OK, [])
      else
        (s.setHost { s.host with sessions := s.host.sessions.filter fun y => y.id ≠ r.sid }, E_CHECK, []))

/-- SESSION_CLOSE (R390): its own response is the last frame of the session. -/
def execSessionClose (net : Bool) (s : State) : Res :=
  .next (match takeReq net s.host.reqs with
    | some (r, rest) =>
      if r.code = 0x0003 then
        let s := s.setHost { s.host with reqs := rest }
        match s.session? r.sid with
        | some x =>
          (s.endSessions fun y => y.id = r.sid).respondRaw r
            (cmdFrame 1 ((x.tx + 1) % 65536) r.code r.sid r.tag r.frame OK (b2n r.gap) [])
        | none => s
      else s
    | none => s)

/-- Ticks in a second (assumption 1). -/
abbrev TICKS : Nat := 400000000

/-- SESSION_AUTH_TIMEOUT: 10 s after its open, a pending session is freed (R389). -/
def execSessionAuthTimeout (sid : Word) (s : State) : Res :=
  .next (s.endSessions fun x => x.id = sid && !x.isOpen && decide (x.since + 10 * TICKS ≤ s.now))
/-- SESSION_IDLE_TIMEOUT: idle_s seconds without a request that passes step 3 (R390). -/
def execSessionIdleTimeout (sid : Word) (s : State) : Res :=
  .next (s.endSessions fun x =>
    x.id = sid && x.isOpen && decide (x.since + max 1 (s.fld R.HST_CFG 31 16) * TICKS ≤ s.now))

/-- STATUS: the show state, FLK_FRAME, FLK_COMMITTED and the records made. -/
def execStatus (net : Bool) (s : State) : Res :=
  .next (s.hostCmd net 0x0004 anyPayload fun s _ =>
    (s, OK, leBytes 4 s.showState ++ leBytes 4 s.fnow.toNat ++ leBytes 4 s.committed.toNat
      ++ leBytes 4 (s.rd R.FLT_NEXT).toNat))
/-- IDENTIFY: SYS_ID, the UID and the ordering code. -/
def execIdentify (net : Bool) (s : State) : Res :=
  .next (s.hostCmd net 0x0005 anyPayload fun s _ =>
    (s, OK, leBytes 4 (s.rd R.SYS_ID).toNat ++ uidBytes ++ orderCode))

end Sys2Proof.Machine
end

