-- ==== Sys2Proof/Machine/Show.lean ====
section
/-!
DEFINITION. The show state machine (R391, R392): the commands that move it, and what SHOW_UNLOAD returns to reset.
-/
namespace Sys2Proof.Machine
open Sys2Proof

/-- The registers of a block return to their reset values: both copies, and what a commit has taken. -/
def State.resetRegs (s : State) (lo hi : Nat) : State :=
  { s with
    regs := mdropRange s.regs lo hi, act := mdropRange s.act lo hi, taken := mdropRange s.taken lo hi
    commits := s.commits.filter fun x => !(decide (lo ≤ x.reg) && decide (x.reg < hi)) }
def State.resetBlock (s : State) (base : Nat) : State := s.resetRegs base (base + 0x10000)

/-- UNV, DMX, SPD and the tile lanes return to their reset states (R392). -/
def State.resetOutputs (s : State) : State :=
  let s := (((s.resetBlock 0x30000D0000).resetBlock 0x30000F0000).resetBlock 0x3000100000).resetBlock 0x3000120000
  { s with
    tileLanes := [], dramReqs := [], spd := [], spdAnch := (0, 0), spdNew := none, spdTick := none, spdOut := 0, spdPair := 0, dmx := [], unv := {} }

/-- No show tables are loaded, and no frame of the show holds a video store (R224). -/
def State.clearTables (s : State) : State :=
  { s with
    tbl := {}, bufs := [], vid := s.vid.map fun e => (e.1, { e.2 with selBy := none }), layerStore := [], lgvPrev := [], lgvD := [], outScale := [], slotWrites := [],
    copyWrites := [], gens := [], fadeFrames := [], layerTs := [] }

/-- No frame starts from now on: FLK_CTRL.en is 0, and no transition or commit that waits would start one (R391: IDLE and
LOADED have no frames). -/
def State.stopFrames (s : State) : State :=
  let s := (s.setF R.FLK_CTRL 0 0 0).aWr R.FLK_CTRL (setFld (s.aRd R.FLK_CTRL) 0 0 0)
  { s.setF R.FLK_COMMIT 31 31 0 with
    flkNext := none, commits := s.commits.filter (fun x => x.reg ≠ R.FLK_COMMIT), host := { s.host with showAt := [] } }

/-- A transition waits behind those of no later frame. -/
def showInsert (x : Nat × Nat × Word) : List (Nat × Nat × Word) → List (Nat × Nat × Word)
  | [] => [x]
  | y :: t => if 0 ≤ sdiff x.2.2 y.2.2 then y :: showInsert x t else x :: y :: t

/-- A transition that names frame A: it follows R200, and applies at frame start A. -/
def State.showCmd (s : State) (net : Bool) (code st : Nat) (f : State → Word → State) : State :=
  s.hostDo net code anyPayload (fun s r => firstErr [(s.editLate r.frame, E_LATE)])
    fun s r => f (s.setHost { s.host with showAt := showInsert (code, st, r.frame) s.host.showAt }) r.frame

/-- The frame clock runs from frame A: with frames stopped, the firmware commits the enable with an anchor from 1 ms to
2 s ahead (R183). -/
def State.runFramesFrom (s : State) (a : Word) : State :=
  if s.flkEn then s
  else
    let ns := s.tsuNs + Word.ofNat (2000000 + s.free 39 1000000000)
    (((s.useFree.shadowWr R.FLK_ANCH_FRAME a).shadowWr R.FLK_ANCH_NS ns).setF R.FLK_CTRL 0 0 1).flkCommitWrite

/-- SHOW_LOAD (R392). -/
def execShowLoad (net : Bool) (s : State) : Res :=
  .next (s.hostDo net 0x0010 anyPayload (fun _ _ => OK) fun s _ => s.setShow LOADED ANY_FRAME)
/-- SHOW_ARM at A: the frame clock runs from A. -/
def execShowArm (net : Bool) (s : State) : Res := .next (s.showCmd net 0x0011 ARMED State.runFramesFrom)
/-- SHOW_GO at A. -/
def execShowGo (net : Bool) (s : State) : Res := .next (s.showCmd net 0x0012 RUNNING fun s _ => s)
/-- SHOW_HOLD at A. -/
def execShowHold (net : Bool) (s : State) : Res := .next (s.showCmd net 0x0013 HELD fun s _ => s)
/-- SHOW_RESUME at A. -/
def execShowResume (net : Bool) (s : State) : Res := .next (s.showCmd net 0x0014 RUNNING fun s _ => s)
/-- SHOW_STOP at A: A − 1 is the last frame. -/
def execShowStop (net : Bool) (s : State) : Res := .next (s.showCmd net 0x0015 LOADED fun s _ => s)
/-- SHOW_UNLOAD; it sets every P_g to 0 (R419). -/
def execShowUnload (net : Bool) (s : State) : Res :=
  .next (s.hostDo net 0x0016 anyPayload (fun _ _ => OK)
    fun s _ =>
      let s := (s.stopFrames.resetOutputs).clearTables
      ((List.range 64).foldl (fun (s : State) g => s.wr (R.NRG_ZPWR g) 0) s).setShow IDLE ANY_FRAME)
/-- FAULT_CLEAR: FAULTED to LOADED, and a FAULTED package of a pair to SYNCING (R479). -/
def execFaultClear (net : Bool) (s : State) : Res :=
  .next (s.hostDo net 0x0017 anyPayload (fun _ _ => OK)
    fun s _ =>
      let s := s.stopFrames.setShow LOADED ANY_FRAME
      if s.fld R.PAIR_ROLE 2 0 = 4 then s.setRole 3 else s)

end Sys2Proof.Machine
end

