-- ==== Sys2Proof/Machine/HostPort.lean ====
section
/-!
DEFINITION. The PCIe function (R378), the DRAM aperture (R379) and the bushel port: windows (R380, R381) and burst
channels (R382).
-/
namespace Sys2Proof.Machine
open Sys2Proof

abbrev OBSERVER : Nat := 1
abbrev OPERATOR : Nat := 2
abbrev ENGINEER : Nat := 3
abbrev CUSTODIAN : Nat := 4

/-- Bushel reach: DRAM and crater scratch (R41). -/
def bushelReach (a : Nat) : Bool := inDram a || inScratch a

/-! ### The function (R378, R373) -/

/-- A burst ends: its result, and source 0x147 (R382). -/
def State.burstEnd (s : State) (c st count : Nat) : State :=
  let s := s.setHost { s.host with bursts := mset (fun _ => none) s.host.bursts c none }
  ((s.wr (R.BSH_B_RES c) (Word.ofNat (2 ^ 31 + st))).wr (R.BSH_B_COUNT c) (Word.ofNat count)).irq 0x147

/-- PCIE_RESET (R378). A burst's bytes move as it ends, so one in flight has moved none. -/
def execPcieReset (s : State) : Res :=
  let show_ := s.showState
  let running := (List.range 4).filter fun c => (mget (fun _ => none) s.host.bursts c).isSome
  let s := s.endSessions fun x => !sidNet x.id
  let s := ((s.resetBlock 0x3000070000).resetBlock 0x3000080000).setF R.HST_STATE 2 0 show_
  let s := running.foldl (fun (s : State) c => s.burstEnd c E_FAULT 0) s
  let s := s.setHost { s.host with
    reqs := s.host.reqs.map fun r => if r.net then r else { r with drop := true },
    resps := s.host.resps.filter fun x => x.req.net, winDone := [], msixEn := false, msixMask := [], msixWords := [] }
  .next (s.epochBump PARTY_HOST)

/-- PCIE_LINK_CHANGE: the link rises, with MSI-X enabled or not by the host, or falls. Messages that waited are sent
(R373). In Langal strict the link is held down (R374), and with the hub's islands off it is down (R442). -/
def execPcieLinkChange (up msix : Bool) (s : State) : Res :=
  .next (if up then
      if s.strict ∨ !s.clocksRun then s
      else
        let s := s.setHost { s.host with linkUp := true, msixEn := msix }
        match (s.target 10).dlv with
        | some n => s.claimHost n
        | none => s
    else s.setHost { s.host with linkUp := false })

/-! ### The DRAM aperture (R379) -/

/-- HST_APER_WRITE: a base above 28 is stored as 28. -/
def execHstAperWrite (w : Word) (s : State) : Res := .next (s.setF R.HST_APER 4 0 (min 28 (fldOf w 4 0)))

/-- DRAM_APERTURE_ACCESS: a BAR4 write of bytes, or a read of `len`. In recovery no session can be open, and ROM takes the
host's images through BAR4 (R459). In Langal strict the link is down (R4). -/
def execDramApertureAccess (off : Nat) (data : Option (List Byte)) (len : Nat) (s : State) : Res :=
  let a := s.fld R.HST_APER 4 0 * 2 ^ 30 + off % 2 ^ 32
  .next (if s.strict ∨ !s.clocksRun then s else match data with
    | some l => if s.hostLevel < OPERATOR ∧ !s.upd.recovery then s.busRange a 1 0x03 0 else s.wrBytes a (l.take (2 ^ 32 - off % 2 ^ 32))
    | none =>
      if s.hostLevel < OBSERVER ∧ !s.upd.recovery then
        let s := s.busRange a 0 0x03 0
        s.setHost { s.host with barRead := List.replicate len 0 }
      else s.setHost { s.host with barRead := s.rdBytes a (min len (2 ^ 32 - off % 2 ^ 32)) })

/-! ### Windows (R380, R381) -/

def State.winMode (s : State) (w : Nat) : Nat := s.fld (R.BSH_W_CFG w) 1 0
def State.winRow (s : State) (w : Nat) : Nat := s.fld (R.BSH_W_ROW w) 16 0
def State.winBase (s : State) (w : Nat) : Nat := s.fld (R.BSH_W_BASE_HI w) 7 0 * 2 ^ 32 + s.fld (R.BSH_W_BASE_LO w) 31 0
def State.winArmed (s : State) (w : Nat) : Bool := s.bit (R.BSH_W_STAT w) 31
def State.winStop (s : State) (w : Nat) : Bool := s.bit (R.BSH_W_STAT w) 30

/-- The row suits the mode; a row of 0 suits none (R380). -/
def State.winOk (s : State) (w : Nat) : Bool :=
  let r := s.winRow w
  match s.winMode w with
  | 2 => r == 1 || r == 2 || r == 4 || r == 8
  | 3 => 1 ≤ r && r ≤ 65536
  | _ => r != 0

/-- BSH_WINDOW_ARM. -/
def execBshWindowArm (n : BitVec 3) (s : State) : Res :=
  let w := n.toNat
  .next (if s.winOk w then
      let s := s.setHost { s.host with winDone := mdropRange s.host.winDone (w * 65536) (w * 65536 + 65536) }
      ((s.wr (R.BSH_W_STAT w) 0x80000000).wr (R.BSH_W_COUNT w) 0).wr (R.BSH_W_PTR w) 0
    else s.setF (R.BSH_W_STAT w) 7 0 E_ARG)

/-- BSH_WINDOW_DISARM. -/
def execBshWindowDisarm (n : BitVec 3) (s : State) : Res := .next (s.setF (R.BSH_W_STAT n.toNat) 31 31 0)

/-- Where byte o of an access lies: within the extent or not, and its device address (R380). -/
def State.winByte (s : State) (w o : Nat) : Bool × Nat :=
  let ext := s.fld (R.BSH_W_EXT w) 31 0
  if s.winMode w = 1 then
    let p := s.fld (R.BSH_W_PTR w) 31 0
    (decide (p < ext), (s.winBase w + p) % 2 ^ 40)
  else
    let row := max 1 (s.winRow w)
    let a := ((s.winBase w : Int) + (o / row : Nat) * (s.rd (R.BSH_W_STRIDE w)).toInt + (o % row : Nat)).emod (2 ^ 40 : Nat)
    (decide (o / row < ext), a.toNat)

/-- The window stops with a status (R381). -/
def State.winFail (s : State) (w st : Nat) : State := (s.setF (R.BSH_W_STAT w) 30 30 1).setF (R.BSH_W_STAT w) 7 0 st

/-- A byte is done: the pointer of mode 1 advances, and a byte not counted since the arm is counted. -/
def State.winCount (s : State) (w o : Nat) : State :=
  if s.winMode w = 1 then
    (s.wr (R.BSH_W_PTR w) (s.rd (R.BSH_W_PTR w) + 1)).wr (R.BSH_W_COUNT w) (s.rd (R.BSH_W_COUNT w) + 1)
  else if mget (fun _ => false) s.host.winDone (w * 65536 + o) then s
  else (s.setHost { s.host with winDone := mset (fun _ => false) s.host.winDone (w * 65536 + o) true }).wr
    (R.BSH_W_COUNT w) (s.rd (R.BSH_W_COUNT w) + 1)

/-- The bytes of an access in ascending order; a read collects its bytes in barRead, zero from the stop on. -/
def State.winMove (s : State) (w : Nat) (write : Bool) : Nat → List Byte → State
  | _, [] => s
  | o, b :: t =>
    let x := s.winByte w o
    let s' :=
      if s.winStop w then if write then s else s.setHost { s.host with barRead := s.host.barRead ++ [0] }
      else if !x.1 then
        let s := s.winFail w E_SPACE
        if write then s else s.setHost { s.host with barRead := s.host.barRead ++ [0] }
      else if !bushelReach x.2 then
        let s := (s.winFail w E_ABSENT).busRange x.2 (b2n write) 0x01 w
        if write then s else s.setHost { s.host with barRead := s.host.barRead ++ [0] }
      else if s.hostLevel < (if write then OPERATOR else OBSERVER) then
        let s := s.winFail w E_AUTH
        if write then s else s.setHost { s.host with barRead := s.host.barRead ++ [0] }
      else
        let s := if write then (s.wrB x.2 b).chkSnoop w b else s.setHost { s.host with barRead := s.host.barRead ++ [s.rdB x.2] }
        s.winCount w o
    s'.winMove w write (o + 1) t

/-- BSH_WINDOW_ACCESS: a BAR2 write of bytes, or a read of `len`, at an offset of the window. A window that is off or
disarmed is a reserved access, recorded as presented. -/
def execBshWindowAccess (n : BitVec 3) (off : Nat) (data : Option (List Byte)) (len : Nat) (s : State) : Res :=
  let w := n.toNat
  let o := off % 65536
  let bytes := match data with | some l => l | none => List.replicate len 0
  let s := if data.isSome then s else s.setHost { s.host with barRead := [] }
  .next (if s.strict ∨ !s.clocksRun then s else if !s.winArmed w ∨ s.winMode w = 0 then
      let s := s.busRangeRaw (w * 65536 + o) (b2n data.isSome) 0x01 w
      if data.isSome then s else s.setHost { s.host with barRead := bytes }
    else s.winMove w data.isSome o (bytes.take (65536 - o)))

/-! ### Burst channels (R382) -/

/-- BSH_BURST_GO. -/
def execBshBurstGo (c : BitVec 2) (s : State) : Res :=
  let n := c.toNat
  let dir := s.bit (R.BSH_B_ROWS n) 31
  let row := s.fld (R.BSH_B_ROW n) 16 0
  let rows := s.fld (R.BSH_B_ROWS n) 15 0
  .next (if (mget (fun _ => none) s.host.bursts n).isSome then s
    else if row = 0 ∨ 65536 < row ∨ rows = 0 then s.burstEnd n E_ARG 0
    else if s.hostLevel < (if dir then OBSERVER else OPERATOR) then s.burstEnd n E_AUTH 0
    else
      let b : Burst := {
        haddr := s.fld (R.BSH_B_HADDR_HI n) 31 0 * 2 ^ 32 + s.fld (R.BSH_B_HADDR_LO n) 31 0,
        daddr := s.fld (R.BSH_B_DADDR_HI n) 7 0 * 2 ^ 32 + s.fld (R.BSH_B_DADDR_LO n) 31 0,
        row := row, rows := rows, dir := dir,
        dstride := (s.rd (R.BSH_B_DSTRIDE n)).toInt, hstride := (s.rd (R.BSH_B_HSTRIDE n)).toInt }
      (s.setHost { s.host with bursts := mset (fun _ => none) s.host.bursts n (some b) }).setF (R.BSH_B_RES n) 31 31 0)

/-- Device address of byte i of a burst. -/
def Burst.dev (b : Burst) (i : Nat) : Nat :=
  (((b.daddr : Int) + (i / b.row : Nat) * b.dstride + (i % b.row : Nat)).emod (2 ^ 40 : Nat)).toNat
/-- Host address of the first byte of row r. -/
def Burst.hostRow (b : Burst) (r : Nat) : Nat := (((b.haddr : Int) + r * b.hstride).emod (2 ^ 64 : Nat)).toNat

/-- Bytes from i on of a burst from host to device: the status and the count done. -/
def State.burstIn (s : State) (b : Burst) (c bad : Nat) : Nat → List Byte → Nat × Nat × State
  | i, [] => (if i < b.row * b.rows then E_FAULT else OK, i, s)
  | i, x :: t =>
    if b.row * b.rows ≤ i then (OK, i, s)
    else if bad ≤ i then (E_FAULT, i, s)
    else if !bushelReach (b.dev i) then (E_ABSENT, i, s.busRange (b.dev i) 1 0x02 c)
    else (s.wrB (b.dev i) x).burstIn b c bad (i + 1) t

/-- How many bytes, up to n, from i on can be read from the device, and whether a byte outside reach stopped it. -/
def Burst.reach (b : Burst) : Nat → Nat → Nat × Bool
  | 0, i => (i, false)
  | n + 1, i => if bushelReach (b.dev i) then b.reach n (i + 1) else (i, true)

/-- The bytes that a burst to the host has written, row by row. -/
def State.burstRows (s : State) (b : Burst) (count : Nat) : List (Nat × List Byte) :=
  (List.range ((count + b.row - 1) / b.row)).map fun r =>
    (b.hostRow r, (List.range (min b.row (count - r * b.row))).map fun k => s.rdB (b.dev (r * b.row + k)))

/-- BSH_BURST_END: the burst's bytes move. `data` is what the host's memory gives a burst to the device; `bad` is the
first byte whose host request completes with UR, CA or poisoned data. -/
def execBshBurstEnd (c : BitVec 2) (data : List Byte) (bad : Option Nat) (s : State) : Res :=
  let n := c.toNat
  .next (match mget (fun _ => none) s.host.bursts n with
    | none => s
    | some b =>
      let total := b.row * b.rows
      let stop := min total (bad.getD total)
      if !b.dir then
        let r := s.burstIn b n (if bad.isSome then stop else total) 0 data
        r.2.2.burstEnd n r.1 r.2.1
      else
        let r := b.reach stop 0
        let s := s.setHost { s.host with burstOut := s.burstRows b r.1 }
        if r.2 then (s.busRange (b.dev r.1) 0 0x02 n).burstEnd n E_ABSENT r.1
        else s.burstEnd n (if r.1 < total then E_FAULT else OK) r.1)

end Sys2Proof.Machine
end

