-- ==== Sys2Proof/Machine/Vector.lean ====
section
/-!
DEFINITION. Vector arithmetic, comparisons and predicate logic (R95 to R98): each active lane is computed as the
scalar instruction it is named after.
-/
namespace Sys2Proof.Machine
open Sys2Proof

/-- vd.li = f(va.li, vb.li) on each active lane. -/
def vec3 (f : Word → Word → ResF) (n : VentNo) (vd va vb : VReg) (pm : PReg) (s : State) : Res :=
  .next (s.issue (.vent n) fun s =>
    s.laneResult n vd pm fun i => f (lane (s.vreg n.toNat va.toNat) i) (lane (s.vreg n.toNat vb.toNat) i))
/-- vd.li = f(vd.li, va.li, vb.li): the accumulating forms. -/
def vecAcc (f : Word → Word → Word → ResF) (n : VentNo) (vd va vb : VReg) (pm : PReg) (s : State) : Res :=
  .next (s.issue (.vent n) fun s =>
    s.laneResult n vd pm fun i => f (lane (s.vreg n.toNat vd.toNat) i) (lane (s.vreg n.toNat va.toNat) i)
      (lane (s.vreg n.toNat vb.toNat) i))
/-- vd.li = f(va.li). -/
def vec2 (f : Word → ResF) (n : VentNo) (vd va : VReg) (pm : PReg) (s : State) : Res :=
  .next (s.issue (.vent n) fun s => s.laneResult n vd pm fun i => f (lane (s.vreg n.toNat va.toNat) i))
/-- A comparison writes the whole predicate: bit i is 1 when lane i is active and the condition holds (R50, R97). -/
def vecCmp (f : Word → Word → ResF) (n : VentNo) (pd : PReg) (va vb : VReg) (pm : PReg) (s : State) : Res :=
  .next (s.issue (.vent n) fun s =>
    let r := fun i => f (lane (s.vreg n.toNat va.toNat) i) (lane (s.vreg n.toNat vb.toNat) i)
    let act := s.active n.toNat pm
    let bits := lanes.foldl (fun b i => if act i && (r i).1 != 0 then b + 2 ^ i else b) 0
    let fl := lanes.foldl (fun w i => if act i then w ||| (r i).2 else w) 0
    ((s.setP n.toNat pd.toNat (BitVec.ofNat 8 bits)).orFlags (.vent n) fl).retire (.vent n))

/-- VADD (R95). -/
def execVadd (n : VentNo) (vd va vb : VReg) (pm : PReg) (s : State) : Res := vec3 aluAdd n vd va vb pm s
/-- VSUB (R95). -/
def execVsub (n : VentNo) (vd va vb : VReg) (pm : PReg) (s : State) : Res := vec3 aluSub n vd va vb pm s
/-- VADDS (R95). -/
def execVadds (n : VentNo) (vd va vb : VReg) (pm : PReg) (s : State) : Res := vec3 aluAdds n vd va vb pm s
/-- VSUBS (R95). -/
def execVsubs (n : VentNo) (vd va vb : VReg) (pm : PReg) (s : State) : Res := vec3 aluSubs n vd va vb pm s
/-- VADDUS (R95). -/
def execVaddus (n : VentNo) (vd va vb : VReg) (pm : PReg) (s : State) : Res := vec3 aluAddus n vd va vb pm s
/-- VSUBUS (R95). -/
def execVsubus (n : VentNo) (vd va vb : VReg) (pm : PReg) (s : State) : Res := vec3 aluSubus n vd va vb pm s
/-- VAND (R95). -/
def execVand (n : VentNo) (vd va vb : VReg) (pm : PReg) (s : State) : Res := vec3 aluAnd n vd va vb pm s
/-- VOR (R95). -/
def execVor (n : VentNo) (vd va vb : VReg) (pm : PReg) (s : State) : Res := vec3 aluOr n vd va vb pm s
/-- VXOR (R95). -/
def execVxor (n : VentNo) (vd va vb : VReg) (pm : PReg) (s : State) : Res := vec3 aluXor n vd va vb pm s
/-- VANDN (R95). -/
def execVandn (n : VentNo) (vd va vb : VReg) (pm : PReg) (s : State) : Res := vec3 aluAndn n vd va vb pm s
/-- VSLL (R95). -/
def execVsll (n : VentNo) (vd va vb : VReg) (pm : PReg) (s : State) : Res := vec3 aluSll n vd va vb pm s
/-- VSRL (R95). -/
def execVsrl (n : VentNo) (vd va vb : VReg) (pm : PReg) (s : State) : Res := vec3 aluSrl n vd va vb pm s
/-- VSRA (R95). -/
def execVsra (n : VentNo) (vd va vb : VReg) (pm : PReg) (s : State) : Res := vec3 aluSra n vd va vb pm s
/-- VMIN (R95). -/
def execVmin (n : VentNo) (vd va vb : VReg) (pm : PReg) (s : State) : Res := vec3 aluMin n vd va vb pm s
/-- VMAX (R95). -/
def execVmax (n : VentNo) (vd va vb : VReg) (pm : PReg) (s : State) : Res := vec3 aluMax n vd va vb pm s
/-- VMINU (R95). -/
def execVminu (n : VentNo) (vd va vb : VReg) (pm : PReg) (s : State) : Res := vec3 aluMinu n vd va vb pm s
/-- VMAXU (R95). -/
def execVmaxu (n : VentNo) (vd va vb : VReg) (pm : PReg) (s : State) : Res := vec3 aluMaxu n vd va vb pm s
/-- VMUL (R95). -/
def execVmul (n : VentNo) (vd va vb : VReg) (pm : PReg) (s : State) : Res := vec3 aluMul n vd va vb pm s
/-- VMULHS (R95). -/
def execVmulhs (n : VentNo) (vd va vb : VReg) (pm : PReg) (s : State) : Res := vec3 aluMulhs n vd va vb pm s
/-- VMULHU (R95). -/
def execVmulhu (n : VentNo) (vd va vb : VReg) (pm : PReg) (s : State) : Res := vec3 aluMulhu n vd va vb pm s
/-- VADDX (R95). -/
def execVaddx (n : VentNo) (vd va vb : VReg) (pm : PReg) (s : State) : Res := vec3 aluAddx n vd va vb pm s
/-- VSUBX (R95). -/
def execVsubx (n : VentNo) (vd va vb : VReg) (pm : PReg) (s : State) : Res := vec3 aluSubx n vd va vb pm s
/-- VMULX (R95). -/
def execVmulx (n : VentNo) (vd va vb : VReg) (pm : PReg) (s : State) : Res := vec3 aluMulx n vd va vb pm s
/-- VADDL (R95). -/
def execVaddl (n : VentNo) (vd va vb : VReg) (pm : PReg) (s : State) : Res := vec3 aluAddl n vd va vb pm s
/-- VSUBL (R95). -/
def execVsubl (n : VentNo) (vd va vb : VReg) (pm : PReg) (s : State) : Res := vec3 aluSubl n vd va vb pm s
/-- VMULL (R95). -/
def execVmull (n : VentNo) (vd va vb : VReg) (pm : PReg) (s : State) : Res := vec3 aluMull n vd va vb pm s
/-- VMADD (R95). -/
def execVmadd (n : VentNo) (vd va vb : VReg) (pm : PReg) (s : State) : Res := vecAcc aluMadd n vd va vb pm s
/-- VMADDX (R95). -/
def execVmaddx (n : VentNo) (vd va vb : VReg) (pm : PReg) (s : State) : Res := vecAcc aluMaddx n vd va vb pm s
/-- VMADDL (R95). -/
def execVmaddl (n : VentNo) (vd va vb : VReg) (pm : PReg) (s : State) : Res := vecAcc aluMaddl n vd va vb pm s
/-- VSLLI (R95). -/
def execVslli (n : VentNo) (vd va : VReg) (pm : PReg) (k : BitVec 5) (s : State) : Res :=
  vec2 (fun x => aluSll x (Word.ofNat k.toNat)) n vd va pm s
/-- VSRLI (R95). -/
def execVsrli (n : VentNo) (vd va : VReg) (pm : PReg) (k : BitVec 5) (s : State) : Res :=
  vec2 (fun x => aluSrl x (Word.ofNat k.toNat)) n vd va pm s
/-- VSRAI (R95). -/
def execVsrai (n : VentNo) (vd va : VReg) (pm : PReg) (k : BitVec 5) (s : State) : Res :=
  vec2 (fun x => aluSra x (Word.ofNat k.toNat)) n vd va pm s
/-- VFADD (R96). -/
def execVfadd (n : VentNo) (vd va vb : VReg) (pm : PReg) (s : State) : Res := vec3 fAdd n vd va vb pm s
/-- VFSUB (R96). -/
def execVfsub (n : VentNo) (vd va vb : VReg) (pm : PReg) (s : State) : Res := vec3 fSub n vd va vb pm s
/-- VFMUL (R96). -/
def execVfmul (n : VentNo) (vd va vb : VReg) (pm : PReg) (s : State) : Res := vec3 fMul n vd va vb pm s
/-- VFMIN (R96). -/
def execVfmin (n : VentNo) (vd va vb : VReg) (pm : PReg) (s : State) : Res := vec3 fMin n vd va vb pm s
/-- VFMAX (R96). -/
def execVfmax (n : VentNo) (vd va vb : VReg) (pm : PReg) (s : State) : Res := vec3 fMax n vd va vb pm s
/-- VFDIV (R96). -/
def execVfdiv (n : VentNo) (vd va vb : VReg) (pm : PReg) (s : State) : Res := vec3 fDiv n vd va vb pm s
/-- VFMADD (R96). -/
def execVfmadd (n : VentNo) (vd va vb : VReg) (pm : PReg) (s : State) : Res := vecAcc fMadd n vd va vb pm s
/-- VFABS (R96). -/
def execVfabs (n : VentNo) (vd va : VReg) (pm : PReg) (s : State) : Res := vec2 fAbs n vd va pm s
/-- VFNEG (R96). -/
def execVfneg (n : VentNo) (vd va : VReg) (pm : PReg) (s : State) : Res := vec2 fNeg n vd va pm s
/-- VFSQRT (R96). -/
def execVfsqrt (n : VentNo) (vd va : VReg) (pm : PReg) (s : State) : Res := vec2 fSqrt n vd va pm s
/-- VCVT.S.W (R96). -/
def execVcvtSW (n : VentNo) (vd va : VReg) (pm : PReg) (s : State) : Res := vec2 fcvtSW n vd va pm s
/-- VCVT.W.S (R96). -/
def execVcvtWS (n : VentNo) (vd va : VReg) (pm : PReg) (s : State) : Res := vec2 fcvtWS n vd va pm s
/-- VCVT.S.X (R96). -/
def execVcvtSX (n : VentNo) (vd va : VReg) (pm : PReg) (s : State) : Res := vec2 fcvtSX n vd va pm s
/-- VCVT.X.S (R96). -/
def execVcvtXS (n : VentNo) (vd va : VReg) (pm : PReg) (s : State) : Res := vec2 fcvtXS n vd va pm s
/-- VCVT.S.L (R96). -/
def execVcvtSL (n : VentNo) (vd va : VReg) (pm : PReg) (s : State) : Res := vec2 fcvtSL n vd va pm s
/-- VCVT.L.S (R96). -/
def execVcvtLS (n : VentNo) (vd va : VReg) (pm : PReg) (s : State) : Res := vec2 fcvtLS n vd va pm s
/-- VCEQ (R97). -/
def execVceq (n : VentNo) (pd : PReg) (va vb : VReg) (pm : PReg) (s : State) : Res :=
  vecCmp (aluSeq) n pd va vb pm s
/-- VCNE (R97). -/
def execVcne (n : VentNo) (pd : PReg) (va vb : VReg) (pm : PReg) (s : State) : Res :=
  vecCmp (fun a b => plain (if a = b then 0 else 1)) n pd va vb pm s
/-- VCLT (R97). -/
def execVclt (n : VentNo) (pd : PReg) (va vb : VReg) (pm : PReg) (s : State) : Res :=
  vecCmp (aluSlt) n pd va vb pm s
/-- VCLE (R97). -/
def execVcle (n : VentNo) (pd : PReg) (va vb : VReg) (pm : PReg) (s : State) : Res :=
  vecCmp (fun a b => plain (if a.sle b then 1 else 0)) n pd va vb pm s
/-- VCLTU (R97). -/
def execVcltu (n : VentNo) (pd : PReg) (va vb : VReg) (pm : PReg) (s : State) : Res :=
  vecCmp (aluSltu) n pd va vb pm s
/-- VCLEU (R97). -/
def execVcleu (n : VentNo) (pd : PReg) (va vb : VReg) (pm : PReg) (s : State) : Res :=
  vecCmp (fun a b => plain (if a.ule b then 1 else 0)) n pd va vb pm s
/-- VFCEQ (R97). -/
def execVfceq (n : VentNo) (pd : PReg) (va vb : VReg) (pm : PReg) (s : State) : Res :=
  vecCmp (fEq) n pd va vb pm s
/-- VFCLT (R97). -/
def execVfclt (n : VentNo) (pd : PReg) (va vb : VReg) (pm : PReg) (s : State) : Res :=
  vecCmp (fLt) n pd va vb pm s
/-- VFCLE (R97). -/
def execVfcle (n : VentNo) (pd : PReg) (va vb : VReg) (pm : PReg) (s : State) : Res :=
  vecCmp (fLe) n pd va vb pm s

/-- Predicate logic acts on all eight bits (R98). -/
def predOp (f : Byte → Byte → Byte) (n : VentNo) (pd pa pb : PReg) (s : State) : Res :=
  .next (s.issue (.vent n) fun s =>
    (s.setP n.toNat pd.toNat (f (s.preg n.toNat pa.toNat) (s.preg n.toNat pb.toNat))).retire (.vent n))
/-- PAND (R98). -/
def execPand (n : VentNo) (pd pa pb : PReg) (s : State) : Res := predOp (fun a b => a &&& b) n pd pa pb s
/-- POR (R98). -/
def execPor (n : VentNo) (pd pa pb : PReg) (s : State) : Res := predOp (fun a b => a ||| b) n pd pa pb s
/-- PXOR (R98). -/
def execPxor (n : VentNo) (pd pa pb : PReg) (s : State) : Res := predOp (fun a b => a ^^^ b) n pd pa pb s
/-- PANDN (R98). -/
def execPandn (n : VentNo) (pd pa pb : PReg) (s : State) : Res := predOp (fun a b => a &&& ~~~b) n pd pa pb s
/-- PNOT (R98). -/
def execPnot (n : VentNo) (pd pa : PReg) (s : State) : Res := predOp (fun a _ => ~~~a) n pd pa pa s
/-- PFROMG: the low byte of g (R98). -/
def execPfromg (n : VentNo) (pd : PReg) (g : GReg) (s : State) : Res :=
  .next (s.issue (.vent n) fun s =>
    (s.setP n.toNat pd.toNat (BitVec.ofNat 8 (s.gv n.toNat g.toNat).toNat)).retire (.vent n))
/-- PTOG (R98). -/
def execPtog (n : VentNo) (g : GReg) (pa : PReg) (s : State) : Res :=
  .next (s.issue (.vent n) fun s => s.result (.vent n) g (plain (Word.ofNat (s.preg n.toNat pa.toNat).toNat)))
/-- PCNT (R98). -/
def execPcnt (n : VentNo) (g : GReg) (pa : PReg) (s : State) : Res :=
  .next (s.issue (.vent n) fun s =>
    s.result (.vent n) g (plain (Word.ofNat (popcount 8 (s.preg n.toNat pa.toNat).toNat))))

end Sys2Proof.Machine
end

