-- ==== Sys2Proof/Machine/Lanes.lean ====
section
/-!
DEFINITION. Lane moves and reductions (R99, R100). Predication gates only the destination lanes; source lanes are read
whatever pm holds.
-/
namespace Sys2Proof.Machine
open Sys2Proof

/-- VMOV: lane copy, or lane select under a predicate (R99). -/
def execVmov (n : VentNo) (vd va : VReg) (pm : PReg) (s : State) : Res := vec2 plain n vd va pm s
/-- VBCAST (R99). -/
def execVbcast (n : VentNo) (vd : VReg) (g : GReg) (pm : PReg) (s : State) : Res :=
  .next (s.issue (.vent n) fun s => s.laneResult n vd pm fun _ => plain (s.gv n.toNat g.toNat))
/-- VINS: one lane takes a scalar (R99). -/
def execVins (n : VentNo) (vd : VReg) (g : GReg) (lane : BitVec 3) (s : State) : Res :=
  .next (s.issue (.vent n) fun s =>
    (s.setV n.toNat vd.toNat ((s.vreg n.toNat vd.toNat).set lane.toNat (s.gv n.toNat g.toNat))).retire (.vent n))
/-- VEXT: a scalar takes one lane (R99). -/
def execVext (n : VentNo) (g : GReg) (va : VReg) (lane : BitVec 3) (s : State) : Res :=
  .next (s.issue (.vent n) fun s =>
    s.result (.vent n) g (plain (Machine.lane (s.vreg n.toNat va.toNat) lane.toNat)))
/-- VPERM: lane index from vb (R99). -/
def execVperm (n : VentNo) (vd va vb : VReg) (pm : PReg) (s : State) : Res :=
  .next (s.issue (.vent n) fun s =>
    s.laneResult n vd pm fun i =>
      plain (lane (s.vreg n.toNat va.toNat) ((lane (s.vreg n.toNat vb.toNat) i).toNat % 8)))
/-- VROT (R99). -/
def execVrot (n : VentNo) (vd va : VReg) (rot : BitVec 3) (pm : PReg) (s : State) : Res :=
  .next (s.issue (.vent n) fun s =>
    s.laneResult n vd pm fun i => plain (lane (s.vreg n.toNat va.toNat) ((i + rot.toNat) % 8)))

/-- The values of the active lanes of a register, in ascending order. -/
def State.activeLanes (s : State) (n : VentNo) (va : VReg) (pm : PReg) : List Word :=
  (lanes.filter (s.active n.toNat pm)).map (Sys2Proof.Machine.lane (s.vreg n.toNat va.toNat))

/-- A reduction over the active lanes, 0 when none is active (R100). -/
def reduce (f : Word → Word → ResF) (n : VentNo) (g : GReg) (va : VReg) (pm : PReg) (s : State) : Res :=
  .next (s.issue (.vent n) fun s =>
    s.result (.vent n) g (match s.activeLanes n va pm with
      | [] => plain 0
      | x :: t => t.foldl (fun (r : ResF) y => let q := f r.1 y; (q.1, r.2 ||| q.2)) (plain x)))

/-- VRADD (R100). -/
def execVradd (n : VentNo) (g : GReg) (va : VReg) (pm : PReg) (s : State) : Res := reduce aluAdd n g va pm s
/-- VRADDX: saturating after each step, in lane order (R100). -/
def execVraddx (n : VentNo) (g : GReg) (va : VReg) (pm : PReg) (s : State) : Res := reduce aluAddx n g va pm s
/-- VRMIN (R100). -/
def execVrmin (n : VentNo) (g : GReg) (va : VReg) (pm : PReg) (s : State) : Res := reduce aluMin n g va pm s
/-- VRMAX (R100). -/
def execVrmax (n : VentNo) (g : GReg) (va : VReg) (pm : PReg) (s : State) : Res := reduce aluMax n g va pm s
/-- VRMINU (R100). -/
def execVrminu (n : VentNo) (g : GReg) (va : VReg) (pm : PReg) (s : State) : Res := reduce aluMinu n g va pm s
/-- VRMAXU (R100). -/
def execVrmaxu (n : VentNo) (g : GReg) (va : VReg) (pm : PReg) (s : State) : Res := reduce aluMaxu n g va pm s

/-- A pairwise fp32 sum with the flags of all its steps. -/
def fAddF (a b : ResF) : ResF := let r := fAdd a.1 b.1; (r.1, a.2 ||| b.2 ||| r.2)
/-- VRFADD: the fixed tree of R100, inactive lanes as +0.0; 0 when no lane is active. -/
def execVrfadd (n : VentNo) (g : GReg) (va : VReg) (pm : PReg) (s : State) : Res :=
  .next (s.issue (.vent n) fun s =>
    let l := fun i => plain (if s.active n.toNat pm i then lane (s.vreg n.toNat va.toNat) i else 0)
    s.result (.vent n) g
      (if lanes.any (s.active n.toNat pm) then
        fAddF (fAddF (fAddF (l 0) (l 1)) (fAddF (l 2) (l 3))) (fAddF (fAddF (l 4) (l 5)) (fAddF (l 6) (l 7)))
       else plain 0))

end Sys2Proof.Machine
end

