-- ==== Sys2Proof/Machine/Pair.lean ====
section
/-!
DEFINITION. The pair (R479 to R491): configuration, digests, the self-check, role swaps, partner loss, resynchronisation
and the input log.
-/
namespace Sys2Proof.Machine
open Sys2Proof

/-! ### Configuration (R479) -/

/-- PAIR_CONFIG: the seven registers from the 28-byte payload; div_n and loss_frames store 0 as 1. -/
def execPairConfig (net : Bool) (s : State) : Res :=
  .next (s.hostDo net 0x0070 anyPayload
    (fun _ r =>
      let e := leAt r.payload 0 4 % 2048
      firstErr [(r.payload.length != 28 || (e != 0 && decide (e < 0x400)), E_ARG)])
    fun s r =>
      let w (i : Nat) : Word := Word.ofNat (leAt r.payload (4 * i) 4)
      let c := w 0 &&& 0xCFFF07FF
      let c := setFld (setFld c 23 20 (max 1 (fldOf c 23 20))) 19 16 (max 1 (fldOf c 19 16))
      let s := ((s.wr R.PAIR_CFG c).wr R.PAIR_IVAL (w 1)).wr R.PAIR_OWN_LANE (w 2)
      let s := s.wr R.PAIR_OWN_DMX (w 3 &&& 0xFFFFFF)
      let s := (List.range 3).foldl (fun (s : State) m => s.wr (R.PAIR_OWN_SPD m) (w (4 + m))) s
      if !bitOf c 31 then { s.swapEnd E_STATE with roleAt := none }.setRole 0
      else if s.pairRole = 0 then
        (s.setPairEng { s.pair with heard := s.now }).setRole (if bitOf c 30 then 1 else 3)
      else s)

/-! ### Digests (R484, R485) -/

/-- The factors and readings that a DIGEST brings from the sensors of the partner (R232, R277). -/
def State.takeFactors (s : State) (f : Word) (b : List Byte) : State :=
  let gm := leAt b 400 8
  let sm := leAt b 600 1
  let tf := ((List.range 64).filter gm.testBit).map fun g => (g, leAt b (408 + 3 * g) 3)
  let tp := ((List.range 8).filter sm.testBit).map fun k => (k, leAt b (604 + 2 * k) 2)
  { s with tfPair := setAll ONE16 s.tfPair tf, tfPairAt := some f, snsPair := setAll 0 s.snsPair tp }

/-- CHAIN_DIGEST. -/
def execChainDigest (west : Bool) (rx : ChainRx) (s : State) : Res :=
  .next (s.chnRecv west rx (fun m => m.typ == 3) fun s m _ =>
    if !s.fromPartner m then s
    else
      let f := Word.ofNat (leAt m.body 0 4)
      let s := s.takeFactors f m.body
      (s.setPairEng { s.pair with theirs := (f, m.body.take 400) :: s.pair.theirs.filter fun e => e.1 ≠ f }).digestCompare f)

/-- DIGEST_TIMEOUT: records of frames whose frame start F + 4 has come are dropped. -/
def execDigestTimeout (s : State) : Res :=
  let live := fun (e : Word × List Byte) => decide (sdiff s.fnow (e.1 + 4) < 0)
  .next (s.setPairEng { s.pair with own := s.pair.own.filter live, theirs := s.pair.theirs.filter live })

/-- SELF_CHECK_DONE: with the fault found, if any: kind and unit (R485). -/
def execSelfCheckDone (found : Option (Nat × Nat)) (s : State) : Res :=
  .next (if !s.bit R.SPA_STAT 31 then s
    else
      let s := s.setF R.SPA_STAT 31 31 0
      match found with
      | none => s.setF R.SPA_STAT 1 0 1
      | some (k, u) =>
        let s := (s.setF R.SPA_STAT 1 0 2).log 0x0057 3 k u
        if s.pairRole = 0 then s else s.setRole 4)

/-! ### Role swaps (R486 to R488) -/

/-- The status that refuses a swap at frame a. -/
def State.swapStatus (s : State) (a : Word) : Nat :=
  firstErr [(decide (sdiff a s.fnow < 4), E_LATE),
    (s.pairRole != 1 || s.fld R.PAIR_ROLE 18 16 != 2 || s.pair.swap.isSome || s.bit R.PAIR_STAT 6, E_STATE)]

/-- The PRIMARY proposes a swap at frame a. -/
def State.propose (s : State) (a : Word) (req : Option Request) (auto : Bool) : State :=
  ((s.setPairEng { s.pair with swap := some { at_ := a, req := req, auto := auto } }).setF R.PAIR_STAT 1 1 1).sendRole 1 a

/-- PAIR_SWAP: a refusal answers at once, and otherwise the response follows when the swap ends. -/
def execPairSwap (net : Bool) (s : State) : Res :=
  .next (s.takeCmd net 0x0071 anyPayload fun s r =>
    let st := s.swapStatus r.frame
    if st ≠ OK then s.respond r st [] else s.propose r.frame (some r) false)

/-- PAIR_SWAPGO. -/
def execPairSwapgo (s : State) : Res :=
  let a := s.rd R.PAIR_SWAP
  let st := s.swapStatus a
  .next (if st ≠ OK then s.wr R.PAIR_SWAPRES (Word.ofNat (2 ^ 31 + st))
    else (s.wr R.PAIR_SWAPRES 0).propose a none false)

/-- PAIR_AUTO_SWAP: interval_s seconds since the last role change; a proposal that cannot be made is retried after
60 s (R487). -/
def execPairAutoSwap (s : State) : Res :=
  let n := (s.rd R.PAIR_IVAL).toNat
  let a := s.fnow + 8
  .next (if n = 0 ∨ s.pairRole ≠ 1 ∨ s.pair.swap.isSome ∨ s.now < s.pair.roleTick + n * TICKS ∨ s.now < s.pair.retryAt then s
    else if s.swapStatus a ≠ OK then s.setPairEng { s.pair with retryAt := s.now + 60 * TICKS }
    else s.propose a none true)

/-- A ROLE message of one operation, from the partner, with its frame S. -/
def State.roleMsg (s : State) (west : Bool) (rx : ChainRx) (op : Nat) (f : State → Word → State) : State :=
  s.chnRecv west rx (fun m => m.typ == 4 && leAt m.body 0 1 == op) fun s m _ =>
    if s.fromPartner m then f s (Word.ofNat (leAt m.body 4 4)) else s

/-- ROLE_PROPOSE. With no frames running the swap takes effect as ACCEPT goes out. -/
def execRolePropose (west : Bool) (rx : ChainRx) (s : State) : Res :=
  .next (s.roleMsg west rx 1 fun s a =>
    if s.pairRole = 2 ∧ 16 ≤ s.fld R.PAIR_MATCH 31 16 then
      let s := s.sendRole 2 a
      let s := (s.setPairEng { s.pair with swap := some { at_ := a, accepted := true } }).setF R.PAIR_STAT 1 1 1
      s.roleOn 1 a
    else s.sendRole 3 a)

/-- ROLE_ACCEPT: in time before frame start S − 2. -/
def execRoleAccept (west : Bool) (rx : ChainRx) (s : State) : Res :=
  .next (s.roleMsg west rx 2 fun s a =>
    match s.pair.swap with
    | some x =>
      if s.pairRole = 1 ∧ x.at_ = a ∧ !x.accepted ∧ (!s.flkEn ∨ sdiff s.fnow (a - 2) < 0) then
        (s.setPairEng { s.pair with swap := some { x with accepted := true } }).roleOn 2 a
      else s
    | none => s)

/-- ROLE_REFUSE: the swap ends E_LATE. -/
def execRoleRefuse (west : Bool) (rx : ChainRx) (s : State) : Res :=
  .next (s.roleMsg west rx 3 fun s a =>
    match s.pair.swap with
    | some x => if s.pairRole = 1 ∧ x.at_ = a ∧ !x.accepted then s.swapEnd E_LATE else s
    | none => s)

/-- SWAP_LAPSE: the PRIMARY has no ACCEPT by frame start S − 2. Neither package changes its role (assumption 19). -/
def execSwapLapse (s : State) : Res :=
  .next (match s.pair.swap with
    | some x =>
      if sdiff s.fnow (x.at_ - 2) < 0 ∨ (s.pairRole = 1 ∧ x.accepted) then s
      else { s.swapEnd E_LATE with roleAt := if x.accepted then none else s.roleAt }
    | none => s)

/-- SWAP_CHECK_END: 1 s from a swap. A swap back that waits while no frames run takes effect. -/
def execSwapCheckEnd (s : State) : Res :=
  .next (match s.pair.back && !s.flkEn, s.roleAt with
    | true, some (r, a) => s.roleTurn r a
    | _, _ => if s.bit R.PAIR_STAT 6 ∧ s.pair.checkFrom + TICKS ≤ s.now then s.setF R.PAIR_STAT 6 6 0 else s)

/-- ROLE_SWAP_BACK: the package on check becomes FAULTED at frame start S′, and the other PRIMARY. Of two, the earlier
frame holds. -/
def execRoleSwapBack (west : Bool) (rx : ChainRx) (s : State) : Res :=
  .next (s.roleMsg west rx 5 fun s a =>
    if s.bit R.PAIR_STAT 6 then
      let s := s.backAt a
      if s.flkEn then s else match s.roleAt with
        | some (r, _) => s.roleTurn r a
        | none => s
    else match s.pair.back, s.roleAt with
      | true, some (r, b) => if sdiff a b < 0 then { s with roleAt := some (r, a) } else s
      | _, _ => s)

/-! ### Partner loss (R480) -/

/-- PARTNER_LOSS_TIMEOUT: loss_frames periods without a message, or 50 ms while FLK_CTRL.en = 0. A
package that has become STANDBY since goes on to PRIMARY. -/
def execPartnerLossTimeout (s : State) : Res :=
  let t := if s.flkEn then max 1 (s.fld R.PAIR_CFG 19 16) * s.pInt else 50000000
  .next (if !s.pairEn ∨ s.pairRole = 0 ∨ (s.now - s.pair.heard) * 5 < 2 * t then s
    else if s.pair.lost then (if s.pairRole = 2 ∧ s.roleAt.isNone then s.roleOn 1 (s.fnow + 1) else s)
    else
      let taken := if s.pairRole = 2 then 1 else s.pairRole
      let s := (s.setPairEng { s.pair with lost := true }).log 0x0053 2 s.partner taken
      if s.pairRole = 1 then s.setF R.PAIR_STAT 3 3 1
      else if s.pairRole = 2 then s.roleOn 1 (s.fnow + 1)
      else s)

/-! ### Resynchronisation (R490, R491) -/

/-- ROLE_SNAP_REQ: the PRIMARY takes a snapshot at its next commit. -/
def execRoleSnapReq (west : Bool) (rx : ChainRx) (s : State) : Res :=
  .next (s.roleMsg west rx 4 fun s _ => if s.pairRole = 1 then s.setPairEng { s.pair with snapWant := true } else s)

/-- The bytes of an area cut into SNAP messages of 4,088, none of which has the length of a SNAP_END. -/
def State.sendSnap (s : State) (n : Word) (off : Nat) : Nat → List Byte → State
  | 0, _ => s
  | k + 1, l =>
    if l.isEmpty then s
    else
      let c := if l.length = 4120 then 4080 else 4088
      (s.chnSend 6 s.partner n (leBytes 8 off ++ l.take c)).sendSnap n (off + c) k (l.drop c)

/-- The area of frame n's snapshot goes out, followed by SNAP_END. -/
def State.snapSend (s : State) (n : Word) : State :=
  let s := s.hubNote hubReach 0 M_PAIR 0 [(s.snapArea, s.snapTotal)]
  let area := s.hRdBytes s.snapArea s.snapTotal
  (s.sendSnap n 0 (area.length / 4088 + 2) area).chnSend 6 s.partner n (leBytes 8 s.snapTotal ++ sha256 area)

/-- A seal held for the copy of frame n is released (R490). -/
def State.snapRelease (s : State) (n : Word) : State :=
  if s.sealHold = some (n + 2) ∧ !s.bit R.UPD_STAT 8 then
    let s := { s with sealHold := none }
    if s.aBit R.FLK_CTRL 1 ∧ s.showState ≠ FAULTED then s.sealTo s.fnow else s
  else s

/-- SNAP_COPY_DONE: the LGV record is appended, the area goes out, and a seal held for the copy is released. -/
def execSnapCopyDone (s : State) : Res :=
  .next (match s.pair.snap with
    | none => s
    | some n =>
      let lgv := if s.pair.snapLgv.isEmpty then s.lgvRecord else s.pair.snapLgv
      let s := (s.hubWr hubReach M_PAIR 0 (s.snapArea + s.snapLen) lgv).snapSend n
      ((s.setPairEng { s.pair with snap := none, snapLgv := [] }).setF R.PAIR_STAT 0 0 0).snapRelease n)

/-- Where byte i of the snapshot area belongs: a device address (true), or a byte of the LGV record. -/
def snapPlace : List (Nat × Nat) → Nat → Bool × Nat
  | [], i => (false, i)
  | (a, n) :: t, i => if i < n then (true, a + i) else snapPlace t (i - n)
/-- A byte of the snapshot goes to its place. -/
def State.snapByte (s : State) (p : Bool × Nat) (b : Byte) : State :=
  if p.1 then s.hubWr hubReach M_PAIR 0 p.2 [b]
  else s.setPairEng { s.pair with rxLgv := (s.pair.rxLgv ++ List.replicate (p.2 + 1 - s.pair.rxLgv.length) 0).set p.2 b }
/-- The bytes from byte i of the area on; what lies past its end is dropped. -/
def State.snapBytes (s : State) (rs : List (Nat × Nat)) (total : Nat) : Nat → List Byte → State
  | _, [] => s
  | i, b :: t => (if i < total then s.snapByte (snapPlace rs i) b else s).snapBytes rs total (i + 1) t

/-- CHAIN_SNAP: data for an offset of the area, in a SYNCING package. SNAP_END is its own command. -/
def execChainSnap (west : Bool) (rx : ChainRx) (s : State) : Res :=
  .next (s.chnRecv west rx (fun m => m.typ == 6 && m.body.length != 40) fun s m _ =>
    if s.fromPartner m ∧ s.pairRole = 3 then
      s.snapBytes s.snapRegions s.snapTotal (leAt m.body 0 8) (m.body.drop 8)
    else s)

/-- The scales of an LGV record. -/
def State.loadScales (s : State) (l : List Byte) : State :=
  let s := { s with lgvPrev := setAll ONE16 [] ((List.range 64).map fun g => (g, leAt l (4 * g) 4)) }
  [0, 1, 2, 3].foldl (fun (s : State) k => s.wr (R.LGV_FSCALE k) (Word.ofNat (leAt l (256 + 4 * k) 4))) s

/-- CHAIN_SNAP_END: the SHA-256 of what has been written decides between catch-up from the snapshot's frame and another
request. -/
def execChainSnapEnd (west : Bool) (rx : ChainRx) (s : State) : Res :=
  .next (s.chnRecv west rx (fun m => m.typ == 6 && m.body.length == 40) fun s m _ =>
    if !s.fromPartner m ∨ s.pairRole ≠ 3 then s
    else
      let got := (s.snapRegions.flatMap fun e => s.hRdBytes e.1 e.2) ++ s.pair.rxLgv
      let s' := s.setPairEng { s.pair with rxLgv := [] }
      if got.length = leAt m.body 0 8 ∧ sha256 got = (m.body.drop 8).take 32 then
        let n := m.frame
        let s := (s'.loadScales s.pair.rxLgv).setF R.PAIR_STAT 7 7 1
        { (s.wr R.FLK_FRAME n).wr R.FLK_COMMITTED n with sealed := some n, flkFired := true, committedNs := s.tsuNs }
      else s'.sendRole 4 0)

/-! ### The input log's receiving side (R489) -/

/-- Bytes that the entries waiting in the ring take, and what it holds. -/
def State.inlogUsed (s : State) : Nat := (s.pair.inlog.map fun m => 8 + m.body.length).foldl (· + ·) 0
def State.inlogSize (s : State) : Nat := 2 ^ (s.fld R.PAIR_INLOG 3 0 + 16)

/-- INLOG_GAP: the STANDBY sends SNAP_REQ and becomes SYNCING; a package in catch-up begins again. -/
def State.inlogGap (s : State) (f : Word) : State :=
  if s.pairRole = 2 then (s.log 0x0058 2 f.toNat).setRole 3
  else if s.pairRole = 3 ∧ s.bit R.PAIR_STAT 7 then ((s.log 0x0058 2 f.toNat).setF R.PAIR_STAT 7 7 0).sendRole 4 0
  else s

/-- An entry waits in the ring. The spec lays out none of its bytes there: they are free values (assumption 19). -/
def State.inlogStore (s : State) (m : ChnMsg) : State :=
  let n := 8 + m.body.length
  let base := s.fld R.PAIR_INLOG 31 4 * 256
  let at_ := s.pair.inPos % s.inlogSize
  let bytes := s.freeBytes 40 n
  let k := s.inlogSize - at_
  let t := (s.useFree.hubWr hubReach M_PAIR 0 (base + at_) (bytes.take k)).hubWr hubReach M_PAIR 0 base (bytes.drop k)
  t.setPairEng { t.pair with inlog := t.pair.inlog ++ [m], inPos := (at_ + n) % s.inlogSize }

/-- A command of the PRIMARY's host takes its place among this package's own (R482, assumption 19). -/
def State.inlogHost (s : State) (m : ChnMsg) : State :=
  let code := leAt m.body 2 2
  if leAt m.body 0 1 = 3 ∧ 0x0010 ≤ code ∧ code ≤ 0x002A then
    s.queueReq { net := true, code := code, frame := m.frame, payload := m.body.drop 4, drop := true }
  else s

/-- INLOG_ENTRY: a sACN, DMX or firmware entry enters the ring. -/
def execInlogEntry (west : Bool) (rx : ChainRx) (s : State) : Res :=
  .next (s.chnRecv west rx (fun m => m.typ == 7 && leAt m.body 0 1 != 0) fun s m skip =>
    if !s.fromPartner m ∨ s.pairRole = 1 then s
    else
      let s := if skip then s.inlogGap m.frame else s
      if s.inlogSize < s.inlogUsed + 8 + m.body.length then s.inlogGap m.frame
      else (s.inlogStore m).inlogHost m)

/-- INLOG_END: END for frame F with its number of entries. -/
def execInlogEnd (west : Bool) (rx : ChainRx) (s : State) : Res :=
  .next (s.chnRecv west rx (fun m => m.typ == 7 && leAt m.body 0 1 == 0) fun s m skip =>
    if !s.fromPartner m ∨ s.pairRole = 1 then s
    else
      let s := if skip then s.inlogGap m.frame else s
      s.setPairEng { s.pair with
        ends := (m.frame, leAt m.body 2 2) :: s.pair.ends.filter fun e => e.1 ≠ m.frame })

/-- A hardware entry goes to copy F & 1 of its input buffer. -/
def State.inlogPut (s : State) (m : ChnMsg) : State :=
  let i := leAt m.body 2 2
  let slots := (m.body.drop 4).take 512
  let status := m.body.drop 516
  match leAt m.body 0 1 with
  | 1 => s.latchInput M_UNV 0 (s.sacnBuf i) m.frame slots status
  | 2 => if i < 16 then (s.latchInput M_DMX i (s.dmxIbuf i) m.frame slots status).wr (R.DMX_P_FRAME i) m.frame else s
  | _ => s

/-- INLOG_APPLY: frame start F and END F have both come. -/
def execInlogApply (s : State) : Res :=
  .next (match s.pair.ends.find? fun e => decide (0 ≤ sdiff s.fnow e.1) with
    | none => s
    | some (f, _) =>
      let mine := s.pair.inlog.filter fun m => m.frame = f
      let s := s.setPairEng { s.pair with
        ends := s.pair.ends.filter (fun e => e.1 ≠ f), inlog := s.pair.inlog.filter fun m => decide (0 < sdiff m.frame f) }
      (mine.foldl (fun (s : State) m => s.inlogPut m) s).inputsDone f)

end Sys2Proof.Machine
end

