-- ==== Sys2Proof/Machine/Jtag.lean ====
section
/-!
DEFINITION. The test access port of R512. The opcode table has no row for its pins, so no command moves it: `tapEdge` and
`tapReset` say what TCK, TMS, TDI and TRST_N do to it (assumption 62).
-/
namespace Sys2Proof.Machine
open Sys2Proof

/-- The controller's next state at a rising edge of TCK (IEEE 1149.1). -/
def TapState.next (st : TapState) (tms : Bool) : TapState :=
  match st, tms with
  | .reset, true => .reset
  | .reset, false => .idle
  | .idle, false => .idle
  | .idle, true => .selDr
  | .selDr, true => .selIr
  | .selDr, false => .capDr
  | .capDr, false => .shiftDr
  | .capDr, true => .exit1Dr
  | .shiftDr, false => .shiftDr
  | .shiftDr, true => .exit1Dr
  | .exit1Dr, false => .pauseDr
  | .exit1Dr, true => .updDr
  | .pauseDr, false => .pauseDr
  | .pauseDr, true => .exit2Dr
  | .exit2Dr, false => .shiftDr
  | .exit2Dr, true => .updDr
  | .updDr, false => .idle
  | .updDr, true => .selDr
  | .selIr, true => .reset
  | .selIr, false => .capIr
  | .capIr, false => .shiftIr
  | .capIr, true => .exit1Ir
  | .shiftIr, false => .shiftIr
  | .shiftIr, true => .exit1Ir
  | .exit1Ir, false => .pauseIr
  | .exit1Ir, true => .updIr
  | .pauseIr, false => .pauseIr
  | .pauseIr, true => .exit2Ir
  | .exit2Ir, false => .shiftIr
  | .exit2Ir, true => .updIr
  | .updIr, false => .idle
  | .updIr, true => .selDr

/-- IDCODE (R512): rev_major, 0x7100, the manufacturer code, 1. -/
def State.idcode (s : State) : Word :=
  Word.ofNat (s.fld R.SYS_ID 15 12 * 2 ^ 28 + 0x7100 * 2 ^ 12 + Config.jtagMaker.toNat * 2 + 1)

/-- The number whose bits a register holds, the bit next to TDO least significant, and the bits of a number. -/
def bitsNat : List Bool → Nat
  | [] => 0
  | b :: t => b2n b + 2 * bitsNat t
def natBits : Nat → Nat → List Bool
  | 0, _ => []
  | n + 1, v => decide (v % 2 = 1) :: natBits n (v / 2)

/-- The instruction that a code selects: in DEPLOYED, RMA and SCRAPPED every code that is not public selects BYPASS. -/
def State.tapDecode (s : State) (code : Nat) : TapInstr :=
  if code = 2 ^ Config.tapBits - 1 then .bypass
  else match Config.tapCode code with
    | 0 => .bypass
    | 1 => .idcode
    | 2 => .sample
    | 3 => .extest
    | 4 => .clamp
    | 5 => .highz
    | _ => if s.fld R.KEY_LC 2 0 ≤ 1 then .other else .bypass

/-- What Capture-DR loads: the identification, the balls' levels (which come from outside, a free value), or the bypass
bit. -/
def State.tapCapture (s : State) : List Bool :=
  match s.tap.instr with
  | .idcode => natBits 32 s.idcode.toNat
  | .sample | .extest => natBits Config.boundaryCells (Config.freeNat 80 s.fresh)
  | _ => [false]

/-- A rising edge of TCK: the register selected is captured, shifted towards TDO or taken. -/
def State.tapEdge (s : State) (tms tdi : Bool) : State :=
  let x := s.tap
  let shifted := (x.shift ++ [tdi]).drop 1
  let y := match x.st with
    | .capDr => { x with shift := s.tapCapture }
    | .capIr => { x with shift := natBits Config.tapBits 1 }
    | .shiftDr | .shiftIr => { x with tdo := x.shift.head?, shift := shifted }
    | _ => { x with tdo := none }
  let st := x.st.next tms
  let y := match st with
    | .reset => { y with instr := .idcode }
    | .updIr => { y with instr := s.tapDecode (bitsNat y.shift) }
    | .updDr => if y.instr = TapInstr.sample ∨ y.instr = TapInstr.extest then { y with latch := y.shift } else y
    | _ => y
  { s.useFree with tap := { y with st := st } }

/-- TRST_N resets the controller. -/
def State.tapReset (s : State) : State := { s with tap := { s.tap with st := .reset, instr := .idcode, tdo := none } }

/-- What the boundary register makes of the balls it covers: nothing; its latched levels, whatever the pair role and DMX
ownership say; or high impedance. -/
inductive TapBalls where
  | system
  | driven (levels : List Bool)
  | highz
  deriving DecidableEq, Repr
def State.tapBalls (s : State) : TapBalls :=
  match s.tap.instr with
  | .extest | .clamp => .driven s.tap.latch
  | .highz => .highz
  | _ => .system

end Sys2Proof.Machine
end

