-- ==== Sys2Proof/Machine/Restart.lean ====
section
/-!
DEFINITION. What boots, resets, power states and activations share: cores, C-dies and pools taken down and brought up,
and what every reset keeps (R451, R453).
-/
namespace Sys2Proof.Machine
open Sys2Proof

/-! ### Cores -/

/-- The cores that run in a mode: Langal strict starts no service core (R460). -/
def State.startCores (s : State) : State :=
  if s.strict then s.startCore 0 else (List.range 9).foldl (fun (s : State) n => s.startCore n) s

/-! ### Tasks and C-dies -/

/-- Vent n of a die that starts over holds no task; its transfers and what its stalled instruction had queued are gone,
and the time its task was resident is counted. -/
def State.stopVent (s : State) (n : Nat) : State :=
  let c := n / 16
  let s := s.countBusy n
  let x := s.crater c
  ((s.withdraw n).setVent n { run := (s.vent n).run }).setCrater c
    { x with dmaq := x.dmaq.filter (fun e => e.1 ≠ n), dmaStall := x.dmaStall.filter (· ≠ n) }

/-- A task ends CANCELLED wherever it is: at once, but on a vent whose die runs on after its transfers (R155). `gone` says which dies start over. -/
def State.killTask (s : State) (gone : Nat → Bool) (key : Nat) : State :=
  match s.task? key with
  | none => s
  | some t =>
    match t.st with
    | .ended _ _ => s
    | .running n => if gone (ventDie n) then (s.stopVent n).endTask key t 2 0 else match (s.vent n).ended with
        | none => s.endRun n .killed t.pc
        | some _ => s.setTask key { t with cancel := true }
    | .ready => (s.unqueue key t).endTask key t 2 0
    | _ => s.endTask key t 2 0

/-- Every live task that meets a condition ends CANCELLED. -/
def State.killTasks (s : State) (gone : Nat → Bool) (p : Task → Bool) : State :=
  ((s.tasks.filter fun e => p e.2).map (·.1)).foldl (fun (s : State) k => s.killTask gone k) s

/-- The crater repairs that NVS holds (R492). -/
def Crater.kept (x : Crater) : Crater := { slotMap := x.slotMap, off := x.off, rowSpares := x.rowSpares }

/-- Base of the registers of caldera k. -/
def calBase (k : Nat) : Nat := 0x3001000000 + k * 0x10000

/-- C-die d starts over: its vents hold nothing, its islands are gated, its crater counters and the active copies of its
calderas' registers are lost; scratch and its repairs stay (R25, R453). -/
def State.dieClear (s : State) (d : Nat) : State :=
  let cut := fun (s : State) c =>
    let x := s.crater c
    s.setCrater c { x.kept with marked := x.marked, rowCorr := x.rowCorr }
  let s := ((List.range 256).map (256 * d + ·)).foldl (fun (s : State) n =>
    if (s.vent n).task.isSome then s.countBusy n else s) s
  let s := { s with
    act := mdropRange s.act (calBase (4 * d)) (calBase (4 * d + 4)),
    vents := (mdropRange s.vents (256 * d) (256 * d + 256)) }
  let s := (List.range 16).foldl (fun (s : State) i => cut s (16 * d + i)) s
  let s := s.setF (if d < 2 then R.PWC_CGATE_LO else R.PWC_CGATE_HI) (16 * (d % 2) + 15) (16 * (d % 2)) 0
  s.setDie d { s.die d with on := false }

/-- C-die d loses power: its scratch is lost too (R25, R441). -/
def State.dieOff (s : State) (d : Nat) : State :=
  let lo := SCRATCH_BASE + d * 0x1000000
  { s with mem := mdropRange s.mem lo (lo + 0x1000000), ecc := mdropRange s.ecc lo (lo + 0x1000000) }.dieClear d

/-- The shadows of caldera k become its active copies, and its budget starts at the cap (R158, R166, R441). -/
def State.calApply (s : State) (k : Nat) : State :=
  let s := { s with
    act := mmerge (mdropRange s.act (calBase k) (calBase (k + 1))) (mrange s.regs (calBase k) (calBase (k + 1))) }
  let s := if s.aFld (R.CAL_RESV k) 15 0 < 2000 then (s.wr (R.CAL_RESV k) 2000).aWr (R.CAL_RESV k) 2000 else s
  let low := Word.ofNat (s.aFld (R.CAL_RESV k) 15 0 + 1000)
  let s := if s.aFld (R.CAL_BCAP k) 16 0 < low.toNat then (s.wr (R.CAL_BCAP k) low).aWr (R.CAL_BCAP k) low else s
  let s := { s with commits := s.commits.filter fun x => x.reg ≠ R.CAL_COMMIT k }
  (s.setF (R.CAL_COMMIT k) 31 31 0).setBudget k (s.bcap k)

/-- C-die d is powered at P1, and the costs follow its point (R163; assumption 53): its calderas' parties count an epoch
(R360), their registers apply. -/
def State.dieOn (s : State) (d : Nat) : State :=
  let s := (s.setPoint d 1).setDie d { on := true, lost := (s.die d).lost, noRail := (s.die d).noRail }
  (List.range 4).foldl (fun (s : State) i => (s.calApply (4 * d + i)).epochBump (16 + 4 * d + i)) s

/-- Every C-die comes up and every crater island opens; its counters read 0 (R144, R439). In Langal strict the C-dies stay
off (R4, R324). -/
def State.diesUp (s : State) : State :=
  if s.strict then s.setF R.PWC_STATE 2 0 0
  else
  let s := (List.range 4).foldl (fun (s : State) d => s.dieOn d) s
  let s := (List.range 64).foldl (fun (s : State) c =>
    let x := s.crater c
    s.setCrater c { x with isOpen := true, isOpening := false, idleSince := s.now, counters := [] }) s
  ((s.wr R.PWC_CGATE_LO 0xFFFFFFFF).wr R.PWC_CGATE_HI 0xFFFFFFFF).setF R.PWC_STATE 2 0 0

def State.diesDown (s : State) : State := (List.range 4).foldl (fun (s : State) d => s.dieOff d) s

/-! ### What a reset keeps (R451) -/

abbrev SPR_LO : Nat := 0x3FFFFF0000
abbrev SPR_HI : Nat := 0x4000000000

/-- Registers that NVS or the Spring domain hold, and the straps and reset causes. -/
def keptReg (a : Nat) : Bool :=
  (SPR_LO ≤ a && a < SPR_HI) || a == R.KEY_LC || a == R.UPD_BCW || a == R.UPD_MINSV || a == R.CAL_ADCOFF
    || a == R.CAL_RUNCNT || (R.SPA_KIND 0 ≤ a && a < R.SPA_CR 64) || a == R.SPA_NVSWEAR || a == R.SYS_STRAP
    || a == R.SYS_RSTCAUSE

/-- Registers that a warm reset keeps beside those: the LOCK registers (R9), mailbox epochs (R360) and NRG values
(R427). -/
def keptWarm (a : Nat) : Bool :=
  keptReg a || a == R.MBX_LOCK || a == R.SNS_LOCK || (R.MBX_EPOCH 0 ≤ a && a < R.MBX_EPOCH 32) || (0x3000130000 ≤ a && a < 0x3000140000)

/-- The Langal engine after a reset: what NVS and the straps hold. -/
def Langal.kept (x : Langal) : Langal := {
  lhbSpi := x.lhbSpi, nvProg := x.nvProg, nvCues := x.nvCues, nvTrim := x.nvTrim, nvAutorun := x.nvAutorun,
  nvHash := x.nvHash }

/-- The Langal engine halted for an activation: its ports keep the snapshot of the last tick (R464). -/
def Langal.halt (x : Langal) : Langal :=
  { x.kept with snap := x.snap, snapEn := x.snapEn, trim := x.trim, sent := x.sent }

/-- The state after a power-on or RST_N reset: what NVS and the Spring domain hold, the model's clock and its free
values, the commands that wait, and the levels of the pins. -/
def State.coldReset (s : State) : State := {
  pending := s.pending, now := s.now, sck := s.sck, fresh := s.fresh
  regs := s.regs.filter fun (e : Nat × Word) => keptReg e.1
  mem := mrange s.mem NVS_BASE (NVS_BASE + 0x2000000)
  craters := (s.craters.map fun (e : Nat × Crater) => (e.1, e.2.kept)).filter fun (e : Nat × Crater) => e.2 ≠ {}
  icuLine := s.icuLine, springLatch := s.springLatch, fltNvs := s.fltNvs, hwchk := s.hwchk, tap := s.tap
  lgl := s.lgl.kept, calib := s.calib.kept, nvsWear := s.nvsWear, failedUnits := s.failedUnits, lanesOut := s.lanesOut, nrg := { last := s.now }
  keys := { root := s.keys.root, gens := s.keys.gens, pk := s.keys.pk, kept := s.keys.kept, tamperDue := s.keys.tamperDue }
  upd := { copy0 := s.upd.copy0, copy1 := s.upd.copy1, cur := s.upd.cur, bootCount := s.upd.bootCount }
  pwr := { s.pwr with entry := none, exit := none, hib := false, off := false, wakeAt := none } }

/-- RL fields of a locked block survive every reset but power-on and RST_N (R9; assumption 56). -/
def State.keepLocked (t s : State) : State :=
  s.regs.foldl (fun (t : State) (e : Nat × Word) => match regDesc e.1 with
    | some d =>
      let locked := if e.1 / 0x10000 = 0x30001D then s.bit R.SNS_LOCK 0 else s.bit R.MBX_LOCK 0
      let m := Word.ofNat d.rl
      if locked ∧ d.rl ≠ 0 then t.wr e.1 ((t.rd e.1 &&& ~~~m) ||| (e.2 &&& m)) else t
    | none => t) t

/-- The state after a warm reset: also DRAM, mailbox words and NRG, with the epoch of every core counted. -/
def State.warmBase (s : State) : State :=
  let cores := List.range 9
  let t := { s.coldReset with
    regs := s.regs.filter fun (e : Nat × Word) => keptWarm e.1
    mem := mmerge (mrange s.mem 0 0x0800000000) (mrange s.mem NVS_BASE (NVS_BASE + 0x2000000)), nrg := s.nrg
    chans := s.chans.map fun (e : Nat × Channel) => (e.1, { e.2 with stF := [], stR := [] }) }
  cores.foldl (fun (t : State) n => t.epochBump (coreParty n)) (t.keepLocked s)

end Sys2Proof.Machine
end

