-- ==== Sys2Proof/Machine/Update.lean ====
section
/-!
DEFINITION. The nonvolatile store's slots and manifests (R455 to R458), boot (R459, R460), staging (R461), activation
(R462 to R464), and trial, confirmation and revert (R465).
-/
namespace Sys2Proof.Machine
open Sys2Proof

def State.setUpd (s : State) (u : Upd) : State := { s with upd := u }

/-! ### Slots and manifests (R455, R457, R458) -/

/-- Device address of slot k. -/
def slotBase (k : Nat) : Nat := NVS_BASE + k * 0xC00000
abbrev SLOT_SIZE : Nat := 0xC00000
abbrev BLOCK_SIZE : Nat := 65536

/-- Manifest bytes at a base address. -/
def State.manifest (s : State) (base : Nat) : List Byte := s.rdBytes base 368
def mfSv (m : List Byte) : Nat := leAt m 8 4
def mfRender (m : List Byte) : Nat := leAt m 12 4
/-- Entry i of a manifest: image code, slot offset, length, SHA-256. -/
def mfEntry (m : List Byte) (i : Nat) : Nat × Nat × Nat × List Byte :=
  let e := (m.drop (64 + 48 * i)).take 48
  (leAt e 0 4, leAt e 4 4, leAt e 8 4, (e.drop 16).take 32)
def mfEntries (m : List Byte) : List (Nat × Nat × Nat × List Byte) := (List.range 5).map (mfEntry m)

/-- Check 1: magic, version, n, the reserved bytes, device and rev_min. -/
def State.mfForm (s : State) (m : List Byte) : Bool :=
  leAt m 0 4 == 0x464D5A4E && leAt m 4 1 == 1 && leAt m 5 1 == 5 && leAt m 7 1 == 0 && leAt m 20 2 == 0x7100
    && decide (leAt m 22 1 ≤ s.fld R.SYS_ID 15 12) && zeroBytes m 23 64
    && (List.range 5).all fun i => zeroBytes m (64 + 48 * i + 12) (64 + 48 * i + 16)
/-- Check 2: a signing key that has not been revoked. -/
def mfKeyOk (m : List Byte) : Bool := leAt m 6 1 ≤ 1 && !Config.manifestRevoked (leAt m 6 1)
/-- Check 3: the signature over the SHA-256 of bytes 0 to 303. -/
def mfSigOk (m : List Byte) : Bool :=
  let k := Config.manifestKey (leAt m 6 1)
  ecVerify k.1 k.2 (beNat (sha256 (m.take 304))) (beNat ((m.drop 304).take 32)) (beNat ((m.drop 336).take 32))
/-- Check 5: every image, one of each code, lies within the slot and matches its SHA-256. -/
def State.mfImages (s : State) (base : Nat) (m : List Byte) : Bool :=
  let es := mfEntries m
  [1, 2, 3, 4, 5].all (fun c => es.any fun e => e.1 == c)
    && es.all fun e => e.2.1 % 4096 == 0 && 4096 ≤ e.2.1 && e.2.1 + e.2.2.1 ≤ SLOT_SIZE
      && sha256 (s.rdBytes (base + e.2.1) e.2.2.1) == e.2.2.2

/-- The first check of R458 that the images at a base fail; 0 when all pass. -/
def State.slotFails (s : State) (base : Nat) : Nat :=
  let m := s.manifest base
  if !s.mfForm m then 1
  else if !mfKeyOk m then 2
  else if !mfSigOk m then 3
  else if mfSv m < (s.rd R.UPD_MINSV).toNat then 4
  else if !s.mfImages base m then 5
  else 0

/-- UPD_BOOT_FAIL. -/
def State.bootFail (s : State) (slot check : Nat) : State := s.log 0x0044 2 slot check

/-- The measurements in load order (R460): manifest, management, service, SerDes, Langal engine, vent kernels. -/
def State.measure (s : State) (base : Nat) : List (Nat × List Byte) :=
  let m := s.manifest base
  (6, sha256 m) :: ([1, 2, 5, 3, 4].filterMap fun c => (mfEntries m).find? (fun e => e.1 = c) |>.map fun e => (c, e.2.2.2))

/-! ### The boot-control word (R456) -/

def State.trial (s : State) : Bool := s.bit R.UPD_BCW 1
/-- The slot that does not run. -/
def State.inactiveSlot (s : State) : Nat := 1 - s.upd.slot

/-- The word goes to the copy not read last, with the next sequence number. -/
def State.writeBcw (s : State) (active : Nat) (trial prevOk : Bool) : State :=
  let seq := (s.fld R.UPD_BCW 31 16 + 1) % 65536
  let w := Word.ofNat (seq * 65536 + b2n prevOk * 4 + b2n trial * 2 + active % 2)
  let u := s.upd
  (s.setUpd (if u.cur = 0 then { u with copy1 := w, cur := 1 } else { u with copy0 := w, cur := 0 })).wr R.UPD_BCW w

/-- ROM takes the copy with the larger sequence number. -/
def State.readBcw (s : State) : State :=
  let u := s.upd
  let second := decide (0 < sext 16 (fldOf u.copy1 31 16 + 65536 - fldOf u.copy0 31 16))
  (s.setUpd { u with cur := b2n second }).wr R.UPD_BCW (if second then u.copy1 else u.copy0)

/-- A revert: the boot-control word is written back, and recorded (R465). -/
def State.revertBcw (s : State) : State :=
  let slot := 1 - s.fld R.UPD_BCW 0 0
  let s := (s.writeBcw slot false (s.bit R.UPD_BCW 2)).log 0x0045 2 slot
  ((s.setF R.UPD_STAT 3 3 1).bump R.UPD_CNT 31 16).irq 0x143

/-! ### Boot (R459, R460) -/

/-- Run the images at a base: measured, the cores and the Langal engine started. -/
def State.runImages (s : State) (base slot : Nat) : State :=
  let s := s.setUpd { s.upd with slot := slot, measures := s.measure base }
  let s := s.wr R.UPD_RENDER (Word.ofNat (mfRender (s.manifest base)))
  s.startCores

/-- Try slots in order: the first that passes, and the failures recorded. -/
def State.tryslots (s : State) : List Nat → Option Nat × State
  | [] => (none, s)
  | k :: t => match s.slotFails (slotBase k) with
    | 0 => (some k, s)
    | c => (s.bootFail k c).tryslots t

/-- The firmware loads the earliest future wake time into SPR_ALM_SEC (R448). -/
def State.loadWake (s : State) : State :=
  let now := s.rd R.SPR_RTC_SEC
  match (s.pwr.wakes.filter fun t => decide (now < t)).foldl
      (fun (b : Option Word) t => match b with | some u => if t < u then some t else some u | none => some t) none with
  | some t => s.wr R.SPR_ALM_SEC t
  | none => s

/-- Steps 7 and 8 of R460, once images run: the life cycle, the key blobs, the next wake time after an
alarm (R448), the C-dies, the show state. -/
def State.bootEnds (s : State) : State :=
  let s := s.rootCheck.calBoot.reloadKeys
  let s := s.wr (R.ICU_SRC 0x3F0) 0x80000400
  let s := if s.bit R.SPR_STAT 3 then s.loadWake else s
  let s := s.diesUp
  (s.setUpd { s.upd with booted := true, recovery := false }).setF R.HST_STATE 2 0 IDLE

/-- BOOT_COMPLETE: the boot that follows a reset has come to its end, by the BOOT straps and the trial rules; where no
slot passes, ROM waits in recovery. -/
def execBootComplete (s : State) : Res :=
  .next (if s.upd.booted ∨ s.upd.recovery ∨ s.pwr.hib ∨ s.pwr.off then s
    else
      let s := s.readBcw
      let strap := s.fld R.SYS_STRAP 3 2
      let s := s.setUpd { s.upd with bootCount := s.upd.bootCount + 1 }
      if strap = 3 then s.setUpd { s.upd with recovery := true }
      else
        let s := if strap = 0 ∧ s.trial then s.revertBcw else s
        let a := s.fld R.UPD_BCW 0 0
        let order := if strap = 1 then [0] else if strap = 2 then [1] else if s.bit R.UPD_BCW 2 then [a, 1 - a] else [a]
        let r := s.tryslots order
        match r.1 with
        | none => r.2.setUpd { r.2.upd with recovery := true }
        | some k =>
          let s := if strap = 0 ∧ k ≠ a then r.2.log 0x0045 2 k else r.2
          (s.runImages (slotBase k) k).bootEnds)

/-- UPD_RECOVER: in recovery, ROM checks the images in DRAM at 0 and runs them (R459). -/
def execUpdRecover (s : State) : Res :=
  .next (if !s.upd.recovery then s
    else match s.slotFails 0 with
      | 0 => (s.runImages 0 s.upd.slot).bootEnds
      | c => s.bootFail 2 c)

/-! ### Staging (R461) -/

abbrev EMPTY : Nat := 0
abbrev STAGING : Nat := 1
abbrev READY : Nat := 2
def State.slotState (s : State) : Nat := s.fld R.UPD_STAT 5 4
def State.updPending (s : State) : Bool := s.bit R.UPD_STAT 7

/-- The payload of UPD_STAGE is formed as R461 says. -/
def stageOk (l : List Byte) : Bool :=
  l.length == 20 && leAt l 0 1 ≤ 2 && leAt l 1 1 ≤ 1 && leAt l 2 2 ≤ 191 && zeroBytes l 12 16
def State.blockDone (s : State) (k : Nat) : Bool := s.bit (R.UPD_BLKMAP (k / 32)) (k % 32)

/-- UPD_STAGE_BEGIN; also a payload whose op is none of R461's. -/
def execUpdStageBegin (net : Bool) (s : State) : Res :=
  .next (s.hostDo net 0x0050 (fun l => leAt l 0 1 != 1 && leAt l 0 1 != 2)
    (fun s r => firstErr [(!stageOk r.payload, E_ARG), (s.trial || s.updPending, E_STATE)])
    fun s _ =>
      let a := slotBase s.inactiveSlot
      let s := { s with mem := mdropRange s.mem a (a + BLOCK_SIZE) }
      let s := (List.range 6).foldl (fun (s : State) i => s.wr (R.UPD_BLKMAP i) 0) s
      (s.setF R.UPD_STAT 6 6 1).setF R.UPD_STAT 5 4 STAGING)

/-- UPD_STAGE_BLOCK: the copy begins; its response follows when it ends. -/
def execUpdStageBlock (net : Bool) (s : State) : Res :=
  .next (s.takeCmd net 0x0050 (fun l => leAt l 0 1 == 1) fun s r =>
    let src := leAt r.payload 4 8
    let bad := !((inDram src && inDram (src + 65535)) || (inHubSram src && inHubSram (src + 65535))
      || (inScratch src && inScratch (src + 65535)))
    let st := firstErr [(!stageOk r.payload, E_ARG), (s.slotState != STAGING, E_STATE), (bad, E_ABSENT),
      (s.upd.block.isSome, BUSY)]
    if st ≠ OK then s.respond r st []
    else (s.setUpd { s.upd with block := some r }).setF R.UPD_STAT 9 9 1)

/-- A 64 KB block of NVS is written: SPA_NVSWEAR is the highest count ÷ 1,024 (R494). -/
def State.nvsWrite (s : State) (b : Nat) : State :=
  let n := mget (fun _ => 0) s.nvsWear b + 1
  let s := { s with nvsWear := mset (fun _ => 0) s.nvsWear b n }
  s.wr R.SPA_NVSWEAR (Word.ofNat (max (s.rd R.SPA_NVSWEAR).toNat (n / 1024)))

/-- UPD_BLOCK_DONE: the block is written, read back and compared where asked, and the response waits. -/
def execUpdBlockDone (s : State) : Res :=
  .next (match s.upd.block with
    | none => s
    | some r =>
      let k := leAt r.payload 2 2
      let a := slotBase s.inactiveSlot + k * BLOCK_SIZE
      let data := s.rdBytes (leAt r.payload 4 8) BLOCK_SIZE
      let crc := bitOf (Word.ofNat (leAt r.payload 1 1)) 0
      let ok := !crc || (crc32c data).toNat == leAt r.payload 16 4
      let s := (s.setUpd { s.upd with block := none }).setF R.UPD_STAT 9 9 0
      let s := s.nvsWrite (s.inactiveSlot * 192 + k)
      let s := (s.wrBytes a data).setF (R.UPD_BLKMAP (k / 32)) (k % 32) (k % 32) (b2n ok)
      let s := if crc then s else s.setF R.UPD_STAT 6 6 0
      if (s.session? r.sid).isSome then s.respond r (if ok then OK else E_CHECK) [] else s)

/-- Blocks that an extent of a slot touches. -/
def blocksOf (off len : Nat) : List Nat :=
  if len = 0 then [] else (List.range ((off + len - 1) / BLOCK_SIZE + 1 - off / BLOCK_SIZE)).map (· + off / BLOCK_SIZE)

/-- UPD_STAGE_END. -/
def execUpdStageEnd (net : Bool) (s : State) : Res :=
  .next (s.hostDo net 0x0050 (fun l => leAt l 0 1 == 2)
    (fun s r =>
      let m := s.manifest (slotBase s.inactiveSlot)
      let need := 0 :: (mfEntries m).flatMap fun e => blocksOf e.2.1 e.2.2.1
      firstErr [(!stageOk r.payload, E_ARG), (s.slotState != STAGING, E_STATE),
        (!(s.blockDone 0) || need.any (fun k => decide (191 < k) || !s.blockDone k), E_SPACE)])
    fun s _ => s.setF R.UPD_STAT 5 4 READY)

/-! ### Activation (R462 to R464) -/

/-- Frame A of an activation: 0xFFFF_FFFF means two frames on. -/
def State.updFrame (s : State) (a : Word) : Word := if a = 0xFFFFFFFF then s.fnow + 2 else a

/-- Accept an activation: with frames running its frame A is held back from sealing. -/
def State.updAccept (s : State) (r : Request) : State :=
  let a := s.updFrame r.frame
  let s := (s.setF R.UPD_STAT 7 7 1).wr R.UPD_AT a
  if s.flkEn then { s with sealHold := some a } else s

/-- The refusals that both commands share. -/
def State.updStatus (s : State) (r : Request) (verified : Bool) : Nat :=
  firstErr [(s.slotState != READY || s.trial || s.updPending || (verified && !s.bit R.UPD_STAT 6), E_STATE),
    (s.flkEn && s.editLate (s.updFrame r.frame), E_LATE)]

/-- UPD_ACTIVATE. -/
def execUpdActivate (net : Bool) (s : State) : Res :=
  .next (s.hostDo net 0x0051 anyPayload (fun s r => s.updStatus r false) State.updAccept)

/-- UPD_ACTIVATE_VERIFIED: the checks of R458 run first. -/
def execUpdActivateVerified (net : Bool) (s : State) : Res :=
  .next (s.hostCmd net 0x0052 anyPayload fun s r =>
    let st := s.updStatus r true
    if st ≠ OK then (s, st, [])
    else match s.slotFails (slotBase s.inactiveSlot) with
      | 0 => (s.updAccept r, OK, [])
      | c => (s.bootFail s.inactiveSlot c, E_CHECK, []))

/-- Steps 2 and 4 to 6 of R463: cores and engine halted, pools emptied, sessions ended, and the images of a slot run,
where they pass. -/
def State.restartInto (s : State) (slot : Nat) : Nat × State :=
  let s := (List.range 9).foldl (fun (s : State) n => s.resetCore n) s
  let s := s.killTasks (fun _ => false) fun _ => true
  let s := { s with cals := s.cals.map fun (e : Nat × Caldera) => (e.1, { e.2 with stalled := [] }) }
  let s := s.endSessions fun _ => true
  let s := if s.langalOwns then ((s.setLgl s.lgl.halt).setLglState LGL_BOOT).setF R.LGL_STAT 4 4 0 else s
  let c := s.slotFails (slotBase slot)
  (c, if c = 0 then s.runImages (slotBase slot) slot else s.bootFail slot c)

/-- UPD_ACTIVATION: frame start A has come, or no frames run: the boot-control word names the new slot on trial, and its
images run; a check that fails reverts (R465). A STANDBY package becomes SYNCING (R466). -/
def execUpdActivation (s : State) : Res :=
  let a := s.rd R.UPD_AT
  .next (if !s.updPending ∨ (s.flkEn ∧ sdiff s.fnow a < 0) then s
    else
      let new := s.inactiveSlot
      let old := s.upd.slot
      let live := s.flkEn
      let s := (s.setF R.UPD_STAT 7 7 0).wr R.UPD_AT 0xFFFFFFFF
      let s := if live then
          { (s.setUpd { s.upd with hold := some a }).setF R.UPD_STAT 8 8 1 with sealHold := some a }
        else s
      let s := if s.fld R.PAIR_ROLE 2 0 = 2 then s.setRole 3 else s
      let s := (s.writeBcw new true (s.bit R.UPD_BCW 2)).bump R.UPD_CNT 15 0
      let s := s.setUpd { s.upd with trialFrom := s.now }
      let r := s.restartInto new
      if r.1 = 0 then r.2 else (r.2.revertBcw.restartInto old).2)

/-- UPD_SEAL_RELEASE: the new firmware seals frame A (R463 step 7). -/
def execUpdSealRelease (s : State) : Res :=
  .next (match s.sealHold with
    | some a => if s.bit R.UPD_STAT 8 then ({ s with sealHold := none }.setF R.UPD_STAT 8 8 0).sealTo a else s
    | none => s)

/-- UPD_CONFIRM (R465). -/
def execUpdConfirm (s : State) : Res :=
  .next (if !s.trial then s
    else
      let s := s.writeBcw (s.fld R.UPD_BCW 0 0) false true
      let sv := mfSv (s.manifest (slotBase s.upd.slot))
      (s.wr R.UPD_MINSV (Word.ofNat (max (s.rd R.UPD_MINSV).toNat sv))).setF R.UPD_STAT 5 4 EMPTY)

/-- UPD_CONFIRM_TIMEOUT: confirm_s seconds on trial have passed; the previous slot comes back and runs. -/
def execUpdConfirmTimeout (s : State) : Res :=
  let t := s.fld R.UPD_CFG 15 0
  .next (if !s.trial ∨ t = 0 ∨ s.now < s.upd.trialFrom + t * TICKS then s
    else
      let s := s.revertBcw
      (s.restartInto (s.fld R.UPD_BCW 0 0)).2)

end Sys2Proof.Machine
end

