-- ==== Sys2Proof/Machine/Power.lean ====
section
/-!
DEFINITION. Resets (R451 to R454, R505), power states (R438 to R445) and the Spring domain (R446 to R450).
-/
namespace Sys2Proof.Machine
open Sys2Proof

def State.setPwr (s : State) (p : Power) : State := { s with pwr := p }
/-- Set a bit of SYS_RSTCAUSE. -/
def State.rstCause (s : State) (i : Nat) : State := s.setF R.SYS_RSTCAUSE i i 1
abbrev RC_POR : Nat := 0
abbrev RC_RST_N : Nat := 1
abbrev RC_WARM : Nat := 2
abbrev RC_WDOG : Nat := 3
abbrev RC_DRST : Nat := 4
abbrev RC_PWRLOSS : Nat := 5
abbrev RC_HIB : Nat := 6
abbrev RC_SPRING : Nat := 7

/-! ### Resets -/

/-- The straps are sampled (R3); outside MANUFACTURE the factory strap starts native mode, recorded (R5). -/
def State.sampleStraps (s : State) (mode boot : Nat) (lhbSpi : Bool) : State :=
  let refused := mode = 3 ∧ s.lc ≠ 0
  let eff := if refused then 0 else mode
  let s := s.wr R.SYS_STRAP (Word.ofNat (eff * 16 + boot * 4 + mode))
  let s := s.setLgl { s.lgl with lhbSpi := lhbSpi }
  if refused then s.log 0x0001 1 mode eff else s

/-- A power-on reset (R451): its causes tell the end of HIBERNATE from the end of OFF, and what the Spring latch caught is
pending (R372). -/
def State.powerOn (s : State) (mode boot : Nat) (lhbSpi : Bool) : State :=
  let hib := s.pwr.hib
  let lost := s.pwr.sprLost
  let s := s.coldReset.wr R.SYS_RSTCAUSE 0
  let s := (s.rstCause RC_POR).rstCause (if hib then RC_HIB else RC_PWRLOSS)
  let s := if lost then s.rstCause RC_SPRING else s
  let s := (s.springLatch.map (·.1)).foldl (fun (s : State) n => s.irq n) s
  { s.setPwr { s.pwr with sprLost := false } with springLatch := [], tap := {} }.sampleStraps mode boot lhbSpi

/-- POWER_ON_RESET. -/
def execPowerOnReset (mode boot : BitVec 2) (lhbSpi : Bool) (s : State) : Res :=
  .next (s.powerOn mode.toNat boot.toNat lhbSpi)

/-- RST_N_RESET. With the rails returned after they left their range it ends the power-on reset (R505). -/
def execRstNReset (mode boot : BitVec 2) (lhbSpi : Bool) (s : State) : Res :=
  .next (if s.pwr.hib then s
    else if s.pwr.off then s.powerOn mode.toNat boot.toNat lhbSpi
    else (s.coldReset.rstCause RC_RST_N).sampleStraps mode.toNat boot.toNat lhbSpi)

/-- A warm reset with its cause. -/
def State.warmReset (s : State) (cause : Nat) : State := s.warmBase.rstCause cause

/-- WARM_RESET. -/
def execWarmReset (s : State) : Res := .next (s.warmReset RC_WARM)
/-- SYS_RESET_WARM: the management core in secure world only. -/
def execSysResetWarm (who : Master) (w : Word) (s : State) : Res :=
  .next (match who with
    | .mgmt true => if bitOf w 0 then s.warmReset RC_WARM else s
    | _ => s.refuseAccess who R.SYS_RESET 1)
/-- RESET_WARM: the session ends with the reset, and the response with it (R390). -/
def execResetWarm (net : Bool) (s : State) : Res :=
  .next (match takeReq net s.host.reqs with
    | some (r, _) => if r.code = 0x0082 then s.warmReset RC_WARM else s
    | none => s)

/-- A write of SYS_DRST has been handled (R453). -/
def State.drstDone (s : State) (st : Nat) : State :=
  let s := s.wr R.SYS_DRST (Word.ofNat (2 ^ 31 + st * 2 ^ 24))
  if st = OK then s.rstCause RC_DRST else s

/-- DRST_SERVICE_CORE. -/
def execDrstServiceCore (n : BitVec 3) (s : State) : Res :=
  let t := n.toNat + 1
  .next (((s.resetCore t).epochBump (coreParty t)).drstDone OK)
/-- DRST_LANGAL: also its stack of interrupts (R368) and, where the engine owns them, the DMX balls. -/
def execDrstLangal (s : State) : Res :=
  let s := (s.resetBlock 0x3000180000).setLgl s.lgl.kept
  let s := (s.unfreeze 9).setTarget 9 {}
  .next ((if s.langalOwns then { s with dmx := [] } else s).drstDone OK)
/-- DRST_CDIE: refused while frames run; otherwise the die's tasks end CANCELLED. Scratch is kept: the die has power (R25). -/
def execDrstCdie (d : BitVec 2) (s : State) : Res :=
  let n := d.toNat
  .next (if s.bit R.FLK_CTRL 0 ∨ s.flkEn then s.drstDone E_STATE
    else
      let s := s.killTasks (· == n) fun t => decide (t.at_ / 4 = n) || t.holds.any fun k => k / 4 == n
      let on := (s.die n).on
      let s := s.dieClear n
      let s := s.resetRegs (calBase (4 * n)) (calBase (4 * n + 4))
      (if on then s.dieOn n else s).drstDone OK)
/-- DRST_SCN_HEAD: the head's registers and its four lanes, which pass through DOWN. -/
def execDrstScnHead (n : BitVec 3) (s : State) : Res :=
  let h := n.toNat
  let s := s.resetRegs (0x30000D0000 + h * 0x2000) (0x30000D0000 + h * 0x2000 + 0x2000)
  .next ({ s with
    tileLanes := mdropRange s.tileLanes (4 * h) (4 * h + 4)
    dramReqs := s.dramReqs.filter fun r => r.lane / 4 ≠ h }.drstDone OK)

/-- SPRING_RESET: both supplies of the Spring domain have failed (R396). -/
def execSpringReset (s : State) : Res :=
  let s := (s.resetRegs SPR_LO SPR_HI).setF R.SPR_TAMP_STAT 8 8 1
  let s := s.setKeys { s.keys with root := List.replicate 32 0 }
  let up := !s.pwr.hib && !s.pwr.off
  let p := s.pwr
  let p : Power := { wakes := p.wakes, entry := p.entry, exit := p.exit, hib := p.hib, off := p.off, wdStart := p.wdStart,
                     sprLost := !up }
  let s := { s.setPwr p with springLatch := [] }
  .next (if up then s.rstCause RC_SPRING else s)

/-- RAIL_OUT_OF_RANGE: an internal power-on reset begins, and the Nerza stays in it until RST_N is cycled or the rails
rise again (R505). -/
def execRailOutOfRange (s : State) : Res :=
  .next (if s.pwr.hib then s else
    let s := s.coldReset
    s.setPwr { s.pwr with off := true })

/-! ### The watchdog (R454) -/

def State.wdEn (s : State) : Bool := s.bit R.PWC_WDOG 31

/-- PWC_WDOG_ENABLE: a write of PWC_WDOG; with en = 1 it is ignored. -/
def execPwcWdogEnable (w : Word) (s : State) : Res :=
  .next (if s.wdEn then s
    else
      let s := s.setF R.PWC_WDOG 15 0 (max 1 (fldOf w 15 0))
      if bitOf w 31 then (s.setF R.PWC_WDOG 31 31 1).setPwr { s.pwr with wdStart := s.now } else s)
/-- PWC_WDKICK_WRITE. -/
def execPwcWdkickWrite (w : Word) (s : State) : Res :=
  .next (if fldOf w 15 0 = 0xA5C3 then s.setPwr { s.pwr with wdStart := s.now } else s)
/-- WATCHDOG_EXPIRY: the count has reached timeout_ms; it pauses in SLEEP. -/
def execWatchdogExpiry (s : State) : Res :=
  .next (if !s.wdEn ∨ 3 ≤ s.fld R.PWC_STATE 2 0 ∨ s.now < s.pwr.wdStart + s.fld R.PWC_WDOG 15 0 * 400000 then s
    else s.warmReset RC_WDOG)

/-! ### The RTC and the alarm (R447, R448) -/

/-- The alarm fires: alm_fired, source 0x019, and a wake where it is enabled. In HIBERNATE and OFF the wake drives PWR_OK
high, and a power-on reset follows. -/
def State.fireAlarm (s : State) : State :=
  let s := (s.setPwr { s.pwr with almDue := false }).setF R.SPR_STAT 3 3 1
  if s.clocksRun then (s.irq 0x019).loadWake
  else { s with springLatch := mset (fun _ => false) s.springLatch 0x019 true }.catchWake 0x019

/-- RTC_ALARM: the seconds have become equal to the alarm. -/
def execRtcAlarm (s : State) : Res := .next (if s.pwr.almDue then s.fireAlarm else s)

/-- Add n SPR ticks at once. -/
def State.sprTicks (s : State) : Nat → State
  | 0 => s
  | n + 1 => ({ s.sprTick with pwr := { s.sprTick.pwr with sub20 := s.pwr.sub20 } }).sprTicks n

/-- RTC_TRIM_APPLY: after 2^20 ticks the trim adds or skips ticks. -/
def execRtcTrimApply (s : State) : Res :=
  let t := sext 8 (s.fld R.SPR_RTC_TRIM 7 0)
  .next (if s.pwr.sub20 < 2 ^ 20 then s
    else
      let s := s.setPwr { s.pwr with sub20 := s.pwr.sub20 - 2 ^ 20 }
      if t < 0 then s.setPwr { s.pwr with skip := s.pwr.skip + (-t).toNat } else s.sprTicks t.toNat)

/-- A write of SPR_RTC_SEC takes effect: it may fire the alarm, or step past it. -/
def State.writeSec (s : State) (w : Word) : State :=
  let old := s.rd R.SPR_RTC_SEC
  let alm := s.rd R.SPR_ALM_SEC
  let s := (s.wr R.SPR_RTC_SEC w).setF R.SPR_RTC_SUB 14 0 0
  let s := s.setPwr { s.pwr with almDue := false }
  if w = alm ∧ old ≠ w then s.fireAlarm
  else if old < alm ∧ alm < w then s.setF R.SPR_STAT 2 2 1
  else s
/-- RTC_SEC_WRITE. -/
def execRtcSecWrite (w : Word) (s : State) : Res := .next (s.writeSec w)

/-- A write to a Spring register takes effect. -/
def State.sprWrite (s : State) (a : Nat) (w : Word) : State :=
  if a = R.SPR_RTC_SEC then s.writeSec w
  else if a = R.SPR_TAMP_CFG ∧ s.bit R.SPR_TAMP_CFG 31 then s
  else match regDesc a with
    | some d => s.wr a (d.written false (s.rd a) w)
    | none => s

/-- The management core's stalled write has its place: the store completes. -/
def State.springResume (s : State) : State :=
  let c := s.core 0
  if c.stall = some .spring then s.setCore 0 { c with stall := none, pc := c.pc + 4 } else s

/-- SPRING_WRITE_APPLY: the oldest queued write takes effect, and a stalled one takes its place (R450). -/
def execSpringWriteApply (s : State) : Res :=
  .next (match s.pwr.sprQ with
    | [] => s
    | (a, w) :: t =>
      let p := s.pwr
      let r := match p.sprStall with
        | (b, v, core) :: u => ({ p with sprQ := t ++ [(b, v)], sprStall := u }, core)
        | [] => ({ p with sprQ := t }, false)
      let s := s.setPwr r.1
      (if r.2 then s.springResume else s).sprWrite a w)

/-- A write to a Spring register enters the queue of 8, or waits for it; `core` says that the management core waits with
it. -/
def State.sprEnqueue (s : State) (a : Nat) (w : Word) (core : Bool) : State :=
  let p := s.pwr
  if p.sprQ.length < 8 ∧ p.sprStall.isEmpty then s.setPwr { p with sprQ := p.sprQ ++ [(a, w)] }
  else s.setPwr { p with sprStall := p.sprStall ++ [(a, w, core)] }

/-- SPRING_SUPPLY_SWITCH: the supply in use, and whether VBAT is below 2.2 V (R446). -/
def execSpringSupplySwitch (onVbat vbatLow : Bool) (s : State) : Res :=
  .next ((s.setF R.SPR_STAT 0 0 (b2n onVbat)).setF R.SPR_STAT 1 1 (b2n vbatLow))

/-- WAKE_SCHEDULE: the payload is the list of wake times, at most 16, of 4 bytes each. -/
def execWakeSchedule (net : Bool) (s : State) : Res :=
  .next (s.hostDo net 0x0081 anyPayload
    (fun _ r => firstErr [(decide (64 < r.payload.length), E_SPACE)])
    fun s r => s.setPwr { s.pwr with wakes := wordsOf r.payload })

/-! ### Entries (R440, R442, R444, R445) -/

/-- Any pool holds a task, or a crater transfer is in flight. -/
def State.poolsBusy (s : State) : Bool :=
  !s.tasks.isEmpty || s.craters.any fun e => !e.2.dmaq.isEmpty || !e.2.dmaStall.isEmpty

/-- The outcome of a request for a state. -/
def State.pwcStatus (s : State) (target : Nat) : Nat :=
  firstErr [(target == 1 || decide (4 < target), E_ARG),
    (s.bit R.FLK_CTRL 0 || s.flkEn || (target == 0 && s.fld R.PWC_STATE 2 0 != 2) || s.pwr.entry.isSome
      || s.pwr.exit.isSome, E_STATE),
    (decide (2 ≤ target) && s.poolsBusy, BUSY)]

/-- ICU_SRCn of the class R sources, and the thresholds. -/
def sinterReg (a : Nat) : Bool :=
  (R.ICU_SRC 0 ≤ a && a < R.ICU_SRC 1024 && !srcClassL ((a - R.ICU_SRC 0) / 4))
    || (R.ICU_T_THRESH 0 ≤ a && a < R.ICU_T_THRESH 10 && (a - R.ICU_T_THRESH 0) % 64 == 0)

/-- What sinter saves (R371): settings, pending and in service of class R sources, and every target's threshold and
stack. -/
def State.saveSinter (s : State) : State :=
  let cr := fun (e : Nat × Bool) => !srcClassL e.1
  { s with sinter := {
      pend := (s.icuPend.filter cr).map (·.1), inSvc := (s.icuSvc.filter cr).map (·.1)
      stackOf := (List.range 11).map fun t => (s.target t).stack
      regs := s.regs.filter fun (e : Nat × Word) => sinterReg e.1 } }

/-- Sinter is restored on a wake: what it saved is in force again, and the saved pending bits join those set since
(R371). -/
def State.restoreSinter (s : State) : State :=
  let x := s.sinter
  let t := { s with
    regs := s.regs.filter fun (e : Nat × Word) => !sinterReg e.1
    icuSvc := s.icuSvc.filter fun (e : Nat × Bool) => srcClassL e.1, sinter := {} }
  let t := (x.regs.filter fun (e : Nat × Word) => sinterReg e.1).foldl (fun (t : State) e => t.wr e.1 e.2) t
  let t := x.pend.foldl (fun (t : State) n => t.irq n) t
  let t := x.inSvc.foldl (fun (t : State) n => t.setSvc n true) t
  (List.range 11).foldl (fun (t : State) n => t.setTarget n { t.target n with stack := x.stackOf.getD n [] }) t

/-- A write of PWC_REQ, or POWER_STATE: the status and what it begins. -/
def State.pwcReq (s : State) (target : Nat) : Nat × State :=
  let st := s.pwcStatus target
  let s := s.wr R.PWC_REQRES (Word.ofNat (2 ^ 31 + st))
  (st, if st ≠ OK then s
    else if target = 0 then s.setPwr { s.pwr with exit := some s.now }
    else
      let s := s.loadWake.setF R.SPR_WAKE_CAUSE 7 0 0
      s.setPwr { s.pwr with entry := some ⟨target, s.fld R.PWC_STATE 2 0⟩, wakeAt := none })

/-- PWC_REQ_RUN. -/
def execPwcReqRun (s : State) : Res := .next (s.pwcReq 0).2
/-- PWC_REQ_DOZE. -/
def execPwcReqDoze (s : State) : Res := .next (s.pwcReq 2).2
/-- PWC_REQ_SLEEP. -/
def execPwcReqSleep (s : State) : Res := .next (s.pwcReq 3).2
/-- PWC_REQ_HIBERNATE. -/
def execPwcReqHibernate (s : State) : Res := .next (s.pwcReq 4).2
/-- POWER_STATE: payload byte 0 is the target code of PWC_REQ. -/
def execPowerState (net : Bool) (s : State) : Res :=
  .next (s.hostCmd net 0x0080 anyPayload fun s r =>
    let x := s.pwcReq (leAt r.payload 0 1)
    (x.2, x.1, []))

/-- LCK stops: every tile lane and chain port goes down (R441). -/
def State.lanesDown (s : State) : State :=
  let s := { s with tileLanes := s.tileLanes.map fun (e : Nat × Lane) => (e.1, { act := e.2.act, slotAct := e.2.slotAct, anchor := e.2.anchor, pend := e.2.pend }) , dramReqs := [] }
  let s := (List.range 32).foldl (fun (s : State) l => s.setLnState l LN_DOWN) s
  { s.setF R.CHN_STAT 5 4 0 with chnQ := [] }

/-- Registers that SLEEP keeps (R442): those of any reset, QUE configuration, MBX, NRG, PWC and SYS. -/
def keptSleep (a : Nat) : Bool :=
  keptReg a || a == R.SNS_LOCK || (0x3000000000 ≤ a && a < 0x3000020000) || (0x3000050000 ≤ a && a < 0x3000060000)
    || (0x3000130000 ≤ a && a < 0x3000140000) || (0x3000060000 ≤ a && a < R.QUE_FCSTATE)
    || (R.QUE_Q_CFG 0 ≤ a && a < R.QUE_Q_CFG 256 && decide ((a - R.QUE_Q_CFG 0) % 64 < 0x14))

/-- Settings in use in SLEEP and lost at its end: pol and lvl of the class L sources, which the Spring latches have
(R444), and the addresses and frame lengths of the management ports, which the wake filter has (R443). -/
def usedSleep (a : Nat) : Bool :=
  (R.ICU_SRC 0 ≤ a && a < R.ICU_SRC 1024 && srcClassL ((a - R.ICU_SRC 0) / 4))
    || [8, 9].any fun p => a == R.MAC_P_ADDR_LO p || a == R.MAC_P_ADDR_HI p || a == R.MAC_P_CFG p

/-- The hub with its islands off in SLEEP (R442): DRAM, NVS, mailboxes and sinter are kept, and every FIFO is empty and
still enabled (R356). -/
def State.sleepHub (s : State) : State :=
  { s.coldReset with
    regs := s.regs.filter fun (e : Nat × Word) => keptSleep e.1 || usedSleep e.1
    act := s.act.filter fun (e : Nat × Word) => usedSleep e.1
    mem := mmerge (mrange s.mem 0 0x0800000000) (mrange s.mem NVS_BASE (NVS_BASE + 0x2000000))
    chans := s.chans.map fun (e : Nat × Channel) => (e.1, { e.2 with stF := [], stR := [] })
    fifos := s.fifos.map fun (e : Nat × Fifo) => (e.1, { last := e.2.last, lastW := e.2.lastW })
    nrg := s.nrg, sinter := s.sinter
    upd := { s.upd with block := none, hold := none } }.keepLocked s

/-- POWER_ENTRY_DONE (R444): sinter is saved, the C-dies and lanes go down, and the hub's islands too for SLEEP; for
HIBERNATE PWR_OK falls and the main rails with it. -/
def execPowerEntryDone (s : State) : Res :=
  .next (match s.pwr.entry with
    | none => s
    | some e =>
      let s := ((s.setPwr { s.pwr with entry := none }).saveSinter.diesDown.lanesDown).setF R.PWC_STATE 2 0 e.target
      if e.target = 2 then s
      else if e.target = 3 then s.sleepHub
      else
        let s := s.coldReset.setF R.PWC_STATE 2 0 e.target
        s.setPwr { s.pwr with hib := true })

/-- PWR_OK: high while the Nerza needs its main rails (R444, R448). -/
def State.pwrOk (s : State) : Bool := !s.pwr.hib || s.pwr.wakeAt.isSome

/-- The ICU source of a wake code (R449). -/
def wakeSource (c : Nat) : Nat :=
  if c = 1 then 0x019 else if c = 2 then 0x01A else if c = 3 then 0x00C
  else if 8 ≤ c ∧ c ≤ 15 then 0x010 + (c - 8) else 0x020 + (c - 32)

/-- POWER_ENTRY_ABORT: an enabled wake source, by its code of R449, fires before step 4 of the entry has ended. -/
def execPowerEntryAbort (source : BitVec 10) (s : State) : Res :=
  let source := source.toNat
  .next (match s.pwr.entry, s.wakeCode (wakeSource source) with
    | some _, some (c, true) =>
      if c = source then
        let s := s.setPwr { s.pwr with entry := none }
        ({ s with sinter := {} }.wr R.PWC_REQRES 0x80000000).setF R.PWC_STATE 8 8 1
      else s
    | _, _ => s)

/-- DOZE_EXIT_DONE: clocks and dies are back, and the state is RUN (R441); sinter is restored (R371). -/
def execDozeExitDone (s : State) : Res :=
  .next (match s.pwr.exit with
    | none => s
    | some t =>
      let s := (s.setPwr { s.pwr with exit := none }).diesUp
      ((s.setF R.PWC_STATE 6 4 2).wr R.PWC_WTIME (Word.ofNat ((s.now - t) / 400))).restoreSinter)

/-- The hub as a wake from SLEEP finds it: sinter is restored and the events caught are pending (R371, R372). -/
def State.afterSleep (s : State) : State :=
  let t := { s.sleepHub with
    regs := s.regs.filter fun (e : Nat × Word) => keptSleep e.1, act := [], springLatch := [] }.keepLocked s
  (s.springLatch.map (·.1)).foldl (fun (t : State) n => t.irq n) t.restoreSinter

/-- NRG at a wake: the sleep counts no cycle, so its instants count from the wake (R427; assumption 66). -/
def State.wakeNrg (s : State) : Nrg :=
  { s.nrg with last := s.now, edge := s.now, good := 0, lostAt := s.now, lostN := 1 }

/-- SLEEP_WAKE: a wake source has been latched, and the device is back in RUN (R445). The watchdog counts from 0. -/
def execSleepWake (s : State) : Res :=
  .next (match s.pwr.wakeAt with
    | none => s
    | some w =>
      if s.fld R.PWC_STATE 2 0 ≠ 3 then s
      else
        let t := (s.setNrg s.wakeNrg).afterSleep.startCores.diesUp.rootCheck.calBoot.reloadKeys
        let t := t.setPwr { t.pwr with wdStart := t.now, wakeAt := none }
        ((t.setF R.PWC_STATE 6 4 3).wr R.PWC_WTIME (Word.ofNat ((s.now - w) / 400))).loadWake)

/-- WAKE_FILTER_MATCH: a frame reaches MGT0 or MGT1 in SLEEP (R443); any other than a match is discarded. -/
def execWakeFilterMatch (mgt : Bool) (frame : List Byte) (fcsOk : Bool) (s : State) : Res :=
  let p := 8 + b2n mgt
  let c := R.PWC_WFCFG
  .next (if s.bit c 31 ∧ s.bit c (16 + b2n mgt) ∧ 64 ≤ frame.length
      ∧ frame.length ≤ s.maxFrame p ∧ fcsOk ∧ frame.take 6 = s.macAddr p ∧ frEt frame = s.fld c 15 0
      ∧ (frBody frame).take 8 = leBytes 4 (s.rd R.PWC_WPAT0).toNat ++ leBytes 4 (s.rd R.PWC_WPAT1).toNat then
      s.latchEdge 0x01A
    else s)

end Sys2Proof.Machine
end

