-- ==== Sys2Proof/Machine/Spares.lean ====
section
/-!
DEFINITION. Spares (R492 to R494, R518): swaps asked for, retirement and self-tests; the faults of DRAM and C-dies,
and FAULT_READ (R496, R497).
-/
namespace Sys2Proof.Machine
open Sys2Proof

/-! ### Swaps asked for (R493) -/

/-- The status of a swap asked for by a command or by SPA_SWAPGO. A refusal has no other effect (R385). -/
def State.spareStatus (s : State) (kind unit : Nat) : Nat :=
  if !spareForm kind unit then E_ARG
  else if !s.spareLeft kind unit then E_SPACE
  else if !s.swapState kind unit then E_STATE
  else OK

/-- SPARE_SWAP: kind in byte 0, unit in bytes 2–3. A swap that waits for a frame boundary is answered there. -/
def execSpareSwap (net : Bool) (s : State) : Res :=
  .next (s.takeCmd net 0x0072 anyPayload fun s r =>
    let k := leAt r.payload 0 1
    let u := leAt r.payload 2 2
    let st := s.spareStatus k u
    if st ≠ OK then s.respond r st []
    else if swapWaits k then { s with swapsDue := s.swapsDue ++ [{ kind := k, unit := u, req := some r }] }
    else (s.swapUnit k u).respond r OK [])

/-- SPA_SWAPGO: the result is valid once the swap is done. -/
def execSpaSwapgo (s : State) : Res :=
  let k := s.fld R.SPA_SWAPREQ 27 24
  let u := s.fld R.SPA_SWAPREQ 15 0
  let st := s.spareStatus k u
  .next (if st = OK ∧ swapWaits k then
      { s.wr R.SPA_SWAPRES 0 with swapsDue := s.swapsDue ++ [{ kind := k, unit := u, reg := true }] }
    else (if st = OK then s.swapUnit k u else s).wr R.SPA_SWAPRES (Word.ofNat (2 ^ 31 + st)))

/-! ### Retirement (R492) -/

/-- Two hardware causes on a physical vent within 86,400 s. -/
def State.twoFaults (s : State) (p : Nat) : Bool :=
  match (s.hwFaults.filter fun e => e.1 = p).map (·.2) with
  | a :: b :: _ => decide (a - b ≤ 86400 * 400000000)
  | _ => false

/-- The condition under which a unit is retired. For the kinds that an event of the unit itself retires (write verify,
lock lost, internal check), this command is that event. -/
def State.retires (s : State) (kind unit : Nat) : Bool :=
  s.failedUnits.contains (kind, unit) ||
  match kind with
  | 0 => s.twoFaults unit
  | 1 => (s.crater (unit / 1024)).marked.contains (unit / 64 % 16, unit % 64)
  | 8 => false
  | _ => true

/-- SPARE_SWAP_AUTO: a retired unit is replaced at its swap point, or goes out with no spare left. A kind that swaps at a
frame boundary waits for the next one. -/
def execSpareSwapAuto (kind unit : Nat) (s : State) : Res :=
  .next (if !spareForm kind unit ∨ !s.retires kind unit ∨ !s.unitServes kind unit then s
    else if swapWaits kind ∧ s.spareLeft kind unit then
      let d : SwapDue := { kind, unit }
      if s.swapsDue.contains d then s else { s with swapsDue := s.swapsDue ++ [d] }
    else if !s.swapState kind unit then s
    else
      let s := if 2 ≤ kind ∧ kind ≤ 4 ∧ !s.failedUnits.contains (kind, unit) then s.spareEvent kind else s
      if s.spareLeft kind unit then s.swapUnit kind unit else s.unitOut kind unit)

/-- A failed self-test: recorded, and the unit is retired. A spare vent that fails is retired where it is. -/
def State.testFailed (s : State) (kind unit : Nat) : State :=
  let s := s.log 0x0062 1 kind unit
  if kind = 0 ∧ unit % 17 = 16 ∧ s.fld (R.SPA_CR (unit / 17)) 31 27 = 31 then s.setF (R.SPA_CR (unit / 17)) 16 16 1
  else { s with failedUnits := (kind, unit) :: s.failedUnits.filter (· ≠ (kind, unit)) }

/-- The unit is a spare vent, which is tested in every show state. -/
def State.spareUnit (s : State) (e : Nat × Nat) : Bool :=
  e.1 == 0 && e.2 % 17 == 16 && s.fld (R.SPA_CR (e.2 / 17)) 31 27 == 31

/-- SPA_SELFTEST: every period_s, with the units whose test fails; other units than spares are tested only in IDLE or
LOADED (R493). -/
def execSpaSelftest (fails : List (Nat × Nat)) (s : State) : Res :=
  .next (if !s.bit R.SPA_CTRL 31 ∨ !s.clocksRun then s
    else
      let idle := s.showState = IDLE ∨ s.showState = LOADED
      (fails.filter fun e => spareForm e.1 e.2 && (idle || s.spareUnit e)).foldl
        (fun (s : State) e => s.testFailed e.1 e.2) s)

/-! ### Faults of memory and dies, and FAULT_READ -/

/-- DRM_UE: an uncorrectable DRAM error at an address, with its channel (R30, R497). -/
def execDrmUe (addr : Nat) (s : State) : Res :=
  .next (if inDram addr ∧ s.clocksRun then
      s.log 0x0004 3 (addr % 2 ^ 32) (addr / 2 ^ 32) ((addr / 256 % 16) ^^^ (addr / 65536 % 16))
    else s)

/-- CDIE_LOST: the die stops, and its loss is recorded. -/
def execCdieLost (d : BitVec 2) (s : State) : Res :=
  let n := d.toNat
  .next (if (s.die n).lost then s
    else
      let s := s.dieOff n
      (s.setDie n { s.die n with lost := true }).log 0x0005 3 n)

/-- The 32 bytes of a record (R495). -/
def FaultRec.bytes (r : FaultRec) : List Byte :=
  leBytes 4 r.seq ++ leBytes 4 r.ns.toNat ++ leBytes 4 r.frame.toNat ++ leBytes 2 r.code
    ++ [BitVec.ofNat 8 r.sev, BitVec.ofNat 8 r.count] ++ leBytes 4 r.d0.toNat ++ leBytes 4 r.d1.toNat
    ++ leBytes 4 r.d2.toNat ++ leBytes 4 r.d3.toNat

/-- FAULT_READ: the records held from the first sequence number on, of the log or of NVS (R496). -/
def execFaultRead (net : Bool) (s : State) : Res :=
  .next (s.hostCmd net 0x0073 anyPayload fun s r =>
    let first := leAt r.payload 0 4
    let n := leAt r.payload 4 1
    if n = 0 ∨ 127 < n then (s, E_ARG, [])
    else
      let l := if leAt r.payload 5 1 % 2 = 1 then s.fltNvs else s.flt
      (s, OK, (List.range n).flatMap fun i =>
        match l.find? fun x => x.seq = (first + i) % 2 ^ 32 with
        | some x => x.bytes
        | none => []))

end Sys2Proof.Machine
end

