-- ==== Sys2Proof/Machine/Mmio.lean ====
section
/-!
DEFINITION. Access to the register space: who reaches which register (R39 to R41, R376, R377), what a write leaves
(R9, R10) with the values that the register tables say are stored in its place, the action of a register that has one,
and the value of a register as read.
-/
namespace Sys2Proof.Machine
open Sys2Proof

/-- The state that a command leaves. -/
def State.ran (s : State) (f : State → Res) : State :=
  match f s with
  | .next t => t
  | _ => s

/-- Indices of a register within its array. -/
def RegDesc.i1 (d : RegDesc) (a : Nat) : Nat := (a - d.base) / d.s1
def RegDesc.i2 (d : RegDesc) (a : Nat) : Nat := (a - d.base) % d.s1 / d.s2

/-! ### Values stored as another (chapter tables) -/

def clampMin (hi lo n : Nat) (w : Word) : Word := if fldOf w hi lo < n then setFld w hi lo n else w
def clampMax (hi lo n : Nat) (w : Word) : Word := if n < fldOf w hi lo then setFld w hi lo n else w

/-- FLK_TRIM is clamped to ±0x0040_0000. -/
def clampTrim (w : Word) : Word := Word.ofInt (max (-0x400000) (min 0x400000 w.toInt))

/-- The value stored where the tables name another than the one written. -/
def State.stored (s : State) (base : Nat) (w : Word) : Word :=
  if base = R.SCH_STARVE then clampMin 15 0 50 w
  else if base = R.CAL_QUANTUM 0 then clampMin 7 0 1 w
  else if base = R.CAL_QCAP 0 0 then clampMax 12 0 4096 (clampMin 12 0 1 w)
  else if base = R.BGT_LIMIT then clampMax 7 0 180 (clampMin 7 0 40 w)
  else if base = R.BGT_ROT then clampMin 15 0 1 w
  else if base = R.FLK_SHORTEN then clampMax 8 0 256 w
  else if base = R.FLK_LAG then clampMin 3 0 1 (clampMax 31 16 1000 (clampMin 31 16 10 w))
  else if base = R.FLK_FSYNC then clampMin 23 16 1 w
  else if base = R.FLK_TRIM then clampTrim w
  else if base = R.SCN_LEAD 0 then clampMin 9 0 1 w
  else if base = R.SCN_L_BLANK 0 0 then clampMin 15 0 1 w
  else if base = R.UNV_KEEP then clampMax 10 0 2000 (clampMin 10 0 100 w)
  else if base = R.MAC_P_PAUSE 0 then clampMin 15 0 1 w
  else if base = R.HST_CFG then clampMin 31 16 1 w
  else if base = R.NRG_PLS_CFG 0 then clampMin 7 0 1 w
  else if base = R.NRG_ZCFG 0 then clampMin 11 8 1 w
  else if base = R.CHN_CFG then clampMax 28 24 16 (clampMin 28 24 1 w)
  else if base = R.PAIR_CFG then clampMin 19 16 1 (clampMin 23 20 1 w)
  else if base = R.SPA_CTRL then clampMin 15 0 1 w
  else if base = R.FLT_READ then (if 0 < sdiff w (s.rd R.FLT_NEXT) then s.rd R.FLT_NEXT else w)
  else w

/-- A register with no behaviour of its own: its access codes (R9, R10), with RL registers locked by their block. -/
def State.plainWrite (s : State) (d : RegDesc) (a : Nat) (w : Word) : State :=
  let locked := if a / 0x10000 = 0x30001D then s.bit R.SNS_LOCK 0 else s.bit R.MBX_LOCK 0
  s.shadowWr a (d.written locked (s.rd a) (s.stored d.base w))

/-! ### Registers whose write acts -/

/-- SYS_DRST: every domain named resets; a C-die named while frames run refuses the write (R453). -/
def State.drstWrite (s : State) (w : Word) : State :=
  if fldOf w 15 12 ≠ 0 ∧ (s.bit R.FLK_CTRL 0 ∨ s.flkEn) then s.drstDone E_STATE
  else
    let go (lo n : Nat) (f : Nat → State → Res) (s : State) : State :=
      (List.range n).foldl (fun (s : State) i => if bitOf w (lo + i) then s.ran (f i) else s) s
    let s := go 0 8 (fun i => execDrstServiceCore (BitVec.ofNat 3 i)) s
    let s := if bitOf w 8 then s.ran execDrstLangal else s
    go 16 8 (fun i => execDrstScnHead (BitVec.ofNat 3 i)) (go 12 4 (fun i => execDrstCdie (BitVec.ofNat 2 i)) s)

/-- SCH ports: only the owner writes one (R167). -/
def State.schWrite (s : State) (who : Master) (d : RegDesc) (a : Nat) (w : Word) : State :=
  let m := d.i1 a
  if d.base = R.SCH_EVENT then s.ran (execSchEventWrite w)
  else if d.base = R.SCH_SNAP then if bitOf w 0 then s.ran execSchSnapGo else s
  else if d.base = R.SCH_P_CANCEL 0 then s.ran (execSchPortCancel m who w)
  else if R.SCH_P_DESC 0 0 ≤ d.base then
    if d.base = R.SCH_P_DESC 0 0 ∧ d.i2 a = 7 then s.ran (execSchPortSubmit m who w)
    else if portOwner who ≠ m then s.refuseAccess who a 1
    else s.plainWrite d a w
  else s.plainWrite d a w

/-- A write changes what a target takes: a delivery that R367 no longer allows is withdrawn. -/
def State.icuWrite (s : State) (who : Master) (d : RegDesc) (a : Nat) (w : Word) : State :=
  let t := d.i1 a
  if d.base = R.ICU_SWSET then s.ran (execIcuSwset w)
  else if d.base = R.ICU_SWCLR then s.ran (execIcuSwclr w)
  else if d.base = R.ICU_HEOI then if who = .host then s.ran (execIcuHeoi w) else s.refuseAccess who a 1
  else if d.base = R.ICU_T_EOI 0 then s.ran (execIcuEoi t who w)
  else if d.base = R.ICU_SRC 0 then s.ran (execIcuSrcWrite who t w)
  else if d.base = R.ICU_T_CTRL 0 then
    let s := s.plainWrite d a w
    (if bitOf w 0 then s.unfreeze t else s).withdrawAt t
  else if d.base = R.ICU_T_THRESH 0 then (s.plainWrite d a w).withdrawAt t
  else s.plainWrite d a w

/-- FIFO registers: configuration is written while the FIFO is disabled, and the ports are the host's (R350, R351,
R354). -/
def State.queWrite (s : State) (who : Master) (d : RegDesc) (a : Nat) (w : Word) : State :=
  let n := d.i1 a
  if d.base = R.QUE_Q_CFG 0 then
    if s.qEn n then (if bitOf w 31 then s else s.ran (execQueDisable n))
    else if bitOf w 31 then s.ran (execQueEnable n w)
    else s.plainWrite d a w
  else if d.base = R.QUE_Q_BASE 0 ∨ d.base = R.QUE_Q_ACL 0 ∨ d.base = R.QUE_Q_WM 0 ∨ d.base = R.QUE_Q_FLOW 0 then
    if s.qEn n then s else s.plainWrite d a w
  else if d.base = R.QUE_Q_PUSH 0 then
    if who = .host then s.ran (execQuePushWord n w) else s.refuseAccess who a 1
  else if d.base = R.QUE_Q_OP 0 then
    if who ≠ .host then s.refuseAccess who a 1
    else match fldOf w 1 0 with
      | 1 => s.ran (execQueOpMark n)
      | 2 => s.ran (execQueOpRewind n)
      | 3 => s.ran (execQueOpRelease n)
      | _ => s
  else s.plainWrite d a w

/-- Bushel windows and burst channels (R380, R382). -/
def State.bshWrite (s : State) (d : RegDesc) (a : Nat) (w : Word) : State :=
  let n := d.i1 a
  if d.base = R.BSH_W_CTRL 0 then
    let s := if bitOf w 0 then s.ran (execBshWindowArm (BitVec.ofNat 3 n)) else s
    if bitOf w 1 then s.ran (execBshWindowDisarm (BitVec.ofNat 3 n)) else s
  else if d.base = R.BSH_B_GO 0 then if bitOf w 0 then s.ran (execBshBurstGo (BitVec.ofNat 2 n)) else s
  else if d.base < R.BSH_W_CTRL 0 ∧ s.winArmed n then s
  else s.plainWrite d a w

/-- Check units (R435, R437). -/
def State.chkWrite (s : State) (d : RegDesc) (a : Nat) (w : Word) : State :=
  let n := d.i1 a
  if d.base = R.CHK_CTRL 0 then
    let s := if bitOf w 0 then s.chkStart n else s
    let s := if bitOf w 1 then s.chkFinish n else s
    if bitOf w 2 then s.chkStream n else s
  else if d.base = R.CHK_DATA8 0 then s.chkData n (leBytes 1 w.toNat)
  else if d.base = R.CHK_DATA32 0 then s.chkData n (leBytes 4 w.toNat)
  else if d.base = R.CHK_AV_IN 0 then s.ran (execChkAvIn (BitVec.ofNat 5 n) w)
  else if d.base = R.CHK_AV_STATE 0 then s.ran (execChkAvStateWrite (BitVec.ofNat 5 n) w)
  else s.plainWrite d a w

/-- MAC: rings take their configuration while disabled, and fast-path entries while disarmed (chapter 10). -/
def State.macWrite (s : State) (d : RegDesc) (a : Nat) (w : Word) : State :=
  let n := d.i1 a
  let p := BitVec.ofNat 4 n
  let r := d.i2 a
  let ringEn := s.bit (R.MAC_P_R_CFG n r) 31
  if d.base = R.MAC_P_COMMIT 0 then if bitOf w 0 then s.ran (execMacCommit p) else s
  else if d.base = R.MAC_RCOMMIT then if bitOf w 0 then s.ran execMacRcommit else s
  else if d.base = R.MAC_P_R_TAIL 0 0 then s.ran (execRingTailWrite p (BitVec.ofNat 4 r) w)
  else if d.base = R.MAC_P_R_BASE_LO 0 0 ∨ d.base = R.MAC_P_R_BASE_HI 0 0 then
    if ringEn then s else s.plainWrite d a w
  else if d.base = R.MAC_P_R_CFG 0 0 then
    if ringEn then (if bitOf w 31 then s else s.setF a 31 31 0)
    else
      let s := s.plainWrite d a w
      if bitOf w 31 then (s.wr (R.MAC_P_R_HEAD n r) 0).wr (R.MAC_P_R_TAIL n r) 0 else s
  else if d.base = R.MAC_FP_CTRL 0 then
    let s := if bitOf w 0 then s.ran (execFpArm (BitVec.ofNat 5 n)) else s
    let s := if bitOf w 1 then s.fpFire n else s
    if bitOf w 2 then s.fpDisarm n else s
  else if d.base = R.MAC_FP_CFG 0 ∨ d.base = R.MAC_FP_ADDR 0 then
    if (s.fpPacket n).isSome then s else s.plainWrite d a w
  else if d.base = R.MAC_VF_CFG 0 then (s.plainWrite d a w).vfEnable n
  else s.plainWrite d a w

/-- Spread drive (R269, R271). -/
def State.spdWrite (s : State) (d : RegDesc) (a : Nat) (w : Word) : State :=
  let n := BitVec.ofNat 7 (d.i1 a)
  if d.base = R.SPD_COMMIT then if bitOf w 0 then s.ran execSpdCommit else s
  else if d.base = R.SPD_CH_FGO 0 then
    let s := if bitOf w 0 then s.ran (execSpdFadeGo n) else s
    if bitOf w 1 then s.ran (execSpdRelease n) else s
  else if d.base = R.SPD_CH_LEVEL 0 then s.ran (execSpdLevelWrite n w)
  else s.plainWrite d a w

/-- UPD: the management core in secure world writes UPD_CONFIRM and UPD_CFG, and the host UPD_RECOVER in recovery. -/
def State.updWrite (s : State) (who : Master) (d : RegDesc) (a : Nat) (w : Word) : State :=
  if d.base = R.UPD_CONFIRM then
    if who ≠ .mgmt true then s.refuseAccess who a 1 else if bitOf w 0 then s.ran execUpdConfirm else s
  else if d.base = R.UPD_CFG then
    if who ≠ .mgmt true then s.refuseAccess who a 1 else s.plainWrite d a w
  else if d.base = R.UPD_RECOVER then
    if who ≠ .host ∨ !s.upd.recovery then s.refuseAccess who a 1
    else if bitOf w 0 then s.ran execUpdRecover else s
  else s.plainWrite d a w

/-- BGT_CTRL: with en = 0 every budget counter is held at its cap (R160). -/
def State.bgtWrite (s : State) (d : RegDesc) (a : Nat) (w : Word) : State :=
  let s := s.plainWrite d a w
  if d.base = R.BGT_CTRL ∧ !bitOf w 0 then
    (List.range 16).foldl (fun (s : State) k => s.setBudget k (s.bcap k)) s
  else s

/-- A commit register of a block with one. -/
def State.commitWrite (s : State) (w : Word) (f : State → Res) : State := if bitOf w 0 then s.ran f else s

/-- A write that its master may make reaches the register of descriptor d. -/
def State.regWrite (s : State) (who : Master) (d : RegDesc) (a : Nat) (w : Word) : State :=
  let n := d.i1 a
  match a / 0x10000 with
  | 0x300000 =>
    if d.base = R.SYS_RESET then s.ran (execSysResetWarm who w)
    else if d.base = R.SYS_DRST then s.drstWrite w
    else s.plainWrite d a w
  | 0x300001 =>
    if d.base = R.PWC_REQ then (s.pwcReq (fldOf w 2 0)).2
    else if d.base = R.PWC_WDOG then s.ran (execPwcWdogEnable w)
    else if d.base = R.PWC_WDKICK then s.ran (execPwcWdkickWrite w)
    else s.plainWrite d a w
  | 0x300002 => s.bgtWrite d a w
  | 0x300003 => s.schWrite who d a w
  | 0x300004 => s.icuWrite who d a w
  | 0x300005 =>
    if d.base = R.MBX_LOCK then s.ran (execMbxLockWrite who w)
    else if d.base = R.MBX_C_DATA 0 then
      if who = .host then s.ran (execMbxDataWrite n w) else s.refuseAccess who a 1
    else s.plainWrite d a w
  | 0x300006 => s.queWrite who d a w
  | 0x300007 => s.bshWrite d a w
  | 0x300008 =>
    if d.base = R.HST_APER then s.ran (execHstAperWrite w)
    else if d.base = R.HST_DOORBELL then s.ran (execHostDoorbell w)
    else s.plainWrite d a w
  | 0x300009 => if d.base = R.KEY_GO then (if bitOf w 0 then s.keyGo else s) else s.plainWrite d a w
  | 0x30000A => s.chkWrite d a w
  | 0x30000B =>
    if d.base = R.TSU_COMMIT then s.commitWrite w execTsuCommit
    else if d.base = R.TSU_CAP then s.commitWrite w execTsuCapGo
    else if d.base = R.TSU_STEP then s.shadowWr a w
    else s.plainWrite d a w
  | 0x30000C =>
    if d.base = R.FLK_COMMIT then s.commitWrite w execFlkCommit
    else if d.base = R.FLK_SEAL then s.ran (execFlkSealWrite w)
    else s.plainWrite d a w
  | 0x30000D =>
    if d.base = R.SCN_COMMIT 0 then s.commitWrite w (execScnCommit (BitVec.ofNat 3 n)) else s.plainWrite d a w
  | 0x30000E => if d.base = R.LGV_COMMIT then s.commitWrite w execLgvCommit else s.plainWrite d a w
  | 0x30000F => s.spdWrite d a w
  | 0x300010 =>
    if d.base = R.DMX_P_COMMIT 0 then s.commitWrite w (execDmxCommit (BitVec.ofNat 4 n))
    else if d.base = R.DMX_P_RDMGO 0 then s.commitWrite w (execDmxRdmgo (BitVec.ofNat 4 n))
    else s.plainWrite d a w
  | 0x300011 => s.macWrite d a w
  | 0x300012 => if d.base = R.UNV_COMMIT then s.commitWrite w execUnvCommit else s.plainWrite d a w
  | 0x300013 =>
    if d.base = R.NRG_N then s.ran (execNrgNWrite w)
    else if d.base = R.NRG_PLS_WT 0 then (s.plainWrite d a w).noteWeight n (s.rd a)
    else s.plainWrite d a w
  | 0x300015 => s.updWrite who d a w
  | 0x300016 => if d.base = R.PAIR_SWAPGO then s.commitWrite w execPairSwapgo else s.plainWrite d a w
  | 0x300017 => if d.base = R.SPA_SWAPGO then s.commitWrite w execSpaSwapgo else s.plainWrite d a w
  | 0x300019 =>
    if d.base = R.CHN_RXREL then s.ran (execChnRxrelWrite w)
    else if d.base = R.CHN_CFG ∧ s.chnEn then s
    else s.plainWrite d a w
  | 0x30001D => if d.base = R.SNS_LOCK then s.ran (execSnsLockWrite w) else s.plainWrite d a w
  | 0x3FFFFF => s.sprEnqueue a w false
  | _ =>
    if d.base = R.CAL_COMMIT 0 then s.commitWrite w (execCalderaCommit n) else s.plainWrite d a w

/-! ### Reach and levels (R41, R376, R377) -/

/-- Where a BAR0 offset leads. -/
inductive Bar0 where
  | dev (a : Nat)
  | msix (i : Nat)
  | pba
  | reserved
  deriving DecidableEq, Repr

def bar0 (o : Nat) : Bar0 :=
  if o < 0x1E0000 then .dev (0x3000000000 + o)
  else if 0x1F00000 ≤ o ∧ o < 0x1F00400 then .msix (o - 0x1F00000)
  else if 0x1F01000 ≤ o ∧ o < 0x1F01008 then .pba
  else if 0x2000000 ≤ o ∧ o < 0x2100000 then .dev (0x3001000000 + (o - 0x2000000))
  else if 0x3FF0000 ≤ o ∧ o < 0x4000000 then .dev (0x3FFFFF0000 + (o - 0x3FF0000))
  else .reserved

/-- More than any level: such a write is never made through BAR0. -/
abbrev NEVER : Nat := 99

/-- The level that a host write to a register needs (R377). -/
def hostWriteLevel (a : Nat) : Nat :=
  if a = R.SYS_ID ∨ a = R.SYS_STRAP ∨ a = R.HST_PCIID ∨ (R.HST_DOORBELL ≤ a ∧ a < 0x3000090000) ∨ a = R.ICU_HEOI then 0
  else if a = R.HST_APER then OPERATOR
  else match a / 0x10000 with
    | 0x300004 => OPERATOR
    | 0x300005 => OPERATOR
    | 0x300006 => OPERATOR
    | 0x300003 => if R.SCH_P_DESC 0 0 ≤ a ∧ a < R.SCH_P_DESC 1 0 then OPERATOR else ENGINEER
    | 0x300009 => NEVER
    | 0x300014 => NEVER
    | 0x300015 => NEVER
    | 0x30001B => NEVER
    | 0x3FFFFF => CUSTODIAN
    | _ => ENGINEER

/-- A master may write a register: the host by its level, and UPD_RECOVER in recovery; the KEY block and the Spring
registers only the management core in secure world; the Langal engine only its own ICU registers (R363, R368). -/
def State.mayWrite (s : State) (who : Master) (a : Nat) : Bool :=
  match who with
  | .host => decide (hostWriteLevel a ≤ s.hostLevel) || (a == R.UPD_RECOVER && s.upd.recovery)
  | .mgmt secure => coreReach 0 secure a 1
  | .svc n secure => coreReach (n.toNat + 1) secure a 1
  | .langal => a == R.ICU_T_EOI 9
  | .lhb => false

/-- The register belongs to the Langal engine: the DMX block in both Langal modes (R309), and the LGL block in Langal
strict, which only the management core reaches. -/
def State.langalKeeps (s : State) (who : Master) (a : Nat) : Bool :=
  (a / 0x10000 == 0x300010 && s.langalOwns)
    || (a / 0x10000 == 0x300018 && s.strict && who != .mgmt true && who != .mgmt false)

/-- A write of a register at its device address. -/
def State.devWrite (s : State) (who : Master) (a : Nat) (w : Word) : State :=
  match regDesc a with
  | some d =>
    if a % 4 = 0 ∧ s.mayWrite who a ∧ !s.langalKeeps who a then s.regWrite who d a w else s.refuseAccess who a 1
  | none => s.refuseAccess who a 1

/-- The level that a host read of a register needs (R377). -/
def hostReadLevel (a : Nat) : Nat :=
  if a = R.SYS_ID ∨ a = R.SYS_STRAP ∨ a / 0x10000 = 0x300008 ∨ a = R.ICU_HEOI then 0
  else match a / 0x10000 with
    | 0x300009 => ENGINEER
    | 0x300014 => ENGINEER
    | 0x300015 => ENGINEER
    | 0x30001B => ENGINEER
    | _ => OBSERVER

/-- A master may read a register (R41, R377); UPD is read in recovery too, where no session can be open. -/
def State.mayRead (s : State) (who : Master) (a : Nat) : Bool :=
  match who with
  | .host => decide (hostReadLevel a ≤ s.hostLevel) || (a / 0x10000 == 0x300015 && s.upd.recovery)
  | .mgmt secure => coreReach 0 secure a 0
  | .svc n secure => coreReach (n.toNat + 1) secure a 0
  | .langal => a == R.ICU_T_EOI 9
  | .lhb => false

/-! ### Registers as read -/

/-- The word of a fault record (R495, R496). -/
def State.fltWord (s : State) (i j : Nat) : Word :=
  match s.flt.find? fun r => r.seq % 1024 = i with
  | some r => Word.ofNat (leAt r.bytes (4 * j) 4)
  | none => 0

/-- The value of a register: what it stores without its write-only bits, or what the machine computes for it. -/
def State.regValue (s : State) (d : RegDesc) (a : Nat) : Word :=
  let n := d.i1 a
  let base := s.rd a &&& ~~~(Word.ofNat d.wo)
  match a / 0x10000 with
  | 0x300004 =>
    if d.base = R.ICU_PEND 0 then s.icuPendWord n
    else if d.base = R.ICU_ISVC 0 then s.icuSvcWord n
    else if d.base = R.ICU_SRC 0 then s.icuSrcWord n
    else if d.base = R.ICU_T_STACK 0 then s.icuStackWord n
    else if d.base = R.ICU_T_STAT 0 then s.icuStatWord n
    else base
  | 0x300005 =>
    if d.base = R.MBX_C_STAT 0 then s.mbxStat n
    else if d.base = R.MBX_PEND 0 0 then State.icuBits (s.mbxPend n) (d.i2 a)
    else base
  | 0x300006 =>
    if d.base = R.QUE_Q_LEVEL 0 then s.qLevel n
    else if d.base = R.QUE_Q_STAT 0 then s.qStat n
    else if d.base = R.QUE_FCSTATE then setFld (State.icuBits s.fcAsserted 0) 31 8 0
    else base
  | 0x300008 => if d.base = R.HST_STATE then s.hstState else base
  | 0x300009 =>
    if d.base = R.KEY_STATUS then s.keyStatus else if d.base = R.KEY_SLOT 0 then s.keySlotWord n else base
  | 0x30000D => if d.base = R.SCN_EARLIEST 0 then (s.headEarliest n).getD base else base
  | 0x300010 => if d.base = R.DMX_P_STAT 0 then setFld base 2 2 (b2n (s.dp n).driving) else base
  | 0x300011 => if d.base = R.MAC_P_STAT 0 then setFld base 31 24 (s.rxLevel n / 1024) else base
  | 0x300013 => if d.base = R.NRG_STAT ∧ !s.bit R.NRG_CTRL 2 then setFld base 0 0 1 else base
  | 0x300019 => if d.base = R.CHN_RXFREE then Word.ofNat s.chnFree else base
  | 0x30001A => if d.base = R.FLT_REC 0 0 then s.fltWord n (d.i2 a) else base
  | 0x3FFFFF =>
    if d.base = R.SPR_STAT then setFld base 8 8 (b2n (!s.pwr.sprQ.isEmpty || !s.pwr.sprStall.isEmpty)) else base
  | k =>
    if 0x300100 ≤ k ∧ d.base = R.CAL_GUARD 0 then
      match s.guardLevel n with
      | some l => Word.ofNat (256 + l)
      | none => 0
    else base

/-- A read of a register with a side effect, or of a sample: the word and the state after it. KEY_TRNG pops: whether entropy
is ready, and the word, are free. TSU_NS is up to 3 ticks old (R49, R173). -/
def State.regPop (s : State) (d : RegDesc) (a : Nat) : Word × State :=
  if d.base = R.KEY_TRNG then
    let ent := if s.free 60 2 = 1 then some (Word.ofNat (s.free 61 (2 ^ 32))) else none
    let t := s.useFree.ran (execKeyTrngRead ent)
    (t.hostRead, { t with hostRead := s.hostRead })
  else if d.base = R.TSU_NS then (s.tsuAt (s.free 72 4), s.useFree)
  else if (s.liveAcct a).isSome then s.readLive a
  else (s.regValue d a, s)

/-- A read of a register: the word and the state after it, or none where the register is reserved for its master. The FIFO
and mailbox ports are the host's, and a scheduler port its owner's (R167, R354, R362). -/
def State.regRead (s : State) (who : Master) (a : Nat) : Option (Word × State) :=
  match regDesc a with
  | none => none
  | some d =>
    if s.langalKeeps who a then none
    else if d.base = R.QUE_Q_POP 0 ∨ d.base = R.MBX_C_DATA 0 then
      (if who = .host then
        let t := s.ran (if d.base = R.QUE_Q_POP 0 then execQuePopRead (d.i1 a) else execMbxDataRead (d.i1 a))
        some (t.hostRead, t)
      else none)
    else if R.SCH_P_DESC 0 0 ≤ a ∧ a < R.SCH_P_DESC 10 0 ∧ portOwner who ≠ d.i1 a then none
    else some (s.regPop d a)

/-- A read of a register at its device address: the word stands in `hostRead`, 0 where the access is reserved (R40). -/
def State.devRead (s : State) (who : Master) (a : Nat) : State :=
  match (if s.mayRead who a then s.regRead who a else none) with
  | some (w, t) => { t with hostRead := w }
  | none => { s.refuseAccess who a 0 with hostRead := 0 }

/-- A write of the MSI-X table; unmasking the vector of a waiting delivery sends its message (R373). -/
def State.msixWrite (s : State) (o : Nat) (w : Word) : State :=
  if o % 16 = 12 then
    let s := s.setHost { s.host with msixMask := mset (fun _ => true) s.host.msixMask (o / 16) (bitOf w 0) }
    match (s.target 10).dlv with
    | some n => s.claimHost n
    | none => s
  else s.setHost { s.host with msixWords := mset (fun _ => 0) s.host.msixWords (o / 4) w }

/-- A write of byte b to LHB register a (R335): a register with an action of its own makes it. -/
def State.lhbWriteReg (s : State) (a : Nat) (b : Byte) : State :=
  match a with
  | 0x6 => s.ran (execLglHaddrhWrite b)
  | 0x7 => s.ran (execLglHdataAccess (some b))
  | 0x8 => s.ran (execLglHspaceWrite b)
  | _ => s.lhbRegWrite a b

/-- A vector whose message waits: the source that the host has been given, while its vector is masked (R373). -/
def State.msixPending (s : State) (v : Nat) : Bool :=
  match (s.target 10).dlv with
  | some n => s.fld (R.ICU_SRC n) 21 16 = v
  | none => false

/-- A read of the MSI-X table (offset below 0x1000), or of the pending-bit array. -/
def State.msixRead (s : State) (o : Nat) : Word :=
  if o % 16 = 12 then Word.ofNat (b2n (mget (fun _ => true) s.host.msixMask (o / 16)))
  else mget (fun _ => 0) s.host.msixWords (o / 4)

/-- Kind of an access in a record (R516). -/
def accKind : RegAccess → Nat
  | .read _ => 0
  | _ => 1
/-- Bytes of an access. -/
def accSize : RegAccess → Nat
  | .write n _ => n
  | .read n => n
  | .spi _ => 1

/-- A register access reaches its device address: aligned words only (R39). -/
def State.devAccess (s : State) (who : Master) (a : Nat) (acc : RegAccess) : State :=
  match acc with
  | .write 4 w => s.devWrite who a w
  | .read 4 => if a % 4 = 0 then s.devRead who a else { s.refuseAccess who a 0 with hostRead := 0 }
  | .read _ => { s.refuseAccess who a 0 with hostRead := 0 }
  | _ => s.refuseAccess who a 1

/-- An access of BAR0 at offset o (R376). In Langal strict the link is held down, and no access arrives (R4). -/
def State.barAccess (s : State) (o : Nat) (acc : RegAccess) : State :=
  let res := if accKind acc = 0 then { s.busRangeRaw o 0 0 0 with hostRead := 0 } else s.busRangeRaw o 1 0 0
  if s.strict then s
  else match bar0 o with
    | .dev x => s.devAccess .host x acc
    | .msix i => if o % 4 ≠ 0 then res else (match acc with
        | .write 4 w => s.msixWrite i w
        | .read 4 => { s with hostRead := s.msixRead i }
        | _ => res)
    | .pba => if o % 4 ≠ 0 then res else (match acc with
        | .write 4 _ => s
        | .read 4 => { s with hostRead := State.icuBits s.msixPending ((o - 0x1F01000) / 4) }
        | _ => res)
    | .reserved => res

/-- The number that bits spell, most significant first. -/
def bitsMsb (l : List Bool) : Nat := l.foldl (fun n b => 2 * n + b2n b) 0

/-- An access of the LHB. The form that LHB_SEL selects answers (R325). A frame of the SPI form is 16 bits, most significant
first: [15] read, [11:8] the register, [7:0] the data; bits [14:12] are reserved and ignored, and a frame of any other length is
discarded (R334). -/
def State.lhbAccess (s : State) (a : Nat) (acc : RegAccess) : State :=
  match acc with
  | .write _ w => if s.lgl.lhbSpi then s else s.lhbWriteReg (a % 16) (BitVec.ofNat 8 w.toNat)
  | .read _ => if s.lgl.lhbSpi then s else s.lhbRegRead (a % 16)
  | .spi bits =>
    let f := bitsMsb bits
    if !s.lgl.lhbSpi ∨ bits.length ≠ 16 then s
    else if f / 2 ^ 15 = 1 then s.lhbRegRead (f / 256 % 16)
    else s.lhbWriteReg (f / 256 % 16) (BitVec.ofNat 8 f)

/-- REGISTER_WRITE: a write or a read of a register by a master. A core and the Langal engine give a device address, the
host a BAR0 offset (R376), the LHB a register number. A misaligned access of a core is an ALIGN exception (R71). With the hub's islands off
(R442) nothing is accessed. -/
def execRegisterWrite (who : Master) (a : Nat) (acc : RegAccess) (s : State) : Res :=
  .next (if !s.clocksRun then s else match who with
    | .host => s.barAccess a acc
    | .lhb => s.lhbAccess a acc
    | who =>
      match masterProc who with
      | some p => if a % accSize acc ≠ 0 then s.busError p C_ALIGN else s.devAccess who a acc
      | none => s.devAccess who a acc)

end Sys2Proof.Machine
end

