-- ==== Sys2Proof/Machine/LoadStore.lean ====
section
/-!
DEFINITION. Scalar loads and stores (R92): on a vent by R59, on a core through its segments and protection regions
(R75, R80) to memory, or as an aligned word to a register (R39).
-/
namespace Sys2Proof.Machine
open Sys2Proof

/-! ### Loads and stores of a core -/

/-- The master that a core is in its present world. -/
def State.coreMasterOf (s : State) (p : Proc) : Master :=
  let secure := (s.core (coreNo p)).secure
  match p with
  | .svc n => .svc n secure
  | _ => .mgmt secure

/-- A load of one element by a core: ALIGN, then PROT, then RANGE; then the value. A register is read as a word. -/
def State.coreLoad (s : State) (p : Proc) (a : Word) (size : Nat) (k : State → Nat → State) : State :=
  if a.toNat % size ≠ 0 then s.fault p C_ALIGN a
  else
    let n := coreNo p
    let c := s.core n
    let d := c.map a
    let bad := s.coreFault p 0 (a, C_RANGE, some d)
    match c.check d 0 with
    | .ok =>
      if !coreReach n c.secure d 0 then bad
      else if isMem d then
        let r := s.eccCheckAll (s.coreScratch n a size)
        if r.1 then k r.2 (leNat (r.2.coreBytes n a size)) else r.2.fault p C_ECC a
      else if size ≠ 4 then bad
      else match s.regRead (s.coreMasterOf p) d with
        | some (w, t) => k t w.toNat
        | none => bad
    | _ => s.fault p C_PROT a

/-- A core that still runs and whose store is not held completes it. -/
def State.coreStored (s : State) (p : Proc) (k : State → State) : State :=
  let c := s.core (coreNo p)
  if c.run = .running ∧ c.stall.isNone then k s else s

/-- A core's write of a register. Refusals of R41 have been made; a submission or a Spring write that finds no room holds
the store (R167, R450). -/
def State.coreRegWrite (s : State) (p : Proc) (d : RegDesc) (x : Nat) (w : Word) : State :=
  let n := coreNo p
  let who := s.coreMasterOf p
  if d.base = R.SCH_P_DESC 0 0 ∧ d.i2 x = 7 ∧ portOwner who = d.i1 x then
    let r := s.portSubmit (d.i1 x) w
    if r.1 then r.2 else r.2.setCore n { r.2.core n with stall := some (.submit (d.i1 x)) }
  else if inSpring x then
    let t := s.sprEnqueue x w true
    if s.pwr.sprStall.length < t.pwr.sprStall.length then t.setCore n { t.core n with stall := some .spring } else t
  else s.regWrite who d x w

/-- A register that a core's store reaches at all: its write is not a reserved access. -/
def coreWritable (who : Master) (d : RegDesc) (x : Nat) : Bool :=
  !(d.base = R.ICU_HEOI || d.base = R.QUE_Q_PUSH 0 || d.base = R.QUE_Q_OP 0 || d.base = R.MBX_C_DATA 0
    || d.base = R.UPD_RECOVER)
  && !((d.base = R.UPD_CONFIRM || d.base = R.UPD_CFG || d.base = R.SYS_RESET) && who != .mgmt true)
  && !(R.SCH_P_DESC 0 0 ≤ x && x < R.SCH_P_DESC 10 0 && portOwner who != d.i1 x)
  && !(d.base = R.ICU_T_EOI 0 && targetOwner who != d.i1 x)

/-- A store of one element by a core. -/
def State.coreStore (s : State) (p : Proc) (a : Word) (size v : Nat) (k : State → State) : State :=
  if a.toNat % size ≠ 0 then s.fault p C_ALIGN a
  else
    let n := coreNo p
    let c := s.core n
    let x := c.map a
    let bad := s.coreFault p 1 (a, C_RANGE, some x)
    match c.check x 1 with
    | .ok =>
      if !coreReach n c.secure x 1 then bad
      else if isMem x then
        let r := if size = 4 then (true, s) else s.eccCheckAll (s.coreScratch n a size)
        if r.1 then
          let t := { r.2 with ecc := if inScratch x then merase r.2.ecc (x / 4 * 4) else r.2.ecc }
          k (t.coreWrite n a (leBytes size v))
        else r.2.fault p C_ECC a
      else if size ≠ 4 then bad
      else match regDesc x with
        | some d =>
          if coreWritable (s.coreMasterOf p) d x && !s.langalKeeps (s.coreMasterOf p) x then (s.coreRegWrite p d x (Word.ofNat v)).coreStored p k else bad
        | none => bad
    | _ => s.fault p C_PROT a

/-! ### The instructions (R92) -/

/-- A load of `size` bytes at g(base) + sext(off). -/
def scalarLoad (p : Proc) (d base : GReg) (off : BitVec 16) (size : Nat) (conv : Nat → ResF) (s : State) : Res :=
  .next (s.issue p fun s =>
    let a := s.g p base.toNat + off.signExtend 32
    match p with
    | .vent n => s.ventLoad n a.toNat size fun s x => s.result p d (conv x)
    | _ => s.coreLoad p a size fun s x => s.result p d (conv x))

/-- A store of `size` bytes of g(d) at g(base) + sext(off). -/
def scalarStore (p : Proc) (d base : GReg) (off : BitVec 16) (size : Nat) (conv : Word → Nat × Word) (s : State) : Res :=
  .next (s.issue p fun s =>
    let a := s.g p base.toNat + off.signExtend 32
    let v := conv (s.g p d.toNat)
    match p with
    | .vent n => s.ventStore n a.toNat size v.1 fun s => (s.orFlags p v.2).retire p
    | _ => s.coreStore p a size v.1 fun s => (s.orFlags p v.2).retire p)

/-- The element sign-extended. -/
def loadSext (n x : Nat) : ResF := plain ((BitVec.ofNat n x).signExtend 32)
def loadZext (x : Nat) : ResF := plain (Word.ofNat x)
/-- The low bits of the register: a store keeps the bytes it writes. -/
def storeLow (n : Nat) (w : Word) : Nat × Word := (w.toNat % 2 ^ n, 0)

/-- LW (R92). -/
def execLw (p : Proc) (d base : GReg) (off : BitVec 16) (s : State) : Res := scalarLoad p d base off 4 loadZext s
/-- LH (R92). -/
def execLh (p : Proc) (d base : GReg) (off : BitVec 16) (s : State) : Res := scalarLoad p d base off 2 (loadSext 16) s
/-- LHU (R92). -/
def execLhu (p : Proc) (d base : GReg) (off : BitVec 16) (s : State) : Res := scalarLoad p d base off 2 loadZext s
/-- LB (R92). -/
def execLb (p : Proc) (d base : GReg) (off : BitVec 16) (s : State) : Res := scalarLoad p d base off 1 (loadSext 8) s
/-- LBU (R92). -/
def execLbu (p : Proc) (d base : GReg) (off : BitVec 16) (s : State) : Res := scalarLoad p d base off 1 loadZext s
/-- LHF: fp16 to fp32 (R57, R92). -/
def execLhf (p : Proc) (d base : GReg) (off : BitVec 16) (s : State) : Res := scalarLoad p d base off 2 f16to32 s
/-- SW (R92). -/
def execSw (p : Proc) (d base : GReg) (off : BitVec 16) (s : State) : Res := scalarStore p d base off 4 (storeLow 32) s
/-- SH (R92). -/
def execSh (p : Proc) (d base : GReg) (off : BitVec 16) (s : State) : Res := scalarStore p d base off 2 (storeLow 16) s
/-- SB (R92). -/
def execSb (p : Proc) (d base : GReg) (off : BitVec 16) (s : State) : Res := scalarStore p d base off 1 (storeLow 8) s
/-- SHF: fp32 to fp16 (R57, R92). -/
def execShf (p : Proc) (d base : GReg) (off : BitVec 16) (s : State) : Res := scalarStore p d base off 2 f32to16 s

end Sys2Proof.Machine
end

