-- ==== Sys2Proof/Machine/Scalar.lean ====
section
/-!
DEFINITION. Scalar integer instructions (R88 to R90): register, immediate, multiply, divide, fx16 and lum20 forms.
-/
namespace Sys2Proof.Machine
open Sys2Proof

/-- A register-to-register form: d = f(a, b) with its flags. -/
def scalar3 (f : Word → Word → ResF) (p : Proc) (d a b : GReg) (s : State) : Res :=
  .next (s.issue p fun s => s.result p d (f (s.g p a.toNat) (s.g p b.toNat)))
/-- An accumulating form, which reads d too (R89). -/
def scalarAcc (f : Word → Word → Word → ResF) (p : Proc) (d a b : GReg) (s : State) : Res :=
  .next (s.issue p fun s => s.result p d (f (s.g p d.toNat) (s.g p a.toNat) (s.g p b.toNat)))
/-- A unary form. -/
def scalar2 (f : Word → ResF) (p : Proc) (d a : GReg) (s : State) : Res :=
  .next (s.issue p fun s => s.result p d (f (s.g p a.toNat)))
/-- The sign- and zero-extended immediate (R90). -/
def sextImm (imm : BitVec 16) : Word := imm.signExtend 32
def zextImm (imm : BitVec 16) : Word := imm.zeroExtend 32

/-- ADD (R88). -/
def execAdd (p : Proc) (d a b : GReg) (s : State) : Res := scalar3 aluAdd p d a b s
/-- SUB (R88). -/
def execSub (p : Proc) (d a b : GReg) (s : State) : Res := scalar3 aluSub p d a b s
/-- ADDS (R88). -/
def execAdds (p : Proc) (d a b : GReg) (s : State) : Res := scalar3 aluAdds p d a b s
/-- SUBS (R88). -/
def execSubs (p : Proc) (d a b : GReg) (s : State) : Res := scalar3 aluSubs p d a b s
/-- ADDUS (R88). -/
def execAddus (p : Proc) (d a b : GReg) (s : State) : Res := scalar3 aluAddus p d a b s
/-- SUBUS (R88). -/
def execSubus (p : Proc) (d a b : GReg) (s : State) : Res := scalar3 aluSubus p d a b s
/-- AND (R88). -/
def execAnd (p : Proc) (d a b : GReg) (s : State) : Res := scalar3 aluAnd p d a b s
/-- OR (R88). -/
def execOr (p : Proc) (d a b : GReg) (s : State) : Res := scalar3 aluOr p d a b s
/-- XOR (R88). -/
def execXor (p : Proc) (d a b : GReg) (s : State) : Res := scalar3 aluXor p d a b s
/-- ANDN (R88). -/
def execAndn (p : Proc) (d a b : GReg) (s : State) : Res := scalar3 aluAndn p d a b s
/-- NOR (R88). -/
def execNor (p : Proc) (d a b : GReg) (s : State) : Res := scalar3 aluNor p d a b s
/-- SLL (R88). -/
def execSll (p : Proc) (d a b : GReg) (s : State) : Res := scalar3 aluSll p d a b s
/-- SRL (R88). -/
def execSrl (p : Proc) (d a b : GReg) (s : State) : Res := scalar3 aluSrl p d a b s
/-- SRA (R88). -/
def execSra (p : Proc) (d a b : GReg) (s : State) : Res := scalar3 aluSra p d a b s
/-- ROR (R88). -/
def execRor (p : Proc) (d a b : GReg) (s : State) : Res := scalar3 aluRor p d a b s
/-- SLT (R88). -/
def execSlt (p : Proc) (d a b : GReg) (s : State) : Res := scalar3 aluSlt p d a b s
/-- SLTU (R88). -/
def execSltu (p : Proc) (d a b : GReg) (s : State) : Res := scalar3 aluSltu p d a b s
/-- SEQ (R88). -/
def execSeq (p : Proc) (d a b : GReg) (s : State) : Res := scalar3 aluSeq p d a b s
/-- MIN (R88). -/
def execMin (p : Proc) (d a b : GReg) (s : State) : Res := scalar3 aluMin p d a b s
/-- MAX (R88). -/
def execMax (p : Proc) (d a b : GReg) (s : State) : Res := scalar3 aluMax p d a b s
/-- MINU (R88). -/
def execMinu (p : Proc) (d a b : GReg) (s : State) : Res := scalar3 aluMinu p d a b s
/-- MAXU (R88). -/
def execMaxu (p : Proc) (d a b : GReg) (s : State) : Res := scalar3 aluMaxu p d a b s
/-- ADDX (R88). -/
def execAddx (p : Proc) (d a b : GReg) (s : State) : Res := scalar3 aluAddx p d a b s
/-- SUBX (R88). -/
def execSubx (p : Proc) (d a b : GReg) (s : State) : Res := scalar3 aluSubx p d a b s
/-- ADDL (R88). -/
def execAddl (p : Proc) (d a b : GReg) (s : State) : Res := scalar3 aluAddl p d a b s
/-- SUBL (R88). -/
def execSubl (p : Proc) (d a b : GReg) (s : State) : Res := scalar3 aluSubl p d a b s
/-- MULL (R55, R88). -/
def execMull (p : Proc) (d a b : GReg) (s : State) : Res := scalar3 aluMull p d a b s
/-- SLLI: the shift amount is the b field itself (R88). -/
def execSlli (p : Proc) (d a : GReg) (n : BitVec 5) (s : State) : Res :=
  scalar2 (fun x => aluSll x (Word.ofNat n.toNat)) p d a s
/-- SRLI: the shift amount is the b field itself (R88). -/
def execSrli (p : Proc) (d a : GReg) (n : BitVec 5) (s : State) : Res :=
  scalar2 (fun x => aluSrl x (Word.ofNat n.toNat)) p d a s
/-- SRAI: the shift amount is the b field itself (R88). -/
def execSrai (p : Proc) (d a : GReg) (n : BitVec 5) (s : State) : Res :=
  scalar2 (fun x => aluSra x (Word.ofNat n.toNat)) p d a s
/-- RORI: the shift amount is the b field itself (R88). -/
def execRori (p : Proc) (d a : GReg) (n : BitVec 5) (s : State) : Res :=
  scalar2 (fun x => aluRor x (Word.ofNat n.toNat)) p d a s
/-- CLZ (R88). -/
def execClz (p : Proc) (d a : GReg) (s : State) : Res := scalar2 aluClz p d a s
/-- POPC (R88). -/
def execPopc (p : Proc) (d a : GReg) (s : State) : Res := scalar2 aluPopc p d a s
/-- SEXTB (R88). -/
def execSextb (p : Proc) (d a : GReg) (s : State) : Res := scalar2 aluSextb p d a s
/-- SEXTH (R88). -/
def execSexth (p : Proc) (d a : GReg) (s : State) : Res := scalar2 aluSexth p d a s
/-- MUL (R89). -/
def execMul (p : Proc) (d a b : GReg) (s : State) : Res := scalar3 aluMul p d a b s
/-- MULHS (R89). -/
def execMulhs (p : Proc) (d a b : GReg) (s : State) : Res := scalar3 aluMulhs p d a b s
/-- MULHU (R89). -/
def execMulhu (p : Proc) (d a b : GReg) (s : State) : Res := scalar3 aluMulhu p d a b s
/-- DIVS (R53, R89). -/
def execDivs (p : Proc) (d a b : GReg) (s : State) : Res := scalar3 aluDivs p d a b s
/-- DIVU (R53, R89). -/
def execDivu (p : Proc) (d a b : GReg) (s : State) : Res := scalar3 aluDivu p d a b s
/-- REMS (R53, R89). -/
def execRems (p : Proc) (d a b : GReg) (s : State) : Res := scalar3 aluRems p d a b s
/-- REMU (R53, R89). -/
def execRemu (p : Proc) (d a b : GReg) (s : State) : Res := scalar3 aluRemu p d a b s
/-- MULX (R54, R89). -/
def execMulx (p : Proc) (d a b : GReg) (s : State) : Res := scalar3 aluMulx p d a b s
/-- DIVX (R54, R89). -/
def execDivx (p : Proc) (d a b : GReg) (s : State) : Res := scalar3 aluDivx p d a b s
/-- MADD (R89). -/
def execMadd (p : Proc) (d a b : GReg) (s : State) : Res := scalarAcc aluMadd p d a b s
/-- MADDX (R89). -/
def execMaddx (p : Proc) (d a b : GReg) (s : State) : Res := scalarAcc aluMaddx p d a b s
/-- ADDI (R90). -/
def execAddi (p : Proc) (d a : GReg) (imm : BitVec 16) (s : State) : Res :=
  scalar2 (fun x => aluAdd x (sextImm imm)) p d a s
/-- ANDI (R90). -/
def execAndi (p : Proc) (d a : GReg) (imm : BitVec 16) (s : State) : Res :=
  scalar2 (fun x => aluAnd x (zextImm imm)) p d a s
/-- ORI (R90). -/
def execOri (p : Proc) (d a : GReg) (imm : BitVec 16) (s : State) : Res :=
  scalar2 (fun x => aluOr x (zextImm imm)) p d a s
/-- XORI (R90). -/
def execXori (p : Proc) (d a : GReg) (imm : BitVec 16) (s : State) : Res :=
  scalar2 (fun x => aluXor x (zextImm imm)) p d a s
/-- SLTI (R90). -/
def execSlti (p : Proc) (d a : GReg) (imm : BitVec 16) (s : State) : Res :=
  scalar2 (fun x => aluSlt x (sextImm imm)) p d a s
/-- SLTIU (R90). -/
def execSltiu (p : Proc) (d a : GReg) (imm : BitVec 16) (s : State) : Res :=
  scalar2 (fun x => aluSltu x (zextImm imm)) p d a s
/-- LUI: d = imm << 16 (R90). -/
def execLui (p : Proc) (d : GReg) (imm : BitVec 16) (s : State) : Res :=
  .next (s.issue p fun s => s.result p d (plain (zextImm imm <<< 16)))

end Sys2Proof.Machine
end

