-- ==== Sys2Proof/Machine/ScalarFp.lean ====
section
/-!
DEFINITION. Scalar floating point and conversions (R91, R56 to R58).
-/
namespace Sys2Proof.Machine
open Sys2Proof

/-- FADD (R91). -/
def execFadd (p : Proc) (d a b : GReg) (s : State) : Res := scalar3 fAdd p d a b s
/-- FSUB (R91). -/
def execFsub (p : Proc) (d a b : GReg) (s : State) : Res := scalar3 fSub p d a b s
/-- FMUL (R91). -/
def execFmul (p : Proc) (d a b : GReg) (s : State) : Res := scalar3 fMul p d a b s
/-- FMIN (R91). -/
def execFmin (p : Proc) (d a b : GReg) (s : State) : Res := scalar3 fMin p d a b s
/-- FMAX (R91). -/
def execFmax (p : Proc) (d a b : GReg) (s : State) : Res := scalar3 fMax p d a b s
/-- FDIV (R91). -/
def execFdiv (p : Proc) (d a b : GReg) (s : State) : Res := scalar3 fDiv p d a b s
/-- FEQ (R91). -/
def execFeq (p : Proc) (d a b : GReg) (s : State) : Res := scalar3 fEq p d a b s
/-- FLT (R91). -/
def execFlt (p : Proc) (d a b : GReg) (s : State) : Res := scalar3 fLt p d a b s
/-- FLE (R91). -/
def execFle (p : Proc) (d a b : GReg) (s : State) : Res := scalar3 fLe p d a b s
/-- FMADD: d + a × b with one rounding (R91). -/
def execFmadd (p : Proc) (d a b : GReg) (s : State) : Res := scalarAcc fMadd p d a b s
/-- FABS (R91). -/
def execFabs (p : Proc) (d a : GReg) (s : State) : Res := scalar2 fAbs p d a s
/-- FNEG (R91). -/
def execFneg (p : Proc) (d a : GReg) (s : State) : Res := scalar2 fNeg p d a s
/-- FSQRT (R91). -/
def execFsqrt (p : Proc) (d a : GReg) (s : State) : Res := scalar2 fSqrt p d a s
/-- FCVT.S.W (R58, R91). -/
def execFcvtSW (p : Proc) (d a : GReg) (s : State) : Res := scalar2 fcvtSW p d a s
/-- FCVT.W.S (R58, R91). -/
def execFcvtWS (p : Proc) (d a : GReg) (s : State) : Res := scalar2 fcvtWS p d a s
/-- FCVT.S.X (R58, R91). -/
def execFcvtSX (p : Proc) (d a : GReg) (s : State) : Res := scalar2 fcvtSX p d a s
/-- FCVT.X.S (R58, R91). -/
def execFcvtXS (p : Proc) (d a : GReg) (s : State) : Res := scalar2 fcvtXS p d a s
/-- FCVT.S.L (R58, R91). -/
def execFcvtSL (p : Proc) (d a : GReg) (s : State) : Res := scalar2 fcvtSL p d a s
/-- FCVT.L.S (R58, R91). -/
def execFcvtLS (p : Proc) (d a : GReg) (s : State) : Res := scalar2 fcvtLS p d a s

end Sys2Proof.Machine
end

