-- ==== Sys2Proof/Machine/Dispatch.lean ====
section
/-!
DEFINITION. One arm per command: a direct call of its meaning.
-/
namespace Sys2Proof.Machine
open Sys2Proof

def exec (i : Instr) (s : State) : Host.Outcome State Fault Refusal :=
  match i with
  | .powerOnReset mode boot lhbSpi => Sys2Proof.Machine.execPowerOnReset mode boot lhbSpi s
  | .rstNReset mode boot lhbSpi => Sys2Proof.Machine.execRstNReset mode boot lhbSpi s
  | .warmReset => Sys2Proof.Machine.execWarmReset s
  | .sysResetWarm who w => Sys2Proof.Machine.execSysResetWarm who w s
  | .drstServiceCore n => Sys2Proof.Machine.execDrstServiceCore n s
  | .drstLangal => Sys2Proof.Machine.execDrstLangal s
  | .drstCdie d => Sys2Proof.Machine.execDrstCdie d s
  | .drstScnHead n => Sys2Proof.Machine.execDrstScnHead n s
  | .springReset => Sys2Proof.Machine.execSpringReset s
  | .railOutOfRange => Sys2Proof.Machine.execRailOutOfRange s
  | .watchdogExpiry => Sys2Proof.Machine.execWatchdogExpiry s
  | .pwcWdkickWrite w => Sys2Proof.Machine.execPwcWdkickWrite w s
  | .pwcWdogEnable w => Sys2Proof.Machine.execPwcWdogEnable w s
  | .registerWrite who a acc => Sys2Proof.Machine.execRegisterWrite who a acc s
  | .tsuCommit => Sys2Proof.Machine.execTsuCommit s
  | .tsuCommitApply => Sys2Proof.Machine.execTsuCommitApply s
  | .tsuCapGo => Sys2Proof.Machine.execTsuCapGo s
  | .tsuCapture => Sys2Proof.Machine.execTsuCapture s
  | .flkCommit => Sys2Proof.Machine.execFlkCommit s
  | .flkCommitApply => Sys2Proof.Machine.execFlkCommitApply s
  | .frameStart => Sys2Proof.Machine.execFrameStart s
  | .flkSealWrite w => Sys2Proof.Machine.execFlkSealWrite w s
  | .frameCommit => Sys2Proof.Machine.execFrameCommit s
  | .frameAnnounce => Sys2Proof.Machine.execFrameAnnounce s
  | .lateDeadline => Sys2Proof.Machine.execLateDeadline s
  | .frameLag => Sys2Proof.Machine.execFrameLag s
  | .orphanFire => Sys2Proof.Machine.execOrphanFire s
  | .ltcSyncWord ltc user => Sys2Proof.Machine.execLtcSyncWord ltc user s
  | .fsyncInEdge => Sys2Proof.Machine.execFsyncInEdge s
  | .wclkEvent => Sys2Proof.Machine.execWclkEvent s
  | .illegalInstruction p w => Sys2Proof.Machine.execIllegalInstruction p w s
  | .add p d a b => Sys2Proof.Machine.execAdd p d a b s
  | .sub p d a b => Sys2Proof.Machine.execSub p d a b s
  | .adds p d a b => Sys2Proof.Machine.execAdds p d a b s
  | .subs p d a b => Sys2Proof.Machine.execSubs p d a b s
  | .addus p d a b => Sys2Proof.Machine.execAddus p d a b s
  | .subus p d a b => Sys2Proof.Machine.execSubus p d a b s
  | .and p d a b => Sys2Proof.Machine.execAnd p d a b s
  | .or p d a b => Sys2Proof.Machine.execOr p d a b s
  | .xor p d a b => Sys2Proof.Machine.execXor p d a b s
  | .andn p d a b => Sys2Proof.Machine.execAndn p d a b s
  | .nor p d a b => Sys2Proof.Machine.execNor p d a b s
  | .sll p d a b => Sys2Proof.Machine.execSll p d a b s
  | .srl p d a b => Sys2Proof.Machine.execSrl p d a b s
  | .sra p d a b => Sys2Proof.Machine.execSra p d a b s
  | .ror p d a b => Sys2Proof.Machine.execRor p d a b s
  | .slli p d a n => Sys2Proof.Machine.execSlli p d a n s
  | .srli p d a n => Sys2Proof.Machine.execSrli p d a n s
  | .srai p d a n => Sys2Proof.Machine.execSrai p d a n s
  | .rori p d a n => Sys2Proof.Machine.execRori p d a n s
  | .slt p d a b => Sys2Proof.Machine.execSlt p d a b s
  | .sltu p d a b => Sys2Proof.Machine.execSltu p d a b s
  | .seq p d a b => Sys2Proof.Machine.execSeq p d a b s
  | .min p d a b => Sys2Proof.Machine.execMin p d a b s
  | .max p d a b => Sys2Proof.Machine.execMax p d a b s
  | .minu p d a b => Sys2Proof.Machine.execMinu p d a b s
  | .maxu p d a b => Sys2Proof.Machine.execMaxu p d a b s
  | .clz p d a => Sys2Proof.Machine.execClz p d a s
  | .popc p d a => Sys2Proof.Machine.execPopc p d a s
  | .sextb p d a => Sys2Proof.Machine.execSextb p d a s
  | .sexth p d a => Sys2Proof.Machine.execSexth p d a s
  | .addx p d a b => Sys2Proof.Machine.execAddx p d a b s
  | .subx p d a b => Sys2Proof.Machine.execSubx p d a b s
  | .addl p d a b => Sys2Proof.Machine.execAddl p d a b s
  | .subl p d a b => Sys2Proof.Machine.execSubl p d a b s
  | .mull p d a b => Sys2Proof.Machine.execMull p d a b s
  | .mul p d a b => Sys2Proof.Machine.execMul p d a b s
  | .mulhs p d a b => Sys2Proof.Machine.execMulhs p d a b s
  | .mulhu p d a b => Sys2Proof.Machine.execMulhu p d a b s
  | .madd p d a b => Sys2Proof.Machine.execMadd p d a b s
  | .divs p d a b => Sys2Proof.Machine.execDivs p d a b s
  | .divu p d a b => Sys2Proof.Machine.execDivu p d a b s
  | .rems p d a b => Sys2Proof.Machine.execRems p d a b s
  | .remu p d a b => Sys2Proof.Machine.execRemu p d a b s
  | .mulx p d a b => Sys2Proof.Machine.execMulx p d a b s
  | .divx p d a b => Sys2Proof.Machine.execDivx p d a b s
  | .maddx p d a b => Sys2Proof.Machine.execMaddx p d a b s
  | .fadd p d a b => Sys2Proof.Machine.execFadd p d a b s
  | .fsub p d a b => Sys2Proof.Machine.execFsub p d a b s
  | .fmul p d a b => Sys2Proof.Machine.execFmul p d a b s
  | .fmadd p d a b => Sys2Proof.Machine.execFmadd p d a b s
  | .fmin p d a b => Sys2Proof.Machine.execFmin p d a b s
  | .fmax p d a b => Sys2Proof.Machine.execFmax p d a b s
  | .fabs p d a => Sys2Proof.Machine.execFabs p d a s
  | .fneg p d a => Sys2Proof.Machine.execFneg p d a s
  | .fdiv p d a b => Sys2Proof.Machine.execFdiv p d a b s
  | .fsqrt p d a => Sys2Proof.Machine.execFsqrt p d a s
  | .feq p d a b => Sys2Proof.Machine.execFeq p d a b s
  | .flt p d a b => Sys2Proof.Machine.execFlt p d a b s
  | .fle p d a b => Sys2Proof.Machine.execFle p d a b s
  | .fcvtSW p d a => Sys2Proof.Machine.execFcvtSW p d a s
  | .fcvtWS p d a => Sys2Proof.Machine.execFcvtWS p d a s
  | .fcvtSX p d a => Sys2Proof.Machine.execFcvtSX p d a s
  | .fcvtXS p d a => Sys2Proof.Machine.execFcvtXS p d a s
  | .fcvtSL p d a => Sys2Proof.Machine.execFcvtSL p d a s
  | .fcvtLS p d a => Sys2Proof.Machine.execFcvtLS p d a s
  | .addi p d a imm => Sys2Proof.Machine.execAddi p d a imm s
  | .andi p d a imm => Sys2Proof.Machine.execAndi p d a imm s
  | .ori p d a imm => Sys2Proof.Machine.execOri p d a imm s
  | .xori p d a imm => Sys2Proof.Machine.execXori p d a imm s
  | .lui p d imm => Sys2Proof.Machine.execLui p d imm s
  | .slti p d a imm => Sys2Proof.Machine.execSlti p d a imm s
  | .sltiu p d a imm => Sys2Proof.Machine.execSltiu p d a imm s
  | .lw p d base off => Sys2Proof.Machine.execLw p d base off s
  | .lh p d base off => Sys2Proof.Machine.execLh p d base off s
  | .lhu p d base off => Sys2Proof.Machine.execLhu p d base off s
  | .lb p d base off => Sys2Proof.Machine.execLb p d base off s
  | .lbu p d base off => Sys2Proof.Machine.execLbu p d base off s
  | .sw p d base off => Sys2Proof.Machine.execSw p d base off s
  | .sh p d base off => Sys2Proof.Machine.execSh p d base off s
  | .sb p d base off => Sys2Proof.Machine.execSb p d base off s
  | .lhf p d base off => Sys2Proof.Machine.execLhf p d base off s
  | .shf p d base off => Sys2Proof.Machine.execShf p d base off s
  | .vlw n vd base pm off => Sys2Proof.Machine.execVlw n vd base pm off s
  | .vsw n vd base pm off => Sys2Proof.Machine.execVsw n vd base pm off s
  | .vlh n vd base pm off => Sys2Proof.Machine.execVlh n vd base pm off s
  | .vsh n vd base pm off => Sys2Proof.Machine.execVsh n vd base pm off s
  | .vglw n vd va pm => Sys2Proof.Machine.execVglw n vd va pm s
  | .vscw n va vb pm => Sys2Proof.Machine.execVscw n va vb pm s
  | .vglh n vd va pm => Sys2Proof.Machine.execVglh n vd va pm s
  | .vsch n va vb pm => Sys2Proof.Machine.execVsch n va vb pm s
  | .vadd n vd va vb pm => Sys2Proof.Machine.execVadd n vd va vb pm s
  | .vsub n vd va vb pm => Sys2Proof.Machine.execVsub n vd va vb pm s
  | .vadds n vd va vb pm => Sys2Proof.Machine.execVadds n vd va vb pm s
  | .vsubs n vd va vb pm => Sys2Proof.Machine.execVsubs n vd va vb pm s
  | .vaddus n vd va vb pm => Sys2Proof.Machine.execVaddus n vd va vb pm s
  | .vsubus n vd va vb pm => Sys2Proof.Machine.execVsubus n vd va vb pm s
  | .vand n vd va vb pm => Sys2Proof.Machine.execVand n vd va vb pm s
  | .vor n vd va vb pm => Sys2Proof.Machine.execVor n vd va vb pm s
  | .vxor n vd va vb pm => Sys2Proof.Machine.execVxor n vd va vb pm s
  | .vandn n vd va vb pm => Sys2Proof.Machine.execVandn n vd va vb pm s
  | .vsll n vd va vb pm => Sys2Proof.Machine.execVsll n vd va vb pm s
  | .vsrl n vd va vb pm => Sys2Proof.Machine.execVsrl n vd va vb pm s
  | .vsra n vd va vb pm => Sys2Proof.Machine.execVsra n vd va vb pm s
  | .vmin n vd va vb pm => Sys2Proof.Machine.execVmin n vd va vb pm s
  | .vmax n vd va vb pm => Sys2Proof.Machine.execVmax n vd va vb pm s
  | .vminu n vd va vb pm => Sys2Proof.Machine.execVminu n vd va vb pm s
  | .vmaxu n vd va vb pm => Sys2Proof.Machine.execVmaxu n vd va vb pm s
  | .vmul n vd va vb pm => Sys2Proof.Machine.execVmul n vd va vb pm s
  | .vmulhs n vd va vb pm => Sys2Proof.Machine.execVmulhs n vd va vb pm s
  | .vmulhu n vd va vb pm => Sys2Proof.Machine.execVmulhu n vd va vb pm s
  | .vmadd n vd va vb pm => Sys2Proof.Machine.execVmadd n vd va vb pm s
  | .vaddx n vd va vb pm => Sys2Proof.Machine.execVaddx n vd va vb pm s
  | .vsubx n vd va vb pm => Sys2Proof.Machine.execVsubx n vd va vb pm s
  | .vmulx n vd va vb pm => Sys2Proof.Machine.execVmulx n vd va vb pm s
  | .vmaddx n vd va vb pm => Sys2Proof.Machine.execVmaddx n vd va vb pm s
  | .vaddl n vd va vb pm => Sys2Proof.Machine.execVaddl n vd va vb pm s
  | .vsubl n vd va vb pm => Sys2Proof.Machine.execVsubl n vd va vb pm s
  | .vmull n vd va vb pm => Sys2Proof.Machine.execVmull n vd va vb pm s
  | .vmaddl n vd va vb pm => Sys2Proof.Machine.execVmaddl n vd va vb pm s
  | .vslli n vd va pm k => Sys2Proof.Machine.execVslli n vd va pm k s
  | .vsrli n vd va pm k => Sys2Proof.Machine.execVsrli n vd va pm k s
  | .vsrai n vd va pm k => Sys2Proof.Machine.execVsrai n vd va pm k s
  | .vfadd n vd va vb pm => Sys2Proof.Machine.execVfadd n vd va vb pm s
  | .vfsub n vd va vb pm => Sys2Proof.Machine.execVfsub n vd va vb pm s
  | .vfmul n vd va vb pm => Sys2Proof.Machine.execVfmul n vd va vb pm s
  | .vfmadd n vd va vb pm => Sys2Proof.Machine.execVfmadd n vd va vb pm s
  | .vfmin n vd va vb pm => Sys2Proof.Machine.execVfmin n vd va vb pm s
  | .vfmax n vd va vb pm => Sys2Proof.Machine.execVfmax n vd va vb pm s
  | .vfabs n vd va pm => Sys2Proof.Machine.execVfabs n vd va pm s
  | .vfneg n vd va pm => Sys2Proof.Machine.execVfneg n vd va pm s
  | .vfdiv n vd va vb pm => Sys2Proof.Machine.execVfdiv n vd va vb pm s
  | .vfsqrt n vd va pm => Sys2Proof.Machine.execVfsqrt n vd va pm s
  | .vcvtSW n vd va pm => Sys2Proof.Machine.execVcvtSW n vd va pm s
  | .vcvtWS n vd va pm => Sys2Proof.Machine.execVcvtWS n vd va pm s
  | .vcvtSX n vd va pm => Sys2Proof.Machine.execVcvtSX n vd va pm s
  | .vcvtXS n vd va pm => Sys2Proof.Machine.execVcvtXS n vd va pm s
  | .vcvtSL n vd va pm => Sys2Proof.Machine.execVcvtSL n vd va pm s
  | .vcvtLS n vd va pm => Sys2Proof.Machine.execVcvtLS n vd va pm s
  | .vceq n pd va vb pm => Sys2Proof.Machine.execVceq n pd va vb pm s
  | .vcne n pd va vb pm => Sys2Proof.Machine.execVcne n pd va vb pm s
  | .vclt n pd va vb pm => Sys2Proof.Machine.execVclt n pd va vb pm s
  | .vcle n pd va vb pm => Sys2Proof.Machine.execVcle n pd va vb pm s
  | .vcltu n pd va vb pm => Sys2Proof.Machine.execVcltu n pd va vb pm s
  | .vcleu n pd va vb pm => Sys2Proof.Machine.execVcleu n pd va vb pm s
  | .vfceq n pd va vb pm => Sys2Proof.Machine.execVfceq n pd va vb pm s
  | .vfclt n pd va vb pm => Sys2Proof.Machine.execVfclt n pd va vb pm s
  | .vfcle n pd va vb pm => Sys2Proof.Machine.execVfcle n pd va vb pm s
  | .pand n pd pa pb => Sys2Proof.Machine.execPand n pd pa pb s
  | .por n pd pa pb => Sys2Proof.Machine.execPor n pd pa pb s
  | .pxor n pd pa pb => Sys2Proof.Machine.execPxor n pd pa pb s
  | .pandn n pd pa pb => Sys2Proof.Machine.execPandn n pd pa pb s
  | .pnot n pd pa => Sys2Proof.Machine.execPnot n pd pa s
  | .pfromg n pd g => Sys2Proof.Machine.execPfromg n pd g s
  | .ptog n g pa => Sys2Proof.Machine.execPtog n g pa s
  | .pcnt n g pa => Sys2Proof.Machine.execPcnt n g pa s
  | .vmov n vd va pm => Sys2Proof.Machine.execVmov n vd va pm s
  | .vbcast n vd g pm => Sys2Proof.Machine.execVbcast n vd g pm s
  | .vins n vd g lane => Sys2Proof.Machine.execVins n vd g lane s
  | .vext n g va lane => Sys2Proof.Machine.execVext n g va lane s
  | .vperm n vd va vb pm => Sys2Proof.Machine.execVperm n vd va vb pm s
  | .vrot n vd va rot pm => Sys2Proof.Machine.execVrot n vd va rot pm s
  | .vradd n g va pm => Sys2Proof.Machine.execVradd n g va pm s
  | .vraddx n g va pm => Sys2Proof.Machine.execVraddx n g va pm s
  | .vrfadd n g va pm => Sys2Proof.Machine.execVrfadd n g va pm s
  | .vrmin n g va pm => Sys2Proof.Machine.execVrmin n g va pm s
  | .vrmax n g va pm => Sys2Proof.Machine.execVrmax n g va pm s
  | .vrminu n g va pm => Sys2Proof.Machine.execVrminu n g va pm s
  | .vrmaxu n g va pm => Sys2Proof.Machine.execVrmaxu n g va pm s
  | .dmago n d a => Sys2Proof.Machine.execDmago n d a s
  | .dmawait n d a => Sys2Proof.Machine.execDmawait n d a s
  | .dmapoll n d a => Sys2Proof.Machine.execDmapoll n d a s
  | .dmastat n d a => Sys2Proof.Machine.execDmastat n d a s
  | .dmaQueueAdmit c => Sys2Proof.Machine.execDmaQueueAdmit c s
  | .dmaTransferEnd c k => Sys2Proof.Machine.execDmaTransferEnd c k s
  | .br p off => Sys2Proof.Machine.execBr p off s
  | .bal p off => Sys2Proof.Machine.execBal p off s
  | .bz p c off => Sys2Proof.Machine.execBz p c off s
  | .bnz p c off => Sys2Proof.Machine.execBnz p c off s
  | .bltz p c off => Sys2Proof.Machine.execBltz p c off s
  | .bgez p c off => Sys2Proof.Machine.execBgez p c off s
  | .bp n test pr off => Sys2Proof.Machine.execBp n test pr off s
  | .jr p a => Sys2Proof.Machine.execJr p a s
  | .jalr p d a => Sys2Proof.Machine.execJalr p d a s
  | .mfs p d num => Sys2Proof.Machine.execMfs p d num s
  | .mts p a num => Sys2Proof.Machine.execMts p a num s
  | .nop p => Sys2Proof.Machine.execNop p s
  | .fence p => Sys2Proof.Machine.execFence p s
  | .isync p => Sys2Proof.Machine.execIsync p s
  | .brk p => Sys2Proof.Machine.execBrk p s
  | .scall p => Sys2Proof.Machine.execScall p s
  | .eret p => Sys2Proof.Machine.execEret p s
  | .wfi p => Sys2Proof.Machine.execWfi p s
  | .vblend n m vd va vb pm => Sys2Proof.Machine.execVblend n m vd va vb pm s
  | .vcurve n vd va g pm => Sys2Proof.Machine.execVcurve n vd va g pm s
  | .vgamma n k vd va pm => Sys2Proof.Machine.execVgamma n k vd va pm s
  | .vcmxf n vd va g pm => Sys2Proof.Machine.execVcmxf n vd va g pm s
  | .vcmxl n vd va g pm => Sys2Proof.Machine.execVcmxl n vd va g pm s
  | .vproj n vd va vb g pm => Sys2Proof.Machine.execVproj n vd va vb g pm s
  | .vsampa n dx dy vd va vb g pm => Sys2Proof.Machine.execVsampa n dx dy vd va vb g pm s
  | .vfract n vd va pm => Sys2Proof.Machine.execVfract n vd va pm s
  | .vlerpf n vd va vb pm => Sys2Proof.Machine.execVlerpf n vd va vb pm s
  | .vfade n vd va g pm => Sys2Proof.Machine.execVfade n vd va g pm s
  | .vfpos n vd va g pm => Sys2Proof.Machine.execVfpos n vd va g pm s
  | .vfmix n vd va g pm => Sys2Proof.Machine.execVfmix n vd va g pm s
  | .spawn n d a => Sys2Proof.Machine.execSpawn n d a s
  | .yield n => Sys2Proof.Machine.execYield n s
  | .done n => Sys2Proof.Machine.execDone n s
  | .cancel n d a => Sys2Proof.Machine.execCancel n d a s
  | .waitf n a => Sys2Proof.Machine.execWaitf n a s
  | .waite n a => Sys2Proof.Machine.execWaite n a s
  | .signal n d a => Sys2Proof.Machine.execSignal n d a s
  | .eclass n a => Sys2Proof.Machine.execEclass n a s
  | .jset n d a b => Sys2Proof.Machine.execJset n d a b s
  | .join n d a => Sys2Proof.Machine.execJoin n d a s
  | .cadd n d a b => Sys2Proof.Machine.execCadd n d a b s
  | .mpost p d a b => Sys2Proof.Machine.execMpost p d a b s
  | .mrecv p d a => Sys2Proof.Machine.execMrecv p d a s
  | .qpush p d a b => Sys2Proof.Machine.execQpush p d a b s
  | .qpop p d a b => Sys2Proof.Machine.execQpop p d a b s
  | .qmark p d a => Sys2Proof.Machine.execQmark p d a s
  | .qrewind p d a => Sys2Proof.Machine.execQrewind p d a s
  | .qrel p d a => Sys2Proof.Machine.execQrel p d a s
  | .crci p d a => Sys2Proof.Machine.execCrci p d a s
  | .crcb p d a b => Sys2Proof.Machine.execCrcb p d a b s
  | .crcw p d a b => Sys2Proof.Machine.execCrcw p d a b s
  | .crcm p d a b => Sys2Proof.Machine.execCrcm p d a b s
  | .crcf p d a => Sys2Proof.Machine.execCrcf p d a s
  | .alive p d a b => Sys2Proof.Machine.execAlive p d a b s
  | .dispatch k => Sys2Proof.Machine.execDispatch k s
  | .starveGuard k level => Sys2Proof.Machine.execStarveGuard k level s
  | .quantumCharge n => Sys2Proof.Machine.execQuantumCharge n s
  | .runlimit n => Sys2Proof.Machine.execRunlimit n s
  | .ventRelease n => Sys2Proof.Machine.execVentRelease n s
  | .taskCompletionPost key => Sys2Proof.Machine.execTaskCompletionPost key s
  | .submitAdmit k => Sys2Proof.Machine.execSubmitAdmit k s
  | .craterGate c => Sys2Proof.Machine.execCraterGate c s
  | .craterOpenDone c => Sys2Proof.Machine.execCraterOpenDone c s
  | .requestPromote k => Sys2Proof.Machine.execRequestPromote k s
  | .budgetRefill temps => Sys2Proof.Machine.execBudgetRefill temps s
  | .costLearn energy vus => Sys2Proof.Machine.execCostLearn energy vus s
  | .dvfsEvaluate temps => Sys2Proof.Machine.execDvfsEvaluate temps s
  | .railNak d => Sys2Proof.Machine.execRailNak d s
  | .vckSwitch d => Sys2Proof.Machine.execVckSwitch d s
  | .bgtPkgPeriod pkgMw fixedMw => Sys2Proof.Machine.execBgtPkgPeriod pkgMw fixedMw s
  | .fumaroleRotation => Sys2Proof.Machine.execFumaroleRotation s
  | .calderaCommit k => Sys2Proof.Machine.execCalderaCommit k s
  | .calderaCommitApply k => Sys2Proof.Machine.execCalderaCommitApply k s
  | .schPortSubmit m who w => Sys2Proof.Machine.execSchPortSubmit m who w s
  | .schPortCancel m who h => Sys2Proof.Machine.execSchPortCancel m who h s
  | .schEventWrite w => Sys2Proof.Machine.execSchEventWrite w s
  | .schSnapGo => Sys2Proof.Machine.execSchSnapGo s
  | .schSnapCapture => Sys2Proof.Machine.execSchSnapCapture s
  | .persLoad net => Sys2Proof.Machine.execPersLoad net s
  | .curveLoad net => Sys2Proof.Machine.execCurveLoad net s
  | .patch net => Sys2Proof.Machine.execPatch net s
  | .unpatch net => Sys2Proof.Machine.execUnpatch net s
  | .cueStep net => Sys2Proof.Machine.execCueStep net s
  | .canvasSet net => Sys2Proof.Machine.execCanvasSet net s
  | .layerSet net => Sys2Proof.Machine.execLayerSet net s
  | .bufAlloc net => Sys2Proof.Machine.execBufAlloc net s
  | .bufFree net => Sys2Proof.Machine.execBufFree net s
  | .bufFreed b => Sys2Proof.Machine.execBufFreed b s
  | .govSet net => Sys2Proof.Machine.execGovSet net s
  | .univSet net => Sys2Proof.Machine.execUnivSet net s
  | .rateSet net => Sys2Proof.Machine.execRateSet net s
  | .timeSource net => Sys2Proof.Machine.execTimeSource net s
  | .lgvCommit => Sys2Proof.Machine.execLgvCommit s
  | .lgvCompute => Sys2Proof.Machine.execLgvCompute s
  | .scnCommit h => Sys2Proof.Machine.execScnCommit h s
  | .scnLaneCommitApply l => Sys2Proof.Machine.execScnLaneCommitApply l s
  | .scanStart l => Sys2Proof.Machine.execScanStart l s
  | .scanEnd l => Sys2Proof.Machine.execScanEnd l s
  | .repeatScan l => Sys2Proof.Machine.execRepeatScan l s
  | .lineUnderrun l => Sys2Proof.Machine.execLineUnderrun l s
  | .slotLatch l => Sys2Proof.Machine.execSlotLatch l s
  | .planeFillDone l => Sys2Proof.Machine.execPlaneFillDone l s
  | .laneTrainDone l => Sys2Proof.Machine.execLaneTrainDone l s
  | .enumWindowEnd l => Sys2Proof.Machine.execEnumWindowEnd l s
  | .returnPacket l pkt => Sys2Proof.Machine.execReturnPacket l pkt s
  | .tileCmdSend h => Sys2Proof.Machine.execTileCmdSend h s
  | .spdCommit => Sys2Proof.Machine.execSpdCommit s
  | .spdPeriodStart => Sys2Proof.Machine.execSpdPeriodStart s
  | .spdFadeGo n => Sys2Proof.Machine.execSpdFadeGo n s
  | .spdRelease n => Sys2Proof.Machine.execSpdRelease n s
  | .spdLevelWrite n w => Sys2Proof.Machine.execSpdLevelWrite n w s
  | .triggerEdge t => Sys2Proof.Machine.execTriggerEdge t s
  | .derateUpdate => Sys2Proof.Machine.execDerateUpdate s
  | .sensorPublish samples => Sys2Proof.Machine.execSensorPublish samples s
  | .snsLockWrite w => Sys2Proof.Machine.execSnsLockWrite w s
  | .rxFrame p frame fcsOk => Sys2Proof.Machine.execRxFrame p frame fcsOk s
  | .pauseExpiry p => Sys2Proof.Machine.execPauseExpiry p s
  | .sacnSourceTimeout k cid => Sys2Proof.Machine.execSacnSourceTimeout k cid s
  | .txFrameSelect p => Sys2Proof.Machine.execTxFrameSelect p s
  | .txFrameDone p => Sys2Proof.Machine.execTxFrameDone p s
  | .ringTailWrite p r w => Sys2Proof.Machine.execRingTailWrite p r w s
  | .pauseSend p => Sys2Proof.Machine.execPauseSend p s
  | .pauseRefresh p => Sys2Proof.Machine.execPauseRefresh p s
  | .linkChange p up badSpeed => Sys2Proof.Machine.execLinkChange p up badSpeed s
  | .macCommit p => Sys2Proof.Machine.execMacCommit p s
  | .macCommitApply p => Sys2Proof.Machine.execMacCommitApply p s
  | .macRcommit => Sys2Proof.Machine.execMacRcommit s
  | .fpArm e => Sys2Proof.Machine.execFpArm e s
  | .fpFire e => Sys2Proof.Machine.execFpFire e s
  | .fpDisarm e => Sys2Proof.Machine.execFpDisarm e s
  | .unvCommit => Sys2Proof.Machine.execUnvCommit s
  | .unvKeepalive => Sys2Proof.Machine.execUnvKeepalive s
  | .dmxCommit p => Sys2Proof.Machine.execDmxCommit p s
  | .dmxBreakStart p => Sys2Proof.Machine.execDmxBreakStart p s
  | .dmxFreePeriod p => Sys2Proof.Machine.execDmxFreePeriod p s
  | .dmxRepeat p => Sys2Proof.Machine.execDmxRepeat p s
  | .dmxPacketEnd p => Sys2Proof.Machine.execDmxPacketEnd p s
  | .dmxInputPacket p startCode data framing => Sys2Proof.Machine.execDmxInputPacket p startCode data framing s
  | .dmxInputLoss p => Sys2Proof.Machine.execDmxInputLoss p s
  | .dmxRdmgo p => Sys2Proof.Machine.execDmxRdmgo p s
  | .dmxRdmResponse p data framing => Sys2Proof.Machine.execDmxRdmResponse p data framing s
  | .dmxRdmTimeout p => Sys2Proof.Machine.execDmxRdmTimeout p s
  | .langalBootCheck ok spareOk => Sys2Proof.Machine.execLangalBootCheck ok spareOk s
  | .langalTick => Sys2Proof.Machine.execLangalTick s
  | .langalPortPacket p => Sys2Proof.Machine.execLangalPortPacket p s
  | .lciNop => Sys2Proof.Machine.execLciNop s
  | .lciHalt => Sys2Proof.Machine.execLciHalt s
  | .lciWaitt => Sys2Proof.Machine.execLciWaitt s
  | .lciWaittResume => Sys2Proof.Machine.execLciWaittResume s
  | .lciRet => Sys2Proof.Machine.execLciRet s
  | .lciLdi => Sys2Proof.Machine.execLciLdi s
  | .lciLdh => Sys2Proof.Machine.execLciLdh s
  | .lciAdd => Sys2Proof.Machine.execLciAdd s
  | .lciSub => Sys2Proof.Machine.execLciSub s
  | .lciAnd => Sys2Proof.Machine.execLciAnd s
  | .lciOr => Sys2Proof.Machine.execLciOr s
  | .lciXor => Sys2Proof.Machine.execLciXor s
  | .lciMov => Sys2Proof.Machine.execLciMov s
  | .lciShl => Sys2Proof.Machine.execLciShl s
  | .lciShr => Sys2Proof.Machine.execLciShr s
  | .lciAdds => Sys2Proof.Machine.execLciAdds s
  | .lciSubs => Sys2Proof.Machine.execLciSubs s
  | .lciMulh => Sys2Proof.Machine.execLciMulh s
  | .lciAddi => Sys2Proof.Machine.execLciAddi s
  | .lciLd => Sys2Proof.Machine.execLciLd s
  | .lciSt => Sys2Proof.Machine.execLciSt s
  | .lciBz => Sys2Proof.Machine.execLciBz s
  | .lciBnz => Sys2Proof.Machine.execLciBnz s
  | .lciBc => Sys2Proof.Machine.execLciBc s
  | .lciJmp => Sys2Proof.Machine.execLciJmp s
  | .lciCall => Sys2Proof.Machine.execLciCall s
  | .lciFade => Sys2Proof.Machine.execLciFade s
  | .lciIn => Sys2Proof.Machine.execLciIn s
  | .lciOut => Sys2Proof.Machine.execLciOut s
  | .lglRun => Sys2Proof.Machine.execLglRun s
  | .lglStop => Sys2Proof.Machine.execLglStop s
  | .lglStore => Sys2Proof.Machine.execLglStore s
  | .lglTrim => Sys2Proof.Machine.execLglTrim s
  | .lglAutorun => Sys2Proof.Machine.execLglAutorun s
  | .lglLogin => Sys2Proof.Machine.execLglLogin s
  | .lglSetpw => Sys2Proof.Machine.execLglSetpw s
  | .lglLogout => Sys2Proof.Machine.execLglLogout s
  | .lglCommandDone => Sys2Proof.Machine.execLglCommandDone s
  | .lglHstatusRead => Sys2Proof.Machine.execLglHstatusRead s
  | .lglHaddrhWrite b => Sys2Proof.Machine.execLglHaddrhWrite b s
  | .lglHspaceWrite b => Sys2Proof.Machine.execLglHspaceWrite b s
  | .lglHdataAccess w => Sys2Proof.Machine.execLglHdataAccess w s
  | .loginLockoutEnd => Sys2Proof.Machine.execLoginLockoutEnd s
  | .queEnable n cfg => Sys2Proof.Machine.execQueEnable n cfg s
  | .queDisable n => Sys2Proof.Machine.execQueDisable n s
  | .quePushWord n w => Sys2Proof.Machine.execQuePushWord n w s
  | .quePopRead n => Sys2Proof.Machine.execQuePopRead n s
  | .queOpMark n => Sys2Proof.Machine.execQueOpMark n s
  | .queOpRewind n => Sys2Proof.Machine.execQueOpRewind n s
  | .queOpRelease n => Sys2Proof.Machine.execQueOpRelease n s
  | .queStalledPushDone n => Sys2Proof.Machine.execQueStalledPushDone n s
  | .mbxLockWrite who w => Sys2Proof.Machine.execMbxLockWrite who w s
  | .mbxDataWrite ch w => Sys2Proof.Machine.execMbxDataWrite ch w s
  | .mbxDataRead ch => Sys2Proof.Machine.execMbxDataRead ch s
  | .mbxStalledPostDone ch => Sys2Proof.Machine.execMbxStalledPostDone ch s
  | .icuSourceEvent src level => Sys2Proof.Machine.execIcuSourceEvent src level s
  | .icuDeliver src => Sys2Proof.Machine.execIcuDeliver src s
  | .icuClaim t => Sys2Proof.Machine.execIcuClaim t s
  | .icuEoi t who w => Sys2Proof.Machine.execIcuEoi t who w s
  | .icuHeoi w => Sys2Proof.Machine.execIcuHeoi w s
  | .icuUnfreeze t => Sys2Proof.Machine.execIcuUnfreeze t s
  | .icuSwset w => Sys2Proof.Machine.execIcuSwset w s
  | .icuSwclr w => Sys2Proof.Machine.execIcuSwclr w s
  | .icuSrcWrite who n w => Sys2Proof.Machine.execIcuSrcWrite who n w s
  | .springLatchEdge src => Sys2Proof.Machine.execSpringLatchEdge src s
  | .pcieReset => Sys2Proof.Machine.execPcieReset s
  | .pcieLinkChange up msix => Sys2Proof.Machine.execPcieLinkChange up msix s
  | .hstAperWrite w => Sys2Proof.Machine.execHstAperWrite w s
  | .dramApertureAccess off data len => Sys2Proof.Machine.execDramApertureAccess off data len s
  | .bshWindowArm n => Sys2Proof.Machine.execBshWindowArm n s
  | .bshWindowDisarm n => Sys2Proof.Machine.execBshWindowDisarm n s
  | .bshWindowAccess n off data len => Sys2Proof.Machine.execBshWindowAccess n off data len s
  | .bshBurstGo c => Sys2Proof.Machine.execBshBurstGo c s
  | .bshBurstEnd c data bad => Sys2Proof.Machine.execBshBurstEnd c data bad s
  | .hostDoorbell w => Sys2Proof.Machine.execHostDoorbell w s
  | .netCommandFrame => Sys2Proof.Machine.execNetCommandFrame s
  | .commandResponse net => Sys2Proof.Machine.execCommandResponse net s
  | .sessionOpen net => Sys2Proof.Machine.execSessionOpen net s
  | .sessionAuth net => Sys2Proof.Machine.execSessionAuth net s
  | .sessionClose net => Sys2Proof.Machine.execSessionClose net s
  | .sessionAuthTimeout sid => Sys2Proof.Machine.execSessionAuthTimeout sid s
  | .sessionIdleTimeout sid => Sys2Proof.Machine.execSessionIdleTimeout sid s
  | .status net => Sys2Proof.Machine.execStatus net s
  | .identify net => Sys2Proof.Machine.execIdentify net s
  | .showLoad net => Sys2Proof.Machine.execShowLoad net s
  | .showArm net => Sys2Proof.Machine.execShowArm net s
  | .showGo net => Sys2Proof.Machine.execShowGo net s
  | .showHold net => Sys2Proof.Machine.execShowHold net s
  | .showResume net => Sys2Proof.Machine.execShowResume net s
  | .showStop net => Sys2Proof.Machine.execShowStop net s
  | .showUnload net => Sys2Proof.Machine.execShowUnload net s
  | .faultClear net => Sys2Proof.Machine.execFaultClear net s
  | .keyLoad net => Sys2Proof.Machine.execKeyLoad net s
  | .keyDerive net => Sys2Proof.Machine.execKeyDerive net s
  | .keyDestroy net => Sys2Proof.Machine.execKeyDestroy net s
  | .attest net => Sys2Proof.Machine.execAttest net s
  | .lifecycleProvision net => Sys2Proof.Machine.execLifecycleProvision net s
  | .lifecycleDeploy net => Sys2Proof.Machine.execLifecycleDeploy net s
  | .lifecycleRma net => Sys2Proof.Machine.execLifecycleRma net s
  | .lifecycleScrap net => Sys2Proof.Machine.execLifecycleScrap net s
  | .lifecycleEvict => Sys2Proof.Machine.execLifecycleEvict s
  | .updStageBegin net => Sys2Proof.Machine.execUpdStageBegin net s
  | .updStageBlock net => Sys2Proof.Machine.execUpdStageBlock net s
  | .updStageEnd net => Sys2Proof.Machine.execUpdStageEnd net s
  | .updActivate net => Sys2Proof.Machine.execUpdActivate net s
  | .updActivateVerified net => Sys2Proof.Machine.execUpdActivateVerified net s
  | .updActivation => Sys2Proof.Machine.execUpdActivation s
  | .updSealRelease => Sys2Proof.Machine.execUpdSealRelease s
  | .updConfirm => Sys2Proof.Machine.execUpdConfirm s
  | .updConfirmTimeout => Sys2Proof.Machine.execUpdConfirmTimeout s
  | .updRecover => Sys2Proof.Machine.execUpdRecover s
  | .bootComplete => Sys2Proof.Machine.execBootComplete s
  | .calRunPixelGain net => Sys2Proof.Machine.execCalRunPixelGain net s
  | .calRunSensor net => Sys2Proof.Machine.execCalRunSensor net s
  | .calRunAdcOffset net => Sys2Proof.Machine.execCalRunAdcOffset net s
  | .calRunDone a b => Sys2Proof.Machine.execCalRunDone a b s
  | .nrgRead net => Sys2Proof.Machine.execNrgRead net s
  | .pairConfig net => Sys2Proof.Machine.execPairConfig net s
  | .pairSwap net => Sys2Proof.Machine.execPairSwap net s
  | .spareSwap net => Sys2Proof.Machine.execSpareSwap net s
  | .faultRead net => Sys2Proof.Machine.execFaultRead net s
  | .powerState net => Sys2Proof.Machine.execPowerState net s
  | .wakeSchedule net => Sys2Proof.Machine.execWakeSchedule net s
  | .resetWarm net => Sys2Proof.Machine.execResetWarm net s
  | .keyOpLoad => Sys2Proof.Machine.execKeyOpLoad s
  | .keyOpUnload => Sys2Proof.Machine.execKeyOpUnload s
  | .keyOpDerive => Sys2Proof.Machine.execKeyOpDerive s
  | .keyOpWrap => Sys2Proof.Machine.execKeyOpWrap s
  | .keyOpDestroy => Sys2Proof.Machine.execKeyOpDestroy s
  | .keyOpHmac => Sys2Proof.Machine.execKeyOpHmac s
  | .keyOpSign => Sys2Proof.Machine.execKeyOpSign s
  | .keyOpVerify => Sys2Proof.Machine.execKeyOpVerify s
  | .keyOpGcmEnc => Sys2Proof.Machine.execKeyOpGcmEnc s
  | .keyOpGcmDec => Sys2Proof.Machine.execKeyOpGcmDec s
  | .keyOpAttest => Sys2Proof.Machine.execKeyOpAttest s
  | .keyOpLifecycle => Sys2Proof.Machine.execKeyOpLifecycle s
  | .keyOpSha256 => Sys2Proof.Machine.execKeyOpSha256 s
  | .keyOpDone => Sys2Proof.Machine.execKeyOpDone s
  | .keyTrngRead entropy => Sys2Proof.Machine.execKeyTrngRead entropy s
  | .tamperTrip source => Sys2Proof.Machine.execTamperTrip source s
  | .pulseQualify n dirHigh => Sys2Proof.Machine.execPulseQualify n dirHigh s
  | .zoneIntegrate => Sys2Proof.Machine.execZoneIntegrate s
  | .zoneTfUpdate => Sys2Proof.Machine.execZoneTfUpdate s
  | .mainsEdge => Sys2Proof.Machine.execMainsEdge s
  | .mainsSyntheticCycle => Sys2Proof.Machine.execMainsSyntheticCycle s
  | .nrgLatch => Sys2Proof.Machine.execNrgLatch s
  | .nrgLoRead a => Sys2Proof.Machine.execNrgLoRead a s
  | .nrgNWrite w => Sys2Proof.Machine.execNrgNWrite w s
  | .chkStart n => Sys2Proof.Machine.execChkStart n s
  | .chkFinish n => Sys2Proof.Machine.execChkFinish n s
  | .chkStream n => Sys2Proof.Machine.execChkStream n s
  | .chkStreamEnd n => Sys2Proof.Machine.execChkStreamEnd n s
  | .chkData8 n w => Sys2Proof.Machine.execChkData8 n w s
  | .chkData32 n w => Sys2Proof.Machine.execChkData32 n w s
  | .chkAvIn k w => Sys2Proof.Machine.execChkAvIn k w s
  | .chkAvStateWrite k w => Sys2Proof.Machine.execChkAvStateWrite k w s
  | .pwcReqRun => Sys2Proof.Machine.execPwcReqRun s
  | .pwcReqDoze => Sys2Proof.Machine.execPwcReqDoze s
  | .pwcReqSleep => Sys2Proof.Machine.execPwcReqSleep s
  | .pwcReqHibernate => Sys2Proof.Machine.execPwcReqHibernate s
  | .powerEntryDone => Sys2Proof.Machine.execPowerEntryDone s
  | .powerEntryAbort source => Sys2Proof.Machine.execPowerEntryAbort source s
  | .dozeExitDone => Sys2Proof.Machine.execDozeExitDone s
  | .sleepWake => Sys2Proof.Machine.execSleepWake s
  | .wakeFilterMatch mgt frame fcsOk => Sys2Proof.Machine.execWakeFilterMatch mgt frame fcsOk s
  | .rtcAlarm => Sys2Proof.Machine.execRtcAlarm s
  | .rtcTrimApply => Sys2Proof.Machine.execRtcTrimApply s
  | .rtcSecWrite w => Sys2Proof.Machine.execRtcSecWrite w s
  | .springWriteApply => Sys2Proof.Machine.execSpringWriteApply s
  | .springSupplySwitch onVbat vbatLow => Sys2Proof.Machine.execSpringSupplySwitch onVbat vbatLow s
  | .chainPortChange west up => Sys2Proof.Machine.execChainPortChange west up s
  | .chainMessageForward west msg => Sys2Proof.Machine.execChainMessageForward west msg s
  | .chainAnnounce west msg => Sys2Proof.Machine.execChainAnnounce west msg s
  | .chainNotice west msg => Sys2Proof.Machine.execChainNotice west msg s
  | .chainDigest west msg => Sys2Proof.Machine.execChainDigest west msg s
  | .digestTimeout => Sys2Proof.Machine.execDigestTimeout s
  | .selfCheckDone found => Sys2Proof.Machine.execSelfCheckDone found s
  | .rolePropose west msg => Sys2Proof.Machine.execRolePropose west msg s
  | .roleAccept west msg => Sys2Proof.Machine.execRoleAccept west msg s
  | .roleRefuse west msg => Sys2Proof.Machine.execRoleRefuse west msg s
  | .roleSnapReq west msg => Sys2Proof.Machine.execRoleSnapReq west msg s
  | .roleSwapBack west msg => Sys2Proof.Machine.execRoleSwapBack west msg s
  | .swapLapse => Sys2Proof.Machine.execSwapLapse s
  | .pairSwapgo => Sys2Proof.Machine.execPairSwapgo s
  | .pairAutoSwap => Sys2Proof.Machine.execPairAutoSwap s
  | .swapCheckEnd => Sys2Proof.Machine.execSwapCheckEnd s
  | .chainStatusSend => Sys2Proof.Machine.execChainStatusSend s
  | .chainStatus west msg => Sys2Proof.Machine.execChainStatus west msg s
  | .partnerLossTimeout => Sys2Proof.Machine.execPartnerLossTimeout s
  | .snapCopyDone => Sys2Proof.Machine.execSnapCopyDone s
  | .chainSnap west msg => Sys2Proof.Machine.execChainSnap west msg s
  | .chainSnapEnd west msg => Sys2Proof.Machine.execChainSnapEnd west msg s
  | .catchupFrameStart => Sys2Proof.Machine.execCatchupFrameStart s
  | .inlogEntry west msg => Sys2Proof.Machine.execInlogEntry west msg s
  | .inlogEnd west msg => Sys2Proof.Machine.execInlogEnd west msg s
  | .inlogApply => Sys2Proof.Machine.execInlogApply s
  | .chainUser west msg => Sys2Proof.Machine.execChainUser west msg s
  | .chnTxqSend => Sys2Proof.Machine.execChnTxqSend s
  | .chnRxrelWrite w => Sys2Proof.Machine.execChnRxrelWrite w s
  | .spareSwapAuto kind unit => Sys2Proof.Machine.execSpareSwapAuto kind unit s
  | .spaSwapgo => Sys2Proof.Machine.execSpaSwapgo s
  | .spaSelftest fails => Sys2Proof.Machine.execSpaSelftest fails s
  | .drmUe addr => Sys2Proof.Machine.execDrmUe addr s
  | .cdieLost d => Sys2Proof.Machine.execCdieLost d s
  | .returnLaneLock l locked => Sys2Proof.Machine.execReturnLaneLock l locked s
  | .updBlockDone => Sys2Proof.Machine.execUpdBlockDone s
  | .dmxCommitApply p => Sys2Proof.Machine.execDmxCommitApply p s

end Sys2Proof.Machine
end

