-- ==== Sys2Proof/Machine/Step.lean ====
section
/-!
DEFINITION. One step: the command at the front of the queue is executed with the queue's rest; with nothing queued one
tick of the clock passes.
-/
namespace Sys2Proof.Machine
open Sys2Proof

/-- An empty queue: 2.5 ns pass, in which lanes, DRAM channels and chain ports move on, generators that found no room are
spawned, and the firmware sends each session its oldest held event (assumption 1). -/
def State.idle (s : State) : State := s.tick.fabricTick.chainTick.genTick.sendEvents

/-- One step of the block. -/
def step (s : State) : Host.Outcome State Fault Refusal :=
  match s.pending with
  | [] => .next s.idle
  | c :: rest => exec c { s with pending := rest }

/-- The state with the command that a word spells at the front of its queue; unchanged where the word spells none. -/
def State.withFetchWord (s : State) (nbits w : Nat) : State :=
  match decodeTableWord nbits w with
  | some c => { s with pending := c :: s.pending }
  | none => s

end Sys2Proof.Machine
end

