-- ==== Sys2Proof/Machine/Words.lean ====
section
/-!
DEFINITION. The words of QSIS (R83 to R130): the 32-bit word that spells an instruction, with every unused field 0 (R84). A
block fetches nothing, so an instruction reaches this model as a command; its word is what stands at the pc of a
processor that issues it (Safety's State.Fetches).
-/
namespace Sys2Proof.Machine
open Sys2Proof

/-! ### Formats (R83) -/
def aWord (op d a b fn : Nat) : Nat := op * 2 ^ 26 + d * 2 ^ 21 + a * 2 ^ 16 + b * 2 ^ 11 + fn
/-- The I and M formats. -/
def iWord (op d a : Nat) (imm : BitVec 16) : Nat := op * 2 ^ 26 + d * 2 ^ 21 + a * 2 ^ 16 + imm.toNat
/-- The vector M format. -/
def mvWord (op : Nat) (vd : VReg) (base : GReg) (pm : PReg) (off : BitVec 13) : Nat :=
  op * 2 ^ 26 + vd.toNat * 2 ^ 21 + base.toNat * 2 ^ 16 + pm.toNat * 2 ^ 13 + off.toNat
/-- The V and S formats. -/
def vWord (op vd va vb pm fn : Nat) : Nat := op * 2 ^ 26 + vd * 2 ^ 22 + va * 2 ^ 18 + vb * 2 ^ 14 + pm * 2 ^ 11 + fn
def bWord (op cond : Nat) (off : BitVec 21) : Nat := op * 2 ^ 26 + cond * 2 ^ 21 + off.toNat

/-- The word of an instruction: none for a command that is no instruction, and for operands that its encoding does not
admit (a register pair of R114, the test 0b11 of BP, SCALL on a vent, ALIVE with d = a). -/
def wordOf (i : Instr) : Option Nat :=
  match i with
  | .add _ d a b => some (aWord 0x01 d.toNat a.toNat b.toNat 0x0)
  | .sub _ d a b => some (aWord 0x01 d.toNat a.toNat b.toNat 0x1)
  | .adds _ d a b => some (aWord 0x01 d.toNat a.toNat b.toNat 0x2)
  | .subs _ d a b => some (aWord 0x01 d.toNat a.toNat b.toNat 0x3)
  | .addus _ d a b => some (aWord 0x01 d.toNat a.toNat b.toNat 0x4)
  | .subus _ d a b => some (aWord 0x01 d.toNat a.toNat b.toNat 0x5)
  | .and _ d a b => some (aWord 0x01 d.toNat a.toNat b.toNat 0x8)
  | .or _ d a b => some (aWord 0x01 d.toNat a.toNat b.toNat 0x9)
  | .xor _ d a b => some (aWord 0x01 d.toNat a.toNat b.toNat 0xa)
  | .andn _ d a b => some (aWord 0x01 d.toNat a.toNat b.toNat 0xb)
  | .nor _ d a b => some (aWord 0x01 d.toNat a.toNat b.toNat 0xc)
  | .sll _ d a b => some (aWord 0x01 d.toNat a.toNat b.toNat 0x10)
  | .srl _ d a b => some (aWord 0x01 d.toNat a.toNat b.toNat 0x11)
  | .sra _ d a b => some (aWord 0x01 d.toNat a.toNat b.toNat 0x12)
  | .ror _ d a b => some (aWord 0x01 d.toNat a.toNat b.toNat 0x13)
  | .slli _ d a n => some (aWord 0x01 d.toNat a.toNat n.toNat 0x14)
  | .srli _ d a n => some (aWord 0x01 d.toNat a.toNat n.toNat 0x15)
  | .srai _ d a n => some (aWord 0x01 d.toNat a.toNat n.toNat 0x16)
  | .rori _ d a n => some (aWord 0x01 d.toNat a.toNat n.toNat 0x17)
  | .slt _ d a b => some (aWord 0x01 d.toNat a.toNat b.toNat 0x18)
  | .sltu _ d a b => some (aWord 0x01 d.toNat a.toNat b.toNat 0x19)
  | .seq _ d a b => some (aWord 0x01 d.toNat a.toNat b.toNat 0x1a)
  | .min _ d a b => some (aWord 0x01 d.toNat a.toNat b.toNat 0x1b)
  | .max _ d a b => some (aWord 0x01 d.toNat a.toNat b.toNat 0x1c)
  | .minu _ d a b => some (aWord 0x01 d.toNat a.toNat b.toNat 0x1d)
  | .maxu _ d a b => some (aWord 0x01 d.toNat a.toNat b.toNat 0x1e)
  | .clz _ d a => some (aWord 0x01 d.toNat a.toNat 0 0x20)
  | .popc _ d a => some (aWord 0x01 d.toNat a.toNat 0 0x21)
  | .sextb _ d a => some (aWord 0x01 d.toNat a.toNat 0 0x22)
  | .sexth _ d a => some (aWord 0x01 d.toNat a.toNat 0 0x23)
  | .addx _ d a b => some (aWord 0x01 d.toNat a.toNat b.toNat 0x28)
  | .subx _ d a b => some (aWord 0x01 d.toNat a.toNat b.toNat 0x29)
  | .addl _ d a b => some (aWord 0x01 d.toNat a.toNat b.toNat 0x30)
  | .subl _ d a b => some (aWord 0x01 d.toNat a.toNat b.toNat 0x31)
  | .mull _ d a b => some (aWord 0x01 d.toNat a.toNat b.toNat 0x32)
  | .mul _ d a b => some (aWord 0x02 d.toNat a.toNat b.toNat 0x0)
  | .mulhs _ d a b => some (aWord 0x02 d.toNat a.toNat b.toNat 0x1)
  | .mulhu _ d a b => some (aWord 0x02 d.toNat a.toNat b.toNat 0x2)
  | .madd _ d a b => some (aWord 0x02 d.toNat a.toNat b.toNat 0x3)
  | .divs _ d a b => some (aWord 0x02 d.toNat a.toNat b.toNat 0x8)
  | .divu _ d a b => some (aWord 0x02 d.toNat a.toNat b.toNat 0x9)
  | .rems _ d a b => some (aWord 0x02 d.toNat a.toNat b.toNat 0xa)
  | .remu _ d a b => some (aWord 0x02 d.toNat a.toNat b.toNat 0xb)
  | .mulx _ d a b => some (aWord 0x02 d.toNat a.toNat b.toNat 0x10)
  | .divx _ d a b => some (aWord 0x02 d.toNat a.toNat b.toNat 0x11)
  | .maddx _ d a b => some (aWord 0x02 d.toNat a.toNat b.toNat 0x12)
  | .fadd _ d a b => some (aWord 0x03 d.toNat a.toNat b.toNat 0x0)
  | .fsub _ d a b => some (aWord 0x03 d.toNat a.toNat b.toNat 0x1)
  | .fmul _ d a b => some (aWord 0x03 d.toNat a.toNat b.toNat 0x2)
  | .fmadd _ d a b => some (aWord 0x03 d.toNat a.toNat b.toNat 0x3)
  | .fmin _ d a b => some (aWord 0x03 d.toNat a.toNat b.toNat 0x4)
  | .fmax _ d a b => some (aWord 0x03 d.toNat a.toNat b.toNat 0x5)
  | .fabs _ d a => some (aWord 0x03 d.toNat a.toNat 0 0x6)
  | .fneg _ d a => some (aWord 0x03 d.toNat a.toNat 0 0x7)
  | .fdiv _ d a b => some (aWord 0x03 d.toNat a.toNat b.toNat 0x8)
  | .fsqrt _ d a => some (aWord 0x03 d.toNat a.toNat 0 0x9)
  | .feq _ d a b => some (aWord 0x03 d.toNat a.toNat b.toNat 0x10)
  | .flt _ d a b => some (aWord 0x03 d.toNat a.toNat b.toNat 0x11)
  | .fle _ d a b => some (aWord 0x03 d.toNat a.toNat b.toNat 0x12)
  | .fcvtSW _ d a => some (aWord 0x03 d.toNat a.toNat 0 0x20)
  | .fcvtWS _ d a => some (aWord 0x03 d.toNat a.toNat 0 0x21)
  | .fcvtSX _ d a => some (aWord 0x03 d.toNat a.toNat 0 0x22)
  | .fcvtXS _ d a => some (aWord 0x03 d.toNat a.toNat 0 0x23)
  | .fcvtSL _ d a => some (aWord 0x03 d.toNat a.toNat 0 0x24)
  | .fcvtLS _ d a => some (aWord 0x03 d.toNat a.toNat 0 0x25)
  | .addi _ d a imm => some (iWord 0x04 d.toNat a.toNat imm)
  | .andi _ d a imm => some (iWord 0x05 d.toNat a.toNat imm)
  | .ori _ d a imm => some (iWord 0x06 d.toNat a.toNat imm)
  | .xori _ d a imm => some (iWord 0x07 d.toNat a.toNat imm)
  | .slti _ d a imm => some (iWord 0x09 d.toNat a.toNat imm)
  | .sltiu _ d a imm => some (iWord 0x0A d.toNat a.toNat imm)
  | .lui _ d imm => some (iWord 0x08 d.toNat 0 imm)
  | .lw _ d base off => some (iWord 0x10 d.toNat base.toNat off)
  | .lh _ d base off => some (iWord 0x11 d.toNat base.toNat off)
  | .lhu _ d base off => some (iWord 0x12 d.toNat base.toNat off)
  | .lb _ d base off => some (iWord 0x13 d.toNat base.toNat off)
  | .lbu _ d base off => some (iWord 0x14 d.toNat base.toNat off)
  | .sw _ d base off => some (iWord 0x15 d.toNat base.toNat off)
  | .sh _ d base off => some (iWord 0x16 d.toNat base.toNat off)
  | .sb _ d base off => some (iWord 0x17 d.toNat base.toNat off)
  | .lhf _ d base off => some (iWord 0x1D d.toNat base.toNat off)
  | .shf _ d base off => some (iWord 0x1E d.toNat base.toNat off)
  | .vlw _ vd base pm off => some (mvWord 0x18 vd base pm off)
  | .vsw _ vd base pm off => some (mvWord 0x19 vd base pm off)
  | .vlh _ vd base pm off => some (mvWord 0x1A vd base pm off)
  | .vsh _ vd base pm off => some (mvWord 0x1B vd base pm off)
  | .vglw _ vd va pm => some (vWord 0x1C vd.toNat va.toNat 0 pm.toNat 0)
  | .vscw _ va vb pm => some (vWord 0x1C 0 va.toNat vb.toNat pm.toNat 1)
  | .vglh _ vd va pm => some (vWord 0x1C vd.toNat va.toNat 0 pm.toNat 2)
  | .vsch _ va vb pm => some (vWord 0x1C 0 va.toNat vb.toNat pm.toNat 3)
  | .vadd _ vd va vb pm => some (vWord 0x20 vd.toNat va.toNat vb.toNat pm.toNat 0x0)
  | .vsub _ vd va vb pm => some (vWord 0x20 vd.toNat va.toNat vb.toNat pm.toNat 0x1)
  | .vadds _ vd va vb pm => some (vWord 0x20 vd.toNat va.toNat vb.toNat pm.toNat 0x2)
  | .vsubs _ vd va vb pm => some (vWord 0x20 vd.toNat va.toNat vb.toNat pm.toNat 0x3)
  | .vaddus _ vd va vb pm => some (vWord 0x20 vd.toNat va.toNat vb.toNat pm.toNat 0x4)
  | .vsubus _ vd va vb pm => some (vWord 0x20 vd.toNat va.toNat vb.toNat pm.toNat 0x5)
  | .vand _ vd va vb pm => some (vWord 0x20 vd.toNat va.toNat vb.toNat pm.toNat 0x8)
  | .vor _ vd va vb pm => some (vWord 0x20 vd.toNat va.toNat vb.toNat pm.toNat 0x9)
  | .vxor _ vd va vb pm => some (vWord 0x20 vd.toNat va.toNat vb.toNat pm.toNat 0xa)
  | .vandn _ vd va vb pm => some (vWord 0x20 vd.toNat va.toNat vb.toNat pm.toNat 0xb)
  | .vsll _ vd va vb pm => some (vWord 0x20 vd.toNat va.toNat vb.toNat pm.toNat 0x10)
  | .vsrl _ vd va vb pm => some (vWord 0x20 vd.toNat va.toNat vb.toNat pm.toNat 0x11)
  | .vsra _ vd va vb pm => some (vWord 0x20 vd.toNat va.toNat vb.toNat pm.toNat 0x12)
  | .vmin _ vd va vb pm => some (vWord 0x20 vd.toNat va.toNat vb.toNat pm.toNat 0x18)
  | .vmax _ vd va vb pm => some (vWord 0x20 vd.toNat va.toNat vb.toNat pm.toNat 0x19)
  | .vminu _ vd va vb pm => some (vWord 0x20 vd.toNat va.toNat vb.toNat pm.toNat 0x1a)
  | .vmaxu _ vd va vb pm => some (vWord 0x20 vd.toNat va.toNat vb.toNat pm.toNat 0x1b)
  | .vmul _ vd va vb pm => some (vWord 0x20 vd.toNat va.toNat vb.toNat pm.toNat 0x20)
  | .vmulhs _ vd va vb pm => some (vWord 0x20 vd.toNat va.toNat vb.toNat pm.toNat 0x21)
  | .vmulhu _ vd va vb pm => some (vWord 0x20 vd.toNat va.toNat vb.toNat pm.toNat 0x22)
  | .vmadd _ vd va vb pm => some (vWord 0x20 vd.toNat va.toNat vb.toNat pm.toNat 0x23)
  | .vaddx _ vd va vb pm => some (vWord 0x20 vd.toNat va.toNat vb.toNat pm.toNat 0x28)
  | .vsubx _ vd va vb pm => some (vWord 0x20 vd.toNat va.toNat vb.toNat pm.toNat 0x29)
  | .vmulx _ vd va vb pm => some (vWord 0x20 vd.toNat va.toNat vb.toNat pm.toNat 0x2a)
  | .vmaddx _ vd va vb pm => some (vWord 0x20 vd.toNat va.toNat vb.toNat pm.toNat 0x2b)
  | .vaddl _ vd va vb pm => some (vWord 0x20 vd.toNat va.toNat vb.toNat pm.toNat 0x30)
  | .vsubl _ vd va vb pm => some (vWord 0x20 vd.toNat va.toNat vb.toNat pm.toNat 0x31)
  | .vmull _ vd va vb pm => some (vWord 0x20 vd.toNat va.toNat vb.toNat pm.toNat 0x32)
  | .vmaddl _ vd va vb pm => some (vWord 0x20 vd.toNat va.toNat vb.toNat pm.toNat 0x33)
  | .vslli _ vd va pm k => some (vWord 0x20 vd.toNat va.toNat 0 pm.toNat (0x400 + k.toNat))
  | .vsrli _ vd va pm k => some (vWord 0x20 vd.toNat va.toNat 0 pm.toNat (0x420 + k.toNat))
  | .vsrai _ vd va pm k => some (vWord 0x20 vd.toNat va.toNat 0 pm.toNat (0x440 + k.toNat))
  | .vfadd _ vd va vb pm => some (vWord 0x21 vd.toNat va.toNat vb.toNat pm.toNat 0x0)
  | .vfsub _ vd va vb pm => some (vWord 0x21 vd.toNat va.toNat vb.toNat pm.toNat 0x1)
  | .vfmul _ vd va vb pm => some (vWord 0x21 vd.toNat va.toNat vb.toNat pm.toNat 0x2)
  | .vfmadd _ vd va vb pm => some (vWord 0x21 vd.toNat va.toNat vb.toNat pm.toNat 0x3)
  | .vfmin _ vd va vb pm => some (vWord 0x21 vd.toNat va.toNat vb.toNat pm.toNat 0x4)
  | .vfmax _ vd va vb pm => some (vWord 0x21 vd.toNat va.toNat vb.toNat pm.toNat 0x5)
  | .vfabs _ vd va pm => some (vWord 0x21 vd.toNat va.toNat 0 pm.toNat 0x6)
  | .vfneg _ vd va pm => some (vWord 0x21 vd.toNat va.toNat 0 pm.toNat 0x7)
  | .vfdiv _ vd va vb pm => some (vWord 0x21 vd.toNat va.toNat vb.toNat pm.toNat 0x8)
  | .vfsqrt _ vd va pm => some (vWord 0x21 vd.toNat va.toNat 0 pm.toNat 0x9)
  | .vcvtSW _ vd va pm => some (vWord 0x21 vd.toNat va.toNat 0 pm.toNat 0x20)
  | .vcvtWS _ vd va pm => some (vWord 0x21 vd.toNat va.toNat 0 pm.toNat 0x21)
  | .vcvtSX _ vd va pm => some (vWord 0x21 vd.toNat va.toNat 0 pm.toNat 0x22)
  | .vcvtXS _ vd va pm => some (vWord 0x21 vd.toNat va.toNat 0 pm.toNat 0x23)
  | .vcvtSL _ vd va pm => some (vWord 0x21 vd.toNat va.toNat 0 pm.toNat 0x24)
  | .vcvtLS _ vd va pm => some (vWord 0x21 vd.toNat va.toNat 0 pm.toNat 0x25)
  | .vceq _ pd va vb pm => some (vWord 0x22 pd.toNat va.toNat vb.toNat pm.toNat 0x0)
  | .vcne _ pd va vb pm => some (vWord 0x22 pd.toNat va.toNat vb.toNat pm.toNat 0x1)
  | .vclt _ pd va vb pm => some (vWord 0x22 pd.toNat va.toNat vb.toNat pm.toNat 0x2)
  | .vcle _ pd va vb pm => some (vWord 0x22 pd.toNat va.toNat vb.toNat pm.toNat 0x3)
  | .vcltu _ pd va vb pm => some (vWord 0x22 pd.toNat va.toNat vb.toNat pm.toNat 0x4)
  | .vcleu _ pd va vb pm => some (vWord 0x22 pd.toNat va.toNat vb.toNat pm.toNat 0x5)
  | .vfceq _ pd va vb pm => some (vWord 0x22 pd.toNat va.toNat vb.toNat pm.toNat 0x10)
  | .vfclt _ pd va vb pm => some (vWord 0x22 pd.toNat va.toNat vb.toNat pm.toNat 0x11)
  | .vfcle _ pd va vb pm => some (vWord 0x22 pd.toNat va.toNat vb.toNat pm.toNat 0x12)
  | .vmov _ vd va pm => some (vWord 0x23 vd.toNat va.toNat 0 pm.toNat 0)
  | .vbcast _ vd g pm => some (vWord 0x23 vd.toNat 0 0 pm.toNat (0x40 + g.toNat))
  | .vins _ vd g k => some (vWord 0x23 vd.toNat 0 k.toNat 0 (0x60 + g.toNat))
  | .vext _ g va k => some (vWord 0x23 0 va.toNat k.toNat 0 (0x80 + g.toNat))
  | .vperm _ vd va vb pm => some (vWord 0x23 vd.toNat va.toNat vb.toNat pm.toNat 0xA0)
  | .vrot _ vd va k pm => some (vWord 0x23 vd.toNat va.toNat k.toNat pm.toNat 0xC0)
  | .vradd _ g va pm => some (vWord 0x23 0 va.toNat 0 pm.toNat (0x200 + g.toNat))
  | .vraddx _ g va pm => some (vWord 0x23 0 va.toNat 0 pm.toNat (0x220 + g.toNat))
  | .vrfadd _ g va pm => some (vWord 0x23 0 va.toNat 0 pm.toNat (0x240 + g.toNat))
  | .vrmin _ g va pm => some (vWord 0x23 0 va.toNat 0 pm.toNat (0x260 + g.toNat))
  | .vrmax _ g va pm => some (vWord 0x23 0 va.toNat 0 pm.toNat (0x280 + g.toNat))
  | .vrminu _ g va pm => some (vWord 0x23 0 va.toNat 0 pm.toNat (0x2A0 + g.toNat))
  | .vrmaxu _ g va pm => some (vWord 0x23 0 va.toNat 0 pm.toNat (0x2C0 + g.toNat))
  | .pand _ pd pa pb => some (vWord 0x24 pd.toNat pa.toNat pb.toNat 0 0)
  | .por _ pd pa pb => some (vWord 0x24 pd.toNat pa.toNat pb.toNat 0 1)
  | .pxor _ pd pa pb => some (vWord 0x24 pd.toNat pa.toNat pb.toNat 0 2)
  | .pandn _ pd pa pb => some (vWord 0x24 pd.toNat pa.toNat pb.toNat 0 3)
  | .pnot _ pd pa => some (vWord 0x24 pd.toNat pa.toNat 0 0 4)
  | .pfromg _ pd g => some (vWord 0x24 pd.toNat 0 0 0 (0x400 + g.toNat))
  | .ptog _ g pa => some (vWord 0x24 0 pa.toNat 0 0 (0x420 + g.toNat))
  | .pcnt _ g pa => some (vWord 0x24 0 pa.toNat 0 0 (0x440 + g.toNat))
  | .dmago _ d a => some (aWord 0x28 d.toNat a.toNat 0 0)
  | .dmawait _ d a => some (aWord 0x28 d.toNat a.toNat 0 1)
  | .dmapoll _ d a => some (aWord 0x28 d.toNat a.toNat 0 2)
  | .dmastat _ d a => some (aWord 0x28 d.toNat a.toNat 0 3)
  | .br _ off => some (bWord 0x30 0 off)
  | .bal _ off => some (bWord 0x31 0 off)
  | .bz _ c off => some (bWord 0x32 c.toNat off)
  | .bnz _ c off => some (bWord 0x33 c.toNat off)
  | .bltz _ c off => some (bWord 0x34 c.toNat off)
  | .bgez _ c off => some (bWord 0x35 c.toNat off)
  | .bp _ test pr off => if test = 3 then none else some (bWord 0x36 (test.toNat * 8 + pr.toNat) off)
  | .jr _ a => some (aWord 0x37 0 a.toNat 0 0)
  | .jalr _ d a => some (aWord 0x37 d.toNat a.toNat 0 1)
  | .mfs _ d num => some (iWord 0x38 d.toNat 0 num)
  | .mts _ a num => some (iWord 0x39 0 a.toNat num)
  | .nop _ => some (aWord 0x3A 0 0 0 0x0)
  | .fence _ => some (aWord 0x3A 0 0 0 0x1)
  | .isync _ => some (aWord 0x3A 0 0 0 0x2)
  | .brk _ => some (aWord 0x3A 0 0 0 0x3)
  | .eret _ => some (aWord 0x3A 0 0 0 0x10)
  | .wfi _ => some (aWord 0x3A 0 0 0 0x11)
  | .scall p => match p with
    | .vent _ => none
    | _ => some (aWord 0x3A 0 0 0 0x4)
  | .vblend _ m vd va vb pm => some (vWord 0x3C vd.toNat va.toNat vb.toNat pm.toNat m.toNat)
  | .vcurve _ vd va g pm => some (vWord 0x3C vd.toNat va.toNat 0 pm.toNat (0x20 + g.toNat))
  | .vgamma _ k vd va pm => some (vWord 0x3C vd.toNat va.toNat 0 pm.toNat (0x40 + k.toNat))
  | .vcmxf _ vd va g pm => some (vWord 0x3C vd.toNat va.toNat 0 pm.toNat (0x60 + g.toNat))
  | .vcmxl _ vd va g pm => some (vWord 0x3C vd.toNat va.toNat 0 pm.toNat (0x80 + g.toNat))
  | .vproj _ vd va vb g pm =>
    if vd.toNat % 2 = 0 then some (vWord 0x3C vd.toNat va.toNat vb.toNat pm.toNat (0xA0 + g.toNat)) else none
  | .vsampa _ dx dy vd va vb g pm => some (vWord 0x3C vd.toNat va.toNat vb.toNat pm.toNat (0xC0 + b2n dx * 0x20 + b2n dy * 0x40 + g.toNat))
  | .vfract _ vd va pm => some (vWord 0x3C vd.toNat va.toNat 0 pm.toNat 0x140)
  | .vlerpf _ vd va vb pm => some (vWord 0x3C vd.toNat va.toNat vb.toNat pm.toNat 0x141)
  | .vfade _ vd va g pm => some (vWord 0x3D vd.toNat va.toNat 0 pm.toNat (0x0 + g.toNat))
  | .vfpos _ vd va g pm => some (vWord 0x3D vd.toNat va.toNat 0 pm.toNat (0x20 + g.toNat))
  | .vfmix _ vd va g pm => some (vWord 0x3D vd.toNat va.toNat 0 pm.toNat (0x40 + g.toNat))
  | .spawn _ d a => if pairField d.toNat then some (vWord 0x3E d.toNat a.toNat 0 0 0x000) else none
  | .yield _ => some (vWord 0x3E 0 0 0 0 0x001)
  | .done _ => some (vWord 0x3E 0 0 0 0 0x002)
  | .cancel _ d a => some (vWord 0x3E d.toNat a.toNat 0 0 0x003)
  | .waitf _ a => some (vWord 0x3E 0 a.toNat 0 0 0x004)
  | .waite _ a => some (vWord 0x3E 0 a.toNat 0 0 0x005)
  | .signal _ d a => some (vWord 0x3E d.toNat a.toNat 0 0 0x006)
  | .eclass _ a => some (vWord 0x3E 0 a.toNat 0 0 0x007)
  | .jset _ d a b => some (vWord 0x3E d.toNat a.toNat b.toNat 0 0x008)
  | .join _ d a => if pairField d.toNat then some (vWord 0x3E d.toNat a.toNat 0 0 0x009) else none
  | .cadd _ d a b => some (vWord 0x3E d.toNat a.toNat b.toNat 0 0x00A)
  | .mpost _ d a b => some (vWord 0x3E d.toNat a.toNat b.toNat 0 0x010)
  | .mrecv _ d a => if pairField d.toNat then some (vWord 0x3E d.toNat a.toNat 0 0 0x011) else none
  | .qpush _ d a b => some (vWord 0x3E d.toNat a.toNat b.toNat 0 0x018)
  | .qpop _ d a b => if pairField d.toNat then some (vWord 0x3E d.toNat a.toNat b.toNat 0 0x019) else none
  | .qmark _ d a => some (vWord 0x3E d.toNat a.toNat 0 0 0x01A)
  | .qrewind _ d a => some (vWord 0x3E d.toNat a.toNat 0 0 0x01B)
  | .qrel _ d a => some (vWord 0x3E d.toNat a.toNat 0 0 0x01C)
  | .crci _ d a => if pairField d.toNat then some (vWord 0x3E d.toNat a.toNat 0 0 0x020) else none
  | .crcb _ d a b => if pairField d.toNat then some (vWord 0x3E d.toNat a.toNat b.toNat 0 0x021) else none
  | .crcw _ d a b => if pairField d.toNat then some (vWord 0x3E d.toNat a.toNat b.toNat 0 0x022) else none
  | .crcm _ d a b => if pairField d.toNat ∧ pairField b.toNat then some (vWord 0x3E d.toNat a.toNat b.toNat 0 0x023) else none
  | .crcf _ d a => if pairField d.toNat then some (vWord 0x3E d.toNat a.toNat 0 0 0x024) else none
  | .alive _ d a b => if d ≠ a then some (vWord 0x3E d.toNat a.toNat b.toNat 0 0x028) else none
  | _ => none

end Sys2Proof.Machine
end

