-- ==== Sys2Proof/Safety.lean ====
section
/-!
DEFINITION. What claims about the machine are stated with: a command that completes, the conditions under which a
processor issues an instruction, what an instruction leaves unchanged, and the canonical form of the sparse maps.
-/
namespace Sys2Proof.Machine
open Sys2Proof

/-- Memory is in canonical form: addresses strictly rising, and no entry equal to what an unlisted byte reads as. -/
abbrev Memory.wf (m : List Host.Cell) : Prop := mwf memReset m = true

/-- The register file is in canonical form. -/
abbrev Regs.wf (m : Map Word) : Prop := mwf regReset m = true

/-- Command c completes in state s, and P holds of the state it leaves. -/
def Gives (c : Instr) (s : State) (P : State → Prop) : Prop := ∃ t, exec c s = .next t ∧ P t

/-- Two commands of a kind leave every byte of memory as it was: what reading an address answers is unchanged. -/
def SameMem (s t : State) : Prop := ∀ a, t.rdB a = s.rdB a

/-! ### Processors -/

/-- Processor p issues the instruction at its pc: it runs and is not stalled, the fetch is allowed (R60 on a vent; R40,
R41 and R80 on a core) and finds no scratch error (R22), no check of a vent's datapath fails (R71), and the word after it is
a fetch address too. -/
def State.Issues (s : State) (p : Proc) : Prop :=
  s.canIssue p = true ∧
  match p with
  | .vent n => 0x100000 ≤ (s.vent n.toNat).pc.toNat ∧ (s.vent n.toNat).pc.toNat + 4 < 0x200000 ∧
      s.eccAt (scratchAddr (n.toNat / 16) ((s.vent n.toNat).pc.toNat - 0x100000)) = 0 ∧
      s.hwchk.contains (s.phys n.toNat) = false
  | p => (s.core (coreNo p)).check ((s.core (coreNo p)).map (s.core (coreNo p)).pc) 2 = .ok ∧
      coreReach (coreNo p) (s.core (coreNo p)).secure ((s.core (coreNo p)).map (s.core (coreNo p)).pc) 2 = true ∧
      coreFetch ((s.core (coreNo p)).map (s.core (coreNo p)).pc) = true

/-- The word at p's pc, and that it spells the instruction i which p issues (R83, R84, R87). -/
def State.wordAt (s : State) (p : Proc) : Nat :=
  match p with
  | .vent n => s.rdLe (scratchAddr (n.toNat / 16) ((s.vent n.toNat).pc.toNat - 0x100000)) 4
  | p => s.rdLe ((s.core (coreNo p)).map (s.core (coreNo p)).pc) 4
def State.Fetches (s : State) (p : Proc) (i : Instr) : Prop := s.Issues p ∧ wordOf i = some (s.wordAt p)

/-- From s to t nothing changes but processor p's own scalar, vector and predicate registers, sticky flags and pc. -/
def OnlyProc (s t : State) (p : Proc) : Prop :=
  match p with
  | .vent n => let x := t.vent n.toNat
    t = s.setVent n.toNat { s.vent n.toNat with g := x.g, v := x.v, p := x.p, flags := x.flags, pc := x.pc }
  | p => let x := t.core (coreNo p)
    t = s.setCore (coreNo p) { s.core (coreNo p) with g := x.g, flags := x.flags, pc := x.pc }

/-- Processor p's vector and predicate registers are as they were (a core has none). -/
def SameLanes (s t : State) (p : Proc) : Prop :=
  match p with
  | .vent n => (∀ r, t.vreg n.toNat r = s.vreg n.toNat r) ∧ ∀ r, t.preg n.toNat r = s.preg n.toNat r
  | _ => True

/-- An instruction of p writes w to g(d), g0 staying 0 (R85), raises the flags fl and completes; nothing else
changes. -/
def ScalarDone (s : State) (p : Proc) (d : GReg) (w fl : Word) (t : State) : Prop :=
  (∀ r : GReg, t.g p r.toNat = if r = d ∧ r ≠ 0 then w else s.g p r.toNat) ∧
  t.flagsOf p = s.flagsOf p ||| fl ∧ t.pcOf p = s.pcOf p + 4 ∧ SameLanes s t p ∧ OnlyProc s t p

/-- r is the integer nearest to x ÷ k, and the even one when two are equally near (R54). -/
def RoundsToEven (x : Int) (k : Nat) (r : Int) : Prop :=
  2 * (r * k - x).natAbs ≤ k ∧ (2 * (r * k - x).natAbs = k → r % 2 = 0)

/-- A saturating form (R53, R54): the exact result x is clamped to lo and hi, and sat is raised when it clamps. -/
def SatDone (s : State) (p : Proc) (d : GReg) (lo hi x : Int) (t : State) : Prop :=
  ScalarDone s p d (BitVec.ofInt 32 (max lo (min hi x))) (if x < lo ∨ hi < x then FL_SAT else 0) t

/-- A lum20 form (R55): operands above 0xF_FFFF are clamped to it with sat; x is the exact result of the clamped operands,
which saturates with sat. -/
def LumDone (s : State) (p : Proc) (d a b : GReg) (f : Int → Int → Int) (t : State) : Prop :=
  let x : Int := (s.g p a.toNat).toNat
  let y : Int := (s.g p b.toNat).toNat
  let r := f (min x 0xFFFFF) (min y 0xFFFFF)
  ScalarDone s p d (BitVec.ofInt 32 (max 0 (min 0xFFFFF r)))
    (if 0xFFFFF < x ∨ 0xFFFFF < y ∨ r < 0 ∨ 0xFFFFF < r then FL_SAT else 0) t

/-- A vector instruction of vent n writes lane i of v(vd) with f i on each active lane and keeps the others, raises the
active lanes' flags and completes; nothing else changes (R50, R51). -/
def LanesDone (s : State) (n : VentNo) (vd : VReg) (pm : PReg) (f : Nat → ResF) (t : State) : Prop :=
  (∀ r : VReg, ∀ i, i < 8 → lane (t.vreg n.toNat r.toNat) i =
    if r = vd ∧ s.active n.toNat pm i = true then (f i).1 else lane (s.vreg n.toNat r.toNat) i) ∧
  (∀ k, bitOf (t.vent n.toNat).flags k =
    (bitOf (s.vent n.toNat).flags k || lanes.any fun i => s.active n.toNat pm i && bitOf (f i).2 k)) ∧
  (∀ r, t.gv n.toNat r = s.gv n.toNat r) ∧ (∀ r, t.preg n.toNat r = s.preg n.toNat r) ∧
  (t.vent n.toNat).pc = (s.vent n.toNat).pc + 4 ∧ OnlyProc s t (.vent n)

/-- An instruction of vent n writes the eight bits of p(pd), p0 staying all ones (R85), raises flags and completes;
nothing else changes. -/
def PredDone (s : State) (n : VentNo) (pd : PReg) (b : Nat → Bool) (fl : Nat → Bool) (t : State) : Prop :=
  (∀ r : PReg, ∀ i, i < 8 → (t.preg n.toNat r.toNat).getLsbD i =
    if r = pd ∧ r ≠ 0 then b i else (s.preg n.toNat r.toNat).getLsbD i) ∧
  (∀ k, bitOf (t.vent n.toNat).flags k = (bitOf (s.vent n.toNat).flags k || fl k)) ∧
  (∀ r, t.gv n.toNat r = s.gv n.toNat r) ∧ (∀ r, t.vreg n.toNat r = s.vreg n.toNat r) ∧
  (t.vent n.toNat).pc = (s.vent n.toNat).pc + 4 ∧ OnlyProc s t (.vent n)

/-- A comparison writes p(pd): bit i is 1 when lane i is active and the condition holds; the active lanes' flags are
raised (R50, R97). -/
def CompareDone (s : State) (n : VentNo) (pd : PReg) (pm : PReg) (f : Nat → ResF) (t : State) : Prop :=
  PredDone s n pd (fun i => s.active n.toNat pm i && decide ((f i).1 ≠ 0))
    (fun k => lanes.any fun i => s.active n.toNat pm i && bitOf (f i).2 k) t

/-- A jump or branch of p has moved the pc to w and changed nothing else. -/
def PcDone (s : State) (p : Proc) (w : Word) (t : State) : Prop :=
  (∀ r : GReg, t.g p r.toNat = s.g p r.toNat) ∧ t.flagsOf p = s.flagsOf p ∧ t.pcOf p = w ∧ SameLanes s t p ∧
  OnlyProc s t p

/-- Where p may continue: any address on a core, the scratch window on a vent (R60). -/
def Reachable (p : Proc) (w : Word) : Prop :=
  match p with
  | .vent _ => 0x100000 ≤ w.toNat ∧ w.toNat < 0x200000
  | _ => True

/-- Core k has taken an exception (R78): s_epc, s_cause and s_tval are written, ie is copied to pie and the world to
pworld, ie is clear, and the core continues at the vector base of the world it enters plus cause × 64. No other register
of the core changes, and nothing else of the machine. -/
def ExceptionTaken (s : State) (k cause : Nat) (epc tval : Word) (secure : Bool) (t : State) : Prop :=
  let c := s.core k
  t = s.setCore k { c with
    epc := epc, cause := BitVec.ofNat 32 cause, tval := tval,
    status := BitVec.ofNat 32 ((if bitOf c.status 0 then 2 else 0) + if c.secure then 4 else 0),
    secure := secure, run := .running, stall := none,
    pc := (if secure then c.svbase else c.vbase) + BitVec.ofNat 32 (cause * 64) }

/-- Vent n runs the task of pool key `key`, which holds `tk`, no transfer of it is in flight and no instruction of it waits
for room. -/
def State.Runs (s : State) (n : VentNo) (key : Nat) (tk : Task) : Prop :=
  (s.vent n.toNat).task = some key ∧ (s.vent n.toNat).ended = none ∧ s.task? key = some tk ∧
  (s.vent n.toNat).draining = false

/-! ### Memory as a processor sees it -/

/-- k bytes at address a pass the checks of a load by p: alignment, reach or protection, and no scratch error (R22, R59,
R80, R92). -/
def State.LoadOk (s : State) (p : Proc) (a : Word) (k : Nat) : Prop :=
  a.toNat % k = 0 ∧
  match p with
  | .vent n => ventReach a.toNat k = true ∧ ∀ w, w ∈ ventWords n.toNat a.toNat k → s.eccAt w = 0
  | p => let c := s.core (coreNo p)
    c.check (c.map a) 0 = .ok ∧ coreReach (coreNo p) c.secure (c.map a) 0 = true ∧ isMem (c.map a) = true ∧
      ∀ w, w ∈ s.coreScratch (coreNo p) a k → s.eccAt w = 0

/-- The little-endian number in k bytes at address a as p reads them. -/
def State.loaded (s : State) (p : Proc) (a : Word) (k : Nat) : Nat :=
  match p with
  | .vent n => leNat (s.vrdBytes n.toNat a.toNat k)
  | p => leNat (s.coreBytes (coreNo p) a k)

/-- k bytes at address a pass the checks of a store by p. -/
def State.StoreOk (s : State) (p : Proc) (a : Word) (k : Nat) : Prop :=
  a.toNat % k = 0 ∧
  match p with
  | .vent n => ventReach a.toNat k = true ∧ ∀ w, w ∈ ventPartial n.toNat a.toNat k → s.eccAt w = 0
  | p => let c := s.core (coreNo p)
    c.check (c.map a) 1 = .ok ∧ coreReach (coreNo p) c.secure (c.map a) 1 = true ∧ isMem (c.map a) = true ∧
      (k ≠ 4 → ∀ w, w ∈ s.coreScratch (coreNo p) a k → s.eccAt w = 0)

/-- A memory operand of `len` bytes at `a` passes the checks of R115 for reading (kind 0) or writing (kind 1), alignment
apart. -/
def State.OperandOk (s : State) (p : Proc) (a : Word) (len kind : Nat) : Prop :=
  match p with
  | .vent n => ventReach a.toNat len = true ∧ (kind = 0 → ∀ w, w ∈ ventWords n.toNat a.toNat len → s.eccAt w = 0)
  | p => s.coreRangeFault (coreNo p) kind a len = none ∧
      (kind = 0 → ∀ w, w ∈ s.coreScratch (coreNo p) a len → s.eccAt w = 0)

/-- The bytes of a memory operand as p reads them. -/
def State.operandBytes (s : State) (p : Proc) (a : Word) (len : Nat) : List Byte :=
  match p with
  | .vent n => s.vrdBytes n.toNat a.toNat len
  | p => s.coreBytes (coreNo p) a len

/-- Vent n has written its local store and scratch: vent address b holds `byte b`, or what it held where that is none;
device memory elsewhere and the rest of the machine, the vent's other registers too, are as they were. -/
def VentWritten (s : State) (n : VentNo) (byte : Nat → Option Byte) (t : State) : Prop :=
  (∀ b, t.vrdB n.toNat b = (byte b).getD (s.vrdB n.toNat b)) ∧
  (∀ m, (∀ b, (byte b).isSome → ventMap n.toNat b ≠ .scratch m) → t.rdB m = s.rdB m) ∧
  (∀ x, x ≠ n.toNat → t.vent x = s.vent x) ∧
  t.vent n.toNat = { s.vent n.toNat with ls := (t.vent n.toNat).ls, flags := (t.vent n.toNat).flags,
                                         pc := (s.vent n.toNat).pc + 4 } ∧
  t = { s with mem := t.mem, ecc := t.ecc, vents := t.vents }

/-- A store of p has written the bytes l at address a (a core's address through its segments), raised the flags fl and
completed; every other byte and the rest of the machine are as they were. -/
def StoreDone (s : State) (p : Proc) (a : Word) (l : List Byte) (fl : Word) (t : State) : Prop :=
  match p with
  | .vent n => VentWritten s n (fun b => if a.toNat ≤ b ∧ b < a.toNat + l.length then l[b - a.toNat]? else none) t ∧
      (t.vent n.toNat).flags = (s.vent n.toNat).flags ||| fl
  | p => let c := s.core (coreNo p)
    (∀ m, t.rdB m = if c.map a ≤ m ∧ m < c.map a + l.length then l.getD (m - c.map a) 0 else s.rdB m) ∧
    t.core (coreNo p) = { c with flags := c.flags ||| fl, pc := c.pc + 4 } ∧
    (∀ k, k ≠ coreNo p → t.core k = s.core k) ∧
    t = { s with mem := t.mem, ecc := t.ecc, cores := t.cores }

/-- The active lane of highest number whose element of k bytes covers vent address b. -/
def coveringLane (s : State) (n : VentNo) (pm : PReg) (addr : Nat → Nat) (k b : Nat) : Option Nat :=
  (lanes.filter fun i => s.active n.toNat pm i && decide (addr i ≤ b) && decide (b < addr i + k)).getLast?

/-! ### Host commands -/

/-- The oldest accepted request of a path is r, of that code, from a session that is still open, and the show and the pair
admit it (R385 step 6); `rest` waits behind it. -/
def State.Asks (s : State) (net : Bool) (code : Nat) (r : Request) (rest : List Request) : Prop :=
  takeReq net s.host.reqs = some (r, rest) ∧ r.code = code ∧ r.drop = false ∧ s.cmdOpen code = true

/-- Commit register c has been written and the commit x waits to be checked (R47, R517): valid is clear and pending set, and
x has taken the values that the registers of P hold. -/
def CommitTaken (s t : State) (c : Nat) (P : Nat → Prop) (x : Commit) : Prop :=
  t.bit c 31 = false ∧ t.bit c 30 = true ∧ t.commits = s.commits ++ [x] ∧ x.reg = c ∧ x.ok = false ∧ x.at_ = s.now ∧
  ∀ a, P a → x.rd a = t.rd a

/-- Request r has been carried out: it no longer waits, and its response does. -/
def Answered (s t : State) (r : Request) (rest : List Request) (st : Nat) (pl : List Byte) : Prop :=
  t.host.reqs = rest ∧ t.host.resps = s.host.resps ++ [⟨r, st, pl, none⟩]

/-- The state in which request r has been refused with status st and nothing else has changed (R385). -/
def State.refusedReq (s : State) (r : Request) (rest : List Request) (st : Nat) : State :=
  { s with host := { s.host with reqs := rest, resps := s.host.resps ++ [⟨r, st, [], none⟩] } }

end Sys2Proof.Machine
end

