-- ==== Sys2Proof/Certificates/Slice0/Obligations.lean ====
section
/-!
DEFINITION. The statements for the provers: what the commands of each family do, what each leaves alone, and what every
step keeps.
-/
open Sys2Proof Sys2Proof.Machine

/-- A step runs the command at the front of the queue; with none waiting, the clock ticks (00_scope.md). -/
def Obligations.StepRunsTheFrontCommand : Prop :=
  ∀ (s : State) (c : Instr) (rest : List Instr), s.pending = c :: rest →
    step s = exec c { s with pending := rest } ∧ (∀ u : State, u.pending = [] → step u = .next u.tick.fabricTick.chainTick.genTick.sendEvents) ∧
    (∀ (u : State) (nbits w : Nat), u.withFetchWord nbits w = u)

/-- Scalar integer instructions: results, flags and frame (R88, R54, R55, R51, R85). -/
def Obligations.ScalarIntegerResults : Prop :=
  ∀ (s : State) (p : Proc) (d a b : GReg) (n : BitVec 5), s.Issues p →
    let x := s.g p a.toNat
    let y := s.g p b.toNat
    let sh := y.toNat % 32
    Gives (.add p d a b) s (ScalarDone s p d (x + y) 0) ∧
    Gives (.sub p d a b) s (ScalarDone s p d (x - y) 0) ∧
    Gives (.adds p d a b) s (SatDone s p d (-2147483648) 2147483647 (x.toInt + y.toInt)) ∧
    Gives (.subs p d a b) s (SatDone s p d (-2147483648) 2147483647 (x.toInt - y.toInt)) ∧
    Gives (.addus p d a b) s (SatDone s p d 0 4294967295 ((x.toNat : Int) + y.toNat)) ∧
    Gives (.subus p d a b) s (SatDone s p d 0 4294967295 ((x.toNat : Int) - y.toNat)) ∧
    Gives (.and p d a b) s (ScalarDone s p d (x &&& y) 0) ∧
    Gives (.or p d a b) s (ScalarDone s p d (x ||| y) 0) ∧
    Gives (.xor p d a b) s (ScalarDone s p d (x ^^^ y) 0) ∧
    Gives (.andn p d a b) s (ScalarDone s p d (x &&& ~~~y) 0) ∧
    Gives (.nor p d a b) s (ScalarDone s p d (~~~(x ||| y)) 0) ∧
    Gives (.sll p d a b) s (ScalarDone s p d (x <<< sh) 0) ∧
    Gives (.srl p d a b) s (ScalarDone s p d (x >>> sh) 0) ∧
    Gives (.sra p d a b) s (ScalarDone s p d (x.sshiftRight sh) 0) ∧
    Gives (.ror p d a b) s (ScalarDone s p d (x.rotateRight sh) 0) ∧
    Gives (.slli p d a n) s (ScalarDone s p d (x <<< n.toNat) 0) ∧
    Gives (.srli p d a n) s (ScalarDone s p d (x >>> n.toNat) 0) ∧
    Gives (.srai p d a n) s (ScalarDone s p d (x.sshiftRight n.toNat) 0) ∧
    Gives (.rori p d a n) s (ScalarDone s p d (x.rotateRight n.toNat) 0) ∧
    Gives (.slt p d a b) s (ScalarDone s p d (if x.toInt < y.toInt then 1 else 0) 0) ∧
    Gives (.sltu p d a b) s (ScalarDone s p d (if x.toNat < y.toNat then 1 else 0) 0) ∧
    Gives (.seq p d a b) s (ScalarDone s p d (if x = y then 1 else 0) 0) ∧
    Gives (.min p d a b) s (ScalarDone s p d (if x.toInt ≤ y.toInt then x else y) 0) ∧
    Gives (.max p d a b) s (ScalarDone s p d (if x.toInt ≤ y.toInt then y else x) 0) ∧
    Gives (.minu p d a b) s (ScalarDone s p d (if x.toNat ≤ y.toNat then x else y) 0) ∧
    Gives (.maxu p d a b) s (ScalarDone s p d (if x.toNat ≤ y.toNat then y else x) 0) ∧
    (∃ c, c ≤ 32 ∧ x.toNat < 2 ^ (32 - c) ∧ (c < 32 → 2 ^ (31 - c) ≤ x.toNat) ∧
      Gives (.clz p d a) s (ScalarDone s p d (BitVec.ofNat 32 c) 0)) ∧
    Gives (.popc p d a) s (ScalarDone s p d (BitVec.ofNat 32 ((List.range 32).filter x.getLsbD).length) 0) ∧
    Gives (.sextb p d a) s (ScalarDone s p d ((x.setWidth 8).signExtend 32) 0) ∧
    Gives (.sexth p d a) s (ScalarDone s p d ((x.setWidth 16).signExtend 32) 0) ∧
    Gives (.addx p d a b) s (SatDone s p d (-2147483648) 2147483647 (x.toInt + y.toInt)) ∧
    Gives (.subx p d a b) s (SatDone s p d (-2147483648) 2147483647 (x.toInt - y.toInt)) ∧
    Gives (.addl p d a b) s (LumDone s p d a b fun u v => u + v) ∧
    Gives (.subl p d a b) s (LumDone s p d a b fun u v => u - v) ∧
    Gives (.mull p d a b) s (LumDone s p d a b fun u v => (u * v + u * v / 1048576 + 524288) / 1048576)

/-- Multiply, divide and fx16 instructions: results, flags and frame (R89, R53, R54). -/
def Obligations.MultiplyDivideResults : Prop :=
  ∀ (s : State) (p : Proc) (d a b : GReg), s.Issues p →
    let x := s.g p a.toNat
    let y := s.g p b.toNat
    let z := s.g p d.toNat
    let lo : Int := -2147483648
    let hi : Int := 2147483647
    Gives (.mul p d a b) s (ScalarDone s p d (BitVec.ofNat 32 (x.toNat * y.toNat)) 0) ∧
    Gives (.mulhs p d a b) s (ScalarDone s p d (BitVec.ofInt 32 ((x.toInt * y.toInt) / 4294967296)) 0) ∧
    Gives (.mulhu p d a b) s (ScalarDone s p d (BitVec.ofNat 32 (x.toNat * y.toNat / 4294967296)) 0) ∧
    Gives (.madd p d a b) s (ScalarDone s p d (BitVec.ofNat 32 (z.toNat + x.toNat * y.toNat)) 0) ∧
    Gives (.divs p d a b) s (ScalarDone s p d
      (if y = 0 then 0 else if x = 0x80000000 ∧ y = 0xFFFFFFFF then 0x80000000
       else BitVec.ofInt 32 (Int.tdiv x.toInt y.toInt))
      (if y = 0 then FL_DZ else if x = 0x80000000 ∧ y = 0xFFFFFFFF then FL_OV else 0)) ∧
    Gives (.divu p d a b) s (ScalarDone s p d (if y = 0 then 0 else BitVec.ofNat 32 (x.toNat / y.toNat))
      (if y = 0 then FL_DZ else 0)) ∧
    Gives (.rems p d a b) s (ScalarDone s p d
      (if y = 0 ∨ (x = 0x80000000 ∧ y = 0xFFFFFFFF) then 0 else BitVec.ofInt 32 (Int.tmod x.toInt y.toInt))
      (if y = 0 then FL_DZ else 0)) ∧
    Gives (.remu p d a b) s (ScalarDone s p d (if y = 0 then 0 else BitVec.ofNat 32 (x.toNat % y.toNat))
      (if y = 0 then FL_DZ else 0)) ∧
    (∀ r : Int, RoundsToEven (x.toInt * y.toInt) 65536 r → Gives (.mulx p d a b) s (SatDone s p d lo hi r)) ∧
    (y = 0 → Gives (.divx p d a b) s (ScalarDone s p d 0 FL_DZ)) ∧
    (y ≠ 0 → Gives (.divx p d a b) s (SatDone s p d lo hi (Int.tdiv (x.toInt * 65536) y.toInt))) ∧
    (∀ r : Int, RoundsToEven (x.toInt * y.toInt) 65536 r →
      let u := max lo (min hi r)
      let v := z.toInt + u
      Gives (.maddx p d a b) s (ScalarDone s p d (BitVec.ofInt 32 (max lo (min hi v)))
        (if r < lo ∨ hi < r ∨ v < lo ∨ hi < v then FL_SAT else 0)))

/-- I-format instructions: results and frame (R90, R85). -/
def Obligations.ImmediateResults : Prop :=
  ∀ (s : State) (p : Proc) (d a : GReg) (imm : BitVec 16), s.Issues p →
    let x := s.g p a.toNat
    Gives (.addi p d a imm) s (ScalarDone s p d (x + imm.signExtend 32) 0) ∧
    Gives (.andi p d a imm) s (ScalarDone s p d (x &&& imm.setWidth 32) 0) ∧
    Gives (.ori p d a imm) s (ScalarDone s p d (x ||| imm.setWidth 32) 0) ∧
    Gives (.xori p d a imm) s (ScalarDone s p d (x ^^^ imm.setWidth 32) 0) ∧
    Gives (.lui p d imm) s (ScalarDone s p d (BitVec.ofNat 32 (imm.toNat * 65536)) 0) ∧
    Gives (.slti p d a imm) s (ScalarDone s p d (if x.toInt < imm.toInt then 1 else 0) 0) ∧
    Gives (.sltiu p d a imm) s (ScalarDone s p d (if x.toNat < imm.toNat then 1 else 0) 0)

/-- Scalar fp32 instructions: results, flags and frame (R91, R56, R58). -/
def Obligations.ScalarFloatResults : Prop :=
  ∀ (s : State) (p : Proc) (d a b : GReg), s.Issues p →
    let x := s.g p a.toNat
    let y := s.g p b.toNat
    let z := s.g p d.toNat
    let done (r : ResF) := ScalarDone s p d r.1 r.2
    Gives (.fadd p d a b) s (done (fAdd x y)) ∧
    Gives (.fsub p d a b) s (done (fSub x y)) ∧
    Gives (.fmul p d a b) s (done (fMul x y)) ∧
    Gives (.fmadd p d a b) s (done (fMadd z x y)) ∧
    Gives (.fmin p d a b) s (done (fMin x y)) ∧
    Gives (.fmax p d a b) s (done (fMax x y)) ∧
    Gives (.fabs p d a) s (ScalarDone s p d (x &&& 0x7FFFFFFF) 0) ∧
    Gives (.fneg p d a) s (ScalarDone s p d (x ^^^ 0x80000000) 0) ∧
    Gives (.fdiv p d a b) s (done (fDiv x y)) ∧
    Gives (.fsqrt p d a) s (done (fSqrt x)) ∧
    Gives (.feq p d a b) s (done (fEq x y)) ∧
    Gives (.flt p d a b) s (done (fLt x y)) ∧
    Gives (.fle p d a b) s (done (fLe x y)) ∧
    Gives (.fcvtSW p d a) s (done (fcvtSW x)) ∧
    Gives (.fcvtWS p d a) s (done (fcvtWS x)) ∧
    Gives (.fcvtSX p d a) s (done (fcvtSX x)) ∧
    Gives (.fcvtXS p d a) s (done (fcvtXS x)) ∧
    Gives (.fcvtSL p d a) s (done (fcvtSL x)) ∧
    Gives (.fcvtLS p d a) s (done (fcvtLS x))

/-- fp32 arithmetic: NaN results, subnormals, zero divisors and comparisons (R56, R91). -/
def Obligations.FloatRules : Prop :=
  ∀ x y z : Word,
    let nan (w : Word) : Prop := 0x7F800000 < (w &&& 0x7FFFFFFF).toNat
    let signalling (w : Word) : Prop := nan w ∧ bitOf w 22 = false
    let zero (w : Word) : Prop := w &&& 0x7F800000 = 0
    let flush (w : Word) : Word := if w &&& 0x7F800000 = 0 then w &&& 0x80000000 else w
    (∀ r, r ∈ [fAdd x y, fSub x y, fMul x y, fMadd z x y, fMin x y, fMax x y, fDiv x y, fSqrt x] →
      (nan r.1 → r.1 = 0x7FC00000) ∧ (zero r.1 → r.1 &&& 0x7FFFFF = 0)) ∧
    fAdd x y = fAdd (flush x) (flush y) ∧ fSub x y = fSub (flush x) (flush y) ∧
    fMul x y = fMul (flush x) (flush y) ∧ fMadd z x y = fMadd (flush z) (flush x) (flush y) ∧
    fDiv x y = fDiv (flush x) (flush y) ∧ fSqrt x = fSqrt (flush x) ∧ fEq x y = fEq (flush x) (flush y) ∧
    fLt x y = fLt (flush x) (flush y) ∧ fLe x y = fLe (flush x) (flush y) ∧
    fMin x y = fMin (flush x) (flush y) ∧ fMax x y = fMax (flush x) (flush y) ∧
    (¬ zero x → (x &&& 0x7FFFFFFF).toNat < 0x7F800000 → zero y →
      fDiv x y = (0x7F800000 ||| ((x ^^^ y) &&& 0x80000000), FL_DZ)) ∧
    (zero x → zero y → fDiv x y = (0x7FC00000, FL_NV)) ∧
    (nan x ∨ nan y → fLt x y = (0, FL_NV) ∧ fLe x y = (0, FL_NV) ∧ (fEq x y).1 = 0 ∧
      ((fEq x y).2 = FL_NV ↔ signalling x ∨ signalling y)) ∧
    (zero x → fSqrt x = (x &&& 0x80000000, 0)) ∧
    (¬ zero x → ¬ nan x → bitOf x 31 = true → fSqrt x = (0x7FC00000, FL_NV))

/-- Vector integer, fx16 and lum20 instructions act lane by lane as their scalar forms (R95, R50, R51). -/
def Obligations.VectorIntegerResults : Prop :=
  ∀ (s : State) (n : VentNo) (vd va vb : VReg) (pm : PReg) (k : BitVec 5), s.Issues (.vent n) →
    let x i := lane (s.vreg n.toNat va.toNat) i
    let y i := lane (s.vreg n.toNat vb.toNat) i
    let z i := lane (s.vreg n.toNat vd.toNat) i
    Gives (.vadd n vd va vb pm) s (LanesDone s n vd pm fun i => aluAdd (x i) (y i)) ∧
    Gives (.vsub n vd va vb pm) s (LanesDone s n vd pm fun i => aluSub (x i) (y i)) ∧
    Gives (.vadds n vd va vb pm) s (LanesDone s n vd pm fun i => aluAdds (x i) (y i)) ∧
    Gives (.vsubs n vd va vb pm) s (LanesDone s n vd pm fun i => aluSubs (x i) (y i)) ∧
    Gives (.vaddus n vd va vb pm) s (LanesDone s n vd pm fun i => aluAddus (x i) (y i)) ∧
    Gives (.vsubus n vd va vb pm) s (LanesDone s n vd pm fun i => aluSubus (x i) (y i)) ∧
    Gives (.vand n vd va vb pm) s (LanesDone s n vd pm fun i => aluAnd (x i) (y i)) ∧
    Gives (.vor n vd va vb pm) s (LanesDone s n vd pm fun i => aluOr (x i) (y i)) ∧
    Gives (.vxor n vd va vb pm) s (LanesDone s n vd pm fun i => aluXor (x i) (y i)) ∧
    Gives (.vandn n vd va vb pm) s (LanesDone s n vd pm fun i => aluAndn (x i) (y i)) ∧
    Gives (.vsll n vd va vb pm) s (LanesDone s n vd pm fun i => aluSll (x i) (y i)) ∧
    Gives (.vsrl n vd va vb pm) s (LanesDone s n vd pm fun i => aluSrl (x i) (y i)) ∧
    Gives (.vsra n vd va vb pm) s (LanesDone s n vd pm fun i => aluSra (x i) (y i)) ∧
    Gives (.vmin n vd va vb pm) s (LanesDone s n vd pm fun i => aluMin (x i) (y i)) ∧
    Gives (.vmax n vd va vb pm) s (LanesDone s n vd pm fun i => aluMax (x i) (y i)) ∧
    Gives (.vminu n vd va vb pm) s (LanesDone s n vd pm fun i => aluMinu (x i) (y i)) ∧
    Gives (.vmaxu n vd va vb pm) s (LanesDone s n vd pm fun i => aluMaxu (x i) (y i)) ∧
    Gives (.vmul n vd va vb pm) s (LanesDone s n vd pm fun i => aluMul (x i) (y i)) ∧
    Gives (.vmulhs n vd va vb pm) s (LanesDone s n vd pm fun i => aluMulhs (x i) (y i)) ∧
    Gives (.vmulhu n vd va vb pm) s (LanesDone s n vd pm fun i => aluMulhu (x i) (y i)) ∧
    Gives (.vaddx n vd va vb pm) s (LanesDone s n vd pm fun i => aluAddx (x i) (y i)) ∧
    Gives (.vsubx n vd va vb pm) s (LanesDone s n vd pm fun i => aluSubx (x i) (y i)) ∧
    Gives (.vmulx n vd va vb pm) s (LanesDone s n vd pm fun i => aluMulx (x i) (y i)) ∧
    Gives (.vaddl n vd va vb pm) s (LanesDone s n vd pm fun i => aluAddl (x i) (y i)) ∧
    Gives (.vsubl n vd va vb pm) s (LanesDone s n vd pm fun i => aluSubl (x i) (y i)) ∧
    Gives (.vmull n vd va vb pm) s (LanesDone s n vd pm fun i => aluMull (x i) (y i)) ∧
    Gives (.vmadd n vd va vb pm) s (LanesDone s n vd pm fun i => aluMadd (z i) (x i) (y i)) ∧
    Gives (.vmaddx n vd va vb pm) s (LanesDone s n vd pm fun i => aluMaddx (z i) (x i) (y i)) ∧
    Gives (.vmaddl n vd va vb pm) s (LanesDone s n vd pm fun i => aluMaddl (z i) (x i) (y i)) ∧
    Gives (.vslli n vd va pm k) s (LanesDone s n vd pm fun i => aluSll (x i) (BitVec.ofNat 32 k.toNat)) ∧
    Gives (.vsrli n vd va pm k) s (LanesDone s n vd pm fun i => aluSrl (x i) (BitVec.ofNat 32 k.toNat)) ∧
    Gives (.vsrai n vd va pm k) s (LanesDone s n vd pm fun i => aluSra (x i) (BitVec.ofNat 32 k.toNat))

/-- Vector fp32 instructions and vector comparisons (R96, R97, R50, R85). -/
def Obligations.VectorFloatAndCompareResults : Prop :=
  ∀ (s : State) (n : VentNo) (vd va vb : VReg) (pm : PReg) (pd : PReg), s.Issues (.vent n) →
    let x i := lane (s.vreg n.toNat va.toNat) i
    let y i := lane (s.vreg n.toNat vb.toNat) i
    let z i := lane (s.vreg n.toNat vd.toNat) i
    Gives (.vfadd n vd va vb pm) s (LanesDone s n vd pm fun i => fAdd (x i) (y i)) ∧
    Gives (.vfsub n vd va vb pm) s (LanesDone s n vd pm fun i => fSub (x i) (y i)) ∧
    Gives (.vfmul n vd va vb pm) s (LanesDone s n vd pm fun i => fMul (x i) (y i)) ∧
    Gives (.vfmin n vd va vb pm) s (LanesDone s n vd pm fun i => fMin (x i) (y i)) ∧
    Gives (.vfmax n vd va vb pm) s (LanesDone s n vd pm fun i => fMax (x i) (y i)) ∧
    Gives (.vfdiv n vd va vb pm) s (LanesDone s n vd pm fun i => fDiv (x i) (y i)) ∧
    Gives (.vfmadd n vd va vb pm) s (LanesDone s n vd pm fun i => fMadd (z i) (x i) (y i)) ∧
    Gives (.vfabs n vd va pm) s (LanesDone s n vd pm fun i => fAbs (x i)) ∧
    Gives (.vfneg n vd va pm) s (LanesDone s n vd pm fun i => fNeg (x i)) ∧
    Gives (.vfsqrt n vd va pm) s (LanesDone s n vd pm fun i => fSqrt (x i)) ∧
    Gives (.vcvtSW n vd va pm) s (LanesDone s n vd pm fun i => fcvtSW (x i)) ∧
    Gives (.vcvtWS n vd va pm) s (LanesDone s n vd pm fun i => fcvtWS (x i)) ∧
    Gives (.vcvtSX n vd va pm) s (LanesDone s n vd pm fun i => fcvtSX (x i)) ∧
    Gives (.vcvtXS n vd va pm) s (LanesDone s n vd pm fun i => fcvtXS (x i)) ∧
    Gives (.vcvtSL n vd va pm) s (LanesDone s n vd pm fun i => fcvtSL (x i)) ∧
    Gives (.vcvtLS n vd va pm) s (LanesDone s n vd pm fun i => fcvtLS (x i)) ∧
    Gives (.vceq n pd va vb pm) s (CompareDone s n pd pm fun i => (if x i = y i then 1 else 0, 0)) ∧
    Gives (.vcne n pd va vb pm) s (CompareDone s n pd pm fun i => (if x i = y i then 0 else 1, 0)) ∧
    Gives (.vclt n pd va vb pm) s (CompareDone s n pd pm fun i => (if (x i).toInt < (y i).toInt then 1 else 0, 0)) ∧
    Gives (.vcle n pd va vb pm) s (CompareDone s n pd pm fun i => (if (x i).toInt ≤ (y i).toInt then 1 else 0, 0)) ∧
    Gives (.vcltu n pd va vb pm) s (CompareDone s n pd pm fun i => (if (x i).toNat < (y i).toNat then 1 else 0, 0)) ∧
    Gives (.vcleu n pd va vb pm) s (CompareDone s n pd pm fun i => (if (x i).toNat ≤ (y i).toNat then 1 else 0, 0)) ∧
    Gives (.vfceq n pd va vb pm) s (CompareDone s n pd pm fun i => fEq (x i) (y i)) ∧
    Gives (.vfclt n pd va vb pm) s (CompareDone s n pd pm fun i => fLt (x i) (y i)) ∧
    Gives (.vfcle n pd va vb pm) s (CompareDone s n pd pm fun i => fLe (x i) (y i))

/-- Predicate logic and lane moves (R98, R99, R85). -/
def Obligations.PredicateAndLaneMoves : Prop :=
  ∀ (s : State) (n : VentNo) (vd va vb : VReg) (pd pa pb pm : PReg) (g : GReg) (l : BitVec 3), s.Issues (.vent n) →
    let x i := lane (s.vreg n.toNat va.toNat) i
    let y i := lane (s.vreg n.toNat vb.toNat) i
    let z i := lane (s.vreg n.toNat vd.toNat) i
    let a i := (s.preg n.toNat pa.toNat).getLsbD i
    let b i := (s.preg n.toNat pb.toNat).getLsbD i
    let w := s.gv n.toNat g.toNat
    let pred f := PredDone s n pd f fun _ => false
    let moved f := LanesDone s n vd pm fun i => (f i, 0)
    Gives (.pand n pd pa pb) s (pred fun i => a i && b i) ∧
    Gives (.por n pd pa pb) s (pred fun i => a i || b i) ∧
    Gives (.pxor n pd pa pb) s (pred fun i => a i != b i) ∧
    Gives (.pandn n pd pa pb) s (pred fun i => a i && !b i) ∧
    Gives (.pnot n pd pa) s (pred fun i => !a i) ∧
    Gives (.pfromg n pd g) s (pred fun i => w.getLsbD i) ∧
    Gives (.ptog n g pa) s (ScalarDone s (.vent n) g ((s.preg n.toNat pa.toNat).setWidth 32) 0) ∧
    Gives (.pcnt n g pa) s (ScalarDone s (.vent n) g (BitVec.ofNat 32 (lanes.filter a).length) 0) ∧
    Gives (.vmov n vd va pm) s (moved x) ∧
    Gives (.vbcast n vd g pm) s (moved fun _ => w) ∧
    Gives (.vperm n vd va vb pm) s (moved fun i => x ((y i).toNat % 8)) ∧
    Gives (.vrot n vd va l pm) s (moved fun i => x ((i + l.toNat) % 8)) ∧
    Gives (.vins n vd g l) s (LanesDone s n vd 0 fun i => (if i = l.toNat then w else z i, 0)) ∧
    Gives (.vext n g va l) s (ScalarDone s (.vent n) g (x l.toNat) 0)

/-- Reductions combine the active lanes in a fixed order (R100). -/
def Obligations.ReductionResults : Prop :=
  ∀ (s : State) (n : VentNo) (g : GReg) (va : VReg) (pm : PReg), s.Issues (.vent n) →
    let x i := lane (s.vreg n.toNat va.toNat) i
    let act := (lanes.filter fun i => s.active n.toNat pm i).map x
    let done w fl := ScalarDone s (.vent n) g w fl
    let step (r : ResF) (y : Word) : ResF := ((aluAddx r.1 y).1, r.2 ||| (aluAddx r.1 y).2)
    let sum := act.foldl step (0, 0)
    let f i := if s.active n.toNat pm i then x i else 0
    let add (a b : ResF) : ResF := ((fAdd a.1 b.1).1, a.2 ||| b.2 ||| (fAdd a.1 b.1).2)
    let leaf i : ResF := (f i, 0)
    let tree := add (add (add (leaf 0) (leaf 1)) (add (leaf 2) (leaf 3))) (add (add (leaf 4) (leaf 5)) (add (leaf 6) (leaf 7)))
    let least (c : Instr) (le : Word → Word → Prop) :=
      (act = [] → Gives c s (done 0 0)) ∧ (act ≠ [] → ∃ w, w ∈ act ∧ (∀ y ∈ act, le w y) ∧ Gives c s (done w 0))
    Gives (.vradd n g va pm) s (done (BitVec.ofNat 32 (act.map fun w => w.toNat).sum) 0) ∧
    Gives (.vraddx n g va pm) s (done sum.1 sum.2) ∧
    Gives (.vrfadd n g va pm) s (if act = [] then done 0 0 else done tree.1 tree.2) ∧
    least (.vrmin n g va pm) (fun a b => a.toInt ≤ b.toInt) ∧
    least (.vrmax n g va pm) (fun a b => b.toInt ≤ a.toInt) ∧
    least (.vrminu n g va pm) (fun a b => a.toNat ≤ b.toNat) ∧
    least (.vrmaxu n g va pm) (fun a b => b.toNat ≤ a.toNat)

/-- Scalar loads from memory: value, flags and frame (R92, R57, R8). -/
def Obligations.ScalarLoadResults : Prop :=
  ∀ (s : State) (p : Proc) (d base : GReg) (off : BitVec 16), s.Issues p →
    let a := s.g p base.toNat + off.signExtend 32
    let done (r : ResF) := ScalarDone s p d r.1 r.2
    (s.LoadOk p a 4 → Gives (.lw p d base off) s (done (BitVec.ofNat 32 (s.loaded p a 4), 0))) ∧
    (s.LoadOk p a 2 →
      let h := s.loaded p a 2
      Gives (.lh p d base off) s (done ((BitVec.ofNat 16 h).signExtend 32, 0)) ∧
      Gives (.lhu p d base off) s (done (BitVec.ofNat 32 h, 0)) ∧
      Gives (.lhf p d base off) s (done (f16to32 h))) ∧
    (s.LoadOk p a 1 →
      let b := s.loaded p a 1
      Gives (.lb p d base off) s (done ((BitVec.ofNat 8 b).signExtend 32, 0)) ∧
      Gives (.lbu p d base off) s (done (BitVec.ofNat 32 b, 0)))

/-- Scalar stores to memory: the bytes written and every other byte (R92, R57, R8). -/
def Obligations.ScalarStoreResults : Prop :=
  ∀ (s : State) (p : Proc) (d base : GReg) (off : BitVec 16), s.Issues p →
    let a := s.g p base.toNat + off.signExtend 32
    let w := s.g p d.toNat
    (s.StoreOk p a 4 → Gives (.sw p d base off) s (StoreDone s p a (leBytes 4 w.toNat) 0)) ∧
    (s.StoreOk p a 2 → Gives (.sh p d base off) s (StoreDone s p a (leBytes 2 w.toNat) 0) ∧
      Gives (.shf p d base off) s (StoreDone s p a (leBytes 2 (f32to16 w).1) (f32to16 w).2)) ∧
    (s.StoreOk p a 1 → Gives (.sb p d base off) s (StoreDone s p a (leBytes 1 w.toNat) 0))

/-- Vector loads and stores, gather and scatter (R93, R94, R50, R57). -/
def Obligations.VectorMemoryResults : Prop :=
  ∀ (s : State) (n : VentNo) (vd va vb : VReg) (base : GReg) (off : BitVec 13) (pm : PReg), s.Issues (.vent n) →
    let A := s.gv n.toNat base.toNat + off.signExtend 32 * 4
    let at4 i := (A.toNat + 4 * i) % 2 ^ 32
    let at2 i := (A.toNat + 2 * i) % 2 ^ 32
    let x i := lane (s.vreg n.toNat va.toNat) i
    let y i := lane (s.vreg n.toNat vb.toNat) i
    let z i := lane (s.vreg n.toNat vd.toNat) i
    let loadOk (ad : Nat → Nat) (al k : Nat) := ∀ i, i < 8 → s.active n.toNat pm i = true →
      ad i % al = 0 ∧ ventReach (ad i) k = true ∧ ∀ w, w ∈ ventWords n.toNat (ad i) k → s.eccAt w = 0
    let storeOk (ad : Nat → Nat) (al k : Nat) := ∀ i, i < 8 → s.active n.toNat pm i = true →
      ad i % al = 0 ∧ ventReach (ad i) k = true ∧ ∀ w, w ∈ ventPartial n.toNat (ad i) k → s.eccAt w = 0
    let val ad k i := leNat (s.vrdBytes n.toNat (ad i) k)
    let loads ad k (f : Nat → ResF) := LanesDone s n vd pm fun i => f (val ad k i)
    let stores (ad : Nat → Nat) (k : Nat) (v : Nat → Nat) := VentWritten s n fun b =>
      (coveringLane s n pm ad k b).map fun i => BitVec.ofNat 8 (v i / 256 ^ (b - ad i))
    let flags (f : Nat → Word) (t : State) := ∀ j, bitOf (t.vent n.toNat).flags j =
      (bitOf (s.vent n.toNat).flags j || lanes.any fun i => s.active n.toNat pm i && bitOf (f i) j)
    (loadOk at4 4 4 → (∀ i, i < 8 → s.active n.toNat pm i = true → A.toNat % 4 = 0) →
      Gives (.vlw n vd base pm off) s (loads at4 4 fun v => (BitVec.ofNat 32 v, 0))) ∧
    (loadOk at2 2 2 → (∀ i, i < 8 → s.active n.toNat pm i = true → A.toNat % 4 = 0) → Gives (.vlh n vd base pm off) s (loads at2 2 f16to32)) ∧
    (loadOk (fun i => (x i).toNat) 4 4 →
      Gives (.vglw n vd va pm) s (loads (fun i => (x i).toNat) 4 fun v => (BitVec.ofNat 32 v, 0))) ∧
    (loadOk (fun i => (x i).toNat) 2 2 → Gives (.vglh n vd va pm) s (loads (fun i => (x i).toNat) 2 f16to32)) ∧
    (storeOk at4 4 4 → (∀ i, i < 8 → s.active n.toNat pm i = true → A.toNat % 4 = 0) →
      Gives (.vsw n vd base pm off) s fun t => stores at4 4 (fun i => (z i).toNat) t ∧ flags (fun _ => 0) t) ∧
    (storeOk at2 2 2 → (∀ i, i < 8 → s.active n.toNat pm i = true → A.toNat % 4 = 0) → Gives (.vsh n vd base pm off) s fun t =>
      stores at2 2 (fun i => (f32to16 (z i)).1) t ∧ flags (fun i => (f32to16 (z i)).2) t) ∧
    (storeOk (fun i => (x i).toNat) 4 4 → Gives (.vscw n va vb pm) s fun t =>
      stores (fun i => (x i).toNat) 4 (fun i => (y i).toNat) t ∧ flags (fun _ => 0) t) ∧
    (storeOk (fun i => (x i).toNat) 2 2 → Gives (.vsch n va vb pm) s fun t =>
      stores (fun i => (x i).toNat) 2 (fun i => (f32to16 (y i)).1) t ∧ flags (fun i => (f32to16 (y i)).2) t)

/-- Branches and jumps: where the pc goes, the link, and the end address (R107, R108, R60, R68). -/
def Obligations.BranchAndJumpResults : Prop :=
  ∀ (s : State) (p : Proc) (n : VentNo) (d a : GReg) (pr : PReg) (off : BitVec 21), s.Issues p →
    let pc := s.pcOf p
    let T := pc + off.signExtend 32 * 4
    let x := s.g p a.toNat
    let cond (c : Prop) (i : Instr) := (c → Gives i s (PcDone s p T)) ∧ (¬ c → Gives i s (PcDone s p (pc + 4)))
    let bits := s.preg n.toNat pr.toNat
    let linked (r : GReg) (w : Word) (t : State) :=
      (∀ k : GReg, t.g p k.toNat = if k = r ∧ k ≠ 0 then pc + 4 else s.g p k.toNat) ∧ t.flagsOf p = s.flagsOf p ∧
      t.pcOf p = w ∧ SameLanes s t p ∧ OnlyProc s t p
    (Reachable p T →
      Gives (.br p off) s (PcDone s p T) ∧ Gives (.bal p off) s (linked 31 T) ∧
      cond (x = 0) (.bz p a off) ∧ cond (x ≠ 0) (.bnz p a off) ∧
      cond (x.toInt < 0) (.bltz p a off) ∧ cond (0 ≤ x.toInt) (.bgez p a off) ∧
      (p = .vent n → cond (bits ≠ 0) (.bp n 0 pr off) ∧ cond (bits = 0xFF) (.bp n 1 pr off) ∧
        cond (bits = 0) (.bp n 2 pr off))) ∧
    (x.toNat % 4 = 0 → Reachable p x →
      Gives (.jr p a) s (PcDone s p x) ∧ Gives (.jalr p d a) s (linked d x)) ∧
    (x.toNat % 4 ≠ 0 → Gives (.jr p a) s (fun t => t = s.fault p C_ALIGN x) ∧
      Gives (.jalr p d a) s (fun t => t = s.fault p C_ALIGN x)) ∧
    (p = .vent n → x = 0xFFFFFFFC →
      Gives (.jr p a) s fun t => t = (s.setPcRaw p x).endRun n.toNat .done x) ∧
    (p = .vent n → Gives (.bp n 3 pr off) s fun t => t = s.endRun n.toNat (.fault C_ILLEGAL pc) pc)

/-- MFS: what every special register reads as, on a vent and on a core (R52, R77, R109). -/
def Obligations.SpecialRegisterReads : Prop :=
  ∀ (s : State) (p : Proc) (d : GReg) (num : BitVec 16), s.Issues p →
    let reads (i : BitVec 16) (w : Word) := Gives (.mfs p d i) s (ScalarDone s p d w 0)
    let ill := Gives (.mfs p d num) s fun t => t = s.fault p C_ILLEGAL (encI 0x38 d.toNat 0 num.toNat)
    (∀ n key tk, p = .vent n → s.Runs n key tk →
      reads 0x000 (BitVec.ofNat 32 n.toNat) ∧ reads 0x001 (BitVec.ofNat 32 (key * 65536 + tk.seq)) ∧
      reads 0x002 tk.desc.arg ∧ reads 0x003 tk.desc.tag ∧ reads 0x004 (s.rd R.FLK_FRAME) ∧
      Gives (.mfs p d 0x005) s (ScalarDone s.useFree p d (BitVec.ofNat 32 (s.tsuAcc / 2 ^ 32)) 0) ∧
      reads 0x006 (BitVec.ofNat 32 (((s.die (n.toNat / 256)).half - (s.vent n.toNat).startVck) / 2)) ∧
      reads 0x007 ((s.rd (R.CAL_BUDGET (n.toNat / 64))).sshiftRight 10) ∧ reads 0x008 0 ∧
      reads 0x009 (BitVec.ofNat 32 (tk.desc.prio + 256 * (s.vent n.toNat).cls + (if tk.desc.roam then 65536 else 0)
        + (if tk.desc.critical then 131072 else 0) + if tk.desc.selftest then 262144 else 0)) ∧
      reads 0x00A (if tk.cancel then 1 else 0) ∧ reads 0x00B (s.vent n.toNat).flags ∧ (0x00C ≤ num.toNat → ill)) ∧
    ((∀ n, p ≠ .vent n) →
      let c := s.core (coreNo p)
      let r := c.pr.getD (fldOf c.prSel 3 0) {}
      let sec (i : BitVec 16) (w : Word) := (c.secure = true → reads i w) ∧
        (c.secure = false → ∃ v, Gives (.mfs p d i) s fun t => t = s.useFree.excEnter (coreNo p) C_PRIV c.pc v false)
      (∀ n, p = .svc n → reads 0x000 (BitVec.ofNat 32 (0x400 + n.toNat))) ∧ (p = .mgmt → reads 0x000 0x410) ∧
      reads 0x001 0 ∧ reads 0x002 0 ∧ reads 0x003 0xFFFFFFFF ∧ reads 0x004 (s.rd R.FLK_FRAME) ∧
      (∃ age, (if s.fld R.PWC_STATE 2 0 = 2 then 4 ≤ age ∧ age ≤ 7 else 1 ≤ age ∧ age ≤ 2) ∧
        Gives (.mfs p d 0x005) s (ScalarDone s.useFree p d (s.tsuAt age) 0)) ∧ reads 0x006 (BitVec.ofNat 32 ((s.sck - c.start) / 8)) ∧
      reads 0x007 0 ∧ reads 0x008 (if c.secure then 1 else 0) ∧ reads 0x009 0 ∧ reads 0x00A c.status ∧
      reads 0x00B c.flags ∧ reads 0x100 c.epc ∧ reads 0x101 c.cause ∧ reads 0x102 c.tval ∧ reads 0x103 c.vbase ∧
      reads 0x104 (c.seg.getD 0 0) ∧ reads 0x105 (c.seg.getD 1 0) ∧ reads 0x106 (c.seg.getD 2 0) ∧
      reads 0x107 (c.seg.getD 3 0) ∧ sec 0x108 c.svbase ∧ sec 0x10C c.prSel ∧ sec 0x10D r.base ∧ sec 0x10E r.lim ∧
      sec 0x10F r.att ∧ (0x110 ≤ num.toNat ∨ (0x00C ≤ num.toNat ∧ num.toNat < 0x100) ∨
        (0x109 ≤ num.toNat ∧ num.toNat ≤ 0x10B) → ill))

/-- MTS: the register written, the bits it keeps, and every refusal (R52, R77, R109). -/
def Obligations.SpecialRegisterWrites : Prop :=
  ∀ (s : State) (p : Proc) (a : GReg) (num : BitVec 16), s.Issues p →
    let w := s.g p a.toNat
    let ill := Gives (.mts p a num) s fun t => t = s.fault p C_ILLEGAL (encI 0x39 0 a.toNat num.toNat)
    (∀ n, p = .vent n →
      Gives (.mts p a 0x00B) s (fun t => t = s.setVent n.toNat
        { s.vent n.toNat with flags := w &&& 0x7F, pc := (s.vent n.toNat).pc + 4 }) ∧ (num ≠ 0x00B → ill)) ∧
    ((∀ n, p ≠ .vent n) →
      let k := coreNo p
      let c := s.core k
      let i := fldOf c.prSel 3 0
      let r := c.pr.getD i {}
      let writes (j : BitVec 16) (x : Core) :=
        Gives (.mts p a j) s fun t => t = s.setCore k { x with pc := c.pc + 4 }
      let sec (j : BitVec 16) (x : Core) := (c.secure = true → writes j x) ∧
        (c.secure = false → ∃ v, Gives (.mts p a j) s fun t => t = s.useFree.excEnter k C_PRIV c.pc v false)
      writes 0x00A { c with status := if c.secure then w &&& 7 else (c.status &&& 4) ||| (w &&& 3) } ∧
      writes 0x00B { c with flags := w &&& 0x7F } ∧ writes 0x100 { c with epc := w } ∧
      writes 0x103 { c with vbase := w } ∧
      writes 0x104 { c with seg := lset 0 c.seg 0 (w &&& 0x3FF) } ∧
      writes 0x105 { c with seg := lset 0 c.seg 1 (w &&& 0x3FF) } ∧
      writes 0x106 { c with seg := lset 0 c.seg 2 (w &&& 0x3FF) } ∧
      writes 0x107 { c with seg := lset 0 c.seg 3 (w &&& 0x3FF) } ∧
      sec 0x108 { c with svbase := w } ∧ sec 0x10C { c with prSel := w &&& 0xF } ∧
      sec 0x10D { c with pr := lset {} c.pr i { r with base := w } } ∧
      sec 0x10E { c with pr := lset {} c.pr i { r with lim := w } } ∧
      sec 0x10F { c with pr := lset {} c.pr i { r with att := w &&& 0x3F } } ∧
      (num.toNat < 0x00A ∨ (0x00C ≤ num.toNat ∧ num.toNat < 0x100) ∨ num = 0x101 ∨ num = 0x102 ∨
        (0x109 ≤ num.toNat ∧ num.toNat ≤ 0x10B) ∨ 0x110 ≤ num.toNat → ill))

/-- System instructions, exceptions of a core and the return from one (R78, R79, R110, R111, R84, R71). -/
def Obligations.SystemInstructionResults : Prop :=
  ∀ (s : State) (p : Proc) (w : Word), s.Issues p →
    let pc := s.pcOf p
    Gives (.nop p) s (PcDone s p (pc + 4)) ∧ Gives (.fence p) s (PcDone s p (pc + 4)) ∧
    Gives (.isync p) s (PcDone s p (pc + 4)) ∧
    (∀ n, p = .vent n →
      let ends (c : Instr) (cause : Nat) := Gives c s fun t => SameMem s t ∧
        ∃ u : State, u.mem = s.mem ∧ u.vents = s.vents ∧ t = u.endRun n.toNat (.fault cause pc) pc
      ends (.brk p) C_BREAK ∧ ends (.scall p) C_ILLEGAL ∧ ends (.eret p) C_PRIV ∧ ends (.wfi p) C_PRIV ∧
      (legalWord false w.toNat = false → ends (.illegalInstruction p w) C_ILLEGAL)) ∧
    ((∀ n, p ≠ .vent n) →
      let k := coreNo p
      let c := s.core k
      (∃ v, Gives (.brk p) s (ExceptionTaken s.useFree k C_BREAK pc v c.secure)) ∧
      (∃ v, Gives (.scall p) s (ExceptionTaken s.useFree k C_SCALL (pc + 4) v true)) ∧
      (legalWord true w.toNat = false →
        Gives (.illegalInstruction p w) s (ExceptionTaken s k C_ILLEGAL pc w c.secure)) ∧
      (c.secure = true ∨ bitOf c.status 2 = false → Gives (.eret p) s fun t => t = s.setCore k { c with
        status := setFld c.status 0 0 (fldOf c.status 1 1), secure := bitOf c.status 2, pc := c.epc }) ∧
      (c.secure = false → bitOf c.status 2 = true →
        ∃ v, Gives (.eret p) s (ExceptionTaken s.useFree k C_PRIV pc v false)) ∧
      ((s.target k).dlv = none → (k = 0 → s.icuLevel 0 = false) →
        Gives (.wfi p) s fun t => t = s.setCore k { c with run := .wfi }))

/-- The protection regions decide every access of a core, and only secure instructions change the world (R80, R76, R92,
R40). -/
def Obligations.ProtectionRules : Prop :=
  (∀ (c : Core) (a kind : Nat), c.check a kind = .ok ↔
    ∃ l r m, c.pr = l ++ r :: m ∧ (∀ x ∈ l, x.has a = false) ∧ r.has a = true ∧
      (fldOf r.att 5 4 = 2 ∨ fldOf r.att 5 4 = if c.secure then 1 else 0) ∧ bitOf r.att (kind + 1) = true) ∧
  (∀ (s : State) (p : Proc) (d base : GReg) (off : BitVec 16), s.Issues p → (∀ n, p ≠ .vent n) →
    let a := s.g p base.toNat + off.signExtend 32
    let c := s.core (coreNo p)
    let takes (i : Instr) (cause : Nat) := Gives i s fun t => SameMem s t ∧
      (t.core (coreNo p)).epc = c.pc ∧ (t.core (coreNo p)).cause = BitVec.ofNat 32 cause ∧
      (t.core (coreNo p)).tval = a ∧ (t.core (coreNo p)).g = c.g
    (a.toNat % 4 ≠ 0 → takes (.lw p d base off) C_ALIGN ∧ takes (.sw p d base off) C_ALIGN) ∧
    (a.toNat % 4 = 0 → c.check (c.map a) 0 ≠ .ok → takes (.lw p d base off) C_PROT) ∧
    (a.toNat % 4 = 0 → c.check (c.map a) 1 ≠ .ok → takes (.sw p d base off) C_PROT) ∧
    (a.toNat % 4 = 0 → c.check (c.map a) 0 = .ok → coreReach (coreNo p) c.secure (c.map a) 0 = false →
      takes (.lw p d base off) C_RANGE) ∧
    (a.toNat % 4 = 0 → c.check (c.map a) 1 = .ok → coreReach (coreNo p) c.secure (c.map a) 1 = false →
      takes (.sw p d base off) C_RANGE)) ∧
  (∀ (s t : State) (p : Proc) (d a : GReg) (num : BitVec 16) (w : Word) (i : Instr), s.Issues p → (∀ n, p ≠ .vent n) →
    i ∈ [.scall p, .brk p, .eret p, .wfi p, .mfs p d num, .mts p a num, .illegalInstruction p w, .jr p a, .nop p] →
    exec i s = .next t → (t.core (coreNo p)).secure ≠ (s.core (coreNo p)).secure →
    (i = .scall p ∧ (s.core (coreNo p)).secure = false) ∨
      (i = .eret p ∧ (s.core (coreNo p)).secure = true ∧ bitOf (s.core (coreNo p)).status 2 = false))

/-- Blending, curves, matrices, sampling and fades act lane by lane (R116, R117, R118, R119, R120, R121, R122, R124,
R125, R128, R129, R115). -/
def Obligations.LightInstructionResults : Prop :=
  ∀ (s : State) (n : VentNo) (vd va vb : VReg) (pm m k : BitVec 3) (g : GReg) (dx dy : Bool), s.Issues (.vent n) →
    let x i := lane (s.vreg n.toNat va.toNat) i
    let y i := lane (s.vreg n.toNat vb.toNat) i
    let z i := lane (s.vreg n.toNat vd.toNat) i
    let a := (s.gv n.toNat g.toNat).toNat
    let ok (len : Nat) := a % 4 = 0 ∧ ventReach a len = true ∧ ∀ w, w ∈ ventWords n.toNat a len → s.eccAt w = 0
    let at_ (i w : Nat) := leNat (s.vrdBytes n.toNat (a + i) w)
    let q i := i / 4 * 4
    let done f := LanesDone s n vd pm f
    let rec_ i := (s.vrdBytes n.toNat (a + 16 * i) 16)
    let segs := max 4 (min 12 (at_ 0 1 % 16))
    let mx i := (⟨BitVec.ofNat 32 (at_ (4 * i) 4), 0⟩ : ResF)
    let ml (i : Nat) : Int := (BitVec.ofNat 16 (at_ (2 * i) 2)).toInt
    let lum (w : Word) : Int := min (w.toNat : Int) 0xFFFFF
    let high (w : Word) : Bool := 0xFFFFF < w.toNat
    Gives (.vblend n m vd va vb pm) s (done fun i =>
      blendLane m.toNat (i % 4 = 3) (z i) (x i) (x (q i + 3)) (opacity (y (q i + 3)))) ∧
    Gives (.vgamma n k vd va pm) s (done fun i => curveLane 12 (fun j => (gammaEntry k.toNat j, 0)) (x i)) ∧
    Gives (.vfract n vd va pm) s (done fun i => fFract (x i)) ∧
    Gives (.vlerpf n vd va vb pm) s (done fun i =>
      let d := fSub (y i) (x i)
      let r := fMadd (x i) d.1 (z i)
      (r.1, r.2 ||| d.2)) ∧
    (ok 4 → ok (4 + 4 * (2 ^ segs + 1)) → Gives (.vcurve n vd va g pm) s (done fun i =>
      curveLane segs (fun j => lumClamp (BitVec.ofNat 32 (at_ (4 + 4 * j) 4))) (x i))) ∧
    (ok 48 → Gives (.vcmxf n vd va g pm) s (done fun i =>
      let r := i % 4
      let v c : ResF := (x (q i + c), 0)
      if r = 3 then (x i, 0)
      else fma3 (mx (4 * r + 2)) (v 2) (fma3 (mx (4 * r + 1)) (v 1) (fma3 (mx (4 * r)) (v 0) (mx (4 * r + 3)))))) ∧
    (ok 24 → Gives (.vcmxl n vd va g pm) s (done fun i =>
      let r := i % 4
      let c j := lum (x (q i + j))
      let res := (ml (4 * r + 3) * 0xFFFFF + ml (4 * r) * c 0 + ml (4 * r + 1) * c 1 + ml (4 * r + 2) * c 2 + 4096) / 8192
      if r = 3 then (BitVec.ofInt 32 (c 3), if high (x (q i + 3)) then FL_SAT else 0)
      else (BitVec.ofInt 32 (max 0 (min 0xFFFFF res)),
        if high (x (q i)) || high (x (q i + 1)) || high (x (q i + 2)) || decide (res < 0) || decide (0xFFFFF < res)
        then FL_SAT else 0))) ∧
    (ok 36 → vd.toNat % 2 = 0 → Gives (.vproj n vd va vb g pm) s fun t =>
      let f (b c e : ResF) i := fma3 c (y i, 0) (fma3 b (x i, 0) e)
      let u i := ap2 fDiv (f (mx 0) (mx 1) (mx 2) i) (f (mx 6) (mx 7) (mx 8) i)
      let v i := ap2 fDiv (f (mx 3) (mx 4) (mx 5) i) (f (mx 6) (mx 7) (mx 8) i)
      (∀ r : VReg, ∀ i, i < 8 → lane (t.vreg n.toNat r.toNat) i =
        if s.active n.toNat pm i = true ∧ r = vd then (u i).1
        else if s.active n.toNat pm i = true ∧ r = vd + 1 then (v i).1 else lane (s.vreg n.toNat r.toNat) i) ∧
      (∀ j, bitOf (t.vent n.toNat).flags j = (bitOf (s.vent n.toNat).flags j ||
        lanes.any fun i => s.active n.toNat pm i && (bitOf (u i).2 j || bitOf (v i).2 j))) ∧
      (t.vent n.toNat).g = (s.vent n.toNat).g ∧ (t.vent n.toNat).pc = (s.vent n.toNat).pc + 4 ∧
      OnlyProc s t (.vent n)) ∧
    (ok 32 → Gives (.vsampa n dx dy vd va vb g pm) s (done fun i =>
      (BitVec.ofNat 32 (sampAddr (s.vrdBytes n.toNat a 32) (if dx then 1 else 0) (if dy then 1 else 0) (x (q i))
        (y (q i)) + i % 4 * at_ 21 1), 0))) ∧
    (ok 128 →
      Gives (.vfpos n vd va g pm) s (done fun i => (BitVec.ofNat 32 (fadePos (rec_ i) (x i)), 0)) ∧
      Gives (.vfmix n vd va g pm) s (done fun i =>
        (fadeMix (rec_ i) (lum (x i)).toNat, if high (x i) then FL_SAT else 0)) ∧
      Gives (.vfade n vd va g pm) s (done fun i => (fadeMix (rec_ i) (fadePos (rec_ i) (x i)), 0)))

/-- lum20 products, curves and fades stay between their ends (R55, R118, R128, R129). -/
def Obligations.LightArithmeticBounds : Prop :=
  (∀ x, x ≤ 0xFFFFF → lumMulNat 0xFFFFF x = x ∧ lumMulNat 0 x = 0) ∧
  (∀ x y, x ≤ 0xFFFFF → y ≤ 0xFFFFF → lumMulNat x y ≤ 0xFFFFF) ∧
  (∀ (n : Nat) (e : Nat → Nat × Word) (w : Word), 4 ≤ n → n ≤ 12 → (∀ j, (e j).1 ≤ 0xFFFFF) →
    let x := min w.toNat 0xFFFFF
    let i := (x + x / 2 ^ 19) / 2 ^ (20 - n)
    let r := (curveLane n e w).1.toNat
    (i < 2 ^ n → min (e i).1 (e (i + 1)).1 ≤ r ∧ r ≤ max (e i).1 (e (i + 1)).1) ∧
    (0xFFFFF ≤ w.toNat → r = (e (2 ^ n)).1)) ∧
  (∀ (rec_ : List Byte) (c : Nat), c ≤ 0xFFFFF →
    let a := leAt rec_ 0 4 % 2 ^ 20
    let b := leAt rec_ 4 4 % 2 ^ 20
    let r := (fadeMix rec_ c).toNat
    (c = 0 → r = a) ∧ (c = 0xFFFFF → r = b) ∧ min a b ≤ r ∧ r ≤ max a b) ∧
  (∀ (rec_ : List Byte) (t : Word),
    let e := (t - BitVec.ofNat 32 (leAt rec_ 8 4)).toInt
    let len := min (leAt rec_ 12 4) 0x7FFFFFFF
    fadePos rec_ t ≤ 0xFFFFF ∧ (e < 0 → fadePos rec_ t = 0) ∧ ((len : Int) ≤ e → 0 ≤ e → fadePos rec_ t = 0xFFFFF))

/-- Crater DMA: tickets, refused descriptors, admission and the end of a transfer (R23, R102, R103, R104). -/
def Obligations.CraterDmaInstructionResults : Prop :=
  (∀ (s : State) (n : VentNo) (d a : GReg), s.Issues (.vent n) →
    let ad := (s.gv n.toNat a.toNat).toNat
    let l := s.vrdBytes n.toNat ad 32
    let v := s.vent n.toNat
    let c := n.toNat / 16
    let x := s.crater c
    let i := v.dmaCount % 8
    let tk := s.gv n.toNat a.toNat
    let writes (w : Word) (fl : Word) (t : State) := ScalarDone s (.vent n) d w fl t
    (ad % 32 = 0 → ventReach ad 32 = true → (∀ w, w ∈ ventWords n.toNat ad 32 → s.eccAt w = 0) →
      (v.slot i).busy = false →
      let started (t : State) := (t.vent n.toNat).dmaCount = v.dmaCount + 1 ∧
        t.gv n.toNat d.toNat = (if d = 0 then 0 else BitVec.ofNat 32 (v.dmaCount % 2 ^ 29 * 8 + v.dmaCount % 8)) ∧
        (t.vent n.toNat).pc = v.pc + 4 ∧ ((t.vent n.toNat).slot i).desc = l ∧
        ((t.vent n.toNat).slot i).total = dmaRowBytes l * dmaRows l ∧ SameMem s t
      (dmaOk l = true → x.dmaq.length < 64 → x.dmaStall = [] → Gives (.dmago n d a) s fun t => started t ∧
        ((t.vent n.toNat).slot i).busy = true ∧ ((t.vent n.toNat).slot i).status = BUSY ∧
        (t.crater c).dmaq = x.dmaq ++ [(n.toNat, i)]) ∧
      (dmaOk l = false → Gives (.dmago n d a) s fun t => started t ∧ ((t.vent n.toNat).slot i).busy = false ∧
        ((t.vent n.toNat).slot i).status = E_ARG ∧ ((t.vent n.toNat).slot i).done = 0 ∧ t.craters = s.craters)) ∧
    (∀ sl, v.ticket tk = some sl → sl.busy = false →
      Gives (.dmawait n d a) s (writes (BitVec.ofNat 32 sl.done) (if sl.done < sl.total then FL_TR else 0)) ∧
      Gives (.dmapoll n d a) s (writes 1 0) ∧ Gives (.dmastat n d a) s (writes (BitVec.ofNat 32 sl.status) 0)) ∧
    (v.ticket tk = none → Gives (.dmawait n d a) s (writes 0 0) ∧ Gives (.dmapoll n d a) s (writes 1 0) ∧
      Gives (.dmastat n d a) s (writes (BitVec.ofNat 32 E_ABSENT) 0))) ∧
  (∀ (s : State) (c : BitVec 6) (n : Nat) (rest : List Nat) (rd : BitVec 5) (l : List Byte) (o : Bool),
    let x := s.crater c.toNat
    x.dmaStall = n :: rest → x.dmaq.length < 64 → n / 16 = c.toNat → (s.vent n).stall = some (.dmaGo rd l o) →
    dmaOk l = true → ((s.vent n).slot ((s.vent n).dmaCount % 8)).busy = false →
    0x100000 ≤ (s.vent n).pc.toNat → (s.vent n).pc.toNat + 4 < 0x200000 →
    Gives (.dmaQueueAdmit c) s fun t => (t.crater c.toNat).dmaStall = rest ∧
      (t.crater c.toNat).dmaq = x.dmaq ++ [(n, (s.vent n).dmaCount % 8)] ∧ (t.vent n).stall = none ∧
      (t.vent n).pc = (s.vent n).pc + 4 ∧ (t.vent n).dmaCount = (s.vent n).dmaCount + 1 ∧ SameMem s t) ∧
  (∀ (s : State) (c : BitVec 6) (k n i : Nat),
    let x := s.crater c.toNat
    let l := ((s.vent n).slot i).desc
    let r := s.dmaRun n l
    x.dmaq[k]? = some (n, i) → (∀ e ∈ x.dmaq.take k, e.1 ≠ n) → i < 8 → (s.vent n).stall = none →
    Gives (.dmaTransferEnd c k) s fun t => ((t.vent n).slot i).busy = false ∧ ((t.vent n).slot i).status = r.1 ∧
      ((t.vent n).slot i).done = r.2.1 ∧ (t.crater c.toNat).dmaq = x.dmaq.eraseIdx k ∧ SameMem r.2.2 t)

/-- A crater DMA transfer copies or fills exactly its bytes and reports OK (R101, R104, R106). -/
def Obligations.CraterDmaMovesItsBytes : Prop :=
  ∀ (s : State) (v : Nat) (l : List Byte),
    let n := dmaRowBytes l
    let src := leAt l 0 5
    let dst := leAt l 8 5
    let plain (a : Nat) := (∀ i, i < n → inDram (a + i) = true) ∨ (∀ i, i < n → inHubSram (a + i) = true)
    dmaOk l = true → dmaRows l = 1 → leAt l 13 1 = 0 → plain dst →
    (dmaFill l = false → leAt l 5 1 = 0 ∧ plain src ∧ (src + n ≤ dst ∨ dst + n ≤ src)) →
    let r := s.dmaMove v l (n * 1) 0
    r.1 = OK ∧ r.2.1 = n ∧
    (∀ a, r.2.2.rdB a = if dst ≤ a ∧ a < dst + n then
      (if dmaFill l then l.getD ((a - dst) % 4) 0 else s.rdB (src + (a - dst))) else s.rdB a) ∧
    r.2.2 = { s with mem := r.2.2.mem }

/-- Task, event, counter and join instructions of a vent (R66, R69, R131, R133, R134, R136, R137, R144, R145). -/
def Obligations.TaskInstructionResults : Prop :=
  ∀ (s : State) (n : VentNo) (d a b : SReg) (key : Nat) (tk : Task), s.Issues (.vent n) → s.Runs n key tk →
    let v := n.toNat
    let x := s.gv v a.toNat
    let y := s.gv v b.toNat
    let pair (lo hi : Word) (t : State) := (∀ r : GReg, t.gv v r.toNat = if r.toNat = d.toNat then lo
      else if r.toNat = d.toNat + 1 then hi else s.gv v r.toNat)
    let next (t : State) := (t.vent v).pc = (s.vent v).pc + 4 ∧ SameMem s t
    let one (w : Word) (t : State) := (∀ r : GReg, t.gv v r.toNat = if r.toNat = d.toNat ∧ r ≠ 0 then w
      else s.gv v r.toNat) ∧ next t
    let freed (t : State) := t.vent v = {} ∧ SameMem s t
    let inState (t : State) (st : TaskState) := ∃ u, t.task? key = some u ∧ u.st = st ∧ u.pc = (s.vent v).pc + 4 ∧
      u.desc = tk.desc
    let ended (e : Nat) (t : State) := if tk.desc.doneKind = 0 then t.task? key = none
      else ∃ u, t.task? key = some u ∧ u.st = .ended e 0
    let ready (t : State) := if s.released tk.desc.tag then inState t .ready else inState t (.waiting .release)
    let l := s.vrdBytes v x.toNat 32
    let k := spawnTarget v (parseDesc l)
    let ev := x.toNat % 4096
    (pairOk d = true → x.toNat % 32 = 0 → ventReach x.toNat 32 = true →
      (∀ w, w ∈ ventWords v x.toNat 32 → s.eccAt w = 0) →
      (s.submitStatus l false = OK → s.admitNow k (parseDesc l).prio = true →
        (s.cal k).stalled.any (fun q => q.who = .vent v) = false →
        Gives (.spawn n d a) s fun t => next t ∧ ∃ h u, t.task? h = some u ∧ u.desc = parseDesc l ∧ u.at_ = k ∧
          pair 0 (BitVec.ofNat 32 (h * 65536 + u.seq)) t) ∧
      (s.submitStatus l false ≠ OK → Gives (.spawn n d a) s fun t => next t ∧ t.tasks = s.tasks ∧
        pair (BitVec.ofNat 32 (s.submitStatus l false)) 0 t)) ∧
    (tk.cancel = false →
      Gives (.yield n) s (fun t => freed t ∧ ready t) ∧
      (0 < sdiff x s.fnow → Gives (.waitf n a) s fun t => freed t ∧ inState t (.waiting (.frame x))) ∧
      (sdiff x s.fnow ≤ 0 → Gives (.waitf n a) s fun t => freed t ∧ ready t) ∧
      (eventOk ev = true → s.levelHolds ev tk.at_ = false →
        Gives (.waite n a) s fun t => freed t ∧ inState t (.waiting (.event ev)))) ∧
    (tk.cancel = true → Gives (.yield n) s (fun t => freed t ∧ ended 2 t) ∧
      Gives (.waitf n a) s (fun t => freed t ∧ ended 2 t)) ∧
    Gives (.done n) s (fun t => freed t ∧ ended 0 t) ∧
    (s.byHandle x = none → Gives (.cancel n d a) s fun t => one (BitVec.ofNat 32 E_ABSENT) t ∧ t.tasks = s.tasks) ∧
    (∀ key' u m, s.byHandle x = some (key', u) → u.st = .running m → m = v ∨ (s.vent m).start ≠ s.now → Gives (.cancel n d a) s fun t => one 0 t ∧
      t.task? key' = some { u with cancel := true }) ∧
    (0x400 ≤ x.toNat → x.toNat ≤ 0x7FF → Gives (.signal n d a) s fun t => one 0 t ∧
      ∀ key' u, s.task? key' = some u → u.st = .waiting (.event x.toNat) → s.released u.desc.tag = true →
        ∃ u', t.task? key' = some u' ∧ u'.st = .ready) ∧
    (x.toNat < 0x400 ∨ 0x7FF < x.toNat → Gives (.signal n d a) s fun t => one (BitVec.ofNat 32 E_ARG) t ∧
      t.tasks = s.tasks) ∧
    Gives (.eclass n a) s (fun t => t = s.setVent v { s.vent v with cls := x.toNat % 8, pc := (s.vent v).pc + 4 }) ∧
    (let g := mget (fun _ => ({} : Gate)) s.gates x.toNat
     let gate (t : State) := mget (fun _ => ({} : Gate)) t.gates x.toNat
     (x.toNat ≤ 1023 → 1 ≤ y.toNat → y.toNat ≤ 65535 → (g.armed = false ∨ g.count = 0) →
        Gives (.jset n d a b) s fun t => one 0 t ∧ gate t = ⟨true, y.toNat, 0⟩) ∧
     (1023 < x.toNat ∨ y = 0 ∨ 65535 < y.toNat → Gives (.jset n d a b) s fun t =>
        one (BitVec.ofNat 32 E_ARG) t ∧ t.gates = s.gates) ∧
     (pairOk d = true → x.toNat ≤ 1023 → g.armed = true →
        (g.count + 1 ≠ g.expect → Gives (.join n d a) s fun t => next t ∧ pair 0 0 t ∧
          gate t = { g with count := g.count + 1 }) ∧
        (g.count + 1 = g.expect → Gives (.join n d a) s fun t => next t ∧ pair 0 1 t ∧ gate t = {})) ∧
     (pairOk d = true → x.toNat ≤ 1023 → g.armed = false → Gives (.join n d a) s fun t =>
        next t ∧ pair (BitVec.ofNat 32 E_STATE) 0 t ∧ t.gates = s.gates)) ∧
    (let old := mget (fun _ => (0 : Word)) (s.crater (v / 16)).counters (x.toNat % 64)
     Gives (.cadd n d a b) s fun t => one old t ∧
       mget (fun _ => (0 : Word)) (t.crater (v / 16)).counters (x.toNat % 64) = old + y)

/-- Mailbox and queue instructions of a processor (R139, R140, R348, R349, R359). -/
def Obligations.QueueAndMailboxInstructionResults : Prop :=
  ∀ (s : State) (p : Proc) (d a b : SReg), s.Issues p →
    let x := s.g p a.toNat
    let w := s.g p b.toNat
    let c := s.chan x.toNat
    let f := s.fifo x.toNat
    let next (t : State) := t.pcOf p = s.pcOf p + 4
    let one (v : Word) (t : State) := next t ∧
      ∀ r : GReg, t.g p r.toNat = if r.toNat = d.toNat ∧ r ≠ 0 then v else s.g p r.toNat
    let pair (lo hi : Word) (t : State) := next t ∧ ∀ r : GReg, t.g p r.toNat =
      if r.toNat = d.toNat then lo else if r.toNat = d.toNat + 1 then hi else s.g p r.toNat
    let prod := s.bit (R.QUE_Q_CFG x.toNat) 31 = true ∧ s.bit (R.QUE_Q_ACL x.toNat) (8 + procGroup p) = true
    let cons := s.bit (R.QUE_Q_CFG x.toNat) 31 = true ∧ s.bit (R.QUE_Q_ACL x.toNat) (procGroup p) = true
    let size := (s.fld (R.QUE_Q_CFG x.toNat) 29 24 + 1) * 4
    let depth := s.fld (R.QUE_Q_CFG x.toNat) 15 0
    let slot (pos : Nat) := SRAM_BASE + s.fld (R.QUE_Q_BASE x.toNat) 21 6 * 64 + pos % depth * size
    (511 < x.toNat → Gives (.mpost p d a b) s (one (BitVec.ofNat 32 E_ARG)) ∧
      (pairOk d = true → Gives (.mrecv p d a) s (pair 0 (BitVec.ofNat 32 E_ARG)))) ∧
    (x.toNat ≤ 511 →
      (∀ fwd, s.mbxPostDir x.toNat (partyOf p) = some fwd → (c.words fwd).length < 8 → c.waiting fwd = [] →
        Gives (.mpost p d a b) s fun t => one 0 t ∧ SameMem s t ∧ ((t.chan x.toNat).words fwd) = c.words fwd ++
          [⟨w, s.fld (R.MBX_EPOCH (partyOf p)) 3 0⟩] ∧ (t.chan x.toNat).words (!fwd) = c.words (!fwd)) ∧
      (s.mbxPostDir x.toNat (partyOf p) = none → Gives (.mpost p d a b) s fun t => one (BitVec.ofNat 32 E_ATTR) t ∧
        t.chans = s.chans) ∧
      (pairOk d = true →
        (∀ fwd m rest, s.mbxRecvDir x.toNat (partyOf p) = some fwd → c.words fwd = m :: rest →
          Gives (.mrecv p d a) s fun t => pair m.data (BitVec.ofNat 32 (m.epoch * 256)) t ∧ SameMem s t ∧
            (t.chan x.toNat).words fwd = rest) ∧
        (∀ fwd, s.mbxRecvDir x.toNat (partyOf p) = some fwd → c.words fwd = [] →
          let m := if fwd then c.lastF else c.lastR
          Gives (.mrecv p d a) s fun t => pair m.data (BitVec.ofNat 32 (m.epoch * 256 + 65536)) t ∧ t.chans = s.chans) ∧
        (s.mbxRecvDir x.toNat (partyOf p) = none →
          Gives (.mrecv p d a) s fun t => pair 0 (BitVec.ofNat 32 E_ATTR) t ∧ t.chans = s.chans))) ∧
    (255 < x.toNat → Gives (.qpush p d a b) s (one (BitVec.ofNat 32 E_ARG)) ∧
      Gives (.qmark p d a) s (one (BitVec.ofNat 32 E_ARG)) ∧ Gives (.qrewind p d a) s (one (BitVec.ofNat 32 E_ARG)) ∧
      Gives (.qrel p d a) s (one (BitVec.ofNat 32 E_ARG))) ∧
    (x.toNat ≤ 255 → ¬ prod → Gives (.qpush p d a b) s fun t => one (BitVec.ofNat 32 E_ATTR) t ∧ SameMem s t) ∧
    (x.toNat ≤ 255 → ¬ cons → Gives (.qrel p d a) s fun t => one (BitVec.ofNat 32 E_ATTR) t ∧ t.fifos = s.fifos) ∧
    (x.toNat ≤ 255 → f.broken = false →
      (prod → f.used < depth → f.stalled = [] → w.toNat % 4 = 0 → s.OperandOk p w size 0 →
        Gives (.qpush p d a b) s fun t => one 0 t ∧ (t.fifo x.toNat).w = f.w + 1 ∧ (t.fifo x.toNat).r = f.r ∧
          ∀ m, t.rdB m = if slot f.w ≤ m ∧ m < slot f.w + size then
            (s.operandBytes p w size).getD (m - slot f.w) 0 else s.rdB m) ∧
      (cons → pairOk d = true → w.toNat % 4 = 0 → s.OperandOk p w size 1 →
        (f.r < f.w → Gives (.qpop p d a b) s fun t => pair 0 0 t ∧ (t.fifo x.toNat).r = f.r + 1 ∧
          t.operandBytes p w size = s.rdBytes (slot f.r) size) ∧
        (f.w ≤ f.r → Gives (.qpop p d a b) s fun t => pair 0 1 t ∧ (t.fifo x.toNat).r = f.r ∧
          (t.fifo x.toNat).w = f.w)) ∧
      (cons → s.bit (R.QUE_Q_CFG x.toNat) 30 = false →
        Gives (.qmark p d a) s (fun t => one 0 t ∧ (t.fifo x.toNat).m = f.r ∧ (t.fifo x.toNat).marked = true ∧
          SameMem s t) ∧
        (f.marked = true → Gives (.qrewind p d a) s fun t => one 0 t ∧ (t.fifo x.toNat).r = f.m ∧ SameMem s t) ∧
        (f.marked = false → Gives (.qrewind p d a) s fun t => one (BitVec.ofNat 32 E_STATE) t ∧ t.fifos = s.fifos)) ∧
      (cons → Gives (.qrel p d a) s fun t => one 0 t ∧ (t.fifo x.toNat).l = f.r ∧ (t.fifo x.toNat).marked = false ∧
        (t.fifo x.toNat).r = f.r ∧ SameMem s t))

/-- CRC instructions: the pair, the parameter block and the frame (R141, R142). -/
def Obligations.CheckValueResults : Prop :=
  ∀ (s : State) (p : Proc) (d a b : SReg), s.Issues p → pairOk d = true →
    let ad := s.g p a.toNat
    let blk := s.operandBytes p ad 32
    let w : Nat := leAt blk 24 1
    let c := crcParam blk
    let st : Nat := ((s.g p d.toNat).toNat + (s.g p (d.toNat + 1)).toNat * 2 ^ 32) % 2 ^ w
    let init : Nat := leAt blk 8 8 % 2 ^ w
    let refin := bitOf (BitVec.ofNat 32 (leAt blk 25 1)) 0
    let refout := bitOf (BitVec.ofNat 32 (leAt blk 25 1)) 1
    let from_ := s.g p b.toNat
    let len := (s.g p (b.toNat + 1)).toNat
    let done (r : Nat) (t : State) := r < 2 ^ w ∧ SameMem s t ∧ t.pcOf p = s.pcOf p + 4 ∧ t.flagsOf p = s.flagsOf p ∧
      ∀ g : GReg, t.g p g.toNat = if g.toNat = d.toNat then BitVec.ofNat 32 r
        else if g.toNat = d.toNat + 1 then BitVec.ofNat 32 (r / 2 ^ 32) else s.g p g.toNat
    ad.toNat % 4 = 0 → s.OperandOk p ad 32 0 → 1 ≤ w → w ≤ 64 →
    Gives (.crci p d a) s (done (if refin then reflect w init else init)) ∧
    Gives (.crcb p d a b) s (done (crcByte c st (BitVec.ofNat 8 from_.toNat))) ∧
    Gives (.crcw p d a b) s (done ((leBytes 4 from_.toNat).foldl (crcByte c) st)) ∧
    (pairOk b = true → len = 0 ∨ s.OperandOk p from_ len 0 →
      Gives (.crcm p d a b) s (done ((s.operandBytes p from_ len).foldl (crcByte c) st))) ∧
    Gives (.crcf p d a) s (done ((if refout ≠ refin then reflect w st else st) ^^^ (leAt blk 16 8 % 2 ^ w)))

/-- ALIVE: the verdict on a received counter and the state word it leaves (R143). -/
def Obligations.AliveCheck : Prop :=
  ∀ (s : State) (p : Proc) (d a b : SReg), s.Issues p →
    let q := s.g p a.toNat
    let w : Nat := max 3 (q.toNat / 2 ^ 16 % 16) + 1
    let c : Nat := (s.g p b.toNat).toNat % 2 ^ w
    let last : Nat := q.toNat % 2 ^ 16
    let gap : Nat := q.toNat / 2 ^ 20
    let delta : Nat := (((c : Int) - (last : Int)).emod ((2 ^ w : Nat) : Int)).toNat
    let state := BitVec.ofNat 32 (q.toNat / 2 ^ 16 * 2 ^ 16 + c)
    let done (verdict st : Word) (t : State) := SameMem s t ∧ t.pcOf p = s.pcOf p + 4 ∧ t.flagsOf p = s.flagsOf p ∧
      ∀ g : GReg, g ≠ 0 → t.g p g.toNat = if g.toNat = d.toNat then verdict else if g.toNat = a.toNat then st
        else s.g p g.toNat
    (d = a → Gives (.alive p d a b) s fun t => t = s.fault p C_ILLEGAL (encS 0x3E d.toNat a.toNat b.toNat 0 0x28)) ∧
    (d ≠ a →
      (delta = 0 → Gives (.alive p d a b) s (done 1 q)) ∧
      (delta = 1 → Gives (.alive p d a b) s (done 0 state)) ∧
      (2 ≤ delta → delta ≤ gap → Gives (.alive p d a b) s
        (done (BitVec.ofNat 32 (2 + (delta - 1) * 2 ^ 16)) state)) ∧
      (2 ≤ delta → gap < delta → Gives (.alive p d a b) s (done 3 state)))

/-- Power-on, RST_N and warm resets: what each clears, keeps and records (R451, R3, R5, R360, R454, R505). -/
def Obligations.PowerOnAndWarmResets : Prop :=
  ∀ (s : State),
    let cleared (t : State) := t.tasks = [] ∧ t.vents = [] ∧ t.cores = [] ∧ t.fifos = [] ∧ t.keys.slots = [] ∧
      t.keys.root = s.keys.root ∧ t.host = {} ∧ t.showState = IDLE ∧ t.pending = s.pending ∧
      (∀ a, inNvs a = true → t.rdB a = s.rdB a) ∧ (∀ a, 0x3FFFFF0000 ≤ a → a < 0x4000000000 → t.rd a = s.rd a)
    let straps (mode boot : BitVec 2) (l : Bool) (t : State) := t.fld R.SYS_STRAP 1 0 = mode.toNat ∧
      t.fld R.SYS_STRAP 3 2 = boot.toNat ∧ t.lgl.lhbSpi = l ∧
      t.fld R.SYS_STRAP 5 4 = if mode = 3 ∧ s.fld R.KEY_LC 2 0 ≠ 0 then 0 else mode.toNat
    let cause (i : Nat) (t : State) := ∀ j, bitOf (t.rd R.SYS_RSTCAUSE) j = (j == i || bitOf (s.rd R.SYS_RSTCAUSE) j)
    let cold (t : State) := cleared t ∧ t.chans = [] ∧ ∀ p, p < 32 → t.fld (R.MBX_EPOCH p) 3 0 = 0
    let warm (i : Nat) (t : State) := cleared t ∧ cause i t ∧ t.rd R.SYS_STRAP = s.rd R.SYS_STRAP ∧ t.nrg = s.nrg ∧
      (∀ a, inDram a = true → t.rdB a = s.rdB a) ∧
      (∀ n, (t.chan n).fwd = (s.chan n).fwd ∧ (t.chan n).rev = (s.chan n).rev) ∧
      ∀ p, p < 32 → t.fld (R.MBX_EPOCH p) 3 0 =
        if 2 ≤ p ∧ p ≤ 10 then (s.fld (R.MBX_EPOCH p) 3 0 + 1) % 16 else s.fld (R.MBX_EPOCH p) 3 0
    (∀ mode boot l, Gives (.powerOnReset mode boot l) s fun t => cold t ∧ straps mode boot l t ∧
      t.rd R.SYS_RSTCAUSE = BitVec.ofNat 32 (1 + (if s.pwr.hib then 64 else 32) + if s.pwr.sprLost then 128 else 0)) ∧
    (∀ mode boot l, s.pwr.hib = false → s.pwr.off = false → Gives (.rstNReset mode boot l) s fun t => cold t ∧ straps mode boot l t ∧
      cause 1 t) ∧
    (s.pwr.hib = false → Gives .railOutOfRange s fun t => cold t ∧ t.pwr.off = true) ∧
    (Memory.wf s.mem → Gives .warmReset s (warm 2) ∧
      (∀ w, bitOf w 0 = true → Gives (.sysResetWarm (.mgmt true) w) s (warm 2)) ∧
      (∀ net r rest, s.Asks net 0x0082 r rest → Gives (.resetWarm net) s (warm 2)) ∧
      (s.bit R.PWC_WDOG 31 = true → s.fld R.PWC_STATE 2 0 < 3 →
        s.pwr.wdStart + s.fld R.PWC_WDOG 15 0 * 400000 ≤ s.now → Gives .watchdogExpiry s (warm 3)))

/-- Per-domain resets and the Spring reset (R396, R451, R453, R360). -/
def Obligations.DomainAndSpringResets : Prop :=
  ∀ (s : State),
    let done (t : State) := s.rd R.SYS_RSTCAUSE ||| 0x10#32 = t.rd R.SYS_RSTCAUSE ∧ t.rd R.SYS_DRST = 0x80000000#32
    (∀ n : BitVec 3, Gives (.drstServiceCore n) s fun t => done t ∧ SameMem s t ∧ t.tasks = s.tasks ∧
      t.core (n.toNat + 1) = { start := s.sck } ∧ (∀ k, k ≠ n.toNat + 1 → t.core k = s.core k) ∧
      t.fld (R.MBX_EPOCH (n.toNat + 3)) 3 0 = (s.fld (R.MBX_EPOCH (n.toNat + 3)) 3 0 + 1) % 16) ∧
    Gives .drstLangal s (fun t => done t ∧ SameMem s t ∧ t.tasks = s.tasks ∧ t.cores = s.cores ∧
      t.lgl.a = List.replicate 16 0 ∧ t.lgl.prog = [] ∧ t.lgl.nvProg = s.lgl.nvProg ∧
      ∀ a, 0x3000180000 ≤ a → a < 0x3000190000 → t.rd a = regReset a) ∧
    (∀ d : BitVec 2, s.bit R.FLK_CTRL 0 = true ∨ s.flkEn = true →
      Gives (.drstCdie d) s fun t => t = { s with regs := t.regs } ∧ t.rd R.SYS_DRST = 0x83000000#32 ∧
        ∀ a, a ≠ R.SYS_DRST → t.rd a = s.rd a) ∧
    (∀ d : BitVec 2, s.bit R.FLK_CTRL 0 = false → s.flkEn = false → (s.tasks.map (·.1)).Nodup →
      (∀ key tk m, s.task? key = some tk → tk.st = .running m → (s.vent m).task = some key) →
      Gives (.drstCdie d) s fun t => done t ∧ SameMem s t ∧
        ∀ key tk, s.task? key = some tk →
          (tk.at_ / 4 = d.toNat → (∀ e c, tk.st ≠ .ended e c) →
            (∀ m, tk.st = .running m → m / 256 = d.toNat ∨ ((s.vent m).ended = none ∧ (s.vent m).draining = false)) →
            if tk.desc.doneKind = 0 then t.task? key = none
            else ∃ u, t.task? key = some u ∧ u.st = .ended 2 0 ∧ u.desc = tk.desc) ∧
          (tk.at_ / 4 ≠ d.toNat → (∀ k ∈ tk.holds, k / 4 ≠ d.toNat) → t.task? key = some tk)) ∧
    (∀ h : BitVec 3, Gives (.drstScnHead h) s fun t => done t ∧ SameMem s t ∧ t.tasks = s.tasks ∧
      (∀ a, 0x30000D0000 + h.toNat * 0x2000 ≤ a → a < 0x30000D2000 + h.toNat * 0x2000 → t.rd a = regReset a) ∧
      ∀ l, l / 4 = h.toNat → t.lnState l = LN_DOWN) ∧
    Gives .springReset s (fun t => SameMem s t ∧ t.keys.root = List.replicate 32 0 ∧ t.bit R.SPR_TAMP_STAT 8 = true ∧
      (∀ a, 0x3FFFFF0000 ≤ a → a < 0x4000000000 → a ≠ R.SPR_TAMP_STAT → t.rd a = regReset a) ∧
      (s.pwr.hib = false → s.pwr.off = false → t.rd R.SYS_RSTCAUSE = s.rd R.SYS_RSTCAUSE ||| 0x80#32))

/-- PWC_REQ outcomes, entry, abort, the end of DOZE and the wake from SLEEP (R438, R439, R440, R441, R442, R443, R444,
R445, R449). -/
def Obligations.PowerStateRequestsAndWakes : Prop :=
  ∀ (s : State),
    let state := s.fld R.PWC_STATE 2 0
    let outcome (target : Nat) := if s.bit R.FLK_CTRL 0 = true ∨ s.flkEn = true ∨ (target = 0 ∧ state ≠ 2) ∨
      s.pwr.entry ≠ none ∨ s.pwr.exit ≠ none then E_STATE
      else if 2 ≤ target ∧ s.poolsBusy = true then BUSY else OK
    let begun (target : Nat) (t : State) := SameMem s t ∧ t.fld R.PWC_STATE 2 0 = state ∧
      t.rd R.PWC_REQRES = 0x80000000#32 ∧
      if target = 0 then t.pwr.exit = some s.now ∧ t.pwr.entry = none
      else t.pwr.entry = some ⟨target, state⟩ ∧ t.pwr.wakeAt = none ∧ t.fld R.SPR_WAKE_CAUSE 7 0 = 0
    let up (last : Nat) (t : State) := t.fld R.PWC_STATE 2 0 = 0 ∧ t.fld R.PWC_STATE 6 4 = last ∧
      (s.strict = false → (∀ d, d < 4 → (t.die d).on = true ∧ (t.die d).point = 1) ∧
        ∀ c, c < 64 → (t.crater c).isOpen = true)
    let matches_ (mgt : Bool) (f : List Byte) := s.bit R.PWC_WFCFG 31 = true ∧
      s.bit R.PWC_WFCFG (if mgt then 17 else 16) = true ∧ 64 ≤ f.length ∧
      f.length ≤ s.maxFrame (if mgt then 9 else 8) ∧ f.take 6 = s.macAddr (if mgt then 9 else 8) ∧
      frEt f = s.fld R.PWC_WFCFG 15 0 ∧
      (frBody f).take 8 = leBytes 4 (s.rd R.PWC_WPAT0).toNat ++ leBytes 4 (s.rd R.PWC_WPAT1).toNat
    (∀ e ∈ [(Instr.pwcReqRun, 0), (.pwcReqDoze, 2), (.pwcReqSleep, 3), (.pwcReqHibernate, 4)],
      (outcome e.2 ≠ OK → Gives e.1 s fun t => t = s.wr R.PWC_REQRES (BitVec.ofNat 32 (2 ^ 31 + outcome e.2))) ∧
      (outcome e.2 = OK → Gives e.1 s (begun e.2))) ∧
    (∀ net r rest, s.Asks net 0x0080 r rest →
      let target := leAt r.payload 0 1
      (target = 1 ∨ 4 < target → Gives (.powerState net) s fun t => Answered s t r rest E_ARG [] ∧ SameMem s t) ∧
      (target ≠ 1 → target ≤ 4 → Gives (.powerState net) s fun t => Answered s t r rest (outcome target) [] ∧
        (outcome target = OK → begun target t))) ∧
    (∀ target last, target ∈ [2, 3, 4] → s.pwr.entry = some ⟨target, last⟩ → Gives .powerEntryDone s fun t =>
      t.fld R.PWC_STATE 2 0 = target ∧ t.pwr.entry = none ∧
      (target ≠ 4 → t.fld R.PWC_STATE 6 4 = s.fld R.PWC_STATE 6 4) ∧
      (∀ d, d < 4 → (t.die d).on = false) ∧ (∀ l, l < 32 → t.lnState l = LN_DOWN) ∧
      (target = 2 → (∀ a, inScratch a = false → t.rdB a = s.rdB a) ∧ t.pwr.hib = s.pwr.hib) ∧
      (target = 3 → t.keys.slots = [] ∧ (Memory.wf s.mem → ∀ a, inDram a = true ∨ inNvs a = true → t.rdB a = s.rdB a)) ∧
      (target = 4 → t.pwr.hib = true ∧ ∀ a, inNvs a = true → t.rdB a = s.rdB a)) ∧
    (∀ (src : BitVec 10) e, s.pwr.entry = some e → s.wakeCode (wakeSource src.toNat) = some (src.toNat, true) →
      Gives (.powerEntryAbort src) s fun t => t.pwr.entry = none ∧ t.bit R.PWC_STATE 8 = true ∧
        t.rd R.PWC_REQRES = 0x80000000#32 ∧ t.fld R.PWC_STATE 2 0 = state ∧ SameMem s t) ∧
    (∀ t0, s.pwr.exit = some t0 → Gives .dozeExitDone s fun t => up 2 t ∧ t.pwr.exit = none ∧ SameMem s t ∧
      t.rd R.PWC_WTIME = BitVec.ofNat 32 ((s.now - t0) / 400)) ∧
    (∀ w, s.pwr.wakeAt = some w → state = 3 → Gives .sleepWake s fun t => up 3 t ∧ t.pwr.wakeAt = none ∧
      t.tsuAcc = 0 ∧ t.bit R.FLK_CTRL 0 = false ∧ t.tasks = [] ∧ t.host = {} ∧
      (Memory.wf s.mem → ∀ a, inDram a = true ∨ inNvs a = true → t.rdB a = s.rdB a) ∧
      t.rd R.PWC_WTIME = BitVec.ofNat 32 ((s.now - w) / 400)) ∧
    (∀ mgt f, matches_ mgt f → state = 3 → Gives (.wakeFilterMatch mgt f true) s fun t =>
      mget (fun _ => false) t.springLatch 0x01A = true ∧ SameMem s t ∧
      (s.bit R.SPR_WAKE_EN 1 = true → t.pwr.wakeAt ≠ none ∧ t.fld R.SPR_WAKE_CAUSE 7 0 =
        if s.fld R.SPR_WAKE_CAUSE 7 0 = 0 ∨ ((s.now - s.pwr.causeAt) * 32768 ≤ s.pwr.frac ∧
          2 < s.fld R.SPR_WAKE_CAUSE 7 0) then 2 else s.fld R.SPR_WAKE_CAUSE 7 0))

/-- The RTC, its trim, the alarm, Spring writes, the supply and the watchdog (R446, R447, R448, R450, R454). -/
def Obligations.SpringDomainResults : Prop :=
  ∀ (s : State),
    let sec := s.rd R.SPR_RTC_SEC
    let alm := s.rd R.SPR_ALM_SEC
    let fired (t : State) := t.bit R.SPR_STAT 3 = true ∧
      (if s.clocksRun then mget (fun _ => false) t.icuPend 0x019 = true
       else mget (fun _ => false) t.springLatch 0x019 = true)
    (∀ w, Gives (.rtcSecWrite w) s fun t => t.rd R.SPR_RTC_SEC = w ∧ t.fld R.SPR_RTC_SUB 14 0 = 0 ∧ SameMem s t ∧
      (w = alm → sec ≠ w → fired t) ∧ (sec < alm → alm < w → t.bit R.SPR_STAT 2 = true) ∧
      (¬(w = alm ∧ sec ≠ w) → ¬(sec < alm ∧ alm < w) → t.rd R.SPR_STAT = s.rd R.SPR_STAT)) ∧
    (s.pwr.almDue = true → Gives .rtcAlarm s fun t => fired t ∧ t.pwr.almDue = false ∧ SameMem s t) ∧
    (2 ^ 20 ≤ s.pwr.sub20 →
      let tr := sext 8 (s.fld R.SPR_RTC_TRIM 7 0)
      Gives .rtcTrimApply s fun t => t.pwr.sub20 = s.pwr.sub20 - 2 ^ 20 ∧ SameMem s t ∧
        (tr < 0 → t.pwr.skip = s.pwr.skip + tr.natAbs ∧ t.regs = s.regs) ∧
        (0 ≤ tr → s.pwr.skip = 0 → s.fld R.SPR_RTC_SUB 14 0 + tr.toNat < 32768 → t.rd R.SPR_RTC_SEC = sec ∧
          t.fld R.SPR_RTC_SUB 14 0 = s.fld R.SPR_RTC_SUB 14 0 + tr.toNat)) ∧
    (∀ a w rest d, s.pwr.sprQ = (a, w) :: rest → s.pwr.sprStall = [] → regDesc a = some d → a ≠ R.SPR_RTC_SEC →
      (a = R.SPR_TAMP_CFG → s.bit R.SPR_TAMP_CFG 31 = false) →
      Gives .springWriteApply s fun t => t.pwr.sprQ = rest ∧ t.rd a = d.written false (s.rd a) w ∧
        (∀ b, b ≠ a → t.rd b = s.rd b) ∧ SameMem s t) ∧
    (∀ v l, Gives (.springSupplySwitch v l) s fun t => t.bit R.SPR_STAT 0 = v ∧ t.bit R.SPR_STAT 1 = l ∧
      t = { s with regs := t.regs }) ∧
    (∀ net r rest, s.Asks net 0x0081 r rest →
      (64 < r.payload.length → Gives (.wakeSchedule net) s fun t => t = s.refusedReq r rest E_SPACE) ∧
      (r.payload.length ≤ 64 → Gives (.wakeSchedule net) s fun t => Answered s t r rest OK [] ∧
        t.pwr.wakes = wordsOf r.payload ∧ t.regs = s.regs ∧ SameMem s t)) ∧
    ∀ w : Word,
      (s.bit R.PWC_WDOG 31 = true → Gives (.pwcWdogEnable w) s (· = s)) ∧
      (s.bit R.PWC_WDOG 31 = false → Gives (.pwcWdogEnable w) s fun t =>
        t.fld R.PWC_WDOG 15 0 = max 1 (fldOf w 15 0) ∧ t.bit R.PWC_WDOG 31 = bitOf w 31 ∧
        (bitOf w 31 = true → t.pwr = { s.pwr with wdStart := s.now }) ∧
        (∀ a, a ≠ R.PWC_WDOG → t.rd a = s.rd a) ∧ t = { s with regs := t.regs, pwr := t.pwr }) ∧
      Gives (.pwcWdkickWrite w) s (fun t => t = if w.toNat % 65536 = 0xA5C3 then
        { s with pwr := { s.pwr with wdStart := s.now } } else s) ∧
      (s.bit R.PWC_WDOG 31 = false ∨ s.fld R.PWC_STATE 2 0 = 3 ∨
        s.now < s.pwr.wdStart + s.fld R.PWC_WDOG 15 0 * 400000 → Gives .watchdogExpiry s (· = s))

/-- TSU: commits take the shadows, the increment is clamped, a step is refused while frames run, captures (R47, R171,
R172, R173, R517). -/
def Obligations.TimeBaseResults : Prop :=
  ∀ (s : State),
    let c := R.TSU_COMMIT
    let frames := s.aBit R.FLK_CTRL 0 = true
    Gives .tsuCommit s (fun t => (∀ a, a ≠ c → t.rd a = s.rd a) ∧
      (∃ x, CommitTaken s t c (· ∈ [R.TSU_INC_FR, R.TSU_INC_NS, R.TSU_STEP]) x) ∧
      t = { s with regs := t.regs, taken := t.taken, commits := t.commits, writeNo := s.writeNo + 1 }) ∧
    (∀ x, s.unchecked c = some x →
      let step := x.rd R.TSU_STEP
      let inc := x.fld R.TSU_INC_NS 7 0 * 2 ^ 32 + (x.rd R.TSU_INC_FR).toNat
      let v := max 0x027F600000 (min 0x0280A00000 inc)
      let written (a : Nat) := x.no < mget (fun _ => 0) s.shadowNo a
      (frames → step ≠ 0 → Gives .tsuCommitApply s fun t => t.bit c 31 = true ∧ t.bit c 30 = false ∧
        t.fld c 15 8 = E_STATE ∧ (∀ a, a ≠ c → t.rd a = s.rd a) ∧
        t = { s with regs := t.regs, commits := s.commits.filter fun y => y.no ≠ x.no }) ∧
      (¬(frames ∧ step ≠ 0) → Gives .tsuCommitApply s fun t => t.bit c 31 = true ∧ t.fld c 15 8 = OK ∧
        ((∀ y ∈ s.commits, y.reg = c → y.no = x.no) → t.bit c 30 = false) ∧
        t.commits = (s.commits.filter fun y => y.no ≠ x.no) ∧ t.tsuInc = v ∧
        t.tsuAcc = (s.tsuAcc + step.toNat * 2 ^ 32) % 2 ^ 64 ∧
        t.bit R.TSU_STATUS 0 = (s.bit R.TSU_STATUS 0 || decide (v ≠ inc)) ∧
        t.rd R.TSU_STEP = (if written R.TSU_STEP then s.rd R.TSU_STEP else 0) ∧
        (∀ a ∈ [R.TSU_INC_FR, R.TSU_INC_NS], t.rd a = if v ≠ inc ∧ ¬written a then t.aRd a else s.rd a) ∧
        t = { s with regs := t.regs, act := t.act, tsuAcc := t.tsuAcc, tsuHi := t.tsuHi, commits := t.commits })) ∧
    Gives .tsuCapGo s (fun t => t.bit R.TSU_CAP 31 = false ∧ t.capReq = true ∧ t.tsuAcc = s.tsuAcc) ∧
    (s.capReq = true → Gives .tsuCapture s fun t => (t.rd R.TSU_CAP_NS).toNat = s.tsuAcc / 2 ^ 32 % 2 ^ 32 ∧
      (t.rd R.TSU_CAP_FRAC).toNat = s.tsuAcc % 2 ^ 32 ∧ t.bit R.TSU_CAP 31 = true ∧ t.capReq = false)

/-- FLK commits, seals and references (R181, R183, R184, R185, R187, R198, R199, R372). -/
def Obligations.FrameClockCommits : Prop :=
  ∀ (s : State),
    let c := R.FLK_COMMIT
    let rate (n d : Nat) := 1 ≤ n ∧ 1 ≤ d ∧ d * 4166666 ≤ 1000 * n ∧ 1000 * n ≤ d * 41708334
    let enables (x : Commit) := bitOf (x.rd R.FLK_CTRL) 0 = true ∧ s.flkEn = false
    let good (x : Commit) := let ahead := (x.rd R.FLK_ANCH_NS - s.tsuNs).toNat
      rate (x.fld R.FLK_RATE_N 23 0) (x.fld R.FLK_RATE_D 7 0) ∧ (enables x → 1000000 ≤ ahead ∧ ahead ≤ 2000000000)
    let shadow (a : Nat) := (R.FLK_CTRL ≤ a ∧ a < R.FLK_LAG + 4) ∨ (R.FLK_FSYNC ≤ a ∧ a < R.FLK_LTCCFG + 4)
    let edge (k : Nat) (t : State) := SameMem s t ∧ (s.clocksRun = true → mget (fun _ => false) t.icuPend k = true) ∧
      (s.fld R.PWC_STATE 2 0 = 3 → mget (fun _ => false) t.springLatch k = true)
    Gives .flkCommit s (fun t => (∃ x, CommitTaken s t c shadow x) ∧ ∀ a, a ≠ c → t.rd a = s.rd a) ∧
    (∀ x, s.unchecked c = some x → ¬good x → (s.flkEn = false → s.waiting c = []) →
      Gives .flkCommitApply s fun t => t.bit c 31 = true ∧ t.bit c 30 = false ∧
        t.fld c 15 8 = E_ARG ∧ (∀ a, a ≠ c → t.rd a = s.rd a) ∧
        t = { s with regs := t.regs, commits := s.commits.filter fun y => y.no ≠ x.no }) ∧
    (∀ x, s.unchecked c = some x → good x → s.flkEn = true → Gives .flkCommitApply s fun t => t.bit c 31 = true ∧
      t.bit c 30 = s.bit c 30 ∧ t.fld c 15 8 = OK ∧ (∀ a, a ≠ c → t.rd a = s.rd a) ∧
      t = { s with regs := t.regs, commits := s.commits.map fun y => if y.no = x.no then { y with ok := true } else y }) ∧
    (∀ x, (s.commits.filter fun y => y.reg == c) = [x] → x.ok = false → good x → s.flkEn = false →
      x.ranges = flkRanges → Regs.wf x.vals → Gives .flkCommitApply s fun t => t.bit c 31 = true ∧
        t.bit c 30 = false ∧ t.fld c 15 8 = OK ∧ (∀ a, shadow a → t.aRd a = x.rd a) ∧ t.waiting c = [] ∧
        (enables x → t.rd R.FLK_COMMITTED = x.rd R.FLK_ANCH_FRAME - 1 ∧ t.flkFired = false ∧ t.sealed = none) ∧
        SameMem s t) ∧
    (∀ w, s.sealHold = none → Gives (.flkSealWrite w) s fun t => t = { s with sealed := t.sealed } ∧
      t.sealed = match s.sealed with
        | some x => if 0 < (w - x).toInt then some w else some x
        | none => some w) ∧
    (∀ ltc user, Gives (.ltcSyncWord ltc user) s fun t => edge 0x00D t ∧ (s.clocksRun = true →
      (∀ j, bitOf (t.rd R.FLK_LTC) j = (j == 31 || bitOf ltc j)) ∧ t.rd R.FLK_LTC_USER = user)) ∧
    Gives .fsyncInEdge s (edge 0x00C) ∧ Gives .wclkEvent s (edge 0x00E) ∧
    (∀ net r rest, s.Asks net 0x002A r rest →
      let rn := leAt r.payload 0 4
      let rd := leAt r.payload 4 4
      let bad := r.payload.length ≠ 8 ∨ ¬(rn ≤ 0xFFFFFF ∧ rd ≤ 255 ∧ rate rn rd)
      let late := (r.frame - s.fnow).toInt < 2
      let room := s.tbl.pixelsOk r.frame rn rd = true ∧ s.packetsOk s.tbl r.frame rn rd = true
      (bad → Gives (.rateSet net) s (· = s.refusedReq r rest E_ARG)) ∧
      (¬bad → late → Gives (.rateSet net) s (· = s.refusedReq r rest E_LATE)) ∧
      (¬bad → ¬late → ¬room → Gives (.rateSet net) s (· = s.refusedReq r rest E_SPACE)) ∧
      (¬bad → ¬late → room → Gives (.rateSet net) s fun t => Answered s t r rest OK [] ∧
        ∃ x, CommitTaken s t c shadow x ∧
          x.fld R.FLK_RATE_N 23 0 = rn ∧ x.fld R.FLK_RATE_D 7 0 = rd ∧ x.rd R.FLK_RCHG = r.frame)) ∧
    (∀ net r rest, s.Asks net 0x0030 r rest →
      let ok := r.payload.length = 4 ∧ (leAt r.payload 0 4) ≤ 5
      (¬ok → Gives (.timeSource net) s (· = s.refusedReq r rest E_ARG)) ∧
      (ok → Gives (.timeSource net) s fun t => Answered s t r rest OK [] ∧
        ∃ x, CommitTaken s t c shadow x ∧ x.fld R.FLK_CTRL 6 4 = leAt r.payload 0 4))

/-- Frame starts fire at their target, frames commit in order with the kernels' work done, late and lagging frames are
recorded (R183, R186, R187, R188, R189, R190, R191, R193, R197, R207, R209, R214). -/
def Obligations.FrameStartAndCommitRules : Prop :=
  ∀ (s : State), s.flkEn = true →
    let pend (k : Nat) (t : State) := mget (fun _ => false) t.icuPend k = true
    let k := s.committed + 1
    let may := s.flkFired = true ∧ (k - s.fnow).toInt ≤ 0 ∧ s.frameBusy k = false ∧
      ∃ x, s.sealed = some x ∧ (k - x).toInt ≤ 0
    let lead := BitVec.ofNat 32 s.leadNs
    let missing := s.allNoticed s.fnow = false ∨ ∃ n ∈ s.noticesOf s.fnow, 0 < (n.e - s.sigma).toInt
    let due := (s.tsuNs - (s.sigma - lead)).toInt ≥ 0
    let excess := (s.tsuNs - s.nominal (s.fnow + 1)).toInt
    (∀ k target trim lag, s.flkNext = some (k, target, trim, lag) → s.bit R.PAIR_STAT 7 = false →
      ((s.tsuNs - target).toInt < 0 → Gives .frameStart s (· = s)) ∧
      (0 ≤ (s.tsuNs - target).toInt → s.isMaster = true → s.waiting R.FLK_COMMIT = [] → s.ratePend = none →
        (s.tasks.map (·.1)).Nodup → Gives .frameStart s fun t =>
          let phi := (target - s.nominal k).toInt.toNat
          t.fnow = k ∧ t.flkS = target ∧ t.flkFired = true ∧ t.phase = phi ∧
          t.fld R.FLK_STATUS 7 4 = min 15 (phi / s.pInt) ∧
          let took := s.flkFired = true ∧ 0 ≤ (s.committed - (k - 1)).toInt
          t.outTaken = (if took then k - 1 else s.outTaken) ∧
          t.relTaken = (if s.flkFired = false ∨ took then some (k - 1) else s.relTaken) ∧
          pend 0x008 t ∧
          ∀ key tk f, s.task? key = some tk → tk.st = .waiting (.frame f) → tk.desc.tag = 0xFFFFFFFF →
            (f - k).toInt ≤ 0 → ∃ u, t.task? key = some u ∧ u.st = .ready ∧ u.desc = tk.desc)) ∧
    (may → Gives .frameCommit s fun t => t.committed = k ∧ pend 0x009 t ∧ t.committedNs = s.tsuNs ∧
      (s.pair.snapWant = false → SameMem ((s.frameWork k).copiesAt k) t) ∧
      (s.pair.snapWant = false → s.tbl.fix = [] → s.tbl.canvas = [] → s.copyWrites = [] → SameMem s t)) ∧
    (¬may → Gives .frameCommit s (· = s)) ∧
    (∀ (f : Word), let odd := f.toNat % 2
      let sums := (s.lgvApply f).lgvSums f
      (∀ e, s.tbl.fix = [e] → s.canvasesOn f = [] →
        let r := s.fixAt e.1 f
        let p := s.persAt (fixPers r) f
        let slot := ubufAddr (fixBuf r) (odd * 512 + fixSlot r - 1)
        r ≠ [] → ∀ i k, i < persN p → k < persFoot p → k ∈ persSlots p i → (∀ j, j < i → k ∉ persSlots p j) →
          slot + k < sums ∨ sums + 2048 ≤ slot + k →
          let v := s.wireValue r p f (s.fadeOf f) i
          (s.frameWork f).rdB (slot + k) = (wireBytesOf (persWidth p i) (persOrder p i) v).getD (k - persOff p i) 0 ∧
          (fixEn r = false → v = leAt p (68 + 8 * i) 3) ∧ (fixEn r = true → ∀ w, fixProg r i = some w → v = w)) ∧
      (∀ c r, s.tbl.fix = [] → s.tbl.canvas ≠ [] → s.canvasesOn f = [(c, r)] →
        (∀ n, n < 16 → layerKind ((slotOf s.tbl.layer n).at f) = 0) →
        let base := (s.buf (canvasBuf (decide (odd = 1)) r)).base
        ∀ a, (a < sums ∨ sums + 2048 ≤ a) → (s.frameWork f).rdB a =
          if base ≤ a ∧ a < base + 8 * (canvasW r * canvasH r) then r.getD (8 + (a - base) % 8) 0 else s.rdB a)) ∧
    (s.isMaster = true → s.flkNext = none →
      (s.flkFired = false → Gives .frameAnnounce s fun t => t.flkNext =
        some (s.aRd R.FLK_ANCH_FRAME, s.aRd R.FLK_ANCH_NS, s.aRd R.FLK_TRIM, s.bit R.FLK_STATUS 1)) ∧
      (s.flkFired = true → s.allNoticed s.fnow = true → Gives .frameAnnounce s fun t => t.flkNext =
        some (s.fnow + 1, (s.noticesOf s.fnow).foldl (fun x n => later (later x (n.at_ + lead)) n.e) s.sigma,
          s.aRd R.FLK_TRIM, s.bit R.FLK_STATUS 1)) ∧
      (s.flkFired = true → s.allNoticed s.fnow = false → Gives .frameAnnounce s (· = s))) ∧
    (s.isMaster = true → s.flkFired = true → s.lateNoted ≠ some s.fnow →
      (due → missing → Gives .lateDeadline s fun t => t.rd R.FLK_LATECNT = s.rd R.FLK_LATECNT + 1 ∧ pend 0x00A t ∧
        t.lateNoted = some s.fnow ∧ SameMem s t) ∧
      (¬due ∨ ¬missing → Gives .lateDeadline s (· = s))) ∧
    (s.isMaster = true → s.flkFired = true → s.bit R.FLK_STATUS 1 = false →
      ((s.lagMax * s.pInt : Nat) < excess → Gives .frameLag s fun t => t.bit R.FLK_STATUS 1 = true ∧
        t.bit R.BGT_STATUS 0 = true ∧ pend 0x00B t ∧ SameMem s t) ∧
      (excess ≤ (s.lagMax * s.pInt : Nat) → Gives .frameLag s (· = s))) ∧
    (s.isMaster = false → s.flkNext = none → s.bit R.PAIR_STAT 7 = false → s.flkFired = true →
      let at_ := s.nominal (s.fnow + 1) + lead
      ((s.tsuNs - at_).toInt < 0 → Gives .orphanFire s (· = s)) ∧
      (0 ≤ (s.tsuNs - at_).toInt → Gives .orphanFire s fun t => t.fnow = s.fnow + 1 ∧ t.flkS = at_ ∧
        t.bit R.FLK_STATUS 2 = true))

/-- Dispatch, starvation guard, quantum charge, run limit, vent release, crater islands and DRAM promotion (R25, R43,
R66, R68, R105, R138, R150, R151, R152, R154, R155, R156). -/
def Obligations.DispatchResults : Prop :=
  ∀ (s : State),
    let cap (c : Nat) : Int := (s.aFld (R.CAL_BCAP c) 16 0 * 1024 : Nat)
    let held (c : Nat) (b : Int) : Int := if s.bit R.BGT_CTRL 0 then max (-2147483648) (min b (cap c)) else cap c
    (∀ k : BitVec 4, s.bit R.SCH_CTRL 0 = true → s.aBit (R.CAL_CTRL k.toNat) 0 = true → s.dieRuns (k.toNat / 4) = true →
      let c := k.toNat
      let b := s.budget c
      let q (tk : Task) : Int := s.quantum c tk.desc.cls
      let privileged (tk : Task) := 24 ≤ tk.desc.prio ∨
        (tk.desc.critical = true ∧ s.bit R.BGT_STATUS 0 = true ∧ s.bit R.BGT_CTRL 5 = true)
      let fits (tk : Task) := cap c ≤ b ∨ (privileged tk ∧ q tk ≤ b) ∨
        (¬privileged tk ∧ (s.aFld (R.CAL_RESV c) 15 0 * 1024 : Nat) ≤ b - q tk)
      let ready (l : Nat) (e : Nat × Task) (n : Nat) := l < 32 ∧ (s.guardLevel c).getD 0 ≤ l ∧ s.head c l = some e ∧
        s.pickVent c e.2 = some n ∧ fits e.2
      (∀ tk n, s.pickVent c tk = some n → n / 64 = c ∧ s.eligible tk n = true ∧ ∀ m, m / 64 = c → s.eligible tk m = true →
        (s.craterUp (m / 16) = true → s.craterUp (n / 16) = true) ∧ (s.craterUp (m / 16) = s.craterUp (n / 16) →
          s.busyVents (n / 16) ≤ s.busyVents (m / 16) ∧ (s.busyVents (n / 16) = s.busyVents (m / 16) → n ≤ m))) ∧
      (∀ l key tk n, ready l (key, tk) n → (∀ l' e m, l < l' → ¬ready l' e m) → Gives (.dispatch k) s fun t =>
        let v := t.vent n
        v.task = some key ∧ v.ended = none ∧ v.stall = none ∧ v.pc = tk.pc ∧ v.flags = 0 ∧ v.cls = tk.desc.cls ∧
        t.gv n 1 = tk.desc.arg ∧ t.gv n 2 = tk.desc.user ∧ t.gv n 30 = 0x4000 ∧ t.gv n 31 = 0xFFFFFFFC ∧
        (∃ u, t.task? key = some u ∧ u.st = .running n ∧ u.runPc = tk.pc ∧ u.desc = tk.desc) ∧
        t.readyQ c l = (s.readyQ c l).drop 1 ∧ ((s.cal c).cycle.tick ≠ s.now → t.budget c = held c (b - q tk)) ∧
        (v.opening = !(s.crater (n / 16)).isOpen) ∧ t.craterUp (n / 16) = true ∧
        (∀ m, m ≠ n → t.vent m = s.vent m) ∧ (∀ key', key' ≠ key → t.task? key' = s.task? key') ∧ SameMem s t) ∧
      ((∀ l e n, ¬ready l e n) → Gives (.dispatch k) s fun t => t = { s with cals := t.cals } ∧
        ∀ l, t.readyQ c l = s.readyQ c l)) ∧
    (∀ (k : BitVec 4) (l : BitVec 5) l' key since rest, s.readyQ k.toNat l.toNat = key :: rest →
      (s.cal k.toNat).starve.find? (fun e => e.1 = l.toNat) = some (l', key, since) →
      (s.fld R.SCH_STARVE 15 0 * 400 ≤ s.now - since → Gives (.starveGuard k l) s fun t =>
        ∃ g, t.guardLevel k.toNat = some g ∧ l.toNat ≤ g) ∧
      (s.now - since < s.fld R.SCH_STARVE 15 0 * 400 → Gives (.starveGuard k l) s (· = s))) ∧
    (∀ (n : VentNo) key, (s.vent n.toNat).task = some key →
      let v := s.vent n.toNat
      let c := n.toNat / 64
      let lim := s.fld R.SCH_RUNLIMIT 15 0
      (v.qUs * 400 ≤ s.now - v.qStart → Gives (.quantumCharge n) s fun t =>
        ((s.cal c).cycle.tick ≠ s.now → t.budget c = held c (s.budget c - s.quantum c v.cls)) ∧
        t = { s with regs := t.regs, vents := t.vents, cals := t.cals, fresh := t.fresh } ∧
        t.vent n.toNat = { v with qStart := v.qStart + v.qUs * 400, qCharge := s.quantum c v.cls,
                                  qUs := s.aFld (R.CAL_QUANTUM c) 7 0 }) ∧
      (∀ tk, s.task? key = some tk → v.draining = false →
        let ended (e cause : Nat) (t : State) := t.vent n.toNat = {} ∧ SameMem s t ∧
          (if tk.desc.doneKind = 0 then t.task? key = none
            else ∃ u, t.task? key = some u ∧ u.st = .ended e cause ∧ u.desc = tk.desc)
        (v.ended = none → lim ≠ 0 → lim * 400 ≤ s.now - v.start → Gives (.runlimit n) s (ended 1 8)) ∧
        (v.ended = some .done → tk.at_ ≤ 15 → tk.desc.prio ≤ 31 → Gives (.ventRelease n) s fun t => ended 0 0 t ∧
          let e := (s.now - v.qStart) * 5 / 2
          let len := v.qUs * 1000
          (s.cal c).cycle.tick ≠ s.now →
            t.budget c = if e < len then held c (s.budget c + (v.qCharge * (len - e) / len : Nat)) else s.budget c) ∧
        (v.ended = some .yield → tk.cancel = false → s.released tk.desc.tag = true → Gives (.ventRelease n) s fun t =>
          t.vent n.toNat = {} ∧ (∃ u, t.task? key = some u ∧ u.st = .ready ∧ u.pc = v.pc ∧ u.desc = tk.desc) ∧
          t.readyQ tk.at_ tk.desc.prio = s.readyQ tk.at_ tk.desc.prio ++ [key])) ∧
      (v.draining = true → Gives (.ventRelease n) s (· = s))) ∧
    (∀ c : BitVec 6,
      let x := s.crater c.toNat
      let idle := x.isOpen = true ∧ s.craterIdle c.toNat = true ∧ 4000 ≤ s.now - x.idleSince
      (idle → Gives (.craterGate c) s fun t => t.crater c.toNat = { x with isOpen := false, counters := [] } ∧
        (∀ m, m ≠ c.toNat → t.crater m = s.crater m) ∧ SameMem s t) ∧
      (¬idle → Gives (.craterGate c) s (· = s)) ∧
      (x.isOpening = true → Gives (.craterOpenDone c) s fun t =>
        t.crater c.toNat = { x with isOpen := true, isOpening := false, idleSince := s.now } ∧
        (∀ m, t.vent m = if m / 16 = c.toNat then { s.vent m with opening := false } else s.vent m) ∧
        (∀ m, m ≠ c.toNat → t.crater m = s.crater m) ∧ SameMem s t)) ∧
    (∀ i r, s.dramReqs[i]? = some r → r.cls = 0 →
      (1600 ≤ s.now - r.since → Gives (.requestPromote i) s fun t => t.dramReqs[i]? = some { r with cls := 1 } ∧
        (∀ j, j ≠ i → t.dramReqs[j]? = s.dramReqs[j]?) ∧ t = { s with dramReqs := t.dramReqs }) ∧
      (s.now - r.since < 1600 → Gives (.requestPromote i) s (· = s)))

/-- Completion records, scheduler ports, load snapshots and caldera commits (R64, R66, R69, R70, R148, R158, R166,
R167, R169, R350). -/
def Obligations.SubmissionResults : Prop :=
  ∀ (s : State),
    (∀ key tk es cause, s.task? key = some tk → tk.st = .ended es cause →
      let c := R.QUE_Q_CFG tk.desc.doneTarget
      let n := tk.desc.doneTarget
      let f := s.fifo n
      let size := (s.fld c 29 24 + 1) * 4
      let slot := SRAM_BASE + s.fld (R.QUE_Q_BASE n) 21 6 * 64 + f.w % s.fld c 15 0 * size
      let rec4 := [Word.ofNat (key * 65536 + tk.seq), Word.ofNat (es + if es = 1 then cause * 256 else 0), tk.desc.user,
        tk.desc.tag]
      let admits := s.bit c 31 = true ∧ s.bit (R.QUE_Q_ACL n) 12 = true ∧ 16 ≤ size
      (tk.desc.doneKind = 1 → admits → f.broken = false →
        (f.used < s.fld c 15 0 → f.stalled = [] → Gives (.taskCompletionPost key) s fun t => t.task? key = none ∧
          (t.fifo n).w = f.w + 1 ∧ (t.fifo n).r = f.r ∧ ∀ m, t.rdB m = if slot ≤ m ∧ m < slot + size then
            (bytesOfWords rec4).getD (m - slot) 0 else s.rdB m) ∧
        (s.fld c 15 0 ≤ f.used ∨ f.stalled ≠ [] → Gives (.taskCompletionPost key) s (· = s))) ∧
      (tk.desc.doneKind = 1 → ¬admits → Gives (.taskCompletionPost key) s fun t => t.task? key = none ∧
        t.fifos = s.fifos ∧ SameMem s t) ∧
      (tk.desc.doneKind = 2 → ∀ fwd, s.mbxPostDir n (16 + tk.at_) = some fwd →
        let ch := s.chan n
        ((ch.words fwd).length + 4 ≤ 8 → ch.waiting fwd = [] → Gives (.taskCompletionPost key) s fun t =>
          t.task? key = none ∧ ((t.chan n).words fwd).map (·.data) = (ch.words fwd).map (·.data) ++ rec4 ∧
          SameMem s t) ∧
        (8 < (ch.words fwd).length + 4 → Gives (.taskCompletionPost key) s (· = s)))) ∧
    (∀ (k : BitVec 4) q, (s.cal k.toNat).stalled = [q] →
      (s.room k.toNat q.desc.prio = true → Gives (.submitAdmit k) s fun t => (t.cal k.toNat).stalled = [] ∧
        ∀ m, q.who = .port m → ∃ h u, t.task? h = some u ∧ u.desc = q.desc ∧ u.at_ = q.k ∧
          t.rd (R.SCH_P_SUB m) = 0x80000000 ∧ t.rd (R.SCH_P_HANDLE m) = Word.ofNat (h * 65536 + u.seq)) ∧
      (s.room k.toNat q.desc.prio = false → Gives (.submitAdmit k) s (· = s))) ∧
    (∀ (m : BitVec 4) who w, m.toNat ≤ 9 → (portOwner who = m.toNat →
        let l := bytesOfWords (lanes.map fun i => if i = 7 then w else s.rd (R.SCH_P_DESC m.toNat i))
        let st := s.submitStatus l (m = 1)
        let d := parseDesc l
        let res (st : Nat) (h : Word) (t : State) := t.rd (R.SCH_P_SUB m.toNat) = Word.ofNat (0x80000000 + st) ∧
          t.rd (R.SCH_P_HANDLE m.toNat) = h
        let k := if d.affKind = 1 then d.affTarget else d.affTarget / 4
        (st ≠ OK → Gives (.schPortSubmit m who w) s fun t => res st 0 t ∧ t.tasks = s.tasks ∧ t.cals = s.cals) ∧
        (st = OK → d.affKind ≠ 0 → s.admitNow k d.prio = true → Gives (.schPortSubmit m who w) s fun t =>
          ∃ h u, t.task? h = some u ∧ u.desc = d ∧ u.at_ = k ∧ res 0 (Word.ofNat (h * 65536 + u.seq)) t) ∧
        (st = OK → d.affKind ≠ 0 → s.admitNow k d.prio = false → Gives (.schPortSubmit m who w) s fun t =>
          t.bit (R.SCH_P_SUB m.toNat) 31 = false ∧ t.tasks = s.tasks ∧
          ((s.cal k).stallCyc.1 ≠ s.now → (t.cal k).stalled = (s.cal k).stalled ++ [⟨.port m.toNat, k, d⟩])) ∧
        (2 ≤ m.toNat → Gives (.schPortCancel m who w) s (· = s)) ∧
        (m.toNat ≤ 1 → (s.byHandle w = none → Gives (.schPortCancel m who w) s fun t =>
            t.rd (R.SCH_P_CRES m.toNat) = Word.ofNat (0x80000000 + E_ABSENT) ∧ t.tasks = s.tasks) ∧
          (∀ key u n, s.byHandle w = some (key, u) → u.st = .running n → (s.vent n).start ≠ s.now →
            Gives (.schPortCancel m who w) s fun t =>
            t.rd (R.SCH_P_CRES m.toNat) = 0x80000000 ∧ t.task? key = some { u with cancel := true }) ∧
          (∀ key u, s.byHandle w = some (key, u) → u.st = .ready → u.desc.doneKind ≠ 0 → u.since ≠ s.now →
            (∀ x, u.moved = some x → x.1 ≠ s.now) →
            Gives (.schPortCancel m who w) s fun t => t.rd (R.SCH_P_CRES m.toNat) = 0x80000000 ∧
              t.task? key = some { u with st := .ended 2 0 } ∧ key ∉ t.readyQ u.at_ u.desc.prio))) ∧
      (portOwner who ≠ m.toNat → Gives (.schPortSubmit m who w) s (fun t => t.tasks = s.tasks ∧ t.cals = s.cals) ∧
        Gives (.schPortCancel m who w) s (fun t => t.tasks = s.tasks ∧ t.cals = s.cals))) ∧
    Gives .schSnapGo s (fun t => t.bit R.SCH_SNAP 31 = false ∧ t.snapReq = true ∧
      ∀ a, a ≠ R.SCH_SNAP → t.rd a = s.rd a) ∧
    (s.snapReq = true → Gives .schSnapCapture s fun t => t.bit R.SCH_SNAP 31 = true ∧ t.snapReq = false ∧
      ∀ k, k < 16 → (∀ l, l < 32 → let w := mget (fun _ => 0) (s.cal k).waitNs l
        t.rd (R.CAL_QWAIT_LO k l) = Word.ofNat w ∧ t.rd (R.CAL_QWAIT_HI k l) = Word.ofNat (w / 2 ^ 32) ∧
        t.rd (R.CAL_QWAIT_CNT k l) = Word.ofNat (mget (fun _ => 0) (s.cal k).waitCnt l) ∧
        t.fld (R.CAL_QDEP k l) 12 0 = s.fld (R.CAL_QDEP k l) 12 0 ∧
        t.fld (R.CAL_QDEP k l) 28 16 = mget (fun _ => 0) (s.cal k).qMax l % 8192) ∧ (t.cal k).qMax = [] ∧
        ∀ v, v < 64 → t.rd (R.CAL_VBUSY k v) = Word.ofNat (s.busyUs k v)) ∧
    (∀ k : BitVec 4,
      let c := k.toNat
      let shadow (a : Nat) := a = R.CAL_CTRL c ∨ a = R.CAL_RESV c ∨ a = R.CAL_BCAP c ∨ a = R.CAL_QUANTUM c ∨
        ∃ l, l < 32 ∧ a = R.CAL_QCAP c l
      Gives (.calderaCommit k) s (fun t => t.bit (R.CAL_COMMIT c) 31 = true ∧ SameMem s t ∧
        (∃ x, t.commits = s.commits ++ [x] ∧ x.reg = R.CAL_COMMIT c ∧ x.ranges = calRanges c ∧
          ∀ a, shadow a → x.rd a = s.rd a) ∧ ∀ a, a ≠ R.CAL_COMMIT c → t.rd a = s.rd a) ∧
      (∀ x, (s.commits.filter fun y => y.reg == R.CAL_COMMIT c) = [x] → x.ranges = calRanges c → Regs.wf x.vals →
        s.bit (R.CAL_COMMIT c) 31 = true → s.dieRuns (c / 4) = true →
        let resv := max 2000 (x.fld (R.CAL_RESV c) 15 0)
        let written (a : Nat) := x.no < mget (fun _ => 0) s.shadowNo a
        Gives (.calderaCommitApply k) s fun t => t.bit (R.CAL_COMMIT c) 31 = false ∧ SameMem s t ∧
          (∀ a, shadow a → a ≠ R.CAL_RESV c → a ≠ R.CAL_BCAP c → t.aRd a = x.rd a) ∧
          t.aFld (R.CAL_RESV c) 15 0 = resv ∧
          t.rd (R.CAL_RESV c) = (if x.fld (R.CAL_RESV c) 15 0 < 2000 ∧ ¬written (R.CAL_RESV c) then 2000
            else s.rd (R.CAL_RESV c)) ∧
          t.aFld (R.CAL_BCAP c) 16 0 = max (resv + 1000) (x.fld (R.CAL_BCAP c) 16 0) ∧ t.budget c ≤ t.bcap c) ∧
      (s.bit (R.CAL_COMMIT c) 31 = false ∨ s.dieRuns (c / 4) = false → Gives (.calderaCommitApply k) s (· = s)))

/-- The budget governor: refill, cost learning, operating points, regulators, package power and rotation (R157, R159,
R160, R161, R162, R163, R164, R165, R506, R507). -/
def Obligations.GovernorResults : Prop :=
  ∀ (s : State),
    let cap (c : Nat) : Int := (s.aFld (R.CAL_BCAP c) 16 0 * 1024 : Nat)
    let held (c : Nat) (b : Int) : Int := if s.bit R.BGT_CTRL 0 then max (-2147483648) (min b (cap c)) else cap c
    let soft := sext 8 (s.fld R.BGT_THERM 7 0)
    let hard := sext 8 (s.fld R.BGT_THERM 15 8)
    let wMin := s.fld R.BGT_THERM 23 16
    let lim := s.fld R.BGT_LIMIT 7 0
    (∀ temps : List Int,
      let weight (k : Nat) : Nat := let x := temps.getD k 0
        if x ≤ soft then 256 else if hard ≤ x then wMin
        else (256 - ((256 - wMin : Nat) * (x - soft)) / (hard - soft)).toNat
      let takes (k : Nat) := s.aBit (R.CAL_CTRL k) 0 && (s.die (k / 4)).on && !(s.die (k / 4)).lost
      let sum := (((List.range 16).filter takes).map weight).sum
      let pool := (lim * 1000 - s.fld R.BGT_FIXED 17 0) * 1024 / 1000
      let share (k : Nat) : Nat := if takes k = true ∧ sum ≠ 0 then pool * weight k / sum else 0
      s.clocksRun = true → (∀ k, k < 16 → (s.cal k).cycle.tick ≠ s.now) →
      Gives (.budgetRefill temps) s fun t => (t.rd R.BGT_POOL).toNat = pool % 2 ^ 24 ∧ SameMem s t ∧
        ∀ k, k < 16 → t.budget k = held k (s.budget k + share k) ∧ (t.rd (R.CAL_REFILL k)).toNat = share k % 2 ^ 24 ∧
          t.fld (R.CAL_THERM k) 8 0 = weight k ∧ (t.cal k).temp = temps.getD k 0) ∧
    (∀ energy vus : List Nat,
      (s.bit R.BGT_CTRL 1 = false → Gives (.costLearn energy vus) s (· = s)) ∧
      (s.clocksRun = true → s.bit R.BGT_CTRL 1 = true → Gives (.costLearn energy vus) s fun t => t = { s with regs := t.regs } ∧
        ∀ d c, d < 4 → c < 8 →
          let n := vus.getD (8 * d + c) 0
          let cost : Int := s.fld (R.BGT_COST d c) 23 0
          let e : Int := (energy.getD (8 * d + c) 0 / n : Nat)
          (n < 100 → t.rd (R.BGT_COST d c) = s.rd (R.BGT_COST d c)) ∧
          (100 ≤ n → (t.fld (R.BGT_COST d c) 23 0 : Int) =
            (cost + (e - cost).tdiv (2 ^ s.fld R.BGT_LEARN 3 0 : Nat)) % 2 ^ 24))) ∧
    (∀ temps : List Int,
      (s.bit R.BGT_CTRL 2 = false → Gives (.dvfsEvaluate temps) s (· = s)) ∧
      (s.clocksRun = true → s.bit R.BGT_CTRL 2 = true → Gives (.dvfsEvaluate temps) s fun t => SameMem s t ∧ ∀ d, d < 4 →
        let x := s.die d
        let temp := temps.getD d 0
        let p := x.target.getD x.point
        let floor := if x.noRail then 1 else min 5 (s.fld (R.BGT_DIE d) 10 8)
        let ceil := if x.noRail then 1 else min (s.fld (R.BGT_DIE d) 6 4) floor
        let boost := (s.bit R.BGT_CTRL 3 = true ∨ (s.bit R.BGT_STATUS 0 = true ∧ s.bit R.BGT_CTRL 4 = true)) ∧
          temp < soft ∧ (15000 : Int) ≤ (lim * 1000 : Nat) - (s.fld R.BGT_PKG 17 0 : Int)
        let y := t.die d
        (s.dieRuns d = false → y = x) ∧
        (s.dieRuns d = true → y.temp = temp ∧ t.fld (R.BGT_DIE d) 23 16 = (temp % 256).toNat ∧
          (t.bit R.BGT_STATUS (4 + d) = true ↔ boost) ∧ y.point = x.point ∧ y.vck = x.vck ∧
          (hard ≤ temp → p < floor → p + 1 ≠ x.point → y.target = some (p + 1)) ∧
          (hard ≤ temp → floor ≤ p → p = x.point → y.target = none) ∧
          (temp < hard → ¬boost → p < ceil → ceil ≠ x.point → y.target = some ceil) ∧
          (temp < hard → ¬boost → ceil < p → 9 ≤ x.cool → temp ≤ soft - 5 → p - 1 ≠ x.point →
            s.dieRefused d = true → y.target = some (p - 1)) ∧
          (temp < hard → ¬boost → ceil ≤ p → soft - 5 < temp → p = x.point → y.target = none) ∧
          (temp < hard → boost → x.noRail = false → x.point ≠ 0 → y.target = some 0)))) ∧
    (∀ (d : BitVec 2) p, (s.die d.toNat).target = some p → p ≤ 5 → (s.die d.toNat).point ≤ 5 →
      let factor (p : Nat) := [1519, 1000, 613, 360, 210, 95].getD p 95
      let old := (s.die d.toNat).point
      Gives (.vckSwitch d) s fun t => (t.die d.toNat).vck = p ∧ (t.die d.toNat).point = p ∧
        (t.die d.toNat).target = none ∧ t.fld (R.BGT_DIE d.toNat) 2 0 = p ∧
        (∀ e, e ≠ d.toNat → t.die e = s.die e) ∧ SameMem s t ∧ ∀ c, c < 8 →
          let a := R.BGT_COST d.toNat c
          t.fld a 23 0 = (2 * s.fld a 23 0 * factor p + factor old) / (2 * factor old) % 2 ^ 24) ∧
    (∀ d : BitVec 2, (s.die d.toNat).target = none → Gives (.vckSwitch d) s (· = s)) ∧
    (∀ d : BitVec 2,
      let x := s.die d.toNat
      (x.naks < 2 → x.target ≠ none ∨ x.fallOld ≠ none → Gives (.railNak d) s fun t =>
        t = s.setDie d.toNat { x with naks := x.naks + 1 }) ∧
      (2 ≤ x.naks → x.target ≠ none → Gives (.railNak d) s fun t =>
        t = s.setDie d.toNat { x with target := none, naks := 0 }) ∧
      (∀ old, 2 ≤ x.naks → x.target = none → x.fallOld = some old → Gives (.railNak d) s fun t =>
        (t.die d.toNat).point = old ∧ (t.die d.toNat).vck = x.vck ∧ (t.die d.toNat).fallOld = none)) ∧
    (∀ pkg fixed, s.clocksRun = true →
      let shows (t : State) := (t.rd R.BGT_PKG).toNat = pkg % 2 ^ 18 ∧ (t.rd R.BGT_FIXED).toNat = fixed % 2 ^ 18 ∧
        SameMem s t
      (lim * 1000 < pkg → (s.bgtOver + 1) % 4 ≠ 0 → Gives (.bgtPkgPeriod pkg fixed) s fun t => shows t ∧
        t.dies = s.dies ∧ t.bgtOver = s.bgtOver + 1) ∧
      (lim * 1000 < pkg → (s.bgtOver + 1) % 4 = 0 → Gives (.bgtPkgPeriod pkg fixed) s fun t => shows t ∧
        t.bit R.BGT_STATUS 1 = true ∧ ∀ d, d < 4 →
          let x := s.die d
          let p := x.target.getD x.point
          (s.dieRuns d = true → p < s.dieFloor d → (t.die d).target = some (p + 1)) ∧
          (s.dieRuns d = false ∨ s.dieFloor d ≤ p → t.die d = x)) ∧
      (pkg ≤ lim * 1000 → Gives (.bgtPkgPeriod pkg fixed) s fun t => shows t ∧ t.dies = s.dies ∧ t.bgtOver = 0 ∧
        t.bit R.BGT_STATUS 1 = (s.bit R.BGT_STATUS 1 && decide (s.bgtUnder + 1 < 4)))) ∧
    (s.bit R.SCH_CTRL 1 = false → Gives .fumaroleRotation s (· = s)) ∧
    Gives .fumaroleRotation s (fun t => SameMem s t ∧ ∀ key u, s.task? key = some u →
      u.desc.roam = false ∨ u.desc.affKind ≠ 0 → t.task? key = some u) ∧
    (∀ h c l key u k, s.bit R.SCH_CTRL 1 = true → s.fld R.BGT_ROT 31 24 = 1 →
      s.aBit (R.CAL_CTRL h) 0 = true → h < 16 → s.aBit (R.CAL_CTRL c) 0 = true → c < 16 →
      (∀ j, j < 16 → s.aBit (R.CAL_CTRL j) 0 = true → (s.cal c).temp ≤ (s.cal j).temp ∧
        (j ≠ h → (s.cal j).temp < (s.cal h).temp)) →
      (s.fld R.BGT_ROT 23 16 : Int) ≤ (s.cal h).temp - (s.cal c).temp →
      s.roamCandidate h 32 = some (l, key, u) → s.roamTarget h l = some k → Gives .fumaroleRotation s fun t =>
        k ≠ h ∧ s.aBit (R.CAL_CTRL k) 1 = true ∧ s.room k l = true ∧ u.desc.roam = true ∧
        (∃ u', t.task? key = some u' ∧ u'.at_ = k ∧ u'.desc = u.desc ∧ u'.st = u.st) ∧
        key ∉ t.readyQ h l ∧ t.readyQ k l = s.readyQ k l ++ [key])

/-- FIFO and mailbox registers of the host: enable, disable, push, pop, mark, rewind, release, posts and receives
(R346, R347, R348, R349, R350, R351, R352, R354, R358, R359, R360, R362). -/
def Obligations.QueueRegisterResults : Prop :=
  ∀ (s : State),
    (∀ n : BitVec 8,
      let q := n.toNat
      let f := s.fifo q
      let cfg := R.QUE_Q_CFG q
      let en := s.bit cfg 31
      let size := (s.fld cfg 29 24 + 1) * 4
      let depth := s.fld cfg 15 0
      let base (m : Nat) := s.fld (R.QUE_Q_BASE m) 21 6 * 64
      let slot (pos : Nat) := SRAM_BASE + base q + pos % depth * size
      let opres (st : Nat) (t : State) := t.rd (R.QUE_Q_OPRES q) = Word.ofNat (0x80000000 + st)
      let stored (l : List Word) (t : State) := (t.fifo q).w = f.w + 1 ∧ (t.fifo q).r = f.r ∧ ∀ m, t.rdB m =
        if slot f.w ≤ m ∧ m < slot f.w + size then (bytesOfWords l).getD (m - slot f.w) 0 else s.rdB m
      let refused (t : State) := t.bit (R.QUE_Q_STAT q) 2 = true ∧
        t.fld (R.QUE_Q_CNT q) 31 16 = (s.fld (R.QUE_Q_CNT q) 31 16 + 1) % 2 ^ 16 ∧ t.fifos = s.fifos ∧ SameMem s t
      let prod := en = true ∧ s.bit (R.QUE_Q_ACL q) 8 = true
      let cons := en = true ∧ s.bit (R.QUE_Q_ACL q) 0 = true
      let quiet := ∀ p, p < 10 → (s.mac p).rxq = []
      (∀ w, (en = true ∨ bitOf w 31 = false) → Gives (.queEnable n w) s (· = s)) ∧
      (∀ w, en = false → bitOf w 31 = true →
        let d := fldOf w 15 0
        let k := (fldOf w 29 24 + 1) * 4
        let hi := s.fld (R.QUE_Q_WM q) 31 16
        let lo := s.fld (R.QUE_Q_WM q) 15 0
        let bad := d < 2 ∨ hi = 0 ∨ d < hi ∨ hi ≤ lo ∨ 9 < s.fld (R.QUE_Q_FLOW q) 19 16
        let clash := 0x400000 < base q + d * k ∨ ∃ m, m < 256 ∧ m ≠ q ∧ s.bit (R.QUE_Q_CFG m) 31 = true ∧
          base q < base m + s.fld (R.QUE_Q_CFG m) 15 0 * ((s.fld (R.QUE_Q_CFG m) 29 24 + 1) * 4) ∧ base m < base q + d * k
        (bad → Gives (.queEnable n w) s fun t => opres E_ARG t ∧ t.bit cfg 31 = false ∧ t.fifos = s.fifos) ∧
        (¬bad → clash → Gives (.queEnable n w) s fun t => opres E_SPACE t ∧ t.bit cfg 31 = false ∧ t.fifos = s.fifos) ∧
        (¬bad → ¬clash → Gives (.queEnable n w) s fun t => opres OK t ∧ t.bit cfg 31 = true ∧ t.fld cfg 15 0 = d ∧
          (t.fld cfg 29 24 + 1) * 4 = k ∧ t.fifo q = {} ∧ SameMem s t ∧ ∀ m, m ≠ q → t.fifo m = s.fifo m)) ∧
      (en = false → Gives (.queDisable n) s (· = s)) ∧
      (en = true → quiet → f.stalled = [] → Gives (.queDisable n) s fun t => t.bit cfg 31 = false ∧ t.fifo q = {} ∧
        (∀ m, m ≠ q → t.fifo m = s.fifo m) ∧ SameMem s t) ∧
      (∀ c rd l, en = true → quiet → f.stalled = [⟨.core c rd, l⟩] → Gives (.queDisable n) s fun t =>
        t.bit cfg 31 = false ∧ t.fifo q = {} ∧ (t.core c).stall = none ∧ (t.core c).pc = (s.core c).pc + 4 ∧
        (rd ≠ 0 → t.gc c rd.toNat = BitVec.ofNat 32 E_ATTR)) ∧
      (∀ w, ¬prod → Gives (.quePushWord n w) s refused) ∧
      (∀ w, prod → f.broken = false → (f.stage.length + 1) * 4 < size → Gives (.quePushWord n w) s fun t =>
        (t.fifo q).stage = f.stage ++ [w] ∧ (t.fifo q).w = f.w ∧ SameMem s t) ∧
      (∀ w, prod → f.broken = false → (f.stage.length + 1) * 4 = size →
        (f.used < depth → f.stalled = [] → Gives (.quePushWord n w) s fun t => stored (f.stage ++ [w]) t ∧
          (t.fifo q).stage = []) ∧
        (depth ≤ f.used → Gives (.quePushWord n w) s fun t => (t.fifo q).stalled = f.stalled ++ [⟨.host, f.stage ++ [w]⟩] ∧
          (t.fifo q).w = f.w ∧ SameMem s t)) ∧
      (¬cons → Gives (.quePopRead n) s (fun t => refused t ∧ t.hostRead = 0) ∧
        Gives (.queOpMark n) s (fun t => refused t ∧ opres E_ATTR t) ∧
        Gives (.queOpRewind n) s (fun t => refused t ∧ opres E_ATTR t) ∧
        Gives (.queOpRelease n) s (fun t => refused t ∧ opres E_ATTR t)) ∧
      (cons → f.broken = false →
        (f.w ≤ f.r → Gives (.quePopRead n) s fun t => t.hostRead = f.lastW ∧ t.bit (R.QUE_Q_STAT q) 0 = true ∧
          t.fld (R.QUE_Q_CNT q) 15 0 = (s.fld (R.QUE_Q_CNT q) 15 0 + 1) % 2 ^ 16 ∧ t.fifos = s.fifos) ∧
        (f.r < f.w → f.popIdx * 4 < size → Gives (.quePopRead n) s fun t => SameMem s t ∧ (t.fifo q).w = f.w ∧
          t.hostRead = BitVec.ofNat 32 (s.rdLe (slot f.r + 4 * f.popIdx) 4) ∧
          (if (f.popIdx + 1) * 4 = size then (t.fifo q).r = f.r + 1 ∧ (t.fifo q).popIdx = 0
            else (t.fifo q).r = f.r ∧ (t.fifo q).popIdx = f.popIdx + 1)) ∧
        (s.bit cfg 30 = true → Gives (.queOpMark n) s (fun t => opres E_STATE t ∧ t.fifos = s.fifos) ∧
          Gives (.queOpRewind n) s (fun t => opres E_STATE t ∧ t.fifos = s.fifos)) ∧
        (s.bit cfg 30 = false → Gives (.queOpMark n) s (fun t => opres OK t ∧ (t.fifo q).m = f.r ∧
            (t.fifo q).marked = true) ∧
          (f.marked = true → Gives (.queOpRewind n) s fun t => opres OK t ∧ (t.fifo q).r = f.m ∧
            (t.fifo q).marked = true) ∧
          (f.marked = false → Gives (.queOpRewind n) s fun t => opres E_STATE t ∧ t.fifos = s.fifos)) ∧
        Gives (.queOpRelease n) s (fun t => opres OK t ∧ (t.fifo q).l = f.r ∧ (t.fifo q).r = f.r ∧
          (t.fifo q).marked = false)) ∧
      (quiet → depth ≤ f.used → Gives (.queStalledPushDone n) s (· = s)) ∧
      (∀ a b, quiet → f.stalled = [a, b] → b.who.rank ≤ 1 → b.who.rank < a.who.rank → f.l ≤ f.w →
        f.used + 1 = depth → (bytesOfWords b.words).length = size → Gives (.queStalledPushDone n) s fun t =>
          stored b.words t ∧ (t.fifo q).stalled = [a])) ∧
    (∀ (who : Master) w, ((∃ b, who = .mgmt b) → bitOf w 0 = true → Gives (.mbxLockWrite who w) s fun t =>
        t.bit R.MBX_LOCK 0 = true ∧ t = { s with regs := t.regs }) ∧
      ((∀ b, who ≠ .mgmt b) ∨ bitOf w 0 = false → Gives (.mbxLockWrite who w) s (· = s))) ∧
    (∀ (n : BitVec 9) w,
      let c := s.chan n.toNat
      let party := s.mbxA n.toNat = 1 ∨ s.mbxB n.toNat = 1
      (¬party → Gives (.mbxDataWrite n w) s (fun t => t.chans = s.chans) ∧
        Gives (.mbxDataRead n) s (fun t => t.chans = s.chans ∧ t.hostRead = 0)) ∧
      (∀ fwd, s.mbxPostDir n.toNat 1 = some fwd →
        ((c.words fwd).length < 8 → c.waiting fwd = [] → Gives (.mbxDataWrite n w) s fun t => SameMem s t ∧
          (t.chan n.toNat).words fwd = c.words fwd ++ [⟨w, s.fld (R.MBX_EPOCH 1) 3 0⟩]) ∧
        (8 ≤ (c.words fwd).length → Gives (.mbxDataWrite n w) s fun t =>
          (t.chan n.toNat).waiting fwd = c.waiting fwd ++ [⟨.host, w⟩] ∧
          (t.chan n.toNat).words fwd = c.words fwd)) ∧
      (∀ fwd, s.mbxRecvDir n.toNat 1 = some fwd →
        (∀ m rest, c.words fwd = m :: rest → Gives (.mbxDataRead n) s fun t => t.hostRead = m.data ∧
          (t.chan n.toNat).words fwd = rest ∧ SameMem s t ∧
          t.rd (R.MBX_C_RINFO n.toNat) = Word.ofNat (0x80000000 + m.epoch * 256)) ∧
        (c.words fwd = [] → Gives (.mbxDataRead n) s fun t => t.chans = s.chans ∧
          let m := if fwd then c.lastF else c.lastR
          t.hostRead = m.data ∧ t.rd (R.MBX_C_RINFO n.toNat) = Word.ofNat (0x80000000 + m.epoch * 256 + 1))) ∧
      (∀ q, c.stF = [q] → c.stR = [] →
        (c.fwd.length < 8 → Gives (.mbxStalledPostDone n) s fun t => (t.chan n.toNat).stF = [] ∧
          (t.chan n.toNat).fwd = c.fwd ++ [⟨q.data, s.fld (R.MBX_EPOCH (s.mbxA n.toNat)) 3 0⟩]) ∧
        (8 ≤ c.fwd.length → Gives (.mbxStalledPostDone n) s (· = s))))

/-- ICU: pending, delivery, claims, completions, software sources, configuration and the Spring latch (R78, R363, R364,
R365, R366, R367, R368, R370, R372, R373). -/
def Obligations.InterruptControllerResults : Prop :=
  ∀ (s : State) (n : BitVec 10),
    let i := n.toNat
    let set (m : List (Nat × Bool)) (b : Bool) := mset (fun _ => false) m i b
    let prio := s.srcPrio i
    let ready := icuSrcExists i = true ∧ s.srcPending i = true ∧ s.inSvc i = false ∧ s.delivered i = false ∧ s.srcEn i = true
    let mask := s.srcTargets i
    let better (u : Nat) := ∀ m, (s.target u).dlv = some m → s.srcPrio m < prio ∨ (s.srcPrio m = prio ∧ i < m)
    let goes (u : Nat) := s.runPrio u < prio + 1 ∧ better u
    let sent (u : Nat) (t : State) := (t.target u).dlv = some i ∧ (t.target u).stack = (s.target u).stack ∧
      (∀ v, v ≠ u → t.target v = s.target v) ∧ SameMem s t
    let woken (t : State) := (∃ u, u ≤ 8 ∧ bitOf mask u = true ∧ s.wakeable u = true ∧
        (∀ v, v < u → bitOf mask v = true → s.wakeable v = false) ∧ (t.core u).run = .running ∧
        (∀ v, v ≠ u → t.core v = s.core v) ∧ t.targets = s.targets ∧ SameMem s t) ∨
      ((∀ u, u ≤ 8 → bitOf mask u = true → s.wakeable u = false) ∧ t = s)
    let claimed (u m : Nat) (t : State) := (t.target u).stack = (m, s.srcPrio m) :: (s.target u).stack ∧
      (t.target u).dlv = none ∧ t.inSvc m = true ∧ mget (fun _ => false) t.icuPend m = false
    let interrupt (u m : Nat) (t : State) := let c := s.core u
      let secure := s.srcSec m || c.secure
      (t.core u).cause = 0x10 ∧ (t.core u).tval = BitVec.ofNat 32 m ∧ (t.core u).secure = secure ∧
      (t.core u).epc = (if c.run = .wfi then c.pc + 4 else c.pc) ∧ bitOf (t.core u).status ST_IE = false ∧
      (t.core u).pc = (if secure then c.svbase else c.vbase) + 0x400 ∧ (t.core u).run = .running
    (∀ level, (icuSrcExists i = false ∨ (srcClassL i = false ∧ s.srcLevelKind i = true) →
        Gives (.icuSourceEvent n level) s (· = s)) ∧
      (icuSrcExists i = true → srcClassL i = false → s.srcLevelKind i = false → Gives (.icuSourceEvent n level) s
        (· = if s.clocksRun = true then { s with icuPend := set s.icuPend true } else s)) ∧
      (srcClassL i = true → s.clocksRun = true → Gives (.icuSourceEvent n level) s fun t => t = { s with
        icuLine := set s.icuLine level,
        icuPend := if s.srcLevelKind i = false ∧ s.srcLine i ≠ level ∧ level ≠ s.srcPol i then set s.icuPend true
          else s.icuPend }) ∧
      (srcClassL i = true → s.fld R.PWC_STATE 2 0 = 3 → Gives (.icuSourceEvent n level) s fun t =>
        t.icuLine = set s.icuLine level ∧ t.icuPend = s.icuPend ∧ SameMem s t ∧ t.springLatch =
          if level ≠ s.srcPol i ∧ (s.srcLevelKind i = true ∨ s.srcLine i ≠ level) then set s.springLatch true
          else s.springLatch)) ∧
    (¬ready → Gives (.icuDeliver n) s (· = s)) ∧
    (ready → i ≠ 0 → srcClassE i = false →
      (∀ u, u ≤ 10 → bitOf mask u = true → s.awake u = true → (∀ v, v ≤ 10 → bitOf mask v = true → s.awake v = true →
          s.runPrio u < s.runPrio v ∨ (s.runPrio u = s.runPrio v ∧ u ≤ v)) →
        (goes u → Gives (.icuDeliver n) s (sent u)) ∧ (¬goes u → Gives (.icuDeliver n) s (· = s))) ∧
      ((∀ u, u ≤ 10 → bitOf mask u = true → s.awake u = false) → Gives (.icuDeliver n) s woken)) ∧
    (ready → srcClassE i = true → ∀ u, u ≤ 8 → bitOf mask u = true → (∀ v, v < u → bitOf mask v = false) →
      (s.awake u = true → goes u → Gives (.icuDeliver n) s (sent u)) ∧
      (s.awake u = true → ¬goes u → Gives (.icuDeliver n) s (· = s)) ∧
      (s.awake u = false → Gives (.icuDeliver n) s woken)) ∧
    (s.icuLevel 0 = true → s.canTake 0 0 = true → Gives (.icuClaim 0) s fun t => interrupt 0 0 t ∧
      t.targets = s.targets ∧ t.icuSvc = s.icuSvc) ∧
    (∀ (u : BitVec 4) m, (s.target u.toNat).dlv = some m →
      let fatal := u = 0 ∧ s.icuLevel 0 = true ∧ s.canTake 0 0 = true
      (u.toNat ≤ 8 → ¬fatal → s.canTake u.toNat m = true → Gives (.icuClaim u) s fun t => claimed u.toNat m t ∧
        interrupt u.toNat m t ∧ SameMem s t) ∧
      (u.toNat ≤ 8 → ¬fatal → s.canTake u.toNat m = false → Gives (.icuClaim u) s (· = s)) ∧
      (u = 9 → Gives (.icuClaim u) s (claimed 9 m)) ∧
      (u = 10 → let v := s.fld (R.ICU_SRC m) 21 16
        let open_ := s.host.msixEn = true ∧ s.host.linkUp = true ∧ mget (fun _ => true) s.host.msixMask v = false
        (open_ → Gives (.icuClaim u) s fun t => claimed 10 m t ∧ t.host.msixSent = v :: s.host.msixSent) ∧
        (¬open_ → Gives (.icuClaim u) s (· = s)))) ∧
    (∀ w, let e := fldOf w 9 0
      let completes (c : Instr) (u : Nat) := let x := s.target u
        (x.frozen = true → Gives c s (· = s)) ∧
        (∀ m p rest, x.frozen = false → x.stack = (m, p) :: rest →
          (m = e → Gives c s fun t => (t.target u).stack = rest ∧ t.inSvc e = false ∧ (t.target u).frozen = false ∧
            ∀ v, v ≠ u → t.target v = s.target v) ∧
          (m ≠ e → Gives c s fun t => (t.target u).frozen = true ∧ (t.target u).dlv = none ∧
            (t.target u).stack = x.stack ∧ t.icuSvc = s.icuSvc)) ∧
        (x.frozen = false → x.stack = [] → Gives c s fun t => (t.target u).frozen = true ∧ t.icuSvc = s.icuSvc)
      completes (.icuHeoi w) 10 ∧
      (∀ (u : BitVec 4) who, u.toNat ≤ 9 → (targetOwner who = u.toNat → completes (.icuEoi u who w) u.toNat) ∧
        (targetOwner who ≠ u.toNat → Gives (.icuEoi u who w) s fun t => t.targets = s.targets ∧ t.icuSvc = s.icuSvc)) ∧
      (0x300 ≤ e → Gives (.icuSwset w) s fun t => mget (fun _ => false) t.icuPend e = true ∧
        t = { s with icuPend := t.icuPend }) ∧
      (0x300 ≤ e → s.inSvc e = false → Gives (.icuSwclr w) s fun t => mget (fun _ => false) t.icuPend e = false ∧
        t = { s with icuPend := t.icuPend }) ∧
      (e < 0x300 → Gives (.icuSwset w) s (· = s) ∧ Gives (.icuSwclr w) s (· = s)) ∧
      (0x300 ≤ e → s.inSvc e = true → Gives (.icuSwclr w) s (· = s))) ∧
    (∀ u : BitVec 4, u.toNat ≤ 9 → Gives (.icuUnfreeze u) s fun t => (t.target u.toNat).stack = [] ∧
      (t.target u.toNat).frozen = false ∧ (∀ e, e ∈ (s.target u.toNat).stack → t.inSvc e.1 = false ∧
        mget (fun _ => false) t.icuPend e.1 = false) ∧
      t = { s with targets := t.targets, icuSvc := t.icuSvc, icuPend := t.icuPend }) ∧
    (∀ who w,
      let a := R.ICU_SRC i
      let secure := (∃ x, who = .svc x true) ∨ who = .mgmt true
      let denied := icuSrcExists i = false ∨ (¬secure ∧ (s.bit a 28 = true ∨ bitOf w 28 = true))
      let ok := srcMaskOk i (w &&& 0x7FF) = true
      (denied → Gives (.icuSrcWrite who n w) s (· = s)) ∧
      (¬denied → ¬ok → Gives (.icuSrcWrite who n w) s fun t => t.bit R.ICU_ERR 31 = true ∧ t.fld R.ICU_ERR 9 0 = i ∧
        t.rd a = s.rd a) ∧
      (¬denied → ok → Gives (.icuSrcWrite who n w) s fun t => (∀ j, j < 32 → t.bit a j =
          if j = 27 then (if 0x020 ≤ i ∧ i ≤ 0x03F then bitOf w 27 else s.bit a 27)
          else (bitOf w j && bitOf 0x97FF07FF j)) ∧ (∀ b, b ≠ a → t.rd b = s.rd b) ∧
        ∀ u, u ≤ 10 → (s.target u).dlv = some i → bitOf w u = false → (t.target u).dlv = none)) ∧
    (srcClassL i = true → s.fld R.PWC_STATE 2 0 = 3 → Gives (.springLatchEdge n) s fun t =>
      t.springLatch = set s.springLatch true ∧ SameMem s t) ∧
    (srcClassL i = false ∨ s.fld R.PWC_STATE 2 0 ≠ 3 → Gives (.springLatchEdge n) s (· = s))

/-- Personalities, curves, fixtures, cue steps, canvases, layers and buffers (R200, R202, R203, R204, R205, R206, R210,
R211, R212, R213, R215, R221). -/
def Obligations.ShowTableResults : Prop :=
  (∀ (x : TblSlot) (now a : Word) (l : List Byte),
    let at_ (f : Word) := (f - now).toNat
    x.edits.Pairwise (fun e e' => at_ e.1 < at_ e'.1) → (∀ e, e ∈ x.edits → at_ e.1 < 2 ^ 30) → at_ a < 2 ^ 30 →
    ∀ f, at_ f < 2 ^ 30 → (at_ f < at_ a → (x.edit a l).at f = x.at f) ∧
      (at_ a ≤ at_ f → (∀ e, e ∈ x.edits → at_ e.1 ≤ at_ a ∨ at_ f < at_ e.1) → (x.edit a l).at f = l)) ∧
  (∀ (l : List Byte) i, i < persN l →
    (persFoot l < persOff l i + persWidth l i → persBad l = true) ∧ (persWidth l i = 0 → persBad l = true) ∧
    (6 ≤ persKind l i → persBad l = true) ∧ (1 ≤ persKind l i → persOrder l i = 1 → persBad l = true) ∧
    (9 ≤ persCurve l i → persCurve l i < 0x100 ∨ 0xFFF < persCurve l i → persBad l = true)) ∧
  ∀ (s : State) (net : Bool) (r : Request) (rest : List Request),
    let p := r.payload
    let a := r.frame
    let i := leAt p 0 4
    let late := (a - s.fnow).toInt < 2
    let refused (c : Instr) (st : Nat) := Gives c s (· = s.refusedReq r rest st)
    let done (t : State) := Answered s t r rest OK []
    let mem (from_ : Nat) (l : List Byte) (t : State) := ∀ m, t.rdB m =
      if from_ ≤ m ∧ m < from_ + l.length then l.getD (m - from_) 0 else s.rdB m
    let named (bs : List Nat) := bs.find? fun b => decide ((s.buf b).st ≠ .live)
    (s.Asks net 0x0020 r rest → let bad := p.length ≠ 1028 ∨ 4095 < i ∨ persBad (p.drop 4) = true
      (bad → refused (.persLoad net) E_ARG) ∧ (¬bad → late → refused (.persLoad net) E_LATE) ∧
      (¬bad → ¬late → s.persCurveMissing (p.drop 4) a = true → refused (.persLoad net) E_ABSENT) ∧
      (¬bad → ¬late → s.persCurveMissing (p.drop 4) a = false → Gives (.persLoad net) s fun t => done t ∧
        t.tbl = { s.tbl with pers := editSlot s.tbl.pers i a (p.drop 4) } ∧ SameMem s t)) ∧
    (s.Asks net 0x0021 r rest → let bad := p.length ≠ 12 ∨ 0xEFF < i
      (bad → refused (.curveLoad net) E_ARG) ∧ (¬bad → late → refused (.curveLoad net) E_LATE) ∧
      (¬bad → ¬late → s.curveUsed i a = true → refused (.curveLoad net) E_STATE) ∧
      (¬bad → ¬late → s.curveUsed i a = false → Gives (.curveLoad net) s fun t => done t ∧ SameMem s t ∧ t.tbl = { s.tbl with
        curve := editSlot s.tbl.curve i a (if (p.drop 4).all (· == 0xFF) then [] else p.drop 4) })) ∧
    (s.Asks net 0x0022 r rest →
      let k := leAt p 4 4
      let f := p.drop 8
      let old := (slotOf s.tbl.fix k).at a
      let pers := s.persAt (fixPers f) a
      let wipe := List.replicate (persFoot (s.persAt (fixPers old) a)) (0 : Byte)
      let odd := a.toNat % 2
      let cleared (t : State) := (a, ubufAddr (fixBuf old) (odd * 512 + fixSlot old - 1), wipe) ∈ t.slotWrites ∧
        (a + 1, ubufAddr (fixBuf old) ((1 - odd) * 512 + fixSlot old - 1), wipe) ∈ t.slotWrites
      (leAt p 0 1 = 0 →
        let bad := p.length ≠ 264 ∨ zeroBytes p 1 4 = false ∨ 131071 < k ∨ fixBad f = true
        let past := 512 < fixSlot f + persFoot pers - 1
        (bad → refused (.patch net) E_ARG) ∧ (¬bad → late → refused (.patch net) E_LATE) ∧
        (¬bad → ¬late → pers = [] → refused (.patch net) E_ABSENT) ∧
        (¬bad → ¬late → pers ≠ [] → past → refused (.patch net) E_ARG) ∧
        (¬bad → ¬late → pers ≠ [] → ¬past → s.fixClash k f (persFoot pers) a = true → refused (.patch net) E_SPACE) ∧
        (¬bad → ¬late → pers ≠ [] → ¬past → s.fixClash k f (persFoot pers) a = false → Gives (.patch net) s fun t =>
          done t ∧ SameMem s t ∧
          t.tbl = { s.tbl with fix := editSlot s.tbl.fix k a f, cue := editSlot s.tbl.cue k a [] } ∧
          (a + 1, ubufAddr (fixBuf f) (1023 + fixSlot f), mapBytes f pers) ∈ t.slotWrites ∧
          (old = [] ∨ leAt old 8 4 ≠ leAt f 8 4 →
            (a - 1, leAt f 8 4 * 2048, List.replicate 2048 0) ∈ t.copyWrites) ∧ (old ≠ [] → cleared t))) ∧
      (leAt p 0 1 ≠ 0 →
        let bad := leAt p 0 1 ≠ 1 ∨ p.length ≠ 8 ∨ zeroBytes p 1 4 = false ∨ 131071 < k
        (bad → refused (.unpatch net) E_ARG) ∧ (¬bad → late → refused (.unpatch net) E_LATE) ∧
        (¬bad → ¬late → old = [] → refused (.unpatch net) E_ABSENT) ∧
        (¬bad → ¬late → old ≠ [] → Gives (.unpatch net) s fun t => done t ∧ SameMem s t ∧ cleared t ∧
          t.tbl = { s.tbl with fix := editSlot s.tbl.fix k a [], cue := editSlot s.tbl.cue k a [] }))) ∧
    (s.Asks net 0x0023 r rest →
      let step := leAt p 4 4
      let bad := p.length ≠ 1032 ∨ 131071 < i ∨ step = 0 ∨ 0x800000000 ≤ step * 128 ∨
        ∃ j, j < 64 ∧ cueEntryOk (p.drop 8) j = false
      let old := slotOf s.tbl.fix i
      (bad → refused (.cueStep net) E_ARG) ∧ (¬bad → late → refused (.cueStep net) E_LATE) ∧
      (¬bad → ¬late → old.at a = [] → refused (.cueStep net) E_ABSENT) ∧
      (¬bad → ¬late → old.at a ≠ [] → Gives (.cueStep net) s fun t => done t ∧ mem (step * 128) (p.drop 8) t ∧
        t.tbl = { s.tbl with cue := editSlot s.tbl.cue i a (leBytes 4 a.toNat ++ leBytes 4 step) } ∧
        ∀ f, let g := t.fixAt i f
          (old.at f = [] → g = []) ∧ ((old.at f).length = 256 → (slotOf s.tbl.cue i).edits = [] →
            if (f - a).toInt < 0 then g = s.fixAt i f
            else leAt g 12 4 = a.toNat ∧ leAt g 16 4 = step ∧
              g.take 12 = (old.at f).take 12 ∧ g.drop 20 = (old.at f).drop 20))) ∧
    (s.Asks net 0x0024 r rest →
      let c := p.drop 4
      let bad := 7 < i ∨ canvasBad c = true
      let bs := [leAt c 0 2, leAt c 2 2, leAt c 16 2]
      let tbl := { s.tbl with canvas := editSlot s.tbl.canvas i a c }
      let small := (∃ b, b ∈ bs.take 2 ∧ (s.buf b).size < canvasW c * canvasH c * 8) ∨
        (s.buf (leAt c 16 2)).size < gridBytes c ∨ s.pixelsFit tbl a = false
      (bad → refused (.canvasSet net) E_ARG) ∧ (¬bad → late → refused (.canvasSet net) E_LATE) ∧
      (¬bad → ¬late → ∀ b, named bs = some b →
        refused (.canvasSet net) (if (s.buf b).st = .free then E_ABSENT else E_STATE)) ∧
      (¬bad → ¬late → named bs = none → small → refused (.canvasSet net) E_SPACE) ∧
      (¬bad → ¬late → named bs = none → ¬small → Gives (.canvasSet net) s fun t => done t ∧ t.tbl = tbl ∧ SameMem s t)) ∧
    (s.Asks net 0x0025 r rest →
      let l := p.drop 4
      let bad := 15 < i ∨ layerBad l = true ∨ s.flowBad l = true
      let bs := layerBufs false l ++ layerBufs true l
      (bad → refused (.layerSet net) E_ARG) ∧ (¬bad → late → refused (.layerSet net) E_LATE) ∧
      (¬bad → ¬late → ∀ b, named bs = some b →
        refused (.layerSet net) (if (s.buf b).st = .free then E_ABSENT else E_STATE)) ∧
      (¬bad → ¬late → named bs = none → s.layerFits l = false → refused (.layerSet net) E_SPACE) ∧
      (¬bad → ¬late → named bs = none → s.layerFits l = true → Gives (.layerSet net) s fun t => done t ∧ SameMem s t ∧
        t.tbl = { s.tbl with layer := editSlot s.tbl.layer i a l })) ∧
    (s.Asks net 0x0026 r rest →
      let bad := p.length ≠ 20 ∨ 4095 < i ∨ leAt p 12 4 = 0 ∨ 0x800000000 < leAt p 4 8 + leAt p 12 4
      (bad → refused (.bufAlloc net) E_ARG) ∧
      (¬bad → (s.buf i).st ≠ .free → refused (.bufAlloc net) E_STATE) ∧
      (¬bad → (s.buf i).st = .free → Gives (.bufAlloc net) s fun t => done t ∧ SameMem s t ∧
        t.buf i = { st := .live, base := leAt p 4 8, size := leAt p 12 4, pitch := leAt p 16 4 } ∧
        ∀ b, b ≠ i → t.buf b = s.buf b)) ∧
    (let x := s.buf i
     let posted (sid : Word) (b : Nat) (t : State) := t.buf b = {} ∧ (∀ b', b' ≠ b → t.buf b' = s.buf b') ∧ SameMem s t ∧
       t.host.sessions = s.host.sessions.map fun y => if y.isOpen = true ∧ y.id = sid then
         y.hold ⟨0x8001, 0xFFFFFFFF, BitVec.ofNat 32 b⟩ else y
     (s.Asks net 0x0027 r rest → let bad := p.length ≠ 4 ∨ 4095 < i
      (bad → refused (.bufFree net) E_ARG) ∧ (¬bad → x.st = .free → refused (.bufFree net) E_ABSENT) ∧
      (¬bad → x.st = .live → s.tbl.usedAfter s.fnow i = true → refused (.bufFree net) E_STATE) ∧
      (¬bad → x.st = .draining → Gives (.bufFree net) s fun t => done t ∧ t.bufs = s.bufs) ∧
      (¬bad → x.st = .live → s.tbl.usedAfter s.fnow i = false →
        ((∀ f, x.last = some f → 2 ≤ (s.fnow - f).toInt) → Gives (.bufFree net) s fun t => done t ∧ posted r.sid i t) ∧
        (∀ f, x.last = some f → (s.fnow - f).toInt < 2 → Gives (.bufFree net) s fun t => done t ∧
          t.buf i = { x with st := .draining, sid := r.sid }))) ∧
     (∀ b : BitVec 12, let y := s.buf b.toNat
       let due := y.st = .draining ∧ ∀ f, y.last = some f → 2 ≤ (s.fnow - f).toInt
       (due → Gives (.bufFreed b) s (posted y.sid b.toNat)) ∧ (¬due → Gives (.bufFreed b) s (· = s))))

/-- The light governor: the scale of R228, its commits, GOV_SET and the computation of a frame (R200, R227, R228, R229,
R231). -/
def Obligations.LightGovernorResults : Prop :=
  (∀ cap knee rise fall idle d prev : Nat,
    let r := govScale cap knee rise fall idle d prev
    r.1 ≤ 0x10000 ∧ (cap = 0 → r = (0x10000, false)) ∧
    (cap ≠ 0 → idle ≤ cap → idle + d * r.1 / 65536 ≤ cap) ∧
    (cap ≠ 0 → prev ≤ 0x10000 → r.1 ≤ prev + rise ∧ (r.2 = false → prev ≤ r.1 + fall))) ∧
  ∀ (s : State),
    let group (g : Nat) := [R.LGV_GCAP g, R.LGV_GIDLE g, R.LGV_GCOEF g 0, R.LGV_GCOEF g 1, R.LGV_GCOEF g 2, R.LGV_GCOEF g 3,
      R.LGV_GRATE g]
    let c := R.LGV_COMMIT
    let outcome (a : Word) (took : Commit → Prop) (t : State) := t.bit c 31 = true ∧
      (if (a - s.committed).toInt ≤ 0 then t.fld c 15 8 = E_LATE ∧ t.bit c 30 = false ∧
          ((∀ y, y ∈ s.commits → y.no ≤ s.writeNo) → t.commits = s.commits)
        else t.fld c 15 8 = OK ∧ t.bit c 30 = true ∧ ∃ x, x ∈ t.waiting c ∧ x.rd R.LGV_APPLY = a ∧ took x)
    Gives .lgvCommit s (fun t => SameMem s t ∧ (∀ a, a ≠ c → t.rd a = s.rd a) ∧
      outcome (s.rd R.LGV_APPLY) (fun x => x.rd R.LGV_CTRL = s.rd R.LGV_CTRL ∧
        ∀ g, g < 64 → ∀ a, a ∈ R.LGV_GCFG g :: group g → x.rd a = s.rd a) t) ∧
    (∀ net r rest, s.Asks net 0x0028 r rest →
      let k := leAt r.payload 0 4
      let word (j : Nat) := BitVec.ofNat 32 (leAt r.payload (4 + 4 * j) 4)
      let n := if k < 64 then 8 else if 0x100 ≤ k ∧ k < 0x104 then 3 else if k = 0x200 then 1 else 0
      let bad := n = 0 ∨ r.payload.length ≠ 4 + 4 * n
      let late := (r.frame - s.fnow).toInt < 2
      (bad → Gives (.govSet net) s (· = s.refusedReq r rest E_ARG)) ∧
      (¬bad → late → Gives (.govSet net) s (· = s.refusedReq r rest E_LATE)) ∧
      (¬bad → ¬late → Gives (.govSet net) s fun t => Answered s t r rest OK [] ∧ SameMem s t ∧
        outcome r.frame (fun x =>
          (k < 64 → x.rd (R.LGV_GCAP k) = word 0 ∧ x.rd (R.LGV_GIDLE k) = word 1 ∧ x.rd (R.LGV_GCOEF k 3) = word 5 ∧
            x.fld (R.LGV_GCFG k) 9 0 = fldOf (word 6) 9 0 ∧ x.rd (R.LGV_GRATE k) = word 7) ∧
          (0x100 ≤ k → k < 0x104 → x.rd (R.LGV_FCAP (k - 0x100)) = word 0 ∧
            x.fld (R.LGV_FCFG (k - 0x100)) 7 0 = fldOf (word 1) 7 0 ∧ x.rd (R.LGV_FRATE (k - 0x100)) = word 2) ∧
          (k = 0x200 → x.fld R.LGV_CTRL 1 0 = fldOf (word 0) 1 0)) t)) ∧
    (s.flkFired = false ∨ s.rd R.LGV_FRAME = s.committed → Gives .lgvCompute s (· = s)) ∧
    (s.flkFired = true → s.rd R.LGV_FRAME ≠ s.committed →
      let f := s.committed
      let u := s.lgvApply f
      let en := u.aBit R.LGV_CTRL 0 = true
      let base := u.aFld R.LGV_SUMBASE_HI 7 0 * 2 ^ 32 + u.aFld R.LGV_SUMBASE_LO 31 12 * 4096
      let sum (g j : Nat) := u.hRdLe (base + f.toNat % 2 * 0x800 + g * 32 + j * 8) 8
      let coef (g j : Nat) := (u.aRd (R.LGV_GCOEF g j)).toNat
      let drive (g : Nat) := (coef g 0 * sum g 0 + coef g 1 * sum g 1 + coef g 2 * sum g 2 + coef g 3 * sum g 3) / 0xFFFFF
        * u.tfOf f g / 65536 / 1000
      let idle (g : Nat) := (u.aRd (R.LGV_GIDLE g)).toNat
      let sc (g : Nat) := govScale (u.aRd (R.LGV_GCAP g)).toNat (u.aFld (R.LGV_GCFG g) 7 0) (u.aFld (R.LGV_GRATE g) 15 0)
        (u.aFld (R.LGV_GRATE g) 31 16) (idle g) (drive g) (mget (fun _ => 0x10000) u.lgvPrev g)
      let mine (k : Nat) := (List.range 64).filter fun g => u.aFld (R.LGV_GCFG g) 9 8 = k
      let sf (k : Nat) := govScale (u.aRd (R.LGV_FCAP k)).toNat (u.aFld (R.LGV_FCFG k) 7 0) (u.aFld (R.LGV_FRATE k) 15 0)
        (u.aFld (R.LGV_FRATE k) 31 16) ((mine k).map idle).sum ((mine k).map fun g => drive g * (sc g).1 / 65536).sum
        (u.fld (R.LGV_FSCALE k) 16 0)
      Gives .lgvCompute s fun t => t.rd R.LGV_FRAME = f ∧ SameMem s t ∧
        (∀ g, g < 64 → t.rd (R.LGV_GPRED g) = BitVec.ofNat 32 (idle g + drive g) ∧
          t.rd (R.LGV_GTF g) = BitVec.ofNat 32 (u.tfOf f g) ∧
          t.fld (R.LGV_GSCALE g) 16 0 = (if en then (sc g).1 * (sf (u.aFld (R.LGV_GCFG g) 9 8)).1 / 65536 else 0x10000) ∧
          (t.bit (R.LGV_GSCALE g) 31 = true ↔ en ∧ (sc g).2 = true)) ∧
        ∀ k, k < 4 → t.rd (R.LGV_FSCALE k) = BitVec.ofNat 32 (if en then (sf k).1 else 0x10000))

/-- Scan heads: commits, scans, repeats, underruns, refresh slots, training, return packets and tile commands (R238,
R239, R241, R245, R246, R247, R250, R251, R253, R263, R264, R265). -/
def Obligations.ScanHeadResults : Prop :=
  (∀ x i j : Nat, x ≤ 0xFFFFF → let shown := ((List.range 16).map fun k => codeOf x (dither i j k)).sum
    shown ≤ x ∧ x ≤ shown + 15 ∧ (x ≤ 0xFFFF0 → shown = x)) ∧
  (∀ pos l, pos ≤ 1 → unframe10 (frame10 pos l) = some l) ∧
  (∀ (s : State) (h : BitVec 3), Regs.wf s.regs →
    let n := h.toNat
    let c := R.SCN_COMMIT n
    let on (j : Nat) := s.fld (R.SCN_SEG n j) 12 0
    let bad := (∃ j, j < 40 ∧ (on j = 0 ∨ 4096 < on j)) ∨
      (∃ b, b < 16 ∧ (((List.range 40).filter fun j => s.fld (R.SCN_SEG n j) 19 16 = b).map on).sum ≠ 2 ^ b) ∨
      ∃ i, i < 4 ∧ (s.fld (R.SCN_L_CFG n i) 14 8 = 0 ∨ 64 < s.fld (R.SCN_L_CFG n i) 14 8)
    (bad → Gives (.scnCommit h) s fun t => t.bit c 31 = true ∧ t.bit c 30 = false ∧ t.fld c 15 8 = E_ARG ∧
      t.tileLanes = s.tileLanes ∧ SameMem s t) ∧
    (¬bad → Gives (.scnCommit h) s fun t => t.bit c 31 = true ∧ t.bit c 30 = true ∧ t.fld c 15 8 = OK ∧ SameMem s t ∧
      (∃ x, x ∈ t.waiting c ∧ x.no = s.writeNo + 1 ∧
        ∀ a, R.SCN_CTRL n ≤ a → a < R.SCN_CTRL (n + 1) → a ≠ c → x.rd a = s.rd a) ∧
      ∀ i, i < 4 → let l := 4 * n + i
        t.lane l = { s.lane l with pend := (s.lane l).pend ++ [(s.writeNo + 1, if s.windowClosed l then 2 else 1)] } ∧
        (s.windowClosed l = true → t.bit (R.SCN_L_STAT n i) 9 = true ∧
          t.fld (R.SCN_L_CNT1 n i) 15 0 = (s.fld (R.SCN_L_CNT1 n i) 15 0 + 1) % 2 ^ 16))) ∧
  (∀ (s : State) (l : BitVec 5),
    let n := l.toNat
    let h := n / 4
    let i := n % 4
    let x := s.lane n
    let st := s.fld (R.SCN_L_STAT h i) 1 0
    let f := s.rd (R.SCN_L_FRAME h i)
    let run (u : State) := u.fld (R.SCN_L_STAT h i) 1 0 = 2 ∧ u.lnSpread n = false
    let held := s.lckRuns = false ∨ (x.scanning = true ∧ s.lnSpread n = false)
    let due (c : Commit) := ∃ e, e ∈ x.pend ∧ e.1 = c.no ∧ (e.2 = 0 ∨ st = 0)
    (held ∨ (∀ c, c ∈ s.waiting (R.SCN_COMMIT h) → ¬due c) → Gives (.scnLaneCommitApply l) s (· = s)) ∧
    (∀ c, ¬held → s.waiting (R.SCN_COMMIT h) = [c] → due c → Gives (.scnLaneCommitApply l) s fun t => SameMem s t ∧
      (t.lane n).pend = x.pend.filter (fun e => e.1 ≠ c.no) ∧ (∀ a, t.lnRd n a = c.rd a) ∧
      let en := bitOf (c.rd (R.SCN_CTRL h)) i = true ∧ n ∉ s.lanesOut
      let mode := bitOf (c.rd (R.SCN_L_CFG h i)) 0
      let state := t.fld (R.SCN_L_STAT h i) 1 0
      (¬en → state = 0) ∧ (en → st = 0 → state = 1) ∧
      (en → st = 2 ∨ st = 3 → mode ≠ s.lnSpread n → state = 3 ∧ (t.lane n).sent = [(0, modePkt (b2n mode))]) ∧
      (en → st ≠ 0 → mode = s.lnSpread n ∨ st = 1 → state = st)) ∧
    (let u := s.laneApplyDue n
     let y := u.lane n
     let may := run u ∧ y.scanning = false ∧ y.newFrame = true ∧ u.blanked n = true
     (¬may → Gives (.scanStart l) s (· = s)) ∧
     (may → Gives (.scanStart l) s fun t => let z := t.lane n
       let kept := y.pre = true ∧ y.frame = u.outTaken
       z.scanning = true ∧ z.rep = false ∧ z.newFrame = false ∧ z.startNs = s.tsuNs ∧ z.startTick = s.now ∧
       z.frame = u.outTaken ∧ z.cur = [] ∧ (kept → z.plan = y.plan ∧ z.data = y.data) ∧
       (¬kept → z.plan = u.scanLines n ∧ z.data = []) ∧
       z.sent = [(0, u.frameStartPkt u.outTaken false z.plan.length)] ∧ t.rd (R.SCN_L_FRAME h i) = u.outTaken ∧
       t.rd (R.SCN_L_SCAN h i) = BitVec.ofNat 32
         (((6 + ((u.scanLines n).map fun e => 1 + (12 + 6 * tileW e.2.2.1 + 7) / 8).sum) * 528 + 50) / 100) ∧
       SameMem s t)) ∧
    (x.scanning = true → Gives (.scanEnd l) s fun t => let z := t.lane n
      let rest := (List.range' x.cur.length (x.count - x.cur.length)).map (s.lineNow n)
      let lines := x.cur ++ rest
      let crc := crc32c (lines.flatMap linePixels)
      z.scanning = false ∧ z.scanned = true ∧ z.endNs = s.tsuNs ∧ z.endTick = s.now ∧ z.lines = lines ∧ z.crc = crc ∧
      z.sent = (rest ++ [frameEndPkt f lines.length crc]).map (fun p => (0, p)) ∧
      t.rd (R.SCN_L_CRC h i) = crc ∧ SameMem s t) ∧
    (x.scanning = false → Gives (.scanEnd l) s (· = s)) ∧
    (let missing := x.scanning = true ∧ x.cur.length < x.count ∧ ∀ e, e ∈ x.data → e.1 ≠ x.cur.length
     let gap := s.lnFld n (R.SCN_L_BLANK h i) 15 0 * 1000
     (¬missing → Gives (.lineUnderrun l) s (· = s)) ∧
     (missing → Gives (.lineUnderrun l) s fun t => let z := t.lane n
        z.scanning = true ∧ z.rep = x.rep ∧ z.lines = x.lines ∧ z.plan = x.plan ∧ z.cur = [] ∧ z.data = [] ∧ z.hot = true ∧
        z.sent = [(0, ctlBlock 0x55 (leBytes 4 f.toNat)), ((gap * 100 + 527) / 528, s.frameStartPkt f x.rep x.count)] ∧
        z.startNs = s.tsuNs + BitVec.ofNat 32 gap ∧ z.startTick = s.now + gap * 2 / 5 ∧
        t.bit (R.SCN_L_STAT h i) 8 = true ∧
        t.fld (R.SCN_L_CNT0 h i) 31 16 = (s.fld (R.SCN_L_CNT0 h i) 31 16 + 1) % 2 ^ 16)) ∧
    (let blankMax := s.lnFld n (R.SCN_L_BLANK h i) 31 16
     let may := run s ∧ x.scanning = false ∧ x.newFrame = false ∧ x.scanned = true ∧ blankMax ≠ 0 ∧
       blankMax * 1000 * 2 ≤ (s.now - x.endTick) * 5
     (¬may → Gives (.repeatScan l) s (· = s)) ∧
     (may → Gives (.repeatScan l) s fun t => (t.lane n).scanning = true ∧ (t.lane n).rep = true ∧
       (t.lane n).sent = [(0, s.frameStartPkt f true x.lines.length)] ∧ (t.lane n).lines = x.lines ∧
       t.fld (R.SCN_L_CNT0 h i) 15 0 = (s.fld (R.SCN_L_CNT0 h i) 15 0 + 1) % 2 ^ 16)) ∧
    (let k := x.slot + 1
     let p := k / 40 + 1
     x.slotOn = true → st = 2 → s.lnSpread n = true → x.switched = false →
      (s.tsuLong < s.slotStart n k → Gives (.slotLatch l) s (· = s)) ∧
      (s.slotStart n k ≤ s.tsuLong →
        let latch := ctlBlock 0x4B (leBytes 1 (k % 40) ++ leBytes 2 (s.refreshIdx n (k / 40)).toNat)
        let out (t : State) (pkt : List Byte) := (t.lane n).slot = k ∧
          (t.lane n).sent = (0, latch) :: if x.dark then [] else [(0, pkt)]
        (k % 40 ≠ 39 → Gives (.slotLatch l) s fun t => out t (s.planePkt n (k / 40) (k % 40 + 1))) ∧
        (k % 40 = 39 → x.filled = true → x.showFrom ≤ p → Gives (.slotLatch l) s fun t =>
          (t.lane n).planes = x.fill ∧ (t.lane n).filled = false ∧ t.rd (R.SCN_L_FRAME h i) = x.fillFrame ∧
          (t.lane n).effectNs = some (BitVec.ofInt 32 (s.slotStart n (40 * p))) ∧ (t.lane n).slotAct = x.act ∧
          (s.lnRd n (R.SCN_RANCH_NS h) = s.slotRd n (R.SCN_RANCH_NS h) → out t (t.planePkt n p 0))) ∧
        (k % 40 = 39 → ¬(x.filled = true ∧ x.showFrom ≤ p) → Gives (.slotLatch l) s fun t => out t (s.planePkt n p 0) ∧
          (t.lane n).planes = x.planes ∧ t.rd (R.SCN_L_FRAME h i) = f))) ∧
    (s.lnSpread n = true → st = 1 → x.trained = true → x.slotOn = false → s.slotNow n % 40 = 0 →
      s.slotStart n (s.slotNow n) ≤ s.tsuLong → Gives (.slotLatch l) s fun t => t.fld (R.SCN_L_STAT h i) 1 0 = 2 ∧
        (t.lane n).slotOn = true ∧ (t.lane n).slot = s.slotNow n ∧ (t.lane n).trained = false) ∧
    (let u := s.laneApplyDue n
     let y := u.lane n
     (y.filling = true → Gives (.planeFillDone l) s fun t => (t.lane n).filled = true ∧ (t.lane n).filling = false ∧
      (t.lane n).fill = (List.range y.plan.length).flatMap (fun k =>
        ((y.got.find? fun e => e.1 = k).map (·.2)).getD (u.fillLine n k)) ∧ (t.lane n).planes = y.planes ∧ SameMem s t) ∧
     (y.filling = false → Gives (.planeFillDone l) s (· = s))) ∧
    (s.strict = false → st = 1 → x.trained = false → Gives (.laneTrainDone l) s fun t => t = s.setLane n { x with
      trained := true, enumOpen := true, idents := 0, sent := [(65536, enumPkt 0)] }) ∧
    (s.strict = true ∨ st ≠ 1 ∨ x.trained = true → Gives (.laneTrainDone l) s (· = s)) ∧
    (x.enumOpen = true → Gives (.enumWindowEnd l) s fun t => (t.lane n).enumOpen = false ∧
      t.fld (R.SCN_L_STAT h i) 23 17 = x.idents % 128 ∧
      (x.idents ≠ s.lnFld n (R.SCN_L_CFG h i) 14 8 → t.bit (R.SCN_L_STAT h i) 16 = true)) ∧
    (x.enumOpen = false → Gives (.enumWindowEnd l) s (· = s)) ∧
    (∀ groups, let pkt := (unframe10 groups).getD []
      let len := leAt pkt 2 2
      let pl := (pkt.take (4 + len)).drop 4
      let ty := leAt pkt 0 1
      let good := pkt.length = 8 + len ∧ len ≤ 1028 ∧ (crc32c (pkt.take (4 + len))).toNat = leAt pkt (4 + len) 4
      let rcnt := R.SCN_L_RCNT h i
      let en := s.bit (R.SCN_RETQ h) 8
      let q := s.fld (R.SCN_RETQ h) 7 0
      let g := s.fifo q
      let slot := SRAM_BASE + s.fld (R.QUE_Q_BASE q) 21 6 * 64 + g.w % s.fld (R.QUE_Q_CFG q) 15 0 * 32
      let e := [BitVec.ofNat 8 n, BitVec.ofNat 8 (leAt pkt 1 1), BitVec.ofNat 8 ty, BitVec.ofNat 8 (min 24 pl.length)] ++
        leBytes 4 s.tsuNs.toNat ++ pl.take 24
      let idents (t : State) := (t.lane n).idents = if ty = 0x82 ∧ x.enumOpen = true then x.idents + 1 else x.idents
      (¬good → Gives (.returnPacket l groups) s fun t => t = { s with regs := t.regs } ∧
        t.fld rcnt 31 16 = (s.fld rcnt 31 16 + 1) % 2 ^ 16) ∧
      (good → en = false → Gives (.returnPacket l groups) s fun t => idents t ∧ t.fifos = s.fifos) ∧
      (good → en = true → ty ≠ 0x83 → s.bit (R.QUE_Q_CFG q) 31 = true → s.bit (R.QUE_Q_ACL q) 12 = true →
        s.fld (R.QUE_Q_CFG q) 29 24 = 7 → g.broken = false → g.stalled = [] → g.used < s.fld (R.QUE_Q_CFG q) 15 0 →
        Gives (.returnPacket l groups) s fun t => idents t ∧ (t.fifo q).w = g.w + 1 ∧
          t.fld rcnt 15 0 = (s.fld rcnt 15 0 + 1) % 2 ^ 16 ∧
          ∀ m, t.rdB m = if slot ≤ m ∧ m < slot + 32 then e.getD (m - slot) 0 else s.rdB m))) ∧
  (∀ (s : State) (h : BitVec 3),
    let q := s.fld (R.SCN_CMDQ h.toNat) 7 0
    let g := s.fifo q
    let size := (s.fld (R.QUE_Q_CFG q) 29 24 + 1) * 4
    let e := s.rdBytes (SRAM_BASE + s.fld (R.QUE_Q_BASE q) 21 6 * 64 + g.r % s.fld (R.QUE_Q_CFG q) 15 0 * size) size
    let n := 4 * h.toNat + leAt e 0 1
    let ty := leAt e 2 1
    let pops := s.bit (R.SCN_CMDQ h.toNat) 8 = true ∧ s.bit (R.QUE_Q_CFG q) 31 = true ∧
      s.bit (R.QUE_Q_ACL q) 4 = true ∧ g.r < g.w
    let sends := leAt e 0 1 ≤ 3 ∧ (ty = 0x10 ∨ ty = 0x11) ∧ s.lnState n = 2
    let pkt := tilePacket ty (leAt e 1 1) [0, 0, 0] ((e.drop 4).take 12)
    let fits := s.gapFits n (pkt.length / 8) = true
    let popped (t : State) := (t.fifo q).r = g.r + 1 ∧ (t.fifo q).l = g.r + 1 ∧ SameMem s t
    (¬pops ∨ (sends ∧ ¬fits) → Gives (.tileCmdSend h) s (· = s)) ∧
    (pops → ¬sends → Gives (.tileCmdSend h) s fun t => popped t ∧ t.tileLanes = s.tileLanes) ∧
    (pops → sends → fits → Gives (.tileCmdSend h) s fun t => popped t ∧
      (t.lane n).sent = (s.lane n).sent.take (if s.lnSpread n then 2 else 0) ++ [(0, pkt)] ∧
      (∀ m, m ≠ n → t.lane m = s.lane m)))

/-- Spread drive, triggers, derating and lamp-board sensors (R266, R267, R268, R269, R270, R271, R272, R273, R275,
R276, R277, R434). -/
def Obligations.SpreadDriveResults : Prop :=
  (∀ (n x tp : Nat) (r : Word) (acc : Nat), acc < 0xFFFF →
    let o := onTime n x tp r acc
    o.1 ≤ tp ∧ o.2 < 0xFFFF ∧ o.1 * 0xFFFF + o.2 = codeOf x (dither (n % 4) (n / 4) (r.toNat % 16)) * tp + acc) ∧
  (∀ k total, k ≤ 6 → ((List.range (2 ^ k)).map (segOn k total)).sum = total) ∧
  ∀ (s : State),
    let c := R.SPD_COMMIT
    let enabled (n : Nat) := s.aBit (R.SPD_CH_CFG n) 3 = true
    let quiet := ∀ x, s.spdTick = some x → x.tick ≠ s.now
    let shows (t : State) (n lv : Nat) (r : Word) (acc : Nat) := t.fld (R.SPD_CH_STAT n) 19 0 = lv % 2 ^ 20 ∧
      (t.sch n).on = (onTime n lv s.spdTp r acc).1
    (Regs.wf s.regs →
      let tp := s.fld R.SPD_PERIOD 21 0
      let k := s.fld R.SPD_PERIOD 26 24
      let bad := tp < 4000 ∨ 4000000 < tp ∨ 6 < k ∨ tp % 2 ^ k ≠ 0
      Gives .spdCommit s fun t => t.bit c 31 = true ∧ (∀ a, a ≠ c → t.rd a = s.rd a) ∧ t.act = s.act ∧
        (bad → t.bit c 30 = false ∧ t.fld c 15 8 = E_ARG ∧ t.waiting c = (s.commits.filter fun y => y.reg = c ∧ y.ok = true ∧
          y.no ≠ s.writeNo + 1)) ∧
        (¬bad → t.bit c 30 = true ∧ t.fld c 15 8 = OK ∧ ∃ w, w ∈ t.waiting c ∧ w.at_ = s.now ∧ w.ranges = spdRanges ∧
          ∀ a, inRanges spdRanges a = true → w.rd a = s.rd a)) ∧
    (let r := s.rd R.SPD_PIDX + 1
     let at_ := s.periodTime r
     let comes := s.clocksRun = true ∧ 0 ≤ (s.tsuNs - at_).toInt
     (¬comes → Gives .spdPeriodStart s (· = s)) ∧
     (quiet → comes → (∀ w, w ∈ s.waiting c → s.now - w.at_ < 8) → Gives .spdPeriodStart s fun t =>
        t.rd R.SPD_PIDX = r ∧ SameMem s t ∧ ∀ n, n < 96 →
          let x := s.sch n
          let y := t.sch n
          let st := s.fld (R.SPD_CH_STAT n) 31 30
          let table := (lumClamp (s.oRdW (s.aFld R.SPD_FTAB_HI 7 0 * 2 ^ 32
            + s.aFld R.SPD_FTAB_LO 31 9 * 512 + s.outTaken.toNat % 2 * 384 + 4 * n))).1
          let frame := match s.spdNew with
            | some f => if 0 ≤ (at_ - f).toInt then table else x.frameVal
            | none => x.frameVal
          let lv := y.level * s.factOf n / 65536
          (¬enabled n → y.on = 0 ∧ t.fld (R.SPD_CH_STAT n) 19 0 = 0) ∧
          (enabled n → x.rel = false → x.go = none → shows t n lv r x.acc ∧ y.acc = (onTime n lv s.spdTp r x.acc).2 ∧
            (st = 0 → y.level = frame) ∧
            (st = 1 → y.level = (fadeMix x.fadeBlock (fadePos x.fadeBlock r)).toNat ∧
              t.fld (R.SPD_CH_STAT n) 31 30 = if ((min x.len.toNat 0x7FFFFFFF : Nat) : Int) ≤ (r - x.start).toInt then 2 else 1) ∧
            (st = 2 → y.level = if x.rest then s.fld (R.SPD_CH_LEVEL n) 19 0 else x.level)) ∧
          (enabled n → x.rel = true → x.go = none →
            (s.aFld (R.SPD_CH_CFG n) 1 0 = 0 → y.level = frame ∧ t.fld (R.SPD_CH_STAT n) 31 30 = 0) ∧
            (s.aFld (R.SPD_CH_CFG n) 1 0 = 1 → y.level = s.fld (R.SPD_CH_LEVEL n) 19 0 ∧ t.fld (R.SPD_CH_STAT n) 31 30 = 2)) ∧
          (∀ g, enabled n → x.rel = false → x.go = some g →
            let due := g.late = true ∨ (∃ a, g.at_ = some a ∧ 0 ≤ (r - a).toInt) ∨ (g.at_ = none ∧ 400 ≤ s.now - g.wrote)
            (due → y.from_ = x.level ∧ y.start = r ∧ y.go = none ∧ y.fto = g.fto ∧ y.len = g.len) ∧
            (¬due → y.go = some g))) ∧
     (∀ w, quiet → comes → (s.commits.filter fun y => y.reg = c) = [w] → w.ok = true → w.ranges = spdRanges →
        8 ≤ s.now - w.at_ → Regs.wf w.vals → Gives .spdPeriodStart s fun t => t.bit c 30 = false ∧
          t.aRd R.SPD_PERIOD = w.rd R.SPD_PERIOD ∧ t.aRd R.SPD_CTRL = w.rd R.SPD_CTRL ∧
          (∀ n, n < 96 → t.aRd (R.SPD_CH_CFG n) = w.rd (R.SPD_CH_CFG n)) ∧
          let moved := (w.rd R.SPD_ANCH_NS, w.rd R.SPD_ANCH_IDX) ≠ s.spdAnch
          (moved → t.aRd R.SPD_ANCH_NS = w.rd R.SPD_ANCH_NS ∧ t.aRd R.SPD_ANCH_IDX = w.rd R.SPD_ANCH_IDX) ∧
          (¬moved → t.rd R.SPD_PIDX = r) ∧
          (¬moved → w.fld R.SPD_PERIOD 21 0 ≠ s.spdTp → t.aRd R.SPD_ANCH_NS = at_ ∧ t.aRd R.SPD_ANCH_IDX = r))) ∧
    (∀ n : BitVec 7, n.toNat ≤ 95 →
      let x := s.sch n.toNat
      let fat := s.rd (R.SPD_CH_FAT n.toNat)
      let late : Bool := decide (fat ≠ 0) && decide ((fat - s.rd R.SPD_PIDX).toInt ≤ 0)
      let go : SpdGo := ⟨s.rd (R.SPD_CH_FTO n.toNat), s.rd (R.SPD_CH_FLEN n.toNat), if fat = 0 then none else some fat, s.now, late⟩
      (quiet → Gives (.spdFadeGo n) s fun t => t.sch n.toNat = { x with go := some go, relLast := false } ∧
        (late = true → t.bit R.SPD_STAT 0 = true) ∧ (∀ a, a ≠ R.SPD_STAT ∨ late = false → t.rd a = s.rd a) ∧
        ∀ m, m ≠ n.toNat → t.sch m = s.sch m) ∧
      (quiet → Gives (.spdRelease n) s fun t => t.sch n.toNat = { x with rel := true, relLast := true } ∧
        (∀ a, t.rd a = s.rd a) ∧ ∀ m, m ≠ n.toNat → t.sch m = s.sch m) ∧
      ∀ w, Gives (.spdLevelWrite n w) s fun t => t.rd (R.SPD_CH_LEVEL n.toNat) = BitVec.ofNat 32 (fldOf w 19 0) ∧
        t.spd = s.spd ∧ ∀ a, a ≠ R.SPD_CH_LEVEL n.toNat → t.rd a = s.rd a) ∧
    (∀ t : BitVec 3, quiet → s.clocksRun = true →
      let k := t.toNat
      let r := s.rd R.SPD_PIDX
      let woken (u : State) := ∀ key tk, s.task? key = some tk → tk.st = .waiting (.event (0x300 + k)) →
        s.released tk.desc.tag = true → ∃ tk', u.task? key = some tk' ∧ tk'.st = .ready
      (s.aBit (R.SPD_TRIG k) 31 = false → Gives (.triggerEdge t) s fun u => woken u ∧ ∀ n, u.sch n = s.sch n) ∧
      (s.aBit (R.SPD_TRIG k) 31 = true → Gives (.triggerEdge t) s fun u => woken u ∧ ∀ n, n < 96 →
        let e := s.aRd (R.SPD_SNAP k n)
        let x := s.sch n
        let y := u.sch n
        let live := shows u n (y.level * x.fact / 65536) r x.accWas ∧ y.acc = x.acc
        (bitOf e 31 = false ∨ ¬enabled n → y = x) ∧
        (bitOf e 31 = true → enabled n → fldOf e 29 28 = 0 → y.level = fldOf e 19 0 ∧
          u.fld (R.SPD_CH_STAT n) 31 30 = 2 ∧ live) ∧
        (bitOf e 31 = true → enabled n → fldOf e 29 28 = 1 → y.level = x.level ∧ y.from_ = x.level ∧
          y.start = r ∧ y.len = s.aRd (R.SPD_TRIGL k) ∧
          fldOf y.fto 19 0 = fldOf e 19 0 ∧ u.fld (R.SPD_CH_STAT n) 31 30 = 1 ∧ live) ∧
        (bitOf e 31 = true → enabled n → fldOf e 29 28 = 2 → y = { x with rel := true, relLast := true }) ∧
        (bitOf e 31 = true → fldOf e 29 28 = 3 → y = x))) ∧
    (s.clocksRun = false → Gives .derateUpdate s (· = s) ∧ ∀ samples, Gives (.sensorPublish samples) s (· = s)) ∧
    (s.clocksRun = true → Gives .derateUpdate s fun t => SameMem s t ∧ ∀ g, g < 8 →
      let temp : Int := s.sensorT (s.aFld (R.SPD_GRP_CFG g) 2 0) / 256
      let knee := sext 8 (s.aFld (R.SPD_GRP_CFG g) 15 8)
      let tmax := sext 8 (s.aFld (R.SPD_GRP_CFG g) 23 16)
      let fmin : Int := (s.aFld (R.SPD_GRP_CFG g) 31 24 * 256 : Nat)
      let target : Int := if temp ≤ knee then 0x10000 else if tmax ≤ temp then fmin
        else 0x10000 - (0x10000 - fmin) * (temp - knee) / (tmax - knee)
      let fact : Int := s.fld (R.SPD_GRP_FACT g) 16 0
      let step : Int := s.aFld (R.SPD_GRP_STEP g) 15 0
      ((t.rd (R.SPD_GRP_FACT g)).toNat : Int) = fact + max (-step) (min step (target - fact))) ∧
    (∀ samples : List (List Nat), s.clocksRun = true → Gives (.sensorPublish samples) s fun t => SameMem s t ∧ ∀ k, k < 8 →
      let l := samples.getD k []
      let tr := R.SNS_TEMP k
      let off := s.fld R.CAL_ADCOFF 15 0
      let code := (l.map fun v => min 4095 v * 16 - off).sum / (16 * l.length)
      let cls := if s.fld (R.SNS_CFG k) 31 20 ≤ code then 1 else if code ≤ s.fld (R.SNS_CFG k) 19 8 then 2 else 0
      let old := s.fld tr 17 16
      let e (j : Nat) : Int := sext 16 (s.fld (R.SNS_LIN k j) 15 0)
      let temp : Int := e (code / 128) + ((e (code / 128 + 1) - e (code / 128)) * (code % 128 : Nat) + 64) / 128
      let failTemp : Int := sext 8 (s.fld (R.SNS_CFG k) 7 0) * 256
      (s.bit R.SNS_CTRL k = false → t.rd tr = 0x30000) ∧
      (s.bit R.SNS_CTRL k = true → l = [] → t.rd tr = s.rd tr) ∧
      (s.bit R.SNS_CTRL k = true → l ≠ [] → (t.rd (R.SNS_RAW k)).toNat = code ∧ t.bit tr 31 = true ∧
        (cls ≠ 0 → t.fld tr 17 16 = cls ∧ sext 16 (t.fld tr 15 0) = failTemp) ∧
        (cls = 0 → old ≠ 1 → old ≠ 2 → t.fld tr 17 16 = 0 ∧ sext 16 (t.fld tr 15 0) = sext 16 (temp % 2 ^ 16).toNat))) ∧
    (∀ w, Gives (.snsLockWrite w) s fun t => t.bit R.SNS_LOCK 0 = (s.bit R.SNS_LOCK 0 || bitOf w 0) ∧
      ∀ a, a ≠ R.SNS_LOCK → t.rd a = s.rd a)

/-- Ethernet ports: reception and steering, PAUSE, transmission, rings, links, commits and the fast path (R280, R281,
R282, R283, R284, R287, R288, R289, R290, R291, R292, R304). -/
def Obligations.EthernetPortResults : Prop :=
  (∀ (s : State) (p : BitVec 4),
    let n := p.toNat
    let up := s.aBit (R.MAC_P_CFG n) 31 = true ∧ s.bit (R.MAC_P_STAT n) 0 = true
    let m := s.mac n
    let stat := R.MAC_P_STAT n
    let cnt (k : Nat) := R.MAC_P_CNT n k
    let one (a : Nat) (t : State) := t.fld a 31 0 = (s.fld a 31 0 + 1) % 2 ^ 32
    let only (as : List Nat) (t : State) := t = { s with regs := t.regs } ∧ ∀ a, a ∉ as → t.rd a = s.rd a
    let pend (i : Nat) (t : State) := mget (fun _ => false) t.icuPend i = true
    (9 < n → (∀ f ok, Gives (.rxFrame p f ok) s (· = s)) ∧ Gives (.pauseExpiry p) s (· = s) ∧
      Gives (.txFrameSelect p) s (· = s) ∧ (∀ r w, Gives (.ringTailWrite p r w) s (· = s)) ∧ Gives (.pauseSend p) s (· = s) ∧
      Gives (.pauseRefresh p) s (· = s) ∧ (∀ a b, Gives (.linkChange p a b) s (· = s)) ∧ Gives (.macCommit p) s (· = s) ∧
      Gives (.macCommitApply p) s (· = s)) ∧
    (n ≤ 9 →
      (∀ (f : List Byte) (ok : Bool),
        let rx (P : State → Prop) := Gives (.rxFrame p f ok) s P
        let counts (k : Nat) := rx fun t => only [cnt k] t ∧ one (cnt k) t
        let known := s.aBit (R.MAC_P_CFG n) 24 = true ∨ f.take 6 = s.macAddr n ∨ (f.getD 0 0).getLsbD 0 = true
        let fits := 64 ≤ f.length ∧ f.length ≤ s.aFld (R.MAC_P_CFG n) 13 0
        let op := beNat ((frBody f).take 2)
        let q := beNat (((frBody f).drop 2).take 2)
        (¬up → rx (· = s)) ∧
        (up → f.length < 64 → counts 1) ∧
        (up → 64 ≤ f.length → ¬fits → counts 2) ∧
        (up → fits → ok = false → counts 3) ∧
        (up → fits → ok = true → ¬known → counts 4) ∧
        (up → fits → ok = true → known → frEt f = 0x8808 →
          (op = 0x0101 → counts 6) ∧ (op ≠ 1 → op ≠ 0x0101 → counts 5) ∧
          (op = 1 → s.aBit (R.MAC_P_CFG n) 26 = false → counts 10) ∧
          (op = 1 → s.aBit (R.MAC_P_CFG n) 26 = true →
            (0 < q → rx fun t => only [cnt 10, stat] t ∧ one (cnt 10) t ∧ t.bit stat 1 = true) ∧
            (q = 0 → s.bit stat 1 = true → rx fun t => only [cnt 10, stat] t ∧ one (cnt 10) t ∧ t.bit stat 1 = false) ∧
            (q = 0 → s.bit stat 1 = false → counts 11))) ∧
        (up → fits → ok = true → known → frEt f ≠ 0x8808 → m.rxq = [] → s.macStalled n = false →
          ∀ (i action target : Nat) (ts : Bool),
          (i < 128 ∧ s.ruleMatches n f i = true ∧ (∀ j, j < i → s.ruleMatches n f j = false) ∧
              action = s.aFld (R.MAC_RULE_CTRL i) 19 16 ∧ target = s.aFld (R.MAC_RULE_CTRL i) 15 0 ∧
              ts = s.aBit (R.MAC_RULE_CTRL i) 30 ∨
            i = 0xFF ∧ (∀ j, j < 128 → s.ruleMatches n f j = false) ∧ action = 0 ∧ target = 0 ∧ ts = false) →
          let head := s.ringHead n target
          let d := s.descAddr n target head
          let buf := s.hRdLe d 5
          let reach (a k : Nat) := ∀ x, a ≤ x → x < a + k → hubReach x = true
          let back := leBytes 2 f.length ++ leBytes 2 (7 + b2n ts * 16 + b2n (frTagged f) * 32) ++ leBytes 2 (frTci f) ++
            leBytes 1 i
          (4 ≤ action → rx fun t => one (cnt 0) t ∧ one (cnt 7) t ∧ pend (0x040 + n) t ∧ SameMem s t) ∧
          (action = 0 → target ≤ 7 → s.ringOwned n target = 0 →
            rx fun t => one (cnt 0) t ∧ one (cnt 8) t ∧ pend (0x040 + n) t ∧ SameMem s t) ∧
          (action = 0 → target ≤ 7 → s.ringOwned n target ≠ 0 → f.length ≤ s.fld (R.MAC_P_R_CFG n target) 15 0 →
            reach d 16 → reach buf f.length →
            rx fun t => one (cnt 0) t ∧ one (R.MAC_P_R_CNT n target) t ∧ pend (0x040 + n) t ∧
              pend (0x060 + 16 * n + target) t ∧ t.ringHead n target = (head + 1) % s.ringSize n target ∧
              ∀ a, t.rdB a = if d + 6 ≤ a ∧ a < d + 13 then back.getD (a - (d + 6)) 0
                else if buf ≤ a ∧ a < buf + f.length then f.getD (a - buf) 0 else s.rdB a))) ∧
      Gives (.pauseExpiry p) s (fun t => only [stat] t ∧ t.bit stat 1 = false) ∧
      (∀ (r : BitVec 4) (w : Word), Gives (.ringTailWrite p r w) s fun t =>
        only [R.MAC_P_R_TAIL n r.toNat] t ∧ t.ringTail n r.toNat = w.toNat % 4096) ∧
      (let u := s.rxMarks n
       let src := u.pauseSources n
       let quanta := s.aFld (R.MAC_P_PAUSE n) 31 16
       let out := s.aBit (R.MAC_P_CFG n) 25
       let e := s.pauseEval n
       Gives (.pauseSend p) s (fun t => t.bit stat 2 = (out && !src.isEmpty) ∧ (t.mac n).pauseSeen = src ∧ SameMem s t ∧
         (out = false → (t.mac n).pauseq = m.pauseq) ∧
         (out = true → (∃ x, x ∈ src ∧ x ∉ m.pauseSeen) → (t.mac n).pauseq = m.pauseq ++ [quanta]) ∧
         (out = true → src = [] → m.pauseSeen ≠ [] → (t.mac n).pauseq = m.pauseq ++ [0]) ∧
         (out = true → src ≠ [] → (∀ x, x ∈ src → x ∈ m.pauseSeen) → (t.mac n).pauseq = m.pauseq)) ∧
       (e.bit stat 2 = true → Gives (.pauseRefresh p) s fun t => (t.mac n).pauseq = (e.mac n).pauseq ++ [quanta] ∧ t.regs = e.regs) ∧
       (e.bit stat 2 = false → Gives (.pauseRefresh p) s (· = e)) ∧
       (¬up ∨ m.tx.isSome = true → Gives (.txFrameSelect p) s (· = s)) ∧
       (up → m.tx = none →
         let sel (P : State → Prop) := Gives (.txFrameSelect p) s P
         let sends (src : TxSource) (pk : NetPkt) (t : State) := (t.mac n).tx = some (src, pk)
         let e := e.txPeek n
         let x := e.mac n
         let free := x.pauseq = [] ∧ e.bit stat 1 = false
         let ring (r k : Nat) := let b := e.txBytes n r k
           (max 60 b.1.length + 4 ≤ e.maxFrame n → b.2 = false → sel fun t => sends (.ring r k OK) (.raw b.1) t ∧ SameMem s t ∧
             let ts := bitOf (BitVec.ofNat 32 (e.hRdLe (e.descAddr n r (e.ringHead n r) + 8) 2)) 4
             (t.mac n).stamped = ts ∧ (ts = true → pend (0x04A + n) t)) ∧
           (e.maxFrame n < max 60 b.1.length + 4 → sel fun t => (t.mac n).tx = none ∧ one (R.MAC_P_R_CNT n r) t ∧
             t.ringHead n r = (s.ringHead n r + k) % s.ringSize n r)
         (∀ q l, x.pauseq = q :: l → sel fun t => sends .pause (.pause q) t ∧ (t.mac n).pauseq = l ∧ SameMem s t) ∧
         (x.pauseq = [] → e.bit stat 1 = true → sel (· = e)) ∧
         (∀ b l, free → x.fpq = b :: l → sel fun t => sends .fastPath (.raw b) t ∧ (t.mac n).fpq = l ∧ SameMem s t) ∧
         (∀ k, free → x.fpq = [] → e.txReady n 8 = some k → ring 8 k) ∧
         (∀ y l, free → x.fpq = [] → e.txReady n 8 = none → x.unvq = y :: l →
           sel fun t => sends (.unv y.2.1) y.2.2 t ∧ (t.mac n).unvq = l ∧ SameMem s t) ∧
         (∀ r k, free → x.fpq = [] → e.txReady n 8 = none → x.unvq = [] →
           (rrOrder x.rr).find? (fun r => (e.txReady n r).isSome) = some r → e.txReady n r = some k → ring r k) ∧
         (free → x.fpq = [] → x.unvq = [] → (∀ r, 8 ≤ r → r ≤ 15 → e.txReady n r = none) → x.rr ≤ 15 → 9 ≤ x.rr →
           sel (· = e)))) ∧
      (m.tx = none → Gives (.txFrameDone p) s (· = s)) ∧
      (∀ src pk, m.tx = some (src, pk) → Gives (.txFrameDone p) s fun t =>
        (t.mac n).tx = none ∧ (t.mac n).sent = some pk ∧ (t.mac n).wire = s.wireBytesOf n src pk ∧
        (m.stamped = false → pend (0x04A + n) t) ∧
        match src with
        | .pause => one (cnt 15) t ∧ SameMem s t
        | .fastPath => one (cnt 12) t ∧ one (cnt 16) t ∧ SameMem s t
        | .unv .data => one (cnt 12) t ∧ one (R.UNV_CNT 0) t ∧ SameMem s t
        | .unv .sync => one (cnt 12) t ∧ one (R.UNV_CNT 1) t ∧ SameMem s t
        | .unv .native => one (cnt 12) t ∧ one (R.UNV_CNT 2) t ∧ SameMem s t
        | .ring r k st => r ≤ 15 → 1 ≤ k → one (if st = OK then cnt 12 else cnt 13) t ∧ one (R.MAC_P_R_CNT n r) t ∧
            t.ringHead n r = (s.ringHead n r + k) % s.ringSize n r) ∧
      (∀ up' bad, let link (P : State → Prop) := Gives (.linkChange p up' bad) s P
        let wrong := bad = true ∧ s.aFld (R.MAC_P_CFG n) 30 29 = 3
        let lost := m.unvq.length + m.fpq.length + match m.tx with
          | some (.unv _, _) => 1
          | some (.fastPath, _) => 1
          | _ => 0
        (up' = false → s.bit stat 0 = false → link (· = s)) ∧
        (up' = false → s.bit stat 0 = true → link fun t => t.bit stat 0 = false ∧ pend (0x054 + n) t ∧ SameMem s t ∧
          t.mac n = { m with unvq := [], fpq := [], pauseq := [], tx := none, stamped := false } ∧
          t.fld (cnt 14) 31 0 = (s.fld (cnt 14) 31 0 + lost) % 2 ^ 32 ∧ ∀ r, r ≤ 15 → t.ringHead n r = s.ringHead n r) ∧
        (up' = true → s.macEn n = false ∨ s.strict = true → link (· = s)) ∧
        (up' = true → s.macEn n = true → s.strict = false → wrong → link fun t => t.bit stat 0 = false ∧ t.bit stat 3 = true) ∧
        (up' = true → s.macEn n = true → s.strict = false → ¬wrong → s.bit stat 0 = true → link (· = s)) ∧
        (up' = true → s.macEn n = true → s.strict = false → ¬wrong → s.bit stat 0 = false → link fun t => t.bit stat 0 = true ∧
          pend (0x054 + n) t ∧ t.macs = s.macs ∧ ∀ a, a ≠ stat → t.rd a = s.rd a)) ∧
      (Regs.wf s.regs →
        let c := R.MAC_P_COMMIT n
        let mode := s.fld (R.MAC_P_CFG n) 30 29
        let mx := s.fld (R.MAC_P_CFG n) 13 0
        let bad := (n < 8 ∧ 1 < mode) ∨ (8 ≤ n ∧ mode < 2) ∨ mx < 64 ∨ 9216 < mx ∨ 128 < s.fld (R.MAC_P_WM n) 31 16 ∨
          128 < s.fld (R.MAC_P_WM n) 15 0
        Gives (.macCommit p) s fun t => t.bit c 31 = true ∧ t.act = s.act ∧ SameMem s t ∧ (∀ a, a ≠ c → t.rd a = s.rd a) ∧
          (bad → t.bit c 30 = false ∧ t.fld c 15 8 = E_ARG) ∧
          (¬bad → t.bit c 30 = true ∧ t.fld c 15 8 = OK ∧
            ∃ w, w ∈ t.waiting c ∧ ∀ a, a = R.MAC_P_CFG n ∨ R.MAC_P_ADDR_LO n ≤ a ∧ a < stat → w.rd a = s.rd a)) ∧
      (∀ w : Commit, let c := R.MAC_P_COMMIT n
       let old := s.aRd (R.MAC_P_CFG n)
       let new := w.rd (R.MAC_P_CFG n)
       let stays := fldOf old 30 27 = fldOf new 30 27 ∧ fldOf old 13 0 = fldOf new 13 0 ∧ bitOf new 31 = true
       (s.waiting c = [] ∨ m.tx ≠ none → Gives (.macCommitApply p) s (· = s)) ∧
       ((s.commits.filter fun y => y.reg = c) = [w] → w.ok = true → m.tx = none → Regs.wf w.vals →
        w.ranges = [(R.MAC_P_CFG n, c), (R.MAC_P_ADDR_LO n, stat)] →
        Gives (.macCommitApply p) s fun t => t.bit c 30 = false ∧ SameMem s t ∧ t.waiting c = [] ∧
         (∀ a, a = R.MAC_P_CFG n ∨ R.MAC_P_ADDR_LO n ≤ a ∧ a < stat → t.aRd a = w.rd a) ∧
         t.bit stat 0 = if stays then s.bit stat 0 else false)))) ∧
  (∀ (s : State), Regs.wf s.regs →
    let c := R.MAC_RCOMMIT
    (∀ y, y ∈ s.commits → y.reg ≠ c) →
    let target (i : Nat) := s.fld (R.MAC_RULE_CTRL i) 15 0
    let action (i : Nat) := s.fld (R.MAC_RULE_CTRL i) 19 16
    let bad := ∃ i, i < 128 ∧ (4 < action i ∨ action i = 0 ∧ 7 < target i ∨ action i = 1 ∧ 255 < target i ∨
      action i = 3 ∧ 15 < target i)
    Gives .macRcommit s fun t => t.bit c 31 = true ∧ t.bit c 30 = false ∧ SameMem s t ∧ (∀ a, a ≠ c → t.rd a = s.rd a) ∧
      (bad → t.fld c 15 8 = E_ARG ∧ t.act = s.act) ∧
      (¬bad → t.fld c 15 8 = OK ∧ ∀ a, R.MAC_RULE_CTRL 0 ≤ a → a < R.MAC_RULE_CTRL 128 → t.aRd a = s.rd a)) ∧
  ∀ (s : State) (e : BitVec 5),
    let n := e.toNat
    let c := R.MAC_FP_CTRL n
    let cfg := s.rd (R.MAC_FP_CFG n)
    let p := fldOf cfg 29 27
    let len := fldOf cfg 10 0
    let off := s.fld (R.MAC_FP_ADDR n) 21 0
    let armed := (s.fpPacket n).isSome = true
    let bad := 8 < fldOf cfg 26 23 ∨ len < 60 ∨ 1532 < len ∨ 0x400000 < off + len
    let full := 8192 < s.fpUsed p + len
    let arm (P : State → Prop) := Gives (.fpArm e) s P
    let refused (st : Nat) (t : State) := t = { s with regs := t.regs } ∧ t.fld c 15 8 = st ∧ ∀ a, a ≠ c → t.rd a = s.rd a
    let others (t : State) := ∀ k, k ≠ n → t.fpPacket k = s.fpPacket k
    let disarmed (t : State) := t.fpPacket n = none ∧ t.bit c 31 = false
    (armed → arm (refused E_STATE)) ∧
    (¬armed → bad → arm (refused E_ARG)) ∧
    (¬armed → ¬bad → full → arm (refused E_SPACE)) ∧
    (¬armed → ¬bad → ¬full → arm fun t => t.fld c 15 8 = OK ∧ t.bit c 31 = true ∧ SameMem s t ∧ others t ∧
      t.fpPacket n = some (s.rdBytes (SRAM_BASE + off) len) ∧ ∀ a, a ≠ c → t.rd a = s.rd a) ∧
    Gives (.fpDisarm e) s (fun t => disarmed t ∧ others t ∧ t.macs = s.macs ∧ SameMem s t ∧ ∀ a, a ≠ c → t.rd a = s.rd a) ∧
    (¬armed → Gives (.fpFire e) s (· = s)) ∧
    ∀ b, s.fpPacket n = some b → Gives (.fpFire e) s fun t => others t ∧ SameMem s t ∧
      (if bitOf cfg 31 then t.fpPacket n = some b else disarmed t) ∧
      let hushed := bitOf cfg 30 = true ∧ 1 < s.fld R.PAIR_ROLE 2 0
      let one (k : Nat) := t.fld (R.MAC_P_CNT p k) 31 0 = (s.fld (R.MAC_P_CNT p k) 31 0 + 1) % 2 ^ 32
      (hushed → one 17 ∧ t.macs = s.macs) ∧
      (¬hushed → s.linkUp p = false → one 14 ∧ t.macs = s.macs) ∧
      (¬hushed → s.linkUp p = true → t.mac p = { s.mac p with fpq := (s.mac p).fpq ++ [b] })

/-- Universe engine: sACN packets and merging, commits, keep-alive repeats, source timeouts and UNIV_SET (R200, R295,
R296, R297, R298, R300, R301, R303, R306, R307, R481, R517). -/
def Obligations.UniverseEngineResults : Prop :=
  (∀ (s : State) (e v : List Byte) (seq : Nat) (term : Bool), e.length = 32 → s.unv.name.length = 64 → v.length ≤ 512 →
    let d := s.sacnData e v seq term
    let at_ (i n : Nat) := beNat ((d.drop i).take n)
    d.length = 126 + v.length ∧ at_ 16 2 = 0x7000 + (110 + v.length) ∧ at_ 38 2 = 0x7000 + (88 + v.length) ∧
    at_ 115 2 = 0x7000 + (11 + v.length) ∧ (d.drop 44).take 64 = s.unv.name ∧ at_ 108 1 = leAt e 4 1 ∧
    at_ 109 2 = ueSync e ∧ at_ 111 1 = seq % 256 ∧ at_ 113 2 = ueUniv e ∧ at_ 123 2 = v.length + 1 ∧ at_ 125 1 = 0 ∧
    at_ 112 1 = b2n (ueFlag e 1) * 128 + b2n term * 64 + b2n (ueFlag e 3) * 32 ∧ d.drop 126 = v) ∧
  (∀ (s : State) (addr seq : Nat), let d := s.sacnSync addr seq
    d.length = 49 ∧ beNat ((d.drop 44).take 1) = seq % 256 ∧ beNat ((d.drop 45).take 2) = addr % 2 ^ 16) ∧
  (∀ (act : List SacnSrc) (k : Nat), k < 512 → act ≠ [] →
    let top (x : SacnSrc) := x ∈ act ∧ ∀ y, y ∈ act → y.prio ≤ x.prio
    let v := leAt (sacnMerge false act) k 1
    (∀ x, top x → leAt x.slots k 1 ≤ v) ∧ ∃ x, top x ∧ leAt x.slots k 1 = v) ∧
  (∀ (s : State) (f : Word) (p : Nat), p < 10 → s.linkUp p = true → s.unvSilent = false →
    ((s.unvSend f).mac p).unvq = (s.mac p).unvq ++ (s.unvPackets f (s.unvData f) p).map (fun x => (f, x.1, x.2)) ∧
    (s.unvSend f).rd R.UNV_FRAME = f) ∧
  (∀ (s : State) (i : BitVec 10) (cid : List Byte), Gives (.sacnSourceTimeout i cid) s fun t =>
    t.unvIn i.toNat = (s.unvIn i.toNat).filter (fun x => x.cid ≠ cid) ∧ (∀ j, j ≠ i.toNat → t.unvIn j = s.unvIn j) ∧
    t = { s with unv := { s.unv with inputs := t.unv.inputs } }) ∧
  (∀ (s : State), Regs.wf s.regs →
    let c := R.UNV_COMMIT
    let bad := 4096 < s.fld R.UNV_UCOUNT 31 16 ∨ 1024 < s.fld R.UNV_IN_CFG 10 0
    let name := s.fld R.UNV_NAME_HI 7 0 * 2 ^ 32 + s.fld R.UNV_NAME_LO 31 6 * 64
    Gives .unvCommit s fun t => t.bit c 31 = true ∧ t.act = s.act ∧ SameMem s t ∧
      t.unv.nameTaken = (s.writeNo + 1, s.oRdBytes name 64) :: s.unv.nameTaken ∧ t.unv.name = s.unv.name ∧
      (bad → t.bit c 30 = false ∧ t.fld c 15 8 = E_ARG) ∧
      (¬bad → t.bit c 30 = true ∧ t.fld c 15 8 = OK ∧ ∃ w, w ∈ t.waiting c ∧ w.no = s.writeNo + 1 ∧ w.at_ = s.now ∧
        w.rd R.UNV_CTRL = s.rd R.UNV_CTRL ∧ ∀ a, R.UNV_UTAB_LO ≤ a → a < R.UNV_STAT → w.rd a = s.rd a)) ∧
  (∀ (s : State),
    let silent := 3 ≤ s.fld R.PAIR_ROLE 2 0 ∨ s.fld R.PAIR_ROLE 2 0 = 2 ∧ s.bit R.PAIR_STAT 5 = true
    let may := s.aBit R.UNV_CTRL 0 = true ∧ s.unv.began = true ∧ ¬silent
    let k := s.unv.reps + 1
    let seq := (s.unv.frame.toNat + 128 * (k % 2)) % 256
    (¬may → Gives .unvKeepalive s (· = s)) ∧
    (may → (∀ x, x ∈ s.unv.built → x.1 < 10) → Gives .unvKeepalive s fun t =>
      t.unv = { s.unv with reps := k } ∧ t.bit R.UNV_STAT 1 = true ∧
      t.fld (R.UNV_CNT 3) 31 0 = (s.fld (R.UNV_CNT 3) 31 0 + 1) % 2 ^ 32 ∧ SameMem s t ∧ ∀ p, p < 10 →
        (s.linkUp p = true → (t.mac p).unvq = (s.mac p).unvq ++
          (s.unv.built.filter fun x => decide (x.1 = p)).map fun x => (s.unv.frame, x.2.1, (reseq seq x.2).2)) ∧
        (s.linkUp p = false → t.mac p = s.mac p))) ∧
  (∀ (seq m d c sp dp : Nat) (pl : List Byte), 112 ≤ pl.length → ∃ l, reseq seq (.data, .udp m d c sp dp pl) =
    (.data, .udp m d c sp dp l) ∧ ∀ i, l.getD i 0 = if i = 111 then BitVec.ofNat 8 seq else pl.getD i 0) ∧
  (∀ (e : List Byte), ueUniv e = 0 ∨ 63999 < ueUniv e ∨ 200 < leAt e 4 1 ∨ 15 < leAt e 5 1 ∨ ueSlots e = 0 ∨
    512 < ueSlots e ∨ 63999 < ueSync e ∨ 1023 < leAt e 10 2 ∨ 63 < leAt e 22 1 → ueBad e = true) ∧
  ∀ (s : State) (net : Bool) (r : Request) (rest : List Request), s.Asks net 0x0029 r rest →
    let i := leAt r.payload 0 4
    let e := r.payload.drop 4
    let a := r.frame
    let t' := s.univEdit r
    let bad := if 2 ^ 31 ≤ i then 4095 < i - 2 ^ 31 ∨ s.streamBad e = true
      else 65535 < i ∨ ueBad e = true ∨ ∃ f, f ∈ t'.univFrames a ∧ ueClashAt t' i f = true
    let late := (a - s.fnow).toInt < 2
    let full := (∃ f, f ∈ t'.univFrames a ∧ 64 < t'.syncCount f) ∨ s.packetsFit t' a = false
    let refused (st : Nat) := Gives (.univSet net) s (· = s.refusedReq r rest st)
    (bad → refused E_ARG) ∧ (¬bad → late → refused E_LATE) ∧ (¬bad → ¬late → full → refused E_SPACE) ∧
    (¬bad → ¬late → ¬full → Gives (.univSet net) s fun t => Answered s t r rest OK [] ∧ SameMem s t ∧ t.tbl = t' ∧
      t.slotWrites = insWrite (a + 1) (s.univAddr i (1 - a.toNat % 2)) (univRecord t' i (a + 1))
        (insWrite a (s.univAddr i (a.toNat % 2)) e s.slotWrites))

/-- DMX ports: commits, output packets, repeats, inputs and the RDM controller (R309, R310, R311, R312, R313, R315,
R316, R318, R319, R321, R322, R323). -/
def Obligations.DmxPortResults : Prop :=
  (∀ (u : List Byte) (k : Nat), u.length = 6 → k ≤ 7 →
    let enc (l : List Byte) := l.flatMap fun b => [b ||| 0xAA, b ||| 0x55]
    let sum := ((enc u).map (·.toNat)).sum
    rdmUid (List.replicate k 0xFE ++ [0xAA] ++ enc u ++ enc [BitVec.ofNat 8 (sum / 256), BitVec.ofNat 8 sum]) = some u) ∧
  ∀ (s : State) (p : BitVec 4),
    let n := p.toNat
    let own := s.langalOwns = true
    let x := s.dp n
    let c := R.DMX_P_COMMIT n
    let res := R.DMX_P_RDMRES n
    let st := s.fld (R.DMX_P_STAT n) 1 0
    let state (t : State) := t.fld (R.DMX_P_STAT n) 1 0
    let out := s.dmxOut n = true
    let locked := s.dmxLocked n = true
    let time (hi lo : Nat) (u : State) := u.aFld (R.DMX_P_TIME n) hi lo * 400
    let least (hi lo : Nat) (u : State) := u.aFld (R.DMX_P_TMIN n) hi lo * 400
    let started (k : Nat) (f : Word) (buf : List Byte) (brk mab : Nat) (t : State) := state t = k ∧ (t.dp n).frame = f ∧
      (t.dp n).buf = buf ∧ (t.dp n).brk = brk ∧ (t.dp n).mab = mab ∧ (t.dp n).due = none ∧ t.rd (R.DMX_P_FRAME n) = f ∧
      t.fld (R.DMX_P_CNT0 n) 31 0 = (s.fld (R.DMX_P_CNT0 n) 31 0 + 1) % 2 ^ 32 ∧ SameMem s t
    let packet (u : State) (f : Word) := (0 : Byte) :: u.slots (u.aFld (R.DMX_P_CFG n) 31 16) f (u.aFld (R.DMX_P_CFG n) 9 0)
    let at_ := s.dmxAtBreak n
    let free (u : State) := u.dmxOut n = true ∧ u.dmxLocked n = false
    let fixed (u : State) := u.dmxOut n = true ∧ u.dmxLocked n = true
    let asks := s.dmxMayDrive n = true ∧ s.aBit (R.DMX_P_CFG n) 12 = true
    let msg := s.rdmBytes n
    let noReply := rdmBroadcast msg = true ∧ rdmDisc msg = false
    let fits := ¬locked ∨ ((s.tsuNs + BitVec.ofNat 32 (s.aFld (R.DMX_P_RDMCFG n) 31 16 * 1000)) -
      s.nominal (s.fnow + 1)).toInt ≤ 0
    let asked (t : State) := (t.dp n).rdm = false ∧ SameMem s t ∧
      (noReply → t.rd res = BitVec.ofNat 32 0x80000000 ∧ state t = 0) ∧
      (¬noReply → state t = 3 ∧ (t.dp n).rdmSent = msg)
    let ended (status len : Nat) (t : State) := t.rd res = BitVec.ofNat 32 (0x80000000 + len % 512 * 256 + status) ∧
      state t = 0 ∧ (t.dp n).rdm = false
    (own → Gives (.dmxCommit p) s (· = s) ∧ Gives (.dmxRdmgo p) s (· = s)) ∧
    (¬own → Regs.wf s.regs →
      let brk := s.fld (R.DMX_P_TIME n) 31 22
      let mab := s.fld (R.DMX_P_TIME n) 21 14
      let bmin := s.fld (R.DMX_P_TMIN n) 31 22
      let mmin := s.fld (R.DMX_P_TMIN n) 21 14
      let keep := s.fld (R.DMX_P_RATE n) 31 22
      let per := s.fld (R.DMX_P_RATE n) 19 0
      let slots := s.fld (R.DMX_P_CFG n) 9 0
      let bad := brk < 92 ∨ 1000 < brk ∨ bmin < 92 ∨ brk < bmin ∨ mab < 12 ∨ mmin < 12 ∨ mab < mmin ∨ per < 1204 ∨
        1000000 < per ∨ keep = 0 ∨ 1000 < keep ∨ slots = 0 ∨ 512 < slots ∨
        s.bit (R.DMX_P_CFG n) 13 = true ∧ s.fld (R.DMX_P_TIME n) 13 6 ≠ 0 ∨
        s.bit (R.DMX_P_CFG n) 14 = true ∧ s.bit (R.DMX_P_CFG n) 12 = true
      Gives (.dmxCommit p) s fun t => t.bit c 31 = true ∧ t.act = s.act ∧ SameMem s t ∧ (∀ a, a ≠ c → t.rd a = s.rd a) ∧
        (bad → t.bit c 30 = false ∧ t.fld c 15 8 = E_ARG) ∧
        (¬bad → t.bit c 30 = true ∧ t.fld c 15 8 = OK ∧ ∃ w, w ∈ t.waiting c ∧ w.at_ = s.now ∧ w.ranges = dmxRanges n ∧
          ∀ a, inRanges (dmxRanges n) a = true → w.rd a = s.rd a)) ∧
    (let may := s.clocksRun = true ∧ (st = 0 ∨ s.dmxEn n = false)
     (¬may → Gives (.dmxCommitApply p) s (· = s)) ∧
     (∀ w, may → (s.commits.filter fun y => y.reg = c) = [w] → w.ok = true → w.ranges = dmxRanges n → Regs.wf w.vals →
       Gives (.dmxCommitApply p) s fun t => t.bit c 30 = false ∧ SameMem s t ∧ t.waiting c = [] ∧
        ∀ a, inRanges (dmxRanges n) a = true → t.aRd a = w.rd a)) ∧
    (x.due = none ∨ ¬out ∨ ¬locked ∨ st = 1 ∨ st = 3 → Gives (.dmxBreakStart p) s (· = s)) ∧
    (∀ f t0, x.due = some (f, t0) → out → locked → st ≠ 1 → st ≠ 3 →
      let l := if st = 2 then 0 else s.now - t0
      let brk := max (least 31 22 at_) (time 31 22 at_ - l)
      let mab := max (least 21 14 at_) (time 21 14 at_ - (l - (time 31 22 at_ - brk)))
      (at_.dmxOut n = true → Gives (.dmxBreakStart p) s (started 1 f (packet at_ f) brk mab)) ∧
      (at_.dmxOut n = false → Gives (.dmxBreakStart p) s (· = at_.rdmTry n))) ∧
    (¬out ∨ locked ∨ st ≠ 0 ∨ x.taken = none → Gives (.dmxFreePeriod p) s (· = s)) ∧
    (∀ f, out → ¬locked → st = 0 → x.taken.isSome = true → (at_.dp n).taken = some f →
      (free at_ → Gives (.dmxFreePeriod p) s (started 1 f (packet at_ f) (time 31 22 at_) (time 21 14 at_))) ∧
      (¬free at_ → Gives (.dmxFreePeriod p) s (· = at_.rdmTry n))) ∧
    (let may := out ∧ locked ∧ st = 0 ∧ x.sentAny = true ∧ x.due = none
     (¬may → Gives (.dmxRepeat p) s (· = s)) ∧
     (may → ¬fixed at_ → Gives (.dmxRepeat p) s (· = at_.rdmTry n)) ∧
     (may → fixed at_ → Gives (.dmxRepeat p) s fun t => started 2 x.frame x.buf (time 31 22 at_) (time 21 14 at_) t ∧
       t.fld (R.DMX_P_CNT1 n) 31 16 = (s.fld (R.DMX_P_CNT1 n) 31 16 + 1) % 2 ^ 16)) ∧
    (st ≠ 1 → st ≠ 2 → Gives (.dmxPacketEnd p) s (· = s)) ∧
    (st = 1 ∨ st = 2 → s.dmxTurns n (s.dmxDue n) = false →
      (x.rdm = true → ¬asks → Gives (.dmxPacketEnd p) s fun t => ended E_STATE 0 t ∧ SameMem s t) ∧
      (x.rdm = false ∨ asks ∧ (x.due.isSome = true ∨ ¬fits) → Gives (.dmxPacketEnd p) s fun t => state t = 0 ∧ SameMem s t ∧
        t.dp n = { x with driving := x.driving && s.dmxMayDrive n } ∧ ∀ a, a ≠ R.DMX_P_STAT n → t.rd a = s.rd a) ∧
      (x.rdm = true → asks → x.due = none → fits → Gives (.dmxPacketEnd p) s asked)) ∧
    (∀ code data framing, let rx (P : State → Prop) := Gives (.dmxInputPacket p code data framing) s P
      let input := ¬own ∧ s.dmxEn n = true ∧ s.dmxIn n = true
      let only (t : State) := t = { s with regs := t.regs } ∧ ∀ a, a ≠ R.DMX_P_CNT2 n → t.rd a = s.rd a
      (¬input → rx (· = s)) ∧
      (input → framing = true → rx fun t => only t ∧ t.fld (R.DMX_P_CNT2 n) 15 8 = (s.fld (R.DMX_P_CNT2 n) 15 8 + 1) % 256) ∧
      (input → framing = false → code ≠ 0 → rx fun t => only t ∧
        t.fld (R.DMX_P_CNT2 n) 7 0 = (s.fld (R.DMX_P_CNT2 n) 7 0 + 1) % 256) ∧
      (input → framing = false → code = 0 → rx fun t => SameMem s t ∧ t.bit (R.DMX_P_STAT n) 3 = true ∧
        (t.dp n).inGot = min 512 data.length ∧
        t.fld (R.DMX_P_CNT2 n) 31 16 = (s.fld (R.DMX_P_CNT2 n) 31 16 + 1) % 2 ^ 16 ∧
        ∀ k, k < 512 → (t.dp n).inSlots.getD k 0 = if k < data.length then data.getD k 0 else x.inSlots.getD k 0)) ∧
    (own ∨ s.dmxIn n = false → Gives (.dmxInputLoss p) s (· = s)) ∧
    (¬own → s.dmxIn n = true → Gives (.dmxInputLoss p) s fun t => t.bit (R.DMX_P_STAT n) 3 = false ∧
      t = { s with regs := t.regs } ∧ ∀ a, a ≠ R.DMX_P_STAT n → t.rd a = s.rd a) ∧
    (let may := asks
     (x.rdm = true ∨ st = 3 → Gives (.dmxRdmgo p) s (· = s)) ∧
     (¬own → x.rdm = false → st ≠ 3 →
       (¬may → Gives (.dmxRdmgo p) s fun t => t.rd res = BitVec.ofNat 32 (0x80000000 + E_STATE) ∧ state t = st ∧
         (t.dp n).rdm = false ∧ SameMem s t) ∧
       (may → st ≠ 0 ∨ x.due.isSome = true ∨ ¬fits → Gives (.dmxRdmgo p) s fun t => t.bit res 31 = false ∧
         (t.dp n).rdm = true ∧ state t = st ∧ SameMem s t) ∧
       (may → st = 0 → x.due = none → fits → Gives (.dmxRdmgo p) s asked))) ∧
    (∀ data framing, let rsp (P : State → Prop) := Gives (.dmxRdmResponse p data framing) s P
      let base := 0x4000000000 + s.fld (R.DMX_P_RDMREQ n) 21 0 + 0x200
      let stored (t : State) := base + data.length ≤ 0x4000400000 → ∀ m, t.rdB m =
        if base ≤ m ∧ m < base + data.length then data.getD (m - base) 0 else s.rdB m
      let disc := rdmDisc x.rdmSent = true
      (st ≠ 3 → rsp (· = s)) ∧
      (st = 3 → ¬disc → rsp fun t => stored t ∧
        ended (if framing = true ∨ rdmGood data = false then E_CHECK else OK) data.length t) ∧
      (st = 3 → disc → rdmUid data = none → rsp fun t => stored t ∧ ended E_CHECK data.length t) ∧
      (∀ u, st = 3 → disc → rdmUid data = some u → rsp fun t => stored t ∧ ended OK data.length t ∧
        t.rd (R.DMX_P_RDMUID_LO n) = BitVec.ofNat 32 (beNat (u.drop 2)) ∧
        t.rd (R.DMX_P_RDMUID_HI n) = BitVec.ofNat 32 (beNat (u.take 2)))) ∧
    (st ≠ 3 → Gives (.dmxRdmTimeout p) s (· = s)) ∧
    (st = 3 → Gives (.dmxRdmTimeout p) s fun t => ended E_ABSENT 0 t ∧ SameMem s t)

/-- Langal mode: the LCI instructions, the boot check, ticks and packets, and the LG-16 host bus with its commands
(R326, R327, R328, R329, R331, R335, R336, R337, R338, R339, R343, R344). -/
def Obligations.LangalResults : Prop :=
  (∀ (s : State),
    let e := s.lgl
    let w := s.lciWord
    let X := w.toNat / 256 % 16
    let y := s.la (w.toNat / 16 % 16)
    let z := s.la (w.toNat % 16)
    let x := s.la X
    let imm := w.toNat % 256
    let next := (s.lglPc + 1) % 4096
    let rel := (next + (BitVec.ofInt 12 (sext 8 imm)).toNat) % 4096
    let addr := (y.toNat + w.toNat % 16) % 65536
    let runs (op : Lci) := s.langalOwns = true ∧ s.fld R.LGL_STAT 1 0 = 2 ∧ e.waiting = false ∧ lciDecode w = op
    let one (i : Instr) (op : Lci) (P : State → Prop) := (¬runs op → Gives i s (· = s)) ∧
      (runs op → Gives i s fun t => SameMem s t ∧ t.lgl.prog = e.prog ∧ P t)
    let keeps (t : State) := t.lgl = e ∧ t.lglPc = next
    let sets (v : BitVec 16) (t : State) := (∀ i, t.la i = if i = X then v else s.la i) ∧ t.lglPc = next ∧
      t.lgl.data = e.data
    let res (v : BitVec 16) (c zf : Bool) (t : State) := sets v t ∧ t.lgl.c = c ∧ t.lgl.z = zf
    let goes (pc : Nat) (t : State) := t.lgl = e ∧ t.lglPc = pc
    let zero (v : BitVec 16) := decide (v = 0)
    one .lciNop .nop (fun t => keeps t ∧ (lciUndef w = true → t.bit R.LGL_STAT 9 = true ∧
      t.fld R.LGL_CNT 31 16 = (s.fld R.LGL_CNT 31 16 + 1) % 2 ^ 16)) ∧
    one .lciHalt .halt (fun t => t.fld R.LGL_STAT 1 0 = 1 ∧ t.lglPc = next ∧ t.lgl = { e with irq := e.irq ||| 4 }) ∧
    one .lciWaitt .waitt (fun t => t.lglPc = next ∧ t.lgl = { e with waiting := true, tickSeen := false }) ∧
    one .lciRet .ret (fun t => t.lgl = { e with top := t.lgl.top, depth := t.lgl.depth } ∧
      (e.depth = 0 → goes (e.stack.getD e.top 0).toNat t) ∧
      (e.depth ≠ 0 → t.lgl.depth = e.depth - 1 ∧ t.lgl.top = (e.top + 7) % 8 ∧
        t.lglPc = (e.stack.getD ((e.top + 7) % 8) 0).toNat)) ∧
    one .lciCall .call (fun t => t.lglPc = w.toNat % 4096 ∧ t.lgl = { e with stack := t.lgl.stack, top := t.lgl.top, depth := t.lgl.depth } ∧
      t.lgl.top = (e.top + 1) % 8 ∧ t.lgl.depth = min 8 (e.depth + 1) ∧
      ∀ i, t.lgl.stack.getD i 0 = if i = e.top then BitVec.ofNat 12 next else e.stack.getD i 0) ∧
    one .lciLdi .ldi (res (BitVec.ofNat 16 imm) e.c e.z) ∧
    one .lciLdh .ldh (res (BitVec.ofNat 16 (imm * 256 + x.toNat % 256)) e.c e.z) ∧
    one .lciAdd .add (res (y + z) (decide (65536 ≤ y.toNat + z.toNat)) (zero (y + z))) ∧
    one .lciSub .sub (res (y - z) (decide (y.toNat < z.toNat)) (zero (y - z))) ∧
    one .lciAnd .and (res (x &&& y) e.c (zero (x &&& y))) ∧
    one .lciOr .or (res (x ||| y) e.c (zero (x ||| y))) ∧
    one .lciXor .xor (res (x ^^^ y) e.c (zero (x ^^^ y))) ∧
    one .lciMov .mov (res y false (zero y)) ∧
    one .lciShl .shl (res (y <<< 1) (y.getLsbD 15) (zero (y <<< 1))) ∧
    one .lciShr .shr (res (y >>> 1) (y.getLsbD 0) (zero (y >>> 1))) ∧
    (let v := BitVec.ofNat 16 (min 0xFFFF (x.toNat + y.toNat))
     one .lciAdds .adds (res v (decide (0xFFFF < x.toNat + y.toNat)) (zero v))) ∧
    (let v := BitVec.ofNat 16 (x.toNat - y.toNat)
     one .lciSubs .subs (res v (decide (x.toNat < y.toNat)) (zero v))) ∧
    (let v := BitVec.ofNat 16 (x.toNat * y.toNat / 65536)
     one .lciMulh .mulh (fun t => res v t.lgl.c (zero v) t)) ∧
    (let v := x + BitVec.ofInt 16 (sext 8 imm)
     one .lciAddi .addi (res v (decide (65536 ≤ x.toNat + (BitVec.ofInt 16 (sext 8 imm)).toNat)) (zero v))) ∧
    one .lciLd .ld (res (s.lglLoad addr) e.c e.z) ∧
    one .lciSt .st (fun t => t.lglPc = next ∧ t.lgl.a = e.a ∧ t.lgl.c = e.c ∧ t.lgl.z = e.z ∧ ∀ a, t.lglLoad a =
      if a = addr ∧ a < 0x2000 then x &&& 0xFF else if a = addr ∧ (a < 0x4800 ∨ a = 0x5000) then x else s.lglLoad a) ∧
    one .lciBz .bz (goes (if x = 0 then rel else next)) ∧
    one .lciBnz .bnz (goes (if x = 0 then next else rel)) ∧
    one .lciBc .bc (goes (if X = 0 ∧ e.c = true ∨ X = 1 ∧ e.c = false ∨ X = 2 ∧ e.z = true ∨ X = 3 ∧ e.z = false
      then rel else next)) ∧
    one .lciJmp .jmp (goes (w.toNat % 4096)) ∧
    (let f := (y.toNat : Int) + ((z.toNat : Int) - y.toNat) * (s.la 14).toNat / 65536
     one .lciFade .fade (res (if s.la 14 = 0xFFFF then z else BitVec.ofInt 16 f) e.c e.z)) ∧
    (let v : BitVec 16 := if w.toNat / 16 % 16 = 0xB then e.h2e.setWidth 16
       else if w.toNat / 16 % 16 = 0xD then BitVec.ofNat 16 (s.fld R.LGL_TICK 7 0) else 0xFF
     one .lciIn .inp (res v e.c e.z)) ∧
    one .lciOut .out (fun t => t.lglPc = next ∧ (w.toNat / 16 % 16 ≠ 0xC → t.lgl = e) ∧
      (w.toNat / 16 % 16 = 0xC → t.lgl = { e with e2h := BitVec.ofNat 8 x.toNat, irq := e.irq ||| 2 })) ∧
    (e.waiting = true → e.tickSeen = true → Gives .lciWaittResume s fun t =>
      t = { s with lgl := { e with waiting := false, tickSeen := false } }) ∧
    (e.waiting = false ∨ e.tickSeen = false → Gives .lciWaittResume s (· = s))) ∧
  (∀ (s : State),
    let e := s.lgl
    let own := s.langalOwns = true
    let ready := own ∧ s.fld R.LGL_STAT 1 0 ≠ 0
    let state (t : State) := t.fld R.LGL_STAT 1 0
    (∀ ok spareOk, let boot (P : State → Prop) := Gives (.langalBootCheck ok spareOk) s P
      let r := s.takeSpare 7 0
      let loaded (t : State) := t.lgl.prog = e.nvProg ∧ t.lgl.data = e.nvCues ∧ t.lgl.busy = false ∧ t.lglPc = 0 ∧
        state t = (if e.nvAutorun then 2 else 1) ∧ t.rd R.LGL_TANCH = s.tsuNs + BitVec.ofNat 32 10000000 ∧ t.lgl.ticked = false ∧
        t.lgl.snap = e.snap ∧ t.lgl.snapEn = e.snapEn ∧ t.lgl.trim = e.trim ∧ t.lgl.trimNext = e.nvTrim
      (¬own ∨ state s ≠ 0 → boot (· = s)) ∧
      (own → state s = 0 → ok = true ∨ r.1 = true ∧ spareOk = true → boot loaded) ∧
      (own → state s = 0 → ok = false → r.1 = false ∨ spareOk = false → boot fun t => t.lgl.absent = true ∧ state t = 0)) ∧
    (let n : Word := if e.ticked then s.rd R.LGL_TICK + 1 else 0
     let due := 0 ≤ (s.tsuNs - (s.rd R.LGL_TANCH + n * 25000000)).toInt
     let base := s.fld R.LGL_MIRROR_HI 7 0 * 2 ^ 32 + s.fld R.LGL_MIRROR_LO 31 15 * 32768 + n.toNat % 2 * 0x4000
     let mirror := s.fld R.SYS_STRAP 5 4 = 2 ∧ s.bit R.LGL_CTRL 2 = true
     (¬ready ∨ ¬due → Gives .langalTick s (· = s)) ∧
     (ready → due → Gives .langalTick s fun t => t.rd R.LGL_TICK = n ∧ t.lgl.ticked = true ∧
       (∀ a, a < 0x2000 → mget (fun _ => 0) t.lgl.snap a = mget (fun _ => 0) e.data a) ∧ t.lgl.snapEn = e.portEn ∧
       t.lgl.trim = e.trimNext ∧ t.lgl.toggle = !e.toggle ∧ t.lgl.irq = e.irq ||| 8 ∧ t.lgl.tickSeen = e.waiting ∧
       mget (fun _ => false) t.icuPend 0x151 = true ∧ (¬mirror → SameMem s t) ∧
       (mirror → base + 8196 ≤ 0x800000000 → ∀ m, (m < base ∨ base + 8196 ≤ m → t.rdB m = s.rdB m) ∧
         (base ≤ m → m < base + 8192 → t.rdB m = t.lglSlot ((m - base) / 512) ((m - base) % 512)) ∧
         (base + 8192 ≤ m → m < base + 8196 → t.rdB m = BitVec.ofNat 8 (n.toNat / 256 ^ (m - base - 8192)))))) ∧
    (∀ (p : BitVec 4), let n := p.toNat
      let sends := own ∧ (e.ticked = true ∨ e.snapEn ≠ 0)
      (¬sends → Gives (.langalPortPacket p) s (· = s)) ∧
      (sends → e.snapEn.getLsbD n = false → Gives (.langalPortPacket p) s fun t =>
        t = s.setDp n { s.dp n with driving := false }) ∧
      (sends → e.snapEn.getLsbD n = true → Gives (.langalPortPacket p) s fun t =>
        mget (fun _ => []) t.lgl.sent n = 0 :: (List.range 512).map (s.lglSlot n) ∧ (t.dp n).driving = true ∧
        (t.dp n).brk = 100 * 400 ∧ (t.dp n).mab = 12 * 400)) ∧
    (¬own → Gives .lglHstatusRead s (· = s)) ∧
    (own → Gives .lglHstatusRead s fun t => t = { s with lgl := { e with out := t.lgl.out, firstRead := false } } ∧
      (e.absent = true → t.lgl.out = 0xC0) ∧ (e.absent = false → ¬ready → t.lgl.out = 0x80) ∧
      (e.absent = false → ready → t.lgl.out.getLsbD 7 = (e.busy || e.firstRead) ∧ t.lgl.out.getLsbD 6 = e.err ∧
        t.lgl.out.getLsbD 5 = s.bit R.LGL_STAT 4 ∧ t.lgl.out.getLsbD 4 = decide (state s = 2) ∧
        t.lgl.out.getLsbD 3 = e.toggle ∧ t.lgl.out.getLsbD 2 = e.autorun)) ∧
    (∀ b, (¬ready → Gives (.lglHaddrhWrite b) s (· = s) ∧ Gives (.lglHspaceWrite b) s (· = s)) ∧
      (ready → Gives (.lglHaddrhWrite b) s (fun t => t.lgl = { e with
          addrh := b, ptr := (b.toNat * 256 + e.addrl.toNat) % spaceSize e.space, pre := t.lgl.pre } ∧
          t.lgl.pre = t.lhbByte) ∧
        Gives (.lglHspaceWrite b) s fun t => t.lgl = { e with space := b.toNat % 4, pre := t.lgl.pre } ∧ t.lgl.pre = t.lhbByte)) ∧
    (∀ w, let acc (P : State → Prop) := Gives (.lglHdataAccess w) s P
      let discard := s.bit R.LGL_STAT 4 = false ∧ e.space ≠ 3 ∨ e.space = 0 ∧ state s = 2
      let moved := (e.ptr + 1) % spaceSize e.space
      (¬own → acc (· = s)) ∧
      (own → ¬ready → acc fun t => t = { s with lgl := { e with out := t.lgl.out } }) ∧
      (ready → w = none → acc fun t => t.lgl = { e with out := e.pre, ptr := moved, pre := t.lgl.pre } ∧ t.lgl.pre = t.lhbByte) ∧
      (∀ v, ready → w = some v → discard → acc fun t => t.lgl = { e with err := true, ptr := moved, pre := t.lgl.pre }) ∧
      (∀ v, ready → w = some v → ¬discard → acc fun t => t.lgl.ptr = moved ∧ t.lgl.err = e.err ∧
        (e.space = 0 → ∀ b, wordByte (mget (fun _ => 0) t.lgl.prog (b / 2)) b =
          if b = e.ptr % 8192 then v else wordByte (mget (fun _ => 0) e.prog (b / 2)) b) ∧
        (e.space = 2 → ∀ k, mget (fun _ => 0) t.lgl.stage k = if k = e.ptr % 4096 then v else mget (fun _ => 0) e.stage k) ∧
        (e.space = 3 → ∀ k, t.lgl.pw.getD k 0 = if k = e.ptr % 8 then v else e.pw.getD k 0)))) ∧
  ∀ (s : State),
    let e := s.lgl
    let ready := s.langalOwns = true ∧ s.fld R.LGL_STAT 1 0 ≠ 0
    let session := s.bit R.LGL_STAT 4 = true
    let running := s.fld R.LGL_STAT 1 0 = 2
    let arg := e.arg1.toNat * 256 + e.arg0.toNat
    let begun (st : Nat) : Langal := { e with busy := true, firstRead := true, err := false, pendRes := BitVec.ofNat 8 st }
    let refused (i : Instr) (st : Nat) := Gives i s fun t => t = { s with lgl := begun st, icuPend := t.icuPend }
    let done (i : Instr) (P : State → Prop) := Gives i s fun t => t.lgl.busy = true ∧ t.lgl.firstRead = true ∧
      t.lgl.err = false ∧ t.lgl.pendRes = 0 ∧ mget (fun _ => false) t.icuPend 0x150 = true ∧ SameMem s t ∧ P t
    let p := e.arg0.toNat % 16
    let staged (v : Nat) := (mget (fun _ => 0) e.stage (p * 256 + v)).toNat
    let plausible := (∀ v, v < 255 → staged v ≤ staged (v + 1)) ∧ ∀ v, v < 256 → staged v ≤ v + 48 ∧ v ≤ staged v + 48
    let sum := (e.prog.map fun x => x.2.toNat).sum % 65536
    let right := sha256 ((List.range 16).map Config.uidByte ++ e.pw) = e.nvHash
    (∀ i, i ∈ [Instr.lglRun, .lglStop, .lglStore, .lglTrim, .lglAutorun, .lglLogin, .lglSetpw, .lglLogout] →
      (¬ready → Gives i s (· = s)) ∧ (ready → e.busy = true → Gives i s fun t => t = { s with lgl := { e with err := true } })) ∧
    (ready → e.busy = false →
      (∀ i, i ∈ [Instr.lglRun, .lglStop, .lglStore, .lglTrim, .lglAutorun, .lglSetpw] → ¬session → refused i E_AUTH) ∧
      (session → running → refused .lglRun E_STATE ∧ refused .lglStore E_STATE) ∧
      (session → ¬running → done .lglRun fun t => t.fld R.LGL_STAT 1 0 = 2 ∧ t.lglPc = arg % 4096 ∧
        (∀ i, t.la i = 0) ∧ t.lgl.c = false ∧ t.lgl.z = false ∧ t.lgl.depth = 0) ∧
      (session → done .lglStop fun t => t.fld R.LGL_STAT 1 0 = 1) ∧
      (session → ¬running → sum ≠ arg → refused .lglStore E_CHECK) ∧
      (session → ¬running → sum = arg → done .lglStore fun t => t.lgl.nvProg = e.prog ∧
        ∀ a, mget (fun _ => 0) t.lgl.nvCues a = if 0x2000 ≤ a ∧ a < 0x4000 then mget (fun _ => 0) e.data a else 0) ∧
      (session → 2 ≤ s.fld R.KEY_LC 2 0 → refused .lglTrim E_STATE) ∧
      (session → s.fld R.KEY_LC 2 0 < 2 → ¬plausible → refused .lglTrim E_CHECK) ∧
      (session → s.fld R.KEY_LC 2 0 < 2 → plausible → done .lglTrim fun t => t.lgl.nvTrim = t.lgl.trimNext ∧
        ∀ q v, q < 16 → v < 256 → mget (fun i => BitVec.ofNat 8 i) t.lgl.trimNext (q * 256 + v) =
          if q = p then BitVec.ofNat 8 (staged v) else mget (fun i => BitVec.ofNat 8 i) e.trimNext (q * 256 + v)) ∧
      (session → done .lglAutorun fun t => t.lgl.autorun = e.arg0.getLsbD 0 ∧ t.lgl.nvAutorun = e.arg0.getLsbD 0) ∧
      (session → done .lglSetpw fun t => t.lgl.nvHash = sha256 ((List.range 16).map Config.uidByte ++ e.pw)) ∧
      done .lglLogout (fun t => t.bit R.LGL_STAT 4 = false) ∧
      (s.bit R.LGL_STAT 8 = false → right → done .lglLogin fun t => t.bit R.LGL_STAT 4 = true ∧ t.lgl.fails = 0) ∧
      (s.bit R.LGL_STAT 8 = true ∨ ¬right → Gives .lglLogin s fun t => t.lgl = { begun E_AUTH with fails := e.fails + 1 } ∧
        t.bit R.LGL_STAT 4 = s.bit R.LGL_STAT 4 ∧ (2 ≤ e.fails → t.bit R.LGL_STAT 8 = true) ∧
        t.fld R.LGL_CNT 15 0 = (s.fld R.LGL_CNT 15 0 + 1) % 2 ^ 16)) ∧
    (¬ready ∨ e.busy = false → Gives .lglCommandDone s (· = s)) ∧
    (ready → e.busy = true → Gives .lglCommandDone s fun t =>
      t = { s with lgl := { e with busy := false, result := e.pendRes, irq := e.irq ||| 1 } }) ∧
    Gives .loginLockoutEnd s (fun t => t.lgl = { e with fails := 0 } ∧ t.bit R.LGL_STAT 8 = false)

/-- Host port: PCIe function reset and link, the DRAM aperture, bushel windows and burst channels (R41, R373, R374,
R377, R378, R379, R380, R381, R382). -/
def Obligations.HostPortResults : Prop :=
  (∀ (s : State) (a : Nat), bushelReach a = (inDram a || inScratch a) ∧
    s.hostLevel = ((s.host.sessions.filter fun x => x.isOpen && !sidNet x.id).map (·.role)).foldl max 0) ∧
  (∀ (s : State),
    let link := s.strict = false ∧ s.clocksRun = true
    (Gives .pcieReset s fun t => t.host.sessions = s.host.sessions.filter (fun x => sidNet x.id) ∧
      (∀ r, r ∈ t.host.reqs → r.net = false → r.drop = true) ∧ (∀ x, x ∈ t.host.resps → x.req.net = true) ∧
      t.showState = s.showState ∧ t.host.msixEn = false ∧ SameMem s t ∧
      t = { s with regs := t.regs, act := t.act, taken := t.taken, commits := t.commits, host := t.host,
                   icuPend := t.icuPend, chans := t.chans } ∧
      t.fld (R.MBX_EPOCH PARTY_HOST) 3 0 = (s.fld (R.MBX_EPOCH PARTY_HOST) 3 0 + 1) % 16 ∧
      (∀ a, a < 0x3000070000 ∨ 0x3000090000 ≤ a → a ≠ R.MBX_EPOCH PARTY_HOST → t.rd a = s.rd a) ∧
      (∀ a, 0x3000070000 ≤ a → a < 0x3000090000 → a ≠ R.HST_STATE →
        (∀ c, c < 4 → a ≠ R.BSH_B_RES c ∧ a ≠ R.BSH_B_COUNT c) → t.rd a = regReset a) ∧
      (∀ w, w < 8 → t.winArmed w = false) ∧
      ∀ c b, c < 4 → mget (fun _ => none) s.host.bursts c = some b → mget (fun _ => none) t.host.bursts c = none ∧
        t.rd (R.BSH_B_RES c) = BitVec.ofNat 32 (2 ^ 31 + E_FAULT) ∧ t.rd (R.BSH_B_COUNT c) = 0 ∧
        mget (fun _ => false) t.icuPend 0x147 = true) ∧
    (∀ m, Gives (.pcieLinkChange false m) s (· = { s with host := { s.host with linkUp := false } }) ∧
      (¬link → Gives (.pcieLinkChange true m) s (· = s)) ∧
      (link → Gives (.pcieLinkChange true m) s fun t => t.host.linkUp = true ∧ t.host.msixEn = m ∧ SameMem s t ∧
        ((s.target 10).dlv = none → t = { s with host := { s.host with linkUp := true, msixEn := m } }))) ∧
    (∀ w, Gives (.hstAperWrite w) s fun t => t.fld R.HST_APER 4 0 = min 28 (w.toNat % 32) ∧
      t = { s with regs := t.regs } ∧ ∀ a, a ≠ R.HST_APER → t.rd a = s.rd a) ∧
    ∀ (off : Nat) (l : List Byte) (n : Nat), off + l.length ≤ 2 ^ 32 → off + n ≤ 2 ^ 32 → off < 2 ^ 32 →
      let a := s.fld R.HST_APER 4 0 * 2 ^ 30 + off
      let level (k : Nat) := k ≤ s.hostLevel ∨ s.upd.recovery = true
      (¬link → ∀ d, Gives (.dramApertureAccess off d n) s (· = s)) ∧
      (link → level 2 → Gives (.dramApertureAccess off (some l) n) s fun t => t = { s with mem := t.mem } ∧
        ∀ m, t.rdB m = if a ≤ m ∧ m < a + l.length then l.getD (m - a) 0 else s.rdB m) ∧
      (link → ¬level 2 → Gives (.dramApertureAccess off (some l) n) s (· = s.busRange a 1 0x03 0)) ∧
      (link → level 1 → Gives (.dramApertureAccess off none n) s (· =
        { s with host := { s.host with barRead := (List.range n).map fun i => s.rdB (a + i) } })) ∧
      (link → ¬level 1 → Gives (.dramApertureAccess off none n) s fun t => t.host.barRead = List.replicate n 0 ∧ SameMem s t)) ∧
  (∀ (s : State) (i : BitVec 3),
    let w := i.toNat
    let stat := R.BSH_W_STAT w
    let cnt := R.BSH_W_COUNT w
    let ptr := R.BSH_W_PTR w
    let mode := s.fld (R.BSH_W_CFG w) 1 0
    let row := s.fld (R.BSH_W_ROW w) 16 0
    let ext := s.fld (R.BSH_W_EXT w) 31 0
    let base := s.fld (R.BSH_W_BASE_HI w) 7 0 * 2 ^ 32 + s.fld (R.BSH_W_BASE_LO w) 31 0
    let link := s.strict = false ∧ s.clocksRun = true
    let on := s.bit stat 31 = true ∧ mode ≠ 0
    let armed := link ∧ on
    let stopped := s.bit stat 30 = true
    let suits := row ≠ 0 ∧ (mode = 2 → row = 1 ∨ row = 2 ∨ row = 4 ∨ row = 8) ∧ (mode = 3 → row ≤ 65536)
    (suits → Gives (.bshWindowArm i) s fun t => t.rd stat = BitVec.ofNat 32 (2 ^ 31) ∧ t.rd cnt = 0 ∧ t.rd ptr = 0 ∧
      SameMem s t ∧ (∀ o, o < 65536 → mget (fun _ => false) t.host.winDone (w * 65536 + o) = false) ∧
      ∀ a, a ≠ stat → a ≠ cnt → a ≠ ptr → t.rd a = s.rd a) ∧
    (¬suits → Gives (.bshWindowArm i) s fun t => t.fld stat 7 0 = E_ARG ∧ t.winArmed w = s.winArmed w ∧
      t = { s with regs := t.regs } ∧ ∀ a, a ≠ stat → t.rd a = s.rd a) ∧
    (Gives (.bshWindowDisarm i) s fun t => t.winArmed w = false ∧ t.winStop w = s.winStop w ∧ t = { s with regs := t.regs } ∧
      ∀ a, a ≠ stat → t.rd a = s.rd a) ∧
    (∀ off l n, ¬link → Gives (.bshWindowAccess i off (some l) n) s (· = s)) ∧
    (∀ off l n, link → ¬on → Gives (.bshWindowAccess i off (some l) n) s
      (· = s.busRangeRaw (w * 65536 + off % 65536) 1 0x01 w)) ∧
    (∀ off n, link → ¬on → Gives (.bshWindowAccess i off none n) s fun t => t.host.barRead = List.replicate n 0 ∧ SameMem s t) ∧
    (∀ o b l n, armed → o + l.length < 65536 → ∃ u, exec (.bshWindowAccess i o (some [b]) n) s = .next u ∧
      exec (.bshWindowAccess i o (some (b :: l)) n) s = exec (.bshWindowAccess i (o + 1) (some l) n) u) ∧
    (∀ o n, armed → o + n < 65536 → ∃ u v, exec (.bshWindowAccess i o none 1) s = .next u ∧
      exec (.bshWindowAccess i (o + 1) none n) u = .next v ∧
      exec (.bshWindowAccess i o none (n + 1)) s =
        .next { v with host := { v.host with barRead := u.host.barRead ++ v.host.barRead } }) ∧
    ∀ (o : Nat) (b : Byte) (n : Nat), armed → o < 65536 → mode = 1 ∨ 1 ≤ row →
      let p := s.fld ptr 31 0
      let a := if mode = 1 then (base + p) % 2 ^ 40
        else (((base : Int) + (o / row : Nat) * (s.rd (R.BSH_W_STRIDE w)).toInt + (o % row : Nat)) % (2 ^ 40 : Nat)).toNat
      let within := if mode = 1 then p < ext else o / row < ext
      let wr (P : State → Prop) := Gives (.bshWindowAccess i o (some [b]) n) s P
      let rd (P : State → Prop) := Gives (.bshWindowAccess i o none 1) s fun t => SameMem s t ∧ P t
      let halts (st : Nat) (t : State) := t.bit stat 30 = true ∧ t.fld stat 7 0 = st ∧ t.winArmed w = true ∧
        (∀ x, x ≠ stat → t.rd x = s.rd x) ∧ SameMem s t
      let counted (t : State) :=
        (mode = 1 → t.rd ptr = s.rd ptr + 1 ∧ t.rd cnt = s.rd cnt + 1) ∧
        (mode ≠ 1 → t.rd ptr = s.rd ptr ∧ t.rd cnt = if mget (fun _ => false) s.host.winDone (w * 65536 + o) then s.rd cnt
          else s.rd cnt + 1) ∧ t.rd stat = s.rd stat
      (stopped → wr (· = s) ∧ rd fun t => t = { s with host := { s.host with barRead := [0] } }) ∧
      (¬stopped → ¬within → wr (fun t => halts E_SPACE t ∧ t = { s with regs := t.regs }) ∧
        rd fun t => halts E_SPACE t ∧ t.host.barRead = [0]) ∧
      (¬stopped → within → bushelReach a = false → wr (fun t => ∃ u, halts E_ABSENT u ∧ t = u.busRange a 1 0x01 w) ∧
        rd fun t => t.bit stat 30 = true ∧ t.fld stat 7 0 = E_ABSENT ∧ t.host.barRead = [0]) ∧
      (¬stopped → within → bushelReach a = true →
        (s.hostLevel < 2 → wr fun t => halts E_AUTH t ∧ t = { s with regs := t.regs }) ∧
        (s.hostLevel < 1 → rd fun t => halts E_AUTH t ∧ t.host.barRead = [0]) ∧
        (2 ≤ s.hostLevel → wr fun t => counted t ∧ ∀ m, t.rdB m = if m = a then b else s.rdB m) ∧
        (1 ≤ s.hostLevel → rd fun t => counted t ∧ t.host.barRead = [s.rdB a]))) ∧
  ∀ (s : State) (k : BitVec 2),
    let c := k.toNat
    let res := R.BSH_B_RES c
    let running (t : State) := mget (fun _ => none) t.host.bursts c
    let ended (st n : Nat) (t : State) := t.rd res = BitVec.ofNat 32 (2 ^ 31 + st) ∧ t.rd (R.BSH_B_COUNT c) = BitVec.ofNat 32 n ∧
      running t = none ∧ mget (fun _ => false) t.icuPend 0x147 = true
    let dir := s.bit (R.BSH_B_ROWS c) 31
    let row := s.fld (R.BSH_B_ROW c) 16 0
    let rows := s.fld (R.BSH_B_ROWS c) 15 0
    let bad := row = 0 ∨ 65536 < row ∨ rows = 0
    let low := s.hostLevel < if dir then 1 else 2
    ((running s).isSome = true → Gives (.bshBurstGo k) s (· = s)) ∧
    (running s = none → bad → Gives (.bshBurstGo k) s fun t => ended E_ARG 0 t ∧ SameMem s t) ∧
    (running s = none → ¬bad → low → Gives (.bshBurstGo k) s fun t => ended E_AUTH 0 t ∧ SameMem s t) ∧
    (running s = none → ¬bad → ¬low → Gives (.bshBurstGo k) s fun t => t.bit res 31 = false ∧ SameMem s t ∧
      (∀ a, a ≠ res → t.rd a = s.rd a) ∧ t.host.sessions = s.host.sessions ∧ running t = some {
        haddr := s.fld (R.BSH_B_HADDR_HI c) 31 0 * 2 ^ 32 + s.fld (R.BSH_B_HADDR_LO c) 31 0,
        daddr := s.fld (R.BSH_B_DADDR_HI c) 7 0 * 2 ^ 32 + s.fld (R.BSH_B_DADDR_LO c) 31 0,
        row := row, rows := rows, dir := dir,
        dstride := (s.rd (R.BSH_B_DSTRIDE c)).toInt, hstride := (s.rd (R.BSH_B_HSTRIDE c)).toInt }) ∧
    (running s = none → ∀ data bad, Gives (.bshBurstEnd k data bad) s (· = s)) ∧
    ∀ (b : Burst) (data : List Byte) (bad : Option Nat), running s = some b → 1 ≤ b.row → b.row * b.rows ≤ data.length →
      let total := b.row * b.rows
      let stop := match bad with
        | some n => min total n
        | none => total
      let dev (i : Nat) := (((b.daddr : Int) + (i / b.row : Nat) * b.dstride + (i % b.row : Nat)) % (2 ^ 40 : Nat)).toNat
      let fin (P : State → Prop) := Gives (.bshBurstEnd k data bad) s P
      let moved (n : Nat) (t : State) := if b.dir then SameMem s t ∧
          t.host.burstOut.flatMap (·.2) = (List.range n).map (fun i => s.rdB (dev i)) ∧
          t.host.burstOut.map (·.1) = (List.range ((n + b.row - 1) / b.row)).map fun (r : Nat) =>
            (((b.haddr : Int) + r * b.hstride) % (2 ^ 64 : Nat)).toNat
        else ∀ m, t.rdB m = match ((List.range n).filter fun i => dev i = m).getLast? with
          | some i => data.getD i 0
          | none => s.rdB m
      ((∀ i, i < stop → bushelReach (dev i) = true) →
        fin fun t => ended (if stop = total then OK else E_FAULT) stop t ∧ moved stop t) ∧
      ∀ i, i < stop → bushelReach (dev i) = false → (∀ j, j < i → bushelReach (dev j) = true) →
        fin fun t => ended E_ABSENT i t ∧ moved i t

/-- Command frames and sessions: the checks of a request, responses, session life, and the show commands (R143, R200,
R383, R384, R385, R386, R388, R389, R390, R391, R392, R393). -/
def Obligations.SessionResults : Prop :=
  (∀ (s : State) (net : Bool) (addr port : Nat) (f : List Byte),
    let n := leAt f 20 2
    let form := f.length = 28 + n ∧ f.length ≤ 4096 ∧ leAt f 0 2 = 0x4350 ∧ leAt f 2 1 = 1 ∧ leAt f 3 1 = 0 ∧ n % 4 = 0 ∧
      leAt f (24 + n) 4 = (crc32c (f.take (24 + n))).toNat
    let al := leAt f 4 2
    let word (i : Nat) := BitVec.ofNat 32 (leAt f i 4)
    let body := (f.drop 24).take n
    let r : Request := ⟨net, addr, port, leAt f 6 2, word 8, word 12, word 16, body, false, false⟩
    let t := s.cmdArrives net addr port f
    let answers (u : State) (st : Nat) := t = { u with host := { u.host with resps := u.host.resps ++ [⟨r, st, [], none⟩] } }
    let waits (u : State) (q : Request) := t = { u with host := { u.host with reqs := u.host.reqs ++ [q] } }
    let first := r.code = 1 ∨ r.code = 2
    (¬form → t.fld R.HST_CNT 31 16 = (s.fld R.HST_CNT 31 16 + 1) % 2 ^ 16 ∧ SameMem s t ∧ t.host = if net then s.host
      else { s.host with resps := s.host.resps ++ [⟨{ net := false }, 0, [], some (cmdFrame 1 0 0 0 0 0 E_CHECK 0 [])⟩] }) ∧
    (form → first → al ≠ 0 → answers s E_ARG) ∧ (form → first → al = 0 → waits s r) ∧
    (form → ¬first → s.boundSession r = none → answers s E_AUTH) ∧
    ∀ x, form → ¬first → s.boundSession r = some x → x.rxLast < 2 ^ 16 →
      let u := s.updSession r.sid fun y => { y with rxLast := al, since := s.now }
      let q := { r with gap := decide ((al + 2 ^ 16 - x.rxLast) % 2 ^ 16 ≠ 1) }
      let answers (v : State) (st : Nat) := t = { v with host := { v.host with resps := v.host.resps ++ [⟨q, st, [], none⟩] } }
      (al = x.rxLast → t.fld R.HST_CNT 15 0 = (s.fld R.HST_CNT 15 0 + 1) % 2 ^ 16 ∧ t.host.reqs = s.host.reqs ∧
        (x.lastResp ≠ [] → t.host.resps = s.host.resps ++ [⟨r, 0, [], some x.lastResp⟩])) ∧
      (al ≠ x.rxLast →
        ((∀ e, e ∈ cmdTable → e.1 ≠ r.code) → answers u E_ARG) ∧
        ∀ low states, (r.code, low, states) ∈ cmdTable →
          let edits := (s.pairRole = 2 ∨ s.pairRole = 3) ∧ 0x0010 ≤ r.code ∧ r.code ≤ 0x002A ∧ r.code ≠ 0x0017
          (x.role < low → answers u E_AUTH) ∧
          (low ≤ x.role → states.testBit s.showState = true → ¬edits → waits u q) ∧
          (low ≤ x.role → states.testBit s.showState = false ∨ edits → ∃ v, answers v E_STATE ∧ v.host = u.host ∧
            v.fld R.HST_CMDERR 15 0 = r.code ∧ v.fld R.HST_CMDERR 23 16 = E_STATE ∧
            v.fld R.HST_CMDERR 26 24 = s.showState ∧ v.rd R.HST_CMDERR_SES = r.sid))) ∧
  (∀ (al code : Nat) (sid tag frame : Word) (pl : List Byte), pl.length % 4 = 0 → pl.length ≤ 4068 →
    cmdFormOk (cmdFrame 0 al code sid tag frame 0 0 pl) = true) ∧
  (∀ (s : State) (w : Word),
    let link := s.strict = false ∧ s.clocksRun = true
    (¬link → Gives (.hostDoorbell w) s (· = s)) ∧
    (link → s.hostBusy = true → Gives (.hostDoorbell w) s fun t => t.bit R.HST_RSP 30 = true ∧ t = { s with regs := t.regs } ∧
      t.bit R.HST_RSP 31 = s.bit R.HST_RSP 31 ∧ ∀ a, a ≠ R.HST_RSP → t.rd a = s.rd a) ∧
    (link → s.hostBusy = false → Gives (.hostDoorbell w) s (· = (s.setF R.HST_RSP 31 31 0).cmdArrives false 0 0
      (s.cmdBuf (min (w.toNat % 2 ^ 13) 4096)))) ∧
    (let q := s.fld R.HST_NET 7 0
     let may := s.bit R.HST_NET 8 = true ∧ s.qCons q G_MGMT = true ∧ ∀ r, r ∈ s.host.reqs → r.net = true → r.drop = true
     (¬may ∨ s.popFrame q = none → Gives .netCommandFrame s (· = s)) ∧
     ∀ b u, may → s.popFrame q = some (b, u) →
       let ip := frIp (b.drop 8)
       let udp := frUdp (b.drop 8)
       (ip = none ∨ udp = none → Gives .netCommandFrame s (· = u)) ∧
       ∀ i d, ip = some i → udp = some d → Gives .netCommandFrame s (· = if udpDport d = u.fld R.HST_NET 31 16 then
         u.cmdArrives true (ipSrc i * 65536 + udpSport d) (leAt b 2 1) (udpPayload d) else u)) ∧
    ∀ (net : Bool), (takeResp net s.host.resps = none → Gives (.commandResponse net) s (· = s)) ∧
      ∀ x rest, takeResp net s.host.resps = some (x, rest) →
        let r := x.req
        let sent (f : List Byte) (t : State) := SameMem s t ∧ t.host.resps = rest ∧ t.host.reqs = s.host.reqs ∧
          (net = true → t.host.udpOut = some (r.addr, f)) ∧
          (net = false → t.bit R.HST_RSP 31 = true ∧ t.fld R.HST_RSP 12 0 = f.length % 2 ^ 13 ∧
            mget (fun _ => false) t.icuPend 0x3F0 = true ∧
            ∀ i, i < 1024 → 4 * i + 4 ≤ f.length → t.rd (R.HST_RSPBUF i) = BitVec.ofNat 32 (leAt f (4 * i) 4))
        (∀ f, x.raw = some f → Gives (.commandResponse net) s fun t => sent f t ∧ t.host.sessions = s.host.sessions) ∧
        (x.raw = none →
          let plain := r.code = 1 ∨ r.code = 2
          let made (al : Nat) := cmdFrame 1 al r.code r.sid r.tag r.frame x.status (b2n r.gap) x.payload
          (plain ∨ s.session? r.sid = none → Gives (.commandResponse net) s (sent (made 0))) ∧
          ∀ y, ¬plain → s.session? r.sid = some y → y.isOpen = true → Gives (.commandResponse net) s fun t =>
            let al := (y.tx + 1) % 2 ^ 16
            sent (made al) t ∧ t.session? r.sid = some { y with tx := al, lastResp := made al })) ∧
  (∀ (s : State) (net : Bool) (r : Request) (rest : List Request),
    let no (i : Instr) (st : Nat) := Gives i s (· = s.refusedReq r rest st)
    (s.Asks net 0x0001 r rest →
      let role := leAt r.payload 0 1
      let key := leAt r.payload 4 4
      let mine := s.host.sessions.filter fun x => sidNet x.id == net
      let arg := role = 0 ∨ 5 < role ∨ r.payload.length ≠ 8 ∨ zeroBytes r.payload 1 4 = false
      let state := role = 5 ∧ s.lc ≠ 0 ∨ s.lc = 4
      let full := (if net then 16 else 4) ≤ mine.length
      let admits (a : KeyAttr) := a.usage.testBit U_MAC = true ∧ a.admits s.lc 0 0 = true ∧ a.roles.testBit (role - 1) = true
      let opens := Gives (.sessionOpen net) s fun t => ∃ x pl, t.host.sessions = s.host.sessions ++ [x] ∧ Answered s t r rest OK pl ∧
        pl = leBytes 4 x.id.toNat ++ x.nonce ∧ x.nonce.length = 16 ∧ x.isOpen = false ∧ x.role = role ∧ x.key = key ∧
        x.since = s.now ∧ x.addr = r.addr ∧ sidNet x.id = net ∧ (∀ y, y ∈ mine → sidSlot y.id ≠ sidSlot x.id) ∧
        t.host.nextSeq = s.host.nextSeq + 1 ∧ SameMem s t ∧ t.regs = s.regs
      (arg → no (.sessionOpen net) E_ARG) ∧ (¬arg → state → no (.sessionOpen net) E_STATE) ∧
      (¬arg → ¬state → full → no (.sessionOpen net) E_SPACE) ∧
      (¬arg → ¬state → ¬full →
        (key = 4094 → s.lc ≠ 0 → no (.sessionOpen net) E_ABSENT) ∧
        (key = 4094 → s.lc = 0 → (admits keyFactory.attr → opens) ∧ (¬admits keyFactory.attr → no (.sessionOpen net) E_ATTR)) ∧
        (key ≠ 4094 → s.keySlotOf key = none → no (.sessionOpen net) E_ABSENT) ∧
        ∀ n x, key ≠ 4094 → s.keySlotOf key = some (n, x) →
          let orphan := hdrPgen x.hdr ≠ s.gen (hdrParent x.hdr) ∨ s.parentRetired (hdrParent x.hdr) = true
          (orphan → no (.sessionOpen net) E_ORPHAN) ∧
          (¬orphan → ¬admits (attrOf (hdrAttr x.hdr)) → no (.sessionOpen net) E_ATTR) ∧
          (¬orphan → admits (attrOf (hdrAttr x.hdr)) → opens))) ∧
    (s.Asks net 0x0002 r rest →
      let auth (P : State → Prop) := Gives (.sessionAuth net) s P
      (s.session? r.sid = none → no (.sessionAuth net) E_AUTH) ∧
      ∀ x, s.session? r.sid = some x →
        let pends := x.isOpen = false ∧ sidNet x.id = net ∧ (net = true → x.addr = r.addr)
        let right := hmac (s.sessionKey x.key) (x.nonce ++ [BitVec.ofNat 8 x.role] ++ uidBytes) = r.payload
        (¬pends → no (.sessionAuth net) E_AUTH) ∧
        (pends → right → auth fun t => Answered s t r rest OK [] ∧ t = { s with host := t.host } ∧ t.host.sessions =
          s.host.sessions.map fun y => if y.id = r.sid then { y with isOpen := true, rxLast := 0, tx := 0, since := s.now } else y) ∧
        (pends → ¬right → auth fun t => Answered s t r rest E_CHECK [] ∧ t = { s with host := t.host } ∧
          t.host.sessions = s.host.sessions.filter fun y => y.id ≠ r.sid)) ∧
    (s.Asks net 0x0003 r rest → ∀ x, s.session? r.sid = some x → Gives (.sessionClose net) s fun t =>
      t.host.sessions = s.host.sessions.filter (fun y => !decide (y.id = r.sid)) ∧ t = { s with host := t.host } ∧
      t.host.resps = s.host.resps.filter (fun y => decide (y.req.sid ≠ r.sid)) ++
        [⟨r, 0, [], some (cmdFrame 1 ((x.tx + 1) % 2 ^ 16) 3 r.sid r.tag r.frame OK (b2n r.gap) [])⟩] ∧
      t.host.reqs = rest.map fun q => if q.sid = r.sid then { q with drop := true } else q) ∧
    (∀ sid, let gone (i : Instr) (p : Session → Prop) := Gives i s fun t => t = { s with host := t.host } ∧
        (∀ x, x ∈ t.host.sessions ↔ x ∈ s.host.sessions ∧ ¬(x.id = sid ∧ p x)) ∧
        ∀ x, x ∈ s.host.sessions → x.id = sid → p x → ∀ y, y ∈ t.host.resps → y.req.sid ≠ sid
      gone (.sessionAuthTimeout sid) (fun x => x.isOpen = false ∧ x.since + 10 * 400000000 ≤ s.now) ∧
      gone (.sessionIdleTimeout sid) fun x => x.isOpen = true ∧
        x.since + max 1 (s.fld R.HST_CFG 31 16) * 400000000 ≤ s.now) ∧
    (s.Asks net 0x0004 r rest → Gives (.status net) s fun t => Answered s t r rest OK (leBytes 4 s.showState ++
      leBytes 4 (s.rd R.FLK_FRAME).toNat ++ leBytes 4 (s.rd R.FLK_COMMITTED).toNat ++ leBytes 4 (s.rd R.FLT_NEXT).toNat) ∧
      t = { s with host := t.host }) ∧
    (s.Asks net 0x0005 r rest → Gives (.identify net) s fun t =>
      Answered s t r rest OK (leBytes 4 (s.rd R.SYS_ID).toNat ++ uidBytes ++ orderCode) ∧ t = { s with host := t.host }) ∧
    (∀ p, p ∈ [(Instr.sessionOpen net, 1), (.sessionAuth net, 2), (.sessionClose net, 3), (.status net, 4), (.identify net, 5),
        (.showLoad net, 0x10), (.showArm net, 0x11), (.showGo net, 0x12), (.showHold net, 0x13), (.showResume net, 0x14),
        (.showStop net, 0x15), (.showUnload net, 0x16), (.faultClear net, 0x17)] →
      (∀ q l, takeReq net s.host.reqs = some (q, l) → q.code ≠ p.2) → Gives p.1 s (· = s)) ∧
    (∀ p, p ∈ [(Instr.showLoad net, 0x10), (.showArm net, 0x11), (.showGo net, 0x12), (.showHold net, 0x13),
        (.showResume net, 0x14), (.showStop net, 0x15), (.showUnload net, 0x16), (.faultClear net, 0x17)] →
      takeReq net s.host.reqs = some (r, rest) → r.code = p.2 → r.drop = false → s.cmdOpen p.2 = false →
      Gives p.1 s fun t => Answered s t r rest E_STATE [] ∧ SameMem s t ∧ t.showState = s.showState ∧
        t.fld R.HST_CMDERR 15 0 = p.2 ∧ t.fld R.HST_CMDERR 23 16 = E_STATE ∧ t.fld R.HST_CMDERR 26 24 = s.showState ∧
        t.rd R.HST_CMDERR_SES = r.sid) ∧
    (s.Asks net 0x0010 r rest → Gives (.showLoad net) s fun t => Answered s t r rest OK [] ∧ t.showState = LOADED ∧ SameMem s t) ∧
    (∀ p, p ∈ [(Instr.showArm net, 0x11, ARMED), (.showGo net, 0x12, RUNNING), (.showHold net, 0x13, HELD),
        (.showResume net, 0x14, RUNNING), (.showStop net, 0x15, LOADED)] → s.Asks net p.2.1 r rest →
      let late := (r.frame - s.fnow).toInt < 2
      (late → no p.1 E_LATE) ∧
      (¬late → Gives p.1 s fun t => Answered s t r rest OK [] ∧ t.host.showAt = showInsert (p.2.1, p.2.2, r.frame) s.host.showAt ∧
        t.showState = s.showState ∧ SameMem s t ∧
        (p.2.2 = ARMED → s.flkEn = false → t.bit R.FLK_CTRL 0 = true ∧ t.rd R.FLK_ANCH_FRAME = r.frame ∧
          t.bit R.FLK_COMMIT 30 = true))) ∧
    (s.Asks net 0x0016 r rest → Gives (.showUnload net) s fun t => Answered s t r rest OK [] ∧ t.showState = IDLE ∧
      SameMem s t ∧ t.bit R.FLK_CTRL 0 = false ∧ t.flkEn = false ∧ t.host.showAt = [] ∧
      (∀ x, x ∈ t.commits → x.reg ≠ R.FLK_COMMIT) ∧ t.tbl = {} ∧ t.unv = {} ∧ (∀ g, g < 64 → t.rd (R.NRG_ZPWR g) = 0) ∧
      ∀ b a, b ∈ [0x30000D0000, 0x30000F0000, 0x3000100000, 0x3000120000] → b ≤ a → a < b + 0x10000 → t.rd a = regReset a) ∧
    (s.Asks net 0x0017 r rest → Gives (.faultClear net) s fun t => Answered s t r rest OK [] ∧ t.showState = LOADED ∧
      t.bit R.FLK_CTRL 0 = false ∧ t.host.showAt = [] ∧ SameMem s t ∧ t.pairRole = if s.pairRole = 4 then 3 else s.pairRole))

/-- KEY engine: what each operation answers, the GO write, the end of an operation, random words and tamper (R397,
R398, R400, R403, R404, R405, R406, R408, R410, R411, R413, R415). -/
def Obligations.KeyEngineResults : Prop :=
  (∀ (s : State) (i : Instr) (op : Nat), (i, op) ∈ [(Instr.keyOpLoad, 0x01), (.keyOpUnload, 0x02), (.keyOpDerive, 0x03),
      (.keyOpWrap, 0x04), (.keyOpDestroy, 0x05), (.keyOpHmac, 0x06), (.keyOpSign, 0x07), (.keyOpVerify, 0x08),
      (.keyOpGcmEnc, 0x09), (.keyOpGcmDec, 0x0A), (.keyOpAttest, 0x0B), (.keyOpLifecycle, 0x0C), (.keyOpSha256, 0x0D)] →
    let a := s.fld R.KEY_IN_HI 7 0 * 2 ^ 32 + s.fld R.KEY_IN_LO 31 0
    let o := s.fld R.KEY_OUT_HI 7 0 * 2 ^ 32 + s.fld R.KEY_OUT_LO 31 0
    let n := s.fld R.KEY_INLEN 15 0
    let named := s.fld R.KEY_OPCFG 31 24 = op
    let idle := s.bit R.KEY_RES 31 = true
    let reads := ∀ m, a ≤ m → m < a + n → hubReach m = true
    let r := s.keyRun op (s.fld R.KEY_OPCFG 21 16) ⟨s.fld R.KEY_OPCFG 10 8, s.fld R.KEY_OPCFG 0 0⟩ (s.rd R.KEY_ARG)
      (s.rdBytes a n) (s.fld R.KEY_OUTCAP 15 0)
    let writes := ∀ m, o ≤ m → m < o + r.out.length → hubReach m = true
    let pends (u : State) (d : KeyDone) (t : State) := t.keys = { u.keys with pend := some d } ∧ t.bit R.KEY_RES 31 = false ∧
      SameMem s t ∧ t.host = u.host
    (¬named → Gives i s (· = s)) ∧
    (named → ¬idle → Gives i s fun t => t.bit R.KEY_STATUS 9 = true ∧ t = { s with regs := t.regs } ∧
      ∀ x, x ≠ R.KEY_STATUS → t.rd x = s.rd x) ∧
    (named → idle → ¬reads → Gives i s fun t => t.keys = { s.keys with pend := some ⟨E_ABSENT, 0, [], o⟩ } ∧
      t.bit R.KEY_RES 31 = false ∧ SameMem s t) ∧
    (named → idle → reads → ¬writes → Gives i s fun t => t.keys = { s.keys with pend := some ⟨E_ABSENT, 0, [], o⟩ } ∧
      t.bit R.KEY_RES 31 = false ∧ SameMem s t) ∧
    (named → idle → reads → writes → Gives i s (pends r.st ⟨r.status, BitVec.ofNat 32 r.resv, r.out, o⟩))) ∧
  (∀ (s : State) (n : Nat) (w : KeyWho) (arg : Word) (inp : List Byte) (cap : Nat),
    let run (op : Nat) := s.keyRun op n w arg inp cap
    let fails (op st : Nat) := run op = s.keyErr st
    let does (op resv : Nat) (out : List Byte) (t : State) := run op = if cap < out.length then s.keyErr E_SPACE else ⟨OK, resv, out, t⟩
    let needs : List (Nat × Option Nat) := [(0x02, none), (0x03, some U_DERIVE), (0x04, none), (0x06, some U_MAC),
      (0x07, some U_SIGN), (0x09, some U_ENCRYPT), (0x0A, some U_ENCRYPT)]
    (s.lc = 4 → ∀ op, fails op E_STATE) ∧
    (s.lc ≠ 4 →
      (∀ op, op = 0 ∨ 0x0D < op → fails op E_ARG) ∧
      does 0x0D 0 (sha256 inp) s ∧
      (inp.length ≠ 160 → fails 0x08 E_ARG) ∧
      (let x (i : Nat) := beNat ((inp.drop (32 * i)).take 32)
       inp.length = 160 → run 0x08 = ⟨if ecVerify (x 0) (x 1) (x 2) (x 3) (x 4) then OK else E_CHECK, 0, [], s⟩) ∧
      (s.keySlot n = none → ∀ e, e ∈ needs → fails e.1 E_ABSENT) ∧
      (∀ k, s.keySlot n = some k →
        let at_ := attrOf (hdrAttr k.hdr)
        let admits := at_.lc.testBit s.lc = true ∧ at_.masters.testBit w.master = true ∧ (at_.world = 2 ∨ at_.world = w.world)
        let uses (u : Option Nat) := ∀ b, u = some b → at_.usage.testBit b = true
        (∀ e, e ∈ needs → ¬admits ∨ ¬uses e.2 → fails e.1 E_ATTR) ∧
        (admits →
          does 0x02 0 [] { s with keys := { s.keys with slots := s.keys.slots.filter fun e => e.1 ≠ n } } ∧
          (uses (some U_MAC) → does 0x06 0 (hmac k.mat inp) s) ∧
          (uses (some U_SIGN) → (hdrType k.hdr ≠ 2 → fails 0x07 E_ATTR) ∧
            (hdrType k.hdr = 2 → inp.length ≠ 32 → fails 0x07 E_ARG) ∧
            (hdrType k.hdr = 2 → inp.length = 32 → ∃ c, 1 ≤ c ∧ c < P256_N ∧
              does 0x07 0 (signBytes (beNat k.mat) inp c) s.useFree)) ∧
          (uses (some U_ENCRYPT) → (hdrType k.hdr ≠ 0 → fails 0x09 E_ATTR ∧ fails 0x0A E_ATTR) ∧
            (hdrType k.hdr = 0 → inp.length < 16 + leAt inp 12 4 → fails 0x09 E_ARG) ∧
            (hdrType k.hdr = 0 → inp.length < 32 + leAt inp 12 4 → fails 0x0A E_ARG) ∧
            (∀ iv aad text, hdrType k.hdr = 0 → k.mat.length = 32 → iv.length = 12 → aad.length < 2 ^ 32 →
              let head := iv ++ leBytes 4 aad.length ++ aad
              ∃ out, out.length = text.length + 16 ∧ (inp = head ++ text → does 0x09 0 out s) ∧
                (inp = head ++ out → does 0x0A 0 text s))) ∧
          (let st := s.wrapCheck (arg.toNat % 65536) (hdrId k.hdr) at_ w
           (st ≠ OK → fails 0x04 st) ∧
           (st = OK → k.hdr.length = 32 → k.mat.length = 32 → (s.parentKey (arg.toNat % 65536)).2.mat.length = 32 →
             ∃ out, does 0x04 0 out s.useFree ∧ out.length = 80 ∧ hdrId out = hdrId k.hdr ∧ hdrAttr out = hdrAttr k.hdr ∧
               hdrType out = hdrType k.hdr ∧ hdrParent out = arg.toNat % 65536 ∧
               hdrPgen out = s.gen (arg.toNat % 65536) % 65536 ∧ s.unwrap out = k.mat)) ∧
          (uses (some U_DERIVE) →
            let p := leAt inp 0 4
            let ctx := (inp.drop 4).take 16
            let a := attrOf (hdrAttr ctx)
            let bad := inp.length ≠ 28 ∨ 65535 < p
            (bad → fails 0x03 E_ARG) ∧
            (¬bad → (run 0x03).status = OK → ∃ d x, (run 0x03).resv = d ∧ (run 0x03).st = s.useFree.putSlot d x ∧
              hdrId x.hdr = hdrId ctx ∧ hdrAttr x.hdr = hdrAttr ctx ∧ hdrType x.hdr = hdrType ctx ∧ hdrParent x.hdr = p ∧
              a.lc.testBit s.lc = true ∧ a.within at_ = true ∧ s.wrapCheck p (hdrId ctx) a w = OK ∧
              (hdrType ctx ≠ 2 → x.mat = hmac k.mat ([0, 0, 0, 1] ++ inp.drop 20 ++ [0] ++ ctx ++ [0, 0, 1, 0])))))) ∧
      (let st := s.blobCheck inp w false
       let f := s.slotFor (inp.take 32)
       (st ≠ OK → fails 0x01 st) ∧ (st = OK → f.1 ≠ OK → fails 0x01 f.1) ∧
       (st = OK → f.1 = OK → arg.getLsbD 16 = false → does 0x01 f.2 [] (s.useFree.putSlot f.2 ⟨inp.take 32, s.unwrap inp⟩))) ∧
      (4095 < arg.toNat → fails 0x05 E_ARG) ∧
      (arg.toNat ≤ 4095 → s.gen arg.toNat = 0xFFFF → does 0x05 0 [] s) ∧
      (arg.toNat ≤ 4095 → s.gen arg.toNat ≠ 0xFFFF → s.keys.slots.length ≤ 64 → ∃ t, does 0x05 0 [] t ∧
        t.gen arg.toNat = s.gen arg.toNat + 1 ∧ (∀ q, q ≠ arg.toNat → t.gen q = s.gen q) ∧
        (∀ e, e ∈ t.keys.slots → e ∈ s.keys.slots ∧ hdrParent e.2.hdr ≠ arg.toNat ∧
          ∀ e', e' ∈ s.keys.slots → e' ∉ t.keys.slots → hdrParent e.2.hdr ≠ hdrId e'.2.hdr) ∧
        (∀ S : Nat → Prop, S arg.toNat → (∀ e, e ∈ s.keys.slots → S (hdrParent e.2.hdr) → S (hdrId e.2.hdr)) →
          ∀ e, e ∈ s.keys.slots → e ∉ t.keys.slots → S (hdrParent e.2.hdr)) ∧
        ∀ x, x ∈ t.host.sessions ↔ x ∈ s.host.sessions ∧
          ¬∃ e, e ∈ s.keys.slots ∧ e ∉ t.keys.slots ∧ hdrId e.2.hdr = x.key) ∧
      (s.rootValid = false → fails 0x0B E_STATE) ∧ (s.rootValid = true → inp.length ≠ 32 → fails 0x0B E_ARG) ∧
      (s.rootValid = true → inp.length = 32 → ∃ c, 1 ≤ c ∧ c < P256_N ∧
        does 0x0B 0 (s.statement inp ++ signBytes (attScalar s.keys.root) (sha256 (s.statement inp)) c) s.useFree) ∧
      (let dest := arg.toNat
       let zeroed (t : State) := t.rootValid = false ∧ t.keys = { s.keys with root := List.replicate 32 0, slots := [] } ∧
         t.lc = dest ∧ t.host = s.host ∧ SameMem s t
       (dest = 2 → s.lc = 1 → ∃ t, does 0x0C 0 [] t ∧ t.lc = 2 ∧ t.bit R.SNS_LOCK 0 = true ∧
         t.keys = { s.keys with evict := some 2 } ∧ t.host = s.host ∧ SameMem s t) ∧
       (dest = 3 ∧ (s.lc = 1 ∨ s.lc = 2) ∨ dest = 4 → ∃ t, does 0x0C 0 [] t ∧ zeroed t) ∧
       (dest = 1 → s.lc = 0 ∨ s.lc = 3 → inp = [] → ∃ t out, does 0x0C 0 out t ∧ t.lc = 1 ∧ t.rootValid = true ∧ t.keys.gens = [] ∧
         t.keys.slots = s.keys.slots ∧ t.keys.evict = some 1 ∧ t.rd R.SPR_TAMP_STAT = 0x80000000 ∧
         t.rd R.SPR_TAMP_TIME = 0 ∧ t.keys.kept = [] ∧ t.keys.root.length = 32 ∧ (∃ b, b ∈ t.keys.root ∧ b ≠ 0) ∧ out.length = 80 ∧
         out.take 16 = uidBytes) ∧
       (dest = 1 → s.lc = 0 ∨ s.lc = 3 → inp.length ≠ 0 → inp.length ≠ 80 → fails 0x0C E_ARG) ∧
       (¬(dest = 1 ∧ (s.lc = 0 ∨ s.lc = 3)) → ¬(dest = 2 ∧ s.lc = 1) → ¬(dest = 3 ∧ (s.lc = 1 ∨ s.lc = 2)) → dest ≠ 4 →
         fails 0x0C E_STATE)))) ∧
  (∀ (s : State),
    (s.keys.pend = none → Gives .keyOpDone s (· = s)) ∧
    (∀ d, s.keys.pend = some d → d.out.length < 2 ^ 16 → d.status < 256 → Gives .keyOpDone s fun t =>
      let o := d.addr
      t.keys = { s.keys with pend := none } ∧ t.bit R.KEY_RES 31 = true ∧ t.fld R.KEY_RES 23 8 = d.out.length ∧
      t.fld R.KEY_RES 7 0 = d.status ∧ t.rd R.KEY_RESV = d.resv ∧ mget (fun _ => false) t.icuPend 0x144 = true ∧
      ∀ m, t.rdB m = if o ≤ m ∧ m < o + d.out.length then d.out.getD (m - o) 0 else s.rdB m) ∧
    (∀ w, Gives (.keyTrngRead (some w)) s fun t => t.hostRead = w ∧ t.rd R.KEY_TRNG = w ∧
      t.bit R.KEY_TRNGST 0 = s.bit R.KEY_TRNGST 0 ∧ SameMem s t) ∧
    (Gives (.keyTrngRead none) s fun t => t.hostRead = s.rd R.KEY_TRNG ∧ t.rd R.KEY_TRNG = s.rd R.KEY_TRNG ∧
      t.bit R.KEY_TRNGST 0 = true ∧ SameMem s t) ∧
    ∀ k, let b := if k < 4 then k else k + 4
      let on := k ≤ 6 ∧ s.bit R.SPR_TAMP_CFG b = true
      let off := s.clocksRun = false
      (¬on → Gives (.tamperTrip k) s (· = s)) ∧
      (on → Gives (.tamperTrip k) s fun t => t.rootValid = false ∧ t.keys.root = List.replicate 32 0 ∧ t.keys.slots = [] ∧
        t.bit R.SPR_TAMP_STAT k = true ∧ t.bit R.SPR_TAMP_CFG 31 = false ∧ SameMem s t ∧
        (∀ d, s.keys.pend = some d → t.keys.pend = some ⟨E_FAULT, 0, [], d.addr⟩) ∧
        (s.fld R.SPR_TAMP_STAT 6 0 = 0 → t.rd R.SPR_TAMP_TIME = s.rd R.SPR_RTC_SEC) ∧
        (s.fld R.SPR_TAMP_STAT 6 0 ≠ 0 → t.rd R.SPR_TAMP_TIME = s.rd R.SPR_TAMP_TIME) ∧
        (∀ x, x ∈ t.host.sessions → ∀ e, e ∈ s.keys.slots → hdrId e.2.hdr ≠ x.key) ∧
        (off → t.keys.tamperDue = true ∧ t.lc = s.lc) ∧ (¬off → t.lc = if s.lc = 1 ∨ s.lc = 2 then 3 else s.lc)))

/-- Keys from the host: the checks on a blob and on a parent, the host commands, and the eviction after a life-cycle
move (R390, R400, R402, R403, R405, R408, R409, R410, R411, R412, R413). -/
def Obligations.KeyCommandResults : Prop :=
  (∀ (s : State) (b : List Byte) (w : KeyWho),
    let p := hdrParent b
    let k := s.parentKey p
    let a := attrOf (hdrAttr b)
    let id := leAt b 4 2
    let w32 := BitVec.ofNat 32 (leAt b 12 4)
    let formed := b.length = 80 ∧ b.take 3 = [0x4B, 0x42, 1] ∧ leAt b 3 1 ≤ 2 ∧ leAt b 10 2 = 0 ∧ leAt b 28 2 = 32 ∧
      leAt b 30 2 = 0 ∧ id ≤ 4095 ∧ id ≠ 0 ∧ id ≠ 1 ∧ id ≠ 4094 ∧ (p = 0xFFFF → id = 4095) ∧
      w32 &&& 0xE0E080E0 = 0 ∧ fldOf w32 9 8 ≠ 3
    let live := hdrPgen b = s.gen p ∧ (p = 0xFFFF ∨ s.gen p ≠ 0xFFFF)
    let admits := k.2.attr.usage.testBit U_WRAP = true ∧ k.2.attr.admits s.lc w.master w.world = true
    let tagged := gcmTag k.2.mat (blobIv b) (blobHdr b) (blobBody b) = blobTag b
    let fits := a.lc.testBit s.lc = true ∧ (id = 4095 ∨ a.within k.2.attr = true)
    let check := s.blobCheck b w false
    (¬formed → check = E_ARG) ∧ (formed → k.1 ≠ OK → check = k.1) ∧ (formed → k.1 = OK → ¬live → check = E_ORPHAN) ∧
    (formed → k.1 = OK → live → ¬admits → check = E_ATTR) ∧
    (formed → k.1 = OK → live → admits → ¬tagged → check = E_CHECK) ∧
    (formed → k.1 = OK → live → admits → tagged → ¬fits → check = E_ATTR) ∧
    (formed → k.1 = OK → live → admits → tagged → fits → check = OK)) ∧
  (∀ (s : State),
    s.parentKey 0xFFFF = (OK, keyDevice) ∧ (s.rootValid = false → (s.parentKey 0).1 = E_STATE) ∧
    (s.rootValid = true → s.parentKey 0 = (OK, keyRwk s.keys.root)) ∧ (s.lc = 0 → s.parentKey 4094 = (OK, keyFactory)) ∧
    (s.lc ≠ 0 → (s.parentKey 4094).1 = E_ABSENT) ∧
    (∀ p, p ∉ [0xFFFF, 0, 1, 4094] → s.keySlotOf p = none → (s.parentKey p).1 = E_ABSENT) ∧
    (∀ p n x, p ∉ [0xFFFF, 0, 1, 4094] → s.keySlotOf p = some (n, x) → s.parentKey p = (OK, ⟨x.mat, attrOf (hdrAttr x.hdr)⟩)) ∧
    (∀ p id a w,
      let k := s.parentKey p
      let admits := k.2.attr.usage.testBit U_WRAP = true ∧ k.2.attr.admits s.lc w.master w.world = true
      let retired := p ≠ 0xFFFF ∧ s.gen p = 0xFFFF
      let check := s.wrapCheck p id a w
      (p = 0xFFFF → id ≠ 4095 → check = E_ARG) ∧
      (p ≠ 0xFFFF ∨ id = 4095 →
        (k.1 ≠ OK → check = k.1) ∧ (k.1 = OK → retired → check = E_ORPHAN) ∧
        (k.1 = OK → ¬retired → check = if admits ∧ (id = 4095 ∨ a.within k.2.attr = true) then OK else E_ATTR))) ∧
    ∀ h : List Byte,
      (∀ n x, s.keySlotOf (hdrId h) = some (n, x) → s.slotFor h = if x.hdr = h then (OK, n) else (E_STATE, 0)) ∧
      (s.keySlotOf (hdrId h) = none → (∀ n, n < 64 → (s.keySlot n).isSome = true) → (s.slotFor h).1 = E_SPACE) ∧
      ∀ n, s.keySlotOf (hdrId h) = none → n < 64 → s.keySlot n = none → (∀ m, m < n → (s.keySlot m).isSome = true) →
        s.slotFor h = (OK, n)) ∧
  (∀ (a b : KeyAttr), a.within b = true ↔
    (∀ i, a.masters.testBit i = true → b.masters.testBit i = true) ∧ (∀ i, a.lc.testBit i = true → b.lc.testBit i = true) ∧
      (b.world = 2 ∨ a.world = b.world)) ∧
  (∀ (s : State) (net : Bool) (r : Request) (rest : List Request),
    let u := { s with host := { s.host with reqs := rest } }
    let word := BitVec.ofNat 32 (leAt r.payload 0 4)
    let tail := r.payload.drop 4
    let answers (i : Instr) (x : KeyOut) := Gives i s fun t =>
      let ended := (s.session? r.sid).any (·.isOpen) = true ∧ x.st.session? r.sid = none
      let pl := if x.status = OK then leBytes 4 x.resv ++ x.out else []
      SameMem x.st t ∧ t.keys.slots = x.st.keys.slots ∧ t.keys.gens = x.st.keys.gens ∧ t.regs = x.st.regs ∧
      t.host.sessions = x.st.host.sessions ∧ (ended → t.host.resps = x.st.host.resps) ∧
      (¬ended → t.host.resps = x.st.host.resps ++ [⟨r, x.status, pl, none⟩])
    let run (op slot : Nat) (inp : List Byte) := u.keyRun op slot ⟨0, 0⟩ word inp 4064
    (s.Asks net 0x0040 r rest → answers (.keyLoad net) (run 0x01 0 tail)) ∧
    (s.Asks net 0x0041 r rest → answers (.keyDerive net) (run 0x03 (leAt r.payload 28 4) (r.payload.take 28))) ∧
    (s.Asks net 0x0042 r rest → answers (.keyDestroy net) (run 0x05 0 tail)) ∧
    (s.Asks net 0x0043 r rest → answers (.attest net) (run 0x0B 0 r.payload)) ∧
    (s.Asks net 0x0044 r rest →
      let dest := leAt r.payload 0 1
      let moves := u.keyRun 0x0C 0 ⟨0, 0⟩ (BitVec.ofNat 32 dest) tail 4064
      (dest ∉ [2, 3, 4] → answers (.lifecycleProvision net) moves) ∧
      (dest = 2 → answers (.lifecycleDeploy net) moves) ∧ (dest = 3 → answers (.lifecycleRma net) moves) ∧
      (dest = 4 → answers (.lifecycleScrap net) moves)) ∧
    (∀ p, p ∈ [(Instr.keyLoad net, 0x40), (.keyDerive net, 0x41), (.keyDestroy net, 0x42), (.attest net, 0x43),
        (.lifecycleProvision net, 0x44), (.lifecycleDeploy net, 0x44), (.lifecycleRma net, 0x44), (.lifecycleScrap net, 0x44)] →
      (∀ q l, takeReq net s.host.reqs = some (q, l) → q.code ≠ p.2) → Gives p.1 s (· = s))) ∧
  ∀ (s : State),
    let waits := (∃ x, x ∈ s.host.resps ∧ x.req.code = 0x0044) ∨ s.keys.pend ≠ none
    (s.keys.evict = none ∨ waits → Gives .lifecycleEvict s (· = s)) ∧
    ∀ lc, s.keys.evict = some lc → ¬waits → Gives .lifecycleEvict s fun t => t.keys.evict = none ∧ SameMem s t ∧
      t.regs = s.regs ∧ (∀ e, e ∈ t.keys.slots ↔ e ∈ s.keys.slots ∧ (attrOf (hdrAttr e.2.hdr)).lc.testBit lc = true) ∧
      ∀ x, x ∈ t.host.sessions ↔ x ∈ s.host.sessions ∧
        ¬∃ e, e ∈ s.keys.slots ∧ (attrOf (hdrAttr e.2.hdr)).lc.testBit lc = false ∧ hdrId e.2.hdr = x.key

/-- Energy: pulses, zones, temperature factors, mains cycles, latches and the reading of accounts (R416, R417, R418,
R420, R421, R422, R423, R424, R427). -/
def Obligations.EnergyResults : Prop :=
  (zoneFactor (fun i => if i = 4 then 0xF600 else if i = 5 then 0xF400 else 0) 20 5 10624 = 0xF567) ∧
  ∀ (s : State),
    let x := s.nrg
    let at_ (m : Map Nat) (k : Nat) := mget (fun _ => 0) m k
    let plus (m m' : Map Nat) (k n size : Nat) := ∀ j, at_ m' j = if j = k then (at_ m j + n) % size else at_ m j
    let runs := s.clocksRun = true
    let three := if s.bit R.NRG_CTRL 1 then 50000000 else 60000000
    let ns (tick : Nat) := (s.now - tick) * 5 / 2
    let far := three ≤ 4 * ns x.last
    let held := s.bit R.NRG_STAT 0 = false
    let mains := s.bit R.NRG_CTRL 2 = true
    let good := if 8 ≤ x.good then 8 else if 9 * three ≤ 30 * ns x.edge ∧ 30 * ns x.edge ≤ 11 * three then x.good + 1 else 0
    let counted (extra : Nat) (t : State) := t.nrg.cyc = x.cyc + 1 ∧ t.nrg.synth = x.synth + extra ∧ t.nrg.last = s.now ∧
      (t.nrg.due = true ↔ x.due = true ∨ s.bit R.NRG_CTRL 0 = true ∧ max 1 (s.fld R.NRG_N 15 0) ≤ x.cyc + 1) ∧
      t.nrg.imp = x.imp ∧ t.nrg.exp = x.exp ∧ t.nrg.zone = x.zone ∧ t.nrg.rem = x.rem ∧ SameMem s t
    let seen (t : State) := mget (fun _ => false) t.icuPend 0x018 = true
    let watched (t : State) := seen t ∧ t = { s with nrg := { x with edge := s.now, good := good }, icuPend := t.icuPend }
    let pair (t : State) (lo hi v : Nat) := t.rd lo = BitVec.ofNat 32 v ∧ t.rd hi = BitVec.ofNat 32 (v / 2 ^ 32)
    let latched (y : Nrg) (t : State) := (∀ i, i < 8 → pair t (R.NRG_PLS_LIMP_LO i) (R.NRG_PLS_LIMP_HI i) (at_ y.imp i) ∧
      pair t (R.NRG_PLS_LEXP_LO i) (R.NRG_PLS_LEXP_HI i) (at_ y.exp i) ∧
      t.rd (R.NRG_PLS_LCNTI i) = BitVec.ofNat 32 (at_ y.cntI i) ∧ t.rd (R.NRG_PLS_LCNTE i) = BitVec.ofNat 32 (at_ y.cntE i)) ∧
      ∀ g, g < 64 → pair t (R.NRG_ZLACC_LO g) (R.NRG_ZLACC_HI g) (at_ y.zone g)
    let only (t : State) := SameMem s t ∧ (x.latchAt ≠ some s.now → t = { s with nrg := t.nrg }) ∧
      (x.latchAt = some s.now → latched t.nrg t)
    (∀ (n : BitVec 3) (high : Bool),
      let c := s.rd (R.NRG_PLS_CFG n.toNat)
      let w := s.weightNow n.toNat
      let on := runs ∧ s.bit R.NRG_CTRL 0 = true ∧ bitOf c 31 = true
      let out := bitOf c 29 = true ∧ high = bitOf c 28
      let takes (P : Nrg → Prop) := Gives (.pulseQualify n high) s fun t => only t ∧ P t.nrg
      ((∀ e, mget (fun _ => none) x.wtWas n.toNat = some e → e.1 ≠ s.now) → w = (s.rd (R.NRG_PLS_WT n.toNat)).toNat) ∧
      (¬on → Gives (.pulseQualify n high) s (· = s)) ∧
      (on → out → takes fun y => y = { x with exp := y.exp, cntE := y.cntE } ∧ plus x.exp y.exp n.toNat w (2 ^ 56) ∧
        plus x.cntE y.cntE n.toNat 1 (2 ^ 32)) ∧
      (on → ¬out → takes fun y => y = { x with imp := y.imp, cntI := y.cntI } ∧ plus x.imp y.imp n.toNat w (2 ^ 56) ∧
        plus x.cntI y.cntI n.toNat 1 (2 ^ 32))) ∧
    (¬runs ∨ s.bit R.NRG_CTRL 3 = false → Gives .zoneIntegrate s (· = s)) ∧
    (runs → s.bit R.NRG_CTRL 3 = true → Gives .zoneIntegrate s fun t =>
      only t ∧ t.nrg = { x with rem := t.nrg.rem, zone := t.nrg.zone } ∧ ∀ g,
        let r := at_ x.rem g + (s.rd (R.NRG_ZPWR g)).toNat
        let on := g < 64 ∧ s.bit (R.NRG_ZCFG g) 31 = true
        at_ t.nrg.rem g = (if on then r % 1000000 else at_ x.rem g) ∧
        at_ t.nrg.zone g = (if on then (at_ x.zone g + r / 1000000) % 2 ^ 56 else at_ x.zone g)) ∧
    (runs → Gives .zoneTfUpdate s fun t => t = { s with regs := t.regs } ∧ (∀ a, (∀ g, g < 64 → a ≠ R.NRG_ZTF g) → t.rd a = s.rd a) ∧
      ∀ g, g < 64 →
        let c := s.rd (R.NRG_ZCFG g)
        let e (i : Nat) : Int := s.fld (R.NRG_TF g i) 23 0
        let u : Int := (max 1 (fldOf c 11 8) : Nat) * 256
        let p : Int := (BitVec.ofNat 16 (s.fld (R.SNS_TEMP (fldOf c 26 24)) 15 0)).toInt - (BitVec.ofNat 8 (fldOf c 23 16)).toInt * 256
        let i := (p / u).toNat
        (bitOf c 30 = false → t.rd (R.NRG_ZTF g) = 0x10000) ∧
        (bitOf c 30 = true → ((t.rd (R.NRG_ZTF g)).toNat : Int) = if p ≤ 0 then e 0 else if 31 ≤ i then e 31
          else e i + ((e (i + 1) - e i) * (p - i * u)).tdiv u)) ∧
    (¬runs → (Gives .mainsEdge s fun t => t = { s with springLatch := t.springLatch } ∧
        (s.fld R.PWC_STATE 2 0 = 3 → mget (fun _ => false) t.springLatch 0x018 = true)) ∧
      Gives .zoneTfUpdate s (· = s) ∧ Gives .mainsSyntheticCycle s (· = s) ∧ Gives .nrgLatch s (· = s)) ∧
    (runs →
      (¬mains ∨ x.synAt ≠ some s.now ∧ (held ∧ ¬far ∨ ¬held ∧ (x.good < 8 ∨ ¬far)) → Gives .mainsEdge s watched) ∧
      (mains → x.synAt = some s.now → x.lostAt = s.now ∧ x.lostN = 1 ∨ 8 ≤ x.good → Gives .mainsEdge s fun t => seen t ∧
        t.nrg = { x with edge := s.now, good := 0, synth := x.synth - 1, synAt := none } ∧ t.bit R.NRG_STAT 0 = false ∧
        SameMem s t ∧ ∀ a, a ≠ R.NRG_STAT → t.rd a = s.rd a) ∧
      (mains → x.synAt ≠ some s.now → held → far → Gives .mainsEdge s fun t => seen t ∧ counted 0 t ∧ t.nrg.edge = s.now ∧ t.nrg.good = good ∧ t.regs = s.regs) ∧
      (mains → x.synAt ≠ some s.now → ¬held → 8 ≤ x.good → far → Gives .mainsEdge s fun t => seen t ∧ counted 0 t ∧ t.bit R.NRG_STAT 0 = false ∧
        t.nrg.edge = s.now ∧ ∀ a, a ≠ R.NRG_STAT → t.rd a = s.rd a) ∧
      (held → 12 * ns x.last < 5 * three → Gives .mainsSyntheticCycle s (· = s)) ∧
      (held → 5 * three ≤ 12 * ns x.last → Gives .mainsSyntheticCycle s fun t => counted 1 t ∧ t.bit R.NRG_STAT 0 = true ∧
        t.nrg.lostAt = s.now ∧ t.nrg.lostN = 1 ∧ t.bit R.NRG_STAT 1 = (if mains then true else s.bit R.NRG_STAT 1) ∧
        (mains → t.flt = (s.log 0x0039 1 (s.rd R.NRG_LSEQ).toNat).flt)) ∧
      (¬held → ns x.lostAt < x.lostN * three / 3 → Gives .mainsSyntheticCycle s (· = s)) ∧
      (¬held → x.lostN * three / 3 ≤ ns x.lostAt → Gives .mainsSyntheticCycle s fun t => counted 1 t ∧
        t.nrg.lostN = x.lostN + 1 ∧ t.regs = s.regs) ∧
      (x.due = false → Gives .nrgLatch s (· = s)) ∧
      (x.due = true → Gives .nrgLatch s fun t =>
        latched x t ∧ t.rd R.NRG_LTIME = s.tsuNs ∧
        t.rd R.NRG_LFRAME = s.rd R.FLK_FRAME ∧ t.fld R.NRG_LCYC 15 0 = x.synth % 2 ^ 16 ∧
        t.rd R.NRG_LSEQ = s.rd R.NRG_LSEQ + 1 ∧ t.nrg = { x with cyc := 0, synth := 0, due := false, latchAt := some s.now } ∧ SameMem s t ∧
        mget (fun _ => false) t.icuPend 0x145 = true)) ∧
    (let reads (lo hi v : Nat) := Gives (.nrgLoRead lo) s fun t => t.hostRead = BitVec.ofNat 32 v ∧
       t.rd hi = BitVec.ofNat 32 (v / 2 ^ 32) ∧ t = { s with regs := t.regs, hostRead := t.hostRead } ∧ ∀ a, a ≠ hi → t.rd a = s.rd a
     (∀ i, i < 8 → reads (R.NRG_PLS_IMP_LO i) (R.NRG_PLS_IMP_HI i) (at_ x.imp i) ∧
       reads (R.NRG_PLS_EXP_LO i) (R.NRG_PLS_EXP_HI i) (at_ x.exp i)) ∧
     (∀ g, g < 64 → reads (R.NRG_ZACC_LO g) (R.NRG_ZACC_HI g) (at_ x.zone g)) ∧
     ∀ a, (∀ i, i < 8 → a ≠ R.NRG_PLS_IMP_LO i ∧ a ≠ R.NRG_PLS_EXP_LO i) → (∀ g, g < 64 → a ≠ R.NRG_ZACC_LO g) →
       Gives (.nrgLoRead a) s (· = { s with hostRead := s.rd a })) ∧
    (∀ w, Gives (.nrgNWrite w) s fun t => t.fld R.NRG_N 15 0 = max 1 (w.toNat % 2 ^ 16) ∧ t = { s with regs := t.regs } ∧
      ∀ a, a ≠ R.NRG_N → t.rd a = s.rd a) ∧
    ∀ net r rest, (s.Asks net 0x0061 r rest → Gives (.nrgRead net) s fun t => t = { s with host := t.host } ∧ ∃ pl,
        Answered s t r rest OK pl ∧ pl.length = 720 ∧ ∀ k lo n, (k, lo, n) ∈ [(0, R.NRG_LSEQ, 4), (208, R.NRG_ZLACC_LO 0, 2)] →
          ∀ j, j < n → leAt pl (k + 4 * j) 4 = (s.rd (lo + 4 * j)).toNat) ∧
      ((∀ q l, takeReq net s.host.reqs = some (q, l) → q.code ≠ 0x0061) → Gives (.nrgRead net) s (· = s))

/-- Calibration runs and the check units: refusals, results, CRC states, streams and alive slots (R121, R143, R428,
R429, R430, R431, R432, R433, R435, R436, R437). -/
def Obligations.CalibrationAndCheckResults : Prop :=
  (∀ (l : List Int), l ≠ [] → medianLow l ∈ l ∧
    (l.filter fun y => decide (y < medianLow l)).length ≤ (l.length - 1) / 2 ∧
    (l.length - 1) / 2 < (l.filter fun y => decide (y ≤ medianLow l)).length) ∧
  (∀ (s : State) (net : Bool) (r : Request) (rest : List Request), s.Asks net 0x0060 r rest →
    let l := r.payload
    let kind := leAt l 0 1
    let count := leAt l 4 4
    let inside (a n : Nat) := n = 0 ∨ inDram a = true ∧ inDram (a + n - 1) = true ∨ inScratch a = true ∧ inScratch (a + n - 1) = true ∨
      inHubSram a = true ∧ inHubSram (a + n - 1) = true
    let zero (i j : Nat) := zeroBytes l i j = true
    let ref := leAt l 1 1 = 0
    let formed := l.length = 44 ∧ leAt l 1 1 ≤ 1 ∧
      (kind = 1 ∧ 1 ≤ count ∧ count ≤ 4194304 ∧ (ref ∨ zero 32 44) ∨
       kind = 2 ∧ count ≤ 255 ∧ zero 8 32 ∧ zero 34 44 ∧ (ref ∨ zero 32 34) ∨ kind = 3 ∧ ¬ref ∧ zero 4 44)
    let state := 2 ≤ s.lc ∨ kind = 3 ∧ s.lc ≠ 0
    let reach := kind ≠ 1 ∨ inside (leAt l 8 8) (12 * count) ∧ inside (leAt l 16 8) (12 * count) ∧ inside (leAt l 24 8) (24 * count)
    ∀ i, i = (if kind = 2 then Instr.calRunSensor net else if kind = 3 then .calRunAdcOffset net else .calRunPixelGain net) →
      let no (st : Nat) := Gives i s (· = s.refusedReq r rest st)
      (s.calib.run ≠ none → no BUSY) ∧ (s.calib.run = none → ¬formed → no E_ARG) ∧
      (s.calib.run = none → formed → state → no E_STATE) ∧ (s.calib.run = none → formed → ¬state → ¬reach → no E_ABSENT) ∧
      (s.calib.run = none → formed → ¬state → reach → Gives i s fun t => t.calib = { s.calib with run := some r } ∧
        t.bit R.CAL_STAT 31 = true ∧ t.fld R.CAL_STAT 1 0 = kind ∧ t.bit R.CAL_RES 31 = false ∧ SameMem s t ∧
        t.host = { s.host with reqs := rest })) ∧
  (∀ (s : State) (net : Bool), (∀ q l, takeReq net s.host.reqs = some (q, l) → q.code ≠ 0x0060) →
    Gives (.calRunPixelGain net) s (· = s) ∧ Gives (.calRunSensor net) s (· = s) ∧ Gives (.calRunAdcOffset net) s (· = s)) ∧
  (∀ (s : State) (a b : List (List Nat)),
    (s.calib.run = none → Gives (.calRunDone a b) s (· = s)) ∧
    ∀ r, s.calib.run = some r →
      let l := r.payload
      let kind := leAt l 0 1
      let tol := leAt l 2 2
      let n := leAt l 4 4
      let open_ := s.session? r.sid ≠ none ∧ r.drop = false
      let ends (st nfail first maxdev : Nat) (t : State) := t.calib.run = none ∧ t.rd R.CAL_RES = BitVec.ofNat 32 (2 ^ 31 + st) ∧
        t.rd R.CAL_NFAIL = BitVec.ofNat 32 nfail ∧ t.rd R.CAL_FIRST = BitVec.ofNat 32 first ∧
        t.rd R.CAL_MAXDEV = BitVec.ofNat 32 maxdev ∧ t.bit R.CAL_STAT 31 = false ∧ mget (fun _ => false) t.icuPend 0x146 = true ∧
        t.rd R.CAL_RUNCNT = s.rd R.CAL_RUNCNT + (if st = OK then 1 else 0) ∧
        (open_ → t.host.resps = s.host.resps ++ [⟨r, st, leBytes 4 nfail ++ leBytes 4 first ++ leBytes 4 maxdev, none⟩])
      let done (P : State → Prop) := Gives (.calRunDone a b) s P
      (kind = 1 →
        let m (base i : Nat) := s.rdLe (base + 4 * i) 4
        let med (base c : Nat) := (medianLow ((List.range n).map fun p => (m base (3 * p + c) : Int))).toNat
        let target (base c : Nat) := if leAt l 1 1 = 0 then leAt l (32 + 4 * c) 4 else med base c
        let g (base i : Nat) := if m base i = 0 then 32767 else min 32767 ((target base (i % 3) * 8192 + m base i / 2) / m base i)
        let ga (i : Nat) := g (leAt l 8 8) i
        let gb (i : Nat) := g (leAt l 16 8) i
        let dev (i : Nat) := ((ga i : Int) - gb i).natAbs
        let out := leAt l 24 8
        (∃ maxdev, (∀ i, i < 3 * n → dev i ≤ maxdev) ∧ ((∃ i, i < 3 * n ∧ dev i = maxdev) ∨ maxdev = 0 ∧ n = 0) ∧
          ((∀ i, i < 3 * n → dev i ≤ tol) → done fun t => ends OK 0 0 maxdev t ∧
            (∀ p k, p < n → k < 12 → t.rdLe (out + 24 * p + 2 * k) 2 =
              if k % 5 = 0 then (ga (3 * p + k / 5) + gb (3 * p + k / 5) + 1) / 2 else 0) ∧
            ∀ x, x < out ∨ out + 24 * n ≤ x → t.rdB x = s.rdB x) ∧
          ∀ i, i < 3 * n → tol < dev i → (∀ j, j < i → dev j ≤ tol) → done fun t => SameMem s t ∧ ends E_CHECK
            ((List.range (3 * n)).filter fun j => decide (tol < dev j)).length i maxdev t)) ∧
      (kind = 2 → s.bit R.SNS_LOCK 0 = true ∨
          (∃ k, k < 8 ∧ n.testBit k = true ∧ s.bit R.SNS_CTRL k = true ∧ s.fld (R.SNS_TEMP k) 17 16 ≠ 0) →
        done fun t => ends E_STATE 0 0 0 t ∧ SameMem s t ∧ ∀ k i, k < 8 → i < 33 → t.rd (R.SNS_LIN k i) = s.rd (R.SNS_LIN k i)) ∧
      (kind = 3 → ∀ u v, a = [u] → b = [v] → u ≠ [] → v ≠ [] →
        let mean (w : List Nat) := (32 * w.sum + w.length) / (2 * w.length)
        let d := ((mean u : Int) - mean v).natAbs
        (d ≤ tol → done fun t => ends OK 0 0 d t ∧ SameMem s t ∧ t.fld R.CAL_ADCOFF 15 0 = (mean u + mean v + 1) / 2 % 2 ^ 16) ∧
        (tol < d → done fun t => ends E_CHECK 1 0 d t ∧ SameMem s t ∧ t.rd R.CAL_ADCOFF = s.rd R.CAL_ADCOFF))) ∧
  ∀ (s : State) (n : BitVec 4),
    let u := n.toNat
    let cfg := R.CHK_CFG u
    let stat := R.CHK_STAT u
    let w := s.fld cfg 6 0
    let width := 1 ≤ w ∧ w ≤ 64
    let pair (lo hi : Nat) (t : State) := (t.rd lo).toNat + (t.rd hi).toNat * 2 ^ 32
    let st := pair (R.CHK_STATE_LO u) (R.CHK_STATE_HI u)
    let par (lo hi : Nat) := pair lo hi s % 2 ^ w
    let p : CrcParam := ⟨par (R.CHK_POLY_LO u) (R.CHK_POLY_HI u), par (R.CHK_INIT_LO u) (R.CHK_INIT_HI u),
      par (R.CHK_XOR_LO u) (R.CHK_XOR_HI u), w, s.bit cfg 8, s.bit cfg 9⟩
    let busy := s.bit stat 30 = true
    let only (as : List Nat) (t : State) := t = { s with regs := t.regs } ∧ ∀ a, a ∉ as → t.rd a = s.rd a
    let state := [R.CHK_STATE_LO u, R.CHK_STATE_HI u]
    let err (t : State) := t.bit stat 29 = true ∧ t.bit stat 30 = true ∧ only [stat] t
    let bytes (l : List Byte) (t : State) := only state t ∧
      (width → st t = l.foldl (crcByte p) (st s % 2 ^ w)) ∧ (¬width → st t = st s)
    (busy → Gives (.chkStart n) s err ∧ Gives (.chkFinish n) s err ∧ Gives (.chkStream n) s err ∧
      ∀ x, Gives (.chkData8 n x) s err ∧ Gives (.chkData32 n x) s err) ∧
    (¬busy →
      (width → Gives (.chkStart n) s fun t => only (stat :: state) t ∧ st t = crcStart p ∧ t.bit stat 31 = false ∧
        t.fld stat 7 0 = OK) ∧
      (¬width → Gives (.chkStart n) s fun t => only [stat] t ∧ t.fld stat 7 0 = E_ARG) ∧
      (Gives (.chkFinish n) s fun t => t.bit stat 31 = true ∧ only [stat, R.CHK_RESULT_LO u, R.CHK_RESULT_HI u] t ∧
        (width → pair (R.CHK_RESULT_LO u) (R.CHK_RESULT_HI u) t = crcFinish p (st s % 2 ^ w))) ∧
      (Gives (.chkStream n) s fun t => t.bit stat 30 = true ∧ t.rd (R.CHK_SCOUNT u) = 0 ∧ SameMem s t ∧
        mget (fun _ => (0, 0)) t.chkRun u =
          (s.fld (R.CHK_SADDR_HI u) 7 0 * 2 ^ 32 + (s.rd (R.CHK_SADDR_LO u)).toNat, (s.rd (R.CHK_SLEN u)).toNat)) ∧
      Gives (.chkStreamEnd n) s (· = s) ∧
      ∀ x : Word, Gives (.chkData8 n x) s (bytes [BitVec.ofNat 8 x.toNat]) ∧
        Gives (.chkData32 n x) s (bytes ((List.range 4).map fun i => BitVec.ofNat 8 (x.toNat / 256 ^ i)))) ∧
    (∀ a len, busy → mget (fun _ => (0, 0)) s.chkRun u = (a, len) → len < 2 ^ 32 →
      let runs (k status : Nat) (t : State) := t.bit stat 30 = false ∧ t.fld stat 7 0 = status ∧ SameMem s t ∧
        t.rd (R.CHK_SCOUNT u) = BitVec.ofNat 32 k ∧
        (width → st t = ((List.range k).map fun i => s.rdB (a + i)).foldl (crcByte p) (st s % 2 ^ w))
      ((∀ i, i < len → checkReach (a + i) = true) → Gives (.chkStreamEnd n) s (runs len OK)) ∧
      ∀ k, k < len → checkReach (a + k) = false → (∀ i, i < k → checkReach (a + i) = true) →
        Gives (.chkStreamEnd n) s (runs k E_ABSENT)) ∧
    ∀ (k : BitVec 5) (x : Word),
      let sr := R.CHK_AV_STATE k.toNat
      let res := R.CHK_AV_RES k.toNat
      let cnt := R.CHK_AV_CNT k.toNat
      let old := s.rd sr
      let m := 2 ^ (max 3 (fldOf old 19 16) + 1)
      let got := x.toNat % 2 ^ 16 % m
      let delta := (got + (m - old.toNat % 2 ^ 16 % m)) % m
      let verdict := if delta = 0 then 1 else if delta = 1 then 0 else if delta ≤ fldOf old 31 20 then 2 else 3
      (Gives (.chkAvIn k x) s fun t => only [sr, res, cnt] t ∧ t.bit res 31 = true ∧ t.fld res 1 0 = verdict ∧
        t.fld res 23 8 = (if verdict = 2 then delta - 1 else 0) ∧ (delta = 0 → t.rd sr = old) ∧
        (delta ≠ 0 → t.fld sr 15 0 = got ∧ t.fld sr 31 16 = fldOf old 31 16) ∧
        t.fld cnt 31 16 = (s.fld cnt 31 16 + if verdict = 1 then 1 else 0) % 2 ^ 16 ∧
        t.fld cnt 15 0 = (s.fld cnt 15 0 + if verdict = 3 then 1 else 0) % 2 ^ 16) ∧
      Gives (.chkAvStateWrite k x) s fun t => only [sr, res] t ∧ t.rd sr = x ∧ t.bit res 31 = false

/-- Boot, recovery, staging, activation, confirmation and revert (R390, R415, R456, R457, R458, R459, R460, R461, R462,
R463, R464, R465). -/
def Obligations.BootAndUpdateResults : Prop :=
  (∀ (s : State) (base : Nat),
    let m := s.rdBytes base 368
    let form := leAt m 0 4 = 0x464D5A4E ∧ leAt m 4 1 = 1 ∧ leAt m 5 1 = 5 ∧ leAt m 7 1 = 0 ∧ leAt m 20 2 = 0x7100 ∧
      leAt m 22 1 ≤ s.fld R.SYS_ID 15 12 ∧ (∀ i, 23 ≤ i → i < 64 → leAt m i 1 = 0) ∧ ∀ e, e < 5 → leAt m (48 * e + 76) 4 = 0
    let key := leAt m 6 1 ≤ 1 ∧ Config.manifestRevoked (leAt m 6 1) = false
    let pub := Config.manifestKey (leAt m 6 1)
    let signed := ecVerify pub.1 pub.2 (beNat (sha256 (m.take 304))) (beNat ((m.drop 304).take 32)) (beNat ((m.drop 336).take 32)) = true
    let fresh := (s.rd R.UPD_MINSV).toNat ≤ leAt m 8 4
    let off (e : Nat) := leAt m (48 * e + 68) 4
    let len (e : Nat) := leAt m (48 * e + 72) 4
    let images := (∀ c, 1 ≤ c → c ≤ 5 → ∃ e, e < 5 ∧ leAt m (48 * e + 64) 4 = c) ∧ ∀ e, e < 5 → off e % 4096 = 0 ∧
      4096 ≤ off e ∧ off e + len e ≤ 0xC00000 ∧ sha256 (s.rdBytes (base + off e) (len e)) = (m.drop (48 * e + 80)).take 32
    let fails := s.slotFails base
    (¬form → fails = 1) ∧ (form → ¬key → fails = 2) ∧ (form → key → ¬signed → fails = 3) ∧
    (form → key → signed → ¬fresh → fails = 4) ∧ (form → key → signed → fresh → ¬images → fails = 5) ∧
    (form → key → signed → fresh → images → fails = 0)) ∧
  (∀ (s : State) (net : Bool) (r : Request) (rest : List Request),
    let l := r.payload
    let no (i : Instr) (st : Nat) := Gives i s (· = s.refusedReq r rest st)
    let formed := l.length = 20 ∧ leAt l 0 1 ≤ 2 ∧ leAt l 1 1 ≤ 1 ∧ leAt l 2 2 ≤ 191 ∧ leAt l 12 4 = 0
    let op := leAt l 0 1
    let state := s.fld R.UPD_STAT 5 4
    let trial := s.bit R.UPD_BCW 1 = true
    let pends := s.bit R.UPD_STAT 7 = true
    let slot := 0x1000000000 + (1 - s.upd.slot) * 0xC00000
    (s.Asks net 0x0050 r rest →
      (op ≠ 1 → op ≠ 2 → (¬formed → no (.updStageBegin net) E_ARG) ∧ (formed → trial ∨ pends → no (.updStageBegin net) E_STATE) ∧
        (formed → ¬trial → ¬pends → Gives (.updStageBegin net) s fun t => Answered s t r rest OK [] ∧ t.bit R.UPD_STAT 6 = true ∧
          t.fld R.UPD_STAT 5 4 = STAGING ∧ (∀ k, k < 192 → t.blockDone k = false) ∧
          ∀ a, t.rdB a = if slot ≤ a ∧ a < slot + 65536 then memReset a else s.rdB a)) ∧
      (op = 1 →
        let src := leAt l 4 8
        let reach := inDram src = true ∧ inDram (src + 65535) = true ∨ inHubSram src = true ∧ inHubSram (src + 65535) = true ∨
          inScratch src = true ∧ inScratch (src + 65535) = true
        (¬formed → no (.updStageBlock net) E_ARG) ∧ (formed → state ≠ STAGING → no (.updStageBlock net) E_STATE) ∧
        (formed → state = STAGING → ¬reach → no (.updStageBlock net) E_ABSENT) ∧
        (formed → state = STAGING → reach → s.upd.block ≠ none → no (.updStageBlock net) BUSY) ∧
        (formed → state = STAGING → reach → s.upd.block = none → Gives (.updStageBlock net) s fun t =>
          t.upd = { s.upd with block := some r } ∧ t.bit R.UPD_STAT 9 = true ∧ SameMem s t ∧ t.host = { s.host with reqs := rest })) ∧
      (op = 2 →
        let m := s.rdBytes slot 368
        let touches (e k : Nat) := leAt m (48 * e + 68) 4 < (k + 1) * 65536 ∧ k * 65536 < leAt m (48 * e + 68) 4 + leAt m (48 * e + 72) 4 ∧
          leAt m (48 * e + 72) 4 ≠ 0
        let full := s.blockDone 0 = true ∧ ∀ e k, e < 5 → touches e k → k ≤ 191 ∧ s.blockDone k = true
        (¬formed → no (.updStageEnd net) E_ARG) ∧ (formed → state ≠ STAGING → no (.updStageEnd net) E_STATE) ∧
        (formed → state = STAGING → ¬full → no (.updStageEnd net) E_SPACE) ∧
        (formed → state = STAGING → full → Gives (.updStageEnd net) s fun t => Answered s t r rest OK [] ∧
          t.fld R.UPD_STAT 5 4 = READY ∧ SameMem s t ∧ ∀ a, a ≠ R.UPD_STAT → t.rd a = s.rd a))) ∧
    (∀ i code v, (i, code, v) ∈ [(Instr.updActivate net, 0x0051, false), (.updActivateVerified net, 0x0052, true)] →
      s.Asks net code r rest →
      let a := if r.frame = 0xFFFFFFFF then s.rd R.FLK_FRAME + 2 else r.frame
      let bad := state ≠ READY ∨ trial ∨ pends ∨ v = true ∧ s.bit R.UPD_STAT 6 = false
      let late := s.flkEn = true ∧ (a - s.rd R.FLK_FRAME).toInt < 2
      let fails := v = true ∧ s.slotFails slot ≠ 0
      (bad → no i E_STATE) ∧ (¬bad → late → no i E_LATE) ∧
      (¬bad → ¬late → fails → Gives i s fun t => Answered s t r rest E_CHECK [] ∧ SameMem s t ∧ t.upd = s.upd ∧
        t.rd R.UPD_STAT = s.rd R.UPD_STAT) ∧
      (¬bad → ¬late → ¬fails → Gives i s fun t => Answered s t r rest OK [] ∧ t.bit R.UPD_STAT 7 = true ∧ t.rd R.UPD_AT = a ∧
        SameMem s t ∧ t.sealHold = if s.flkEn = true then some a else s.sealHold)) ∧
    (∀ p, p ∈ [(Instr.updStageBegin net, 0x50), (.updStageBlock net, 0x50), (.updStageEnd net, 0x50), (.updActivate net, 0x51),
        (.updActivateVerified net, 0x52)] → (∀ q l, takeReq net s.host.reqs = some (q, l) → q.code ≠ p.2) → Gives p.1 s (· = s)) ∧
    (s.upd.block = none → Gives .updBlockDone s (· = s)) ∧
    (s.upd.block = some r → leAt l 2 2 ≤ 191 →
      let k := leAt l 2 2
      let src := leAt l 4 8
      let data := s.rdBytes src 65536
      let crc := leAt l 1 1 % 2 = 1
      let good := ¬crc ∨ (crc32c data).toNat = leAt l 16 4
      Gives .updBlockDone s fun t => t.upd = { s.upd with block := none } ∧ t.bit R.UPD_STAT 9 = false ∧
        (∀ a, t.rdB a = if slot + k * 65536 ≤ a ∧ a < slot + k * 65536 + 65536 then s.rdB (src + (a - (slot + k * 65536))) else s.rdB a) ∧
        (t.blockDone k = true ↔ good) ∧ (∀ j, j < 192 → j ≠ k → t.blockDone j = s.blockDone j) ∧
        t.bit R.UPD_STAT 6 = (if crc then s.bit R.UPD_STAT 6 else false) ∧
        (s.session? r.sid ≠ none → r.drop = false → t.host.resps = s.host.resps ++ [⟨r, if good then OK else E_CHECK, [], none⟩]) ∧
        (s.session? r.sid = none → t.host = s.host))) ∧
  ∀ (s : State),
    let bcw := s.rd R.UPD_BCW
    let active := fldOf bcw 0 0
    let word (t : State) (a : Nat) (tr ok : Bool) := t.fld R.UPD_BCW 0 0 = a ∧ t.bit R.UPD_BCW 1 = tr ∧ t.bit R.UPD_BCW 2 = ok
    let written (t : State) := t.fld R.UPD_BCW 31 16 = (s.fld R.UPD_BCW 31 16 + 1) % 2 ^ 16 ∧
      (if s.upd.cur = 0 then t.upd.copy1 = t.rd R.UPD_BCW ∧ t.upd.copy0 = s.upd.copy0 ∧ t.upd.cur = 1
        else t.upd.copy0 = t.rd R.UPD_BCW ∧ t.upd.copy1 = s.upd.copy1 ∧ t.upd.cur = 0)
    let passes (k : Nat) := s.slotFails (0x1000000000 + k * 0xC00000) = 0
    let started (t : State) := t.upd.measures.map (·.1) = [6, 1, 2, 5, 3, 4] ∧ (t.core 0).run = .running ∧
      ∀ n, 1 ≤ n → n ≤ 8 → s.strict = false → (t.core n).run = .running
    let trial := bitOf bcw 1 = true
    let old := s.upd.slot
    let new := 1 - old
    let a := s.rd R.UPD_AT
    let reverted (t : State) := t.bit R.UPD_STAT 3 = true ∧ t.fld R.UPD_CNT 31 16 = (s.fld R.UPD_CNT 31 16 + 1) % 2 ^ 16 ∧
      mget (fun _ => false) t.icuPend 0x143 = true
    let due := s.bit R.UPD_STAT 7 = true ∧ (s.flkEn = true → 0 ≤ (s.fnow - a).toInt)
    (¬due → Gives .updActivation s (· = s)) ∧
    (due → old ≤ 1 → Gives .updActivation s fun t => t.bit R.UPD_STAT 7 = false ∧ t.rd R.UPD_AT = 0xFFFFFFFF ∧ t.host.sessions = [] ∧
      SameMem s t ∧ t.fld R.UPD_CNT 15 0 = (s.fld R.UPD_CNT 15 0 + 1) % 2 ^ 16 ∧ t.upd.trialFrom = s.now ∧
      (s.flkEn = true → t.upd.hold = some a ∧ t.sealHold = some a ∧ t.bit R.UPD_STAT 8 = true) ∧
      (s.pairRole = 2 → t.pairRole = 3) ∧
      (s.langalOwns = true → t.lglState = LGL_BOOT ∧ t.bit R.LGL_STAT 4 = false ∧ t.lgl.snap = s.lgl.snap) ∧
      (passes new → word t new true (bitOf bcw 2) ∧ written t ∧ t.upd.slot = new ∧ started t) ∧
      (¬passes new → word t (1 - new) false (bitOf bcw 2) ∧ reverted t ∧ (passes old → t.upd.slot = old ∧ started t))) ∧
    (s.sealHold = none ∨ s.bit R.UPD_STAT 8 = false → Gives .updSealRelease s (· = s)) ∧
    (∀ f, s.sealHold = some f → s.bit R.UPD_STAT 8 = true → Gives .updSealRelease s fun t => t.sealHold = none ∧
      t.bit R.UPD_STAT 8 = false ∧ SameMem s t ∧ (t.sealed = some f ∨ ∃ x, s.sealed = some x ∧ t.sealed = some x ∧ (f - x).toInt ≤ 0)) ∧
    (¬trial → Gives .updConfirm s (· = s) ∧ Gives .updConfirmTimeout s (· = s)) ∧
    (trial → Gives .updConfirm s fun t => word t active false true ∧ written t ∧ t.fld R.UPD_STAT 5 4 = EMPTY ∧ SameMem s t ∧
      (t.rd R.UPD_MINSV).toNat = max (s.rd R.UPD_MINSV).toNat (leAt (s.rdBytes (0x1000000000 + old * 0xC00000) 368) 8 4)) ∧
    (let limit := s.fld R.UPD_CFG 15 0
     let late := limit ≠ 0 ∧ s.upd.trialFrom + limit * 400000000 ≤ s.now
     (trial → ¬late → Gives .updConfirmTimeout s (· = s)) ∧
     (trial → late → Gives .updConfirmTimeout s fun t => word t (1 - active) false (bitOf bcw 2) ∧ written t ∧ reverted t ∧
       SameMem s t ∧ t.host.sessions = [] ∧ (passes (1 - active) → t.upd.slot = 1 - active ∧ started t))) ∧
    (s.upd.recovery = false → Gives .updRecover s (· = s)) ∧
    (s.upd.recovery = true → s.slotFails 0 ≠ 0 → Gives .updRecover s (· = s.bootFail 2 (s.slotFails 0))) ∧
    (s.upd.recovery = true → s.slotFails 0 = 0 → Gives .updRecover s fun t => t.upd.recovery = false ∧ t.upd.booted = true ∧
      t.upd.slot = old ∧ started t ∧ t.showState = IDLE) ∧
    (let no := s.upd.booted = true ∨ s.upd.recovery = true ∨ s.pwr.hib = true ∨ s.pwr.off = true
     let strap := s.fld R.SYS_STRAP 3 2
     let w := if 0 < (BitVec.ofNat 16 (fldOf s.upd.copy1 31 16) - BitVec.ofNat 16 (fldOf s.upd.copy0 31 16)).toInt then s.upd.copy1
       else s.upd.copy0
     let chosen := if strap = 0 then if bitOf w 1 then 1 - fldOf w 0 0 else fldOf w 0 0 else strap - 1
     let boots (P : State → Prop) := Gives .bootComplete s fun t => t.upd.bootCount = s.upd.bootCount + 1 ∧ P t
     let runs (k : Nat) (t : State) := t.upd.slot = k ∧ t.upd.booted = true ∧ t.upd.recovery = false ∧ started t ∧
       t.showState = IDLE ∧ t.lc = (if s.rootValid = false ∧ (s.lc = 1 ∨ s.lc = 2) then 3 else s.lc) ∧
       (t.lc = 2 → t.bit R.SNS_LOCK 0 = true)
     let waits (t : State) := t.upd.recovery = true ∧ t.upd.booted = false
     let other := strap = 0 ∧ bitOf w 2 = true
     (no → Gives .bootComplete s (· = s)) ∧ (¬no → strap = 3 → boots waits) ∧
     (¬no → strap ≠ 3 → passes chosen → boots (runs chosen)) ∧
     (¬no → strap ≠ 3 → ¬passes chosen → other → passes (1 - chosen) → boots (runs (1 - chosen))) ∧
     (¬no → strap ≠ 3 → ¬passes chosen → ¬(other ∧ passes (1 - chosen)) → boots waits))

/-- Chain link: message form, the alive window, reception, forwarding, FLK messages, STATUS, user messages and sending
(R190, R468, R469, R471, R472, R473, R474, R475, R476, R477, R479, R480). -/
def Obligations.ChainLinkResults : Prop :=
  (∀ m : ChnMsg, m.typ < 256 → m.src < 256 → m.dst < 256 → m.ttl < 256 → m.alive < 65536 → m.body.length ≤ 4096 →
    chnParse m.bytes = some m ∧ m.bytes.length % 8 = 7 ∧ rxMessage (chainRxOf m.bytes) = some m.bytes ∧
    rxHeader (chainRxOf m.bytes) = m.bytes.take 7) ∧
  (∀ gap alive, alive < 65536 → rxCheck gap none alive = { ok := true, win := ⟨alive, 1, 1⟩ }) ∧
  (∀ (gap alive : Nat) (x : RxWin), alive < 65536 → x.last < 65536 →
    let d := (BitVec.ofNat 16 alive - BitVec.ofNat 16 x.last).toInt
    let v := rxCheck gap (some x) alive
    let seen := x.mask.testBit (-d).toNat = true
    (0 < d → d ≤ gap → v.ok = true ∧ v.gap = false ∧ v.win.last = alive ∧ (v.skip = true ↔ d ≠ 1) ∧
      ∀ i, i < 64 → v.win.mask.testBit i = (decide (i = 0) || decide (d.toNat ≤ i) && x.mask.testBit (i - d.toNat))) ∧
    (-64 < d → d ≤ 0 → seen → v.ok = false ∧ v.rep = true ∧ v.win = x) ∧
    (-64 < d → d ≤ 0 → ¬seen → v.ok = true ∧ v.gap = false ∧ v.win.last = x.last ∧
      ∀ i, v.win.mask.testBit i = (x.mask.testBit i || decide (i = (-d).toNat))) ∧
    (d ≤ -64 ∨ gap < d → v.ok = true ∧ v.gap = true ∧ v.win = ⟨alive, 1, 1⟩)) ∧
  ∀ (s : State) (west : Bool) (rx : ChainRx),
    let msg := (rxMessage rx).bind chnParse
    let head := rxHeader rx
    let up (w : Bool) := s.bit R.CHN_STAT (if w then 5 else 4) = true
    let en := s.bit R.CHN_CFG 31 = true
    let own := s.fld R.CHN_CFG 3 0
    let partner := s.fld R.PAIR_CFG 27 24
    let cnt (i n : Nat) (t : State) := t.fld (R.CHN_CNT i) 31 0 = (s.fld (R.CHN_CNT i) 31 0 + n) % 2 ^ 32
    let only (i : Nat) (t : State) := cnt i 1 t ∧ t = { s with regs := t.regs } ∧ ∀ a, a ≠ R.CHN_CNT i → t.rd a = s.rd a
    let op (m : ChnMsg) := leAt m.body 0 1
    let kinds : List (Instr × (ChnMsg → Prop)) := [(.chainAnnounce west rx, fun m => m.typ = 1),
      (.chainNotice west rx, fun m => m.typ = 2), (.chainDigest west rx, fun m => m.typ = 3),
      (.rolePropose west rx, fun m => m.typ = 4 ∧ op m = 1), (.roleAccept west rx, fun m => m.typ = 4 ∧ op m = 2),
      (.roleRefuse west rx, fun m => m.typ = 4 ∧ op m = 3), (.roleSnapReq west rx, fun m => m.typ = 4 ∧ op m = 4),
      (.roleSwapBack west rx, fun m => m.typ = 4 ∧ op m = 5), (.chainStatus west rx, fun m => m.typ = 5),
      (.chainSnap west rx, fun m => m.typ = 6 ∧ m.body.length ≠ 40), (.chainSnapEnd west rx, fun m => m.typ = 6 ∧ m.body.length = 40),
      (.inlogEntry west rx, fun m => m.typ = 7 ∧ op m ≠ 0), (.inlogEnd west rx, fun m => m.typ = 7 ∧ op m = 0),
      (.chainUser west rx, fun m => 0x10 ≤ m.typ)]
    let listens := en ∧ up west ∧ rxMessage rx ≠ none
    let known (m : ChnMsg) := 1 ≤ m.typ ∧ m.typ ≤ 7 ∨ 0x10 ≤ m.typ ∧ m.typ ≤ 0x1F
    let mine (m : ChnMsg) := m.src ≠ own ∧ (m.dst = own ∨ m.dst = 0xFF)
    let verdict (m : ChnMsg) := rxCheck (s.fld R.CHN_CFG 15 4)
      ((s.chnWin.find? fun e => e.1 = m.src * 256 + m.typ).map (·.2)) m.alive
    (∀ e, e ∈ kinds → (¬listens → Gives e.1 s (· = s)) ∧ (listens → msg = none → Gives e.1 s (only 1)) ∧
      ∀ m, listens → msg = some m →
        (¬known m → Gives e.1 s (only 1)) ∧ (known m → ¬e.2 m → Gives e.1 s (· = s)) ∧
        (known m → e.2 m → ¬mine m → m.typ ≠ 5 ∨ m.src ≠ own → Gives e.1 s (· = s)) ∧
        (known m → e.2 m → mine m → (verdict m).ok = false → Gives e.1 s fun t => cnt 2 1 t ∧ SameMem s t ∧
          t.peers = s.peers ∧ t.notices = s.notices ∧ t.pair = { s.pair with heard := t.pair.heard, lost := t.pair.lost }) ∧
        (known m → e.2 m → mine m → (verdict m).ok = true → Gives e.1 s fun t => cnt 0 1 t ∧ cnt 3 (verdict m).lost t ∧
          cnt 4 (if (verdict m).gap then 1 else 0) t ∧ t.chnWin.find? (fun e => e.1 = m.src * 256 + m.typ) =
            some (m.src * 256 + m.typ, (verdict m).win))) ∧
    (∀ m, listens → msg = some m → m.typ = 5 → m.src = own → Gives (.chainStatus west rx) s fun t =>
      if (m.body.drop 12).take 16 = uidBytes then t = s else t.bit R.CHN_STAT 9 = true ∧ SameMem s t ∧ t.peers = s.peers) ∧
    (∀ rise : Bool, (s.chnUp west = rise ∨ rise = true ∧ (¬en ∨ s.strict = true ∨ s.lckRuns = false) →
        Gives (.chainPortChange west rise) s (· = s)) ∧
      (s.chnUp west ≠ rise → (rise = true → en ∧ s.strict = false ∧ s.lckRuns = true) →
        ∃ t, exec (.chainPortChange west rise) s = .next t ∧
        t.chnQ = (if rise then s.chnQ else s.chnQ.filter fun x => x.west != west) ∧ t.bit R.CHN_STAT (if west then 5 else 4) = rise ∧ SameMem s t ∧ mget (fun _ => false) t.icuPend 0x141 = true ∧
        cnt (if west then 9 else 8) (if rise then 0 else 1) t)) ∧
    (let goes := en ∧ up west ∧ up (!west) ∧ 7 ≤ head.length ∧ leAt head 1 1 ≠ own ∧ 1 < leAt head 3 1 ∧ leAt head 2 1 ≠ own
     let out := msg.map fun m => { m with ttl := m.ttl - 1 }
     (¬goes → Gives (.chainMessageForward west rx) s (· = s)) ∧
     (goes → ∃ t, exec (.chainMessageForward west rx) s = .next t ∧ cnt 7 1 t ∧ SameMem s t ∧
       t.chnFwd = s.chnFwd ++ [(!west, out)] ∧ t.chnQ = s.chnQ ++ [⟨!west, 3, out⟩])) ∧
    (∀ x, s.chnNext west = some x → x ∈ s.chnQ ∧ x.west = west ∧
      (∀ y, y ∈ s.chnQ → y.west = west → 1 ≤ y.cls → y.cls ≤ 6 → x.cls ≤ y.cls) ∧
      (up west → mget (fun _ => 0) s.chnTill (b2n west) ≤ s.now →
        (s.chnPort west).chnLine = s.chnLine ++ [x] ∧ (s.chnPort west).chnQ = s.chnQ.erase x)) ∧
    (∀ m, listens → msg = some m → mine m → (verdict m).ok = true →
      let word (i : Nat) := BitVec.ofNat 32 (leAt m.body i 4)
      let from_ := s.bit R.PAIR_CFG 31 = true ∧ m.src = partner
      (m.typ = 1 →
        let k := m.frame
        let old := s.flkEn = false ∨ s.flkFired = true ∧ (k - s.fnow).toInt ≤ 0
        let waits := s.bit R.PAIR_STAT 7 = true ∨ (s.tsuNs - word 0).toInt ≤ 0
        (m.src ≠ s.announcerId → ∃ t, exec (.chainAnnounce west rx) s = .next t ∧ t.flkNext = s.flkNext ∧ SameMem s t) ∧
        (m.src = s.announcerId → old → ∃ t, exec (.chainAnnounce west rx) s = .next t ∧ t.flkNext = s.flkNext ∧ SameMem s t ∧
          t.fld R.CHN_STAT 3 0 = m.src % 16) ∧
        (m.src = s.announcerId → ¬old → waits → ∃ t, exec (.chainAnnounce west rx) s = .next t ∧ SameMem s t ∧
          t.flkNext = some (k, word 0, word 4, decide (leAt m.body 8 1 % 2 = 1)) ∧ t.fld R.CHN_STAT 3 0 = m.src % 16) ∧
        (m.src = s.announcerId → ¬old → ¬waits → ∃ t, exec (.chainAnnounce west rx) s = .next t ∧ t.rd R.FLK_FRAME = k ∧ t.flkFired = true)) ∧
      (m.typ = 2 → ∃ t, exec (.chainNotice west rx) s = .next t ∧ SameMem s t ∧ ∀ e, e ∈ t.notices ↔
        e = (m.src, ⟨m.frame, word 0, leAt m.body 4 4, leAt m.body 8 1, s.tsuNs⟩) ∨ e ∈ s.notices ∧ e.1 ≠ m.src) ∧
      (m.typ = 5 → ∃ t, exec (.chainStatus west rx) s = .next t ∧ SameMem s t ∧
        (∀ e, e ∈ t.peers ↔ e ∈ s.peers ∧ e.1 ≠ m.src ∨ e = (m.src,
          ⟨op m, leAt m.body 1 1, leAt m.body 2 1, leAt m.body 3 1, word 4, word 8, (m.body.drop 12).take 16, s.now⟩)) ∧
        (¬from_ → t.pairRole = s.pairRole ∧ t.roleAt = s.roleAt) ∧
        (from_ → t.fld R.PAIR_ROLE 18 16 = op m % 8 ∧ (t.bit R.PAIR_STAT 5 = true ↔ word 8 ≠ s.rd R.UPD_RENDER) ∧
          (s.pairRole = 2 → op m = 4 → s.roleAt = none →
            if s.flkEn = true then t.roleAt = some (1, s.fnow + 1) ∧ t.pairRole = 2 else t.pairRole = 1) ∧
          (s.pairRole = 1 → op m = 1 → s.bit R.PAIR_STAT 6 = false → partner < own → t.pairRole = 3 ∧ t.bit R.PAIR_STAT 4 = true))) ∧
      (0x10 ≤ m.typ → m.typ ≤ 0x1F →
        let slots := 2 ^ max 4 (min 12 (s.fld R.CHN_RXBUF_HI 19 16))
        let slot := s.chnSlot % slots
        let full := s.bit R.CHN_RXQ 8 = false ∨ slots ≤ s.chnUsed
        let base := s.fld R.CHN_RXBUF_HI 7 0 * 2 ^ 32 + s.fld R.CHN_RXBUF_LO 31 12 * 4096 + slot * 4096
        (full → ∃ t, exec (.chainUser west rx) s = .next t ∧ cnt 5 1 t ∧ SameMem s t ∧ t.chnUsed = s.chnUsed) ∧
        (¬full → (∀ i, i < m.body.length → hubReach (base + i) = true) → ∃ t, exec (.chainUser west rx) s = .next t ∧
          t.chnSlot = (slot + 1) % slots ∧ t.chnUsed = s.chnUsed + 1 ∧ ∃ u : State,
            (∀ a, u.rdB a = if base ≤ a ∧ a < base + m.body.length then m.body.getD (a - base) 0 else s.rdB a) ∧
            t = u.hwPush (s.fld R.CHN_RXQ 7 0) 0x59 0 32 (wordsOf ([BitVec.ofNat 8 m.src, BitVec.ofNat 8 m.typ, if west then 1 else 0, 0] ++
              leBytes 2 m.alive ++ leBytes 2 m.body.length ++ leBytes 4 m.frame.toNat ++ leBytes 4 slot ++ leBytes 4 s.tsuNs.toNat ++
              List.replicate 12 0))))) ∧
    (∀ w : Word, exec (.chnRxrelWrite w) s = .next { s with chnUsed := s.chnUsed - w.toNat % 2 ^ 13 }) ∧
    (∃ t, exec .chainStatusSend s = .next t ∧ SameMem s t ∧
      let body := [BitVec.ofNat 8 s.pairRole, BitVec.ofNat 8 s.showState, BitVec.ofNat 8 (s.fld R.TSU_SYNC 1 0),
        BitVec.ofNat 8 (s.partnerOf own)] ++ leBytes 4 (s.rd R.FLK_COMMITTED).toNat ++ leBytes 4 (s.rd R.UPD_RENDER).toNat ++ uidBytes
      let ports := [false, true].filter s.chnUp
      let m : ChnMsg := ⟨5, own, 0xFF, max 1 (min 16 (s.fld R.CHN_CFG 28 24)) - 1, mget (fun _ => 0) s.chnAlive 5, 0xFFFFFFFF, body⟩
      if en ∧ ports ≠ [] then cnt 6 1 t ∧ t.chnOut = s.chnOut ++ [(ports, m)] ∧
        t.chnQ = s.chnQ ++ ports.map fun w => ⟨w, 2, some m⟩ else t = s) ∧
    (let q := s.fld R.CHN_TXQ 7 0
     let ready := en ∧ s.bit R.CHN_TXQ 8 = true ∧ s.qCons q G_HW = true ∧ (s.fifo q).avail ≠ 0
     (¬ready → exec .chnTxqSend s = .next s) ∧
     (ready → ∀ r ws u, s.qPop q true = (r, ws, u) →
       let e := bytesOfWords ws
       let n := leAt e 8 2
       let bad := leAt e 5 1 ≠ 7 ∧ (leAt e 5 1 < 0x10 ∨ 0x1F < leAt e 5 1) ∨ 4096 < n
       (bad → exec .chnTxqSend s = .next u) ∧
       (¬bad → (∀ i, i < n → checkReach (leAt e 0 5 + i) = true) → exec .chnTxqSend s =
         .next (u.chnSend (leAt e 5 1) (leAt e 6 1) (BitVec.ofNat 32 (leAt e 12 4)) (u.rdBytes (leAt e 0 5) n) 6)) ∧
       ∀ i, ¬bad → i < n → checkReach (leAt e 0 5 + i) = false → (∀ j, j < i → checkReach (leAt e 0 5 + j) = true) →
         exec .chnTxqSend s = .next (u.busRange (leAt e 0 5 + i) 0 0x59 0)))

/-- Pair: configuration, digest comparison, self-check, swaps, partner loss, snapshots, catch-up and the input log
(R472, R473, R479, R480, R484, R485, R486, R487, R488, R489, R490, R491). -/
def Obligations.PairResults : Prop :=
  ∀ (s : State) (west : Bool) (rx : ChainRx),
    let msg := (rxMessage rx).bind chnParse
    let en := s.bit R.CHN_CFG 31 = true
    let up (w : Bool) := s.bit R.CHN_STAT (if w then 5 else 4)
    let own := s.fld R.CHN_CFG 3 0
    let size := max 1 (min 16 (s.fld R.CHN_CFG 28 24))
    let paired := s.bit R.PAIR_CFG 31 = true
    let partner := s.fld R.PAIR_CFG 27 24
    let role := s.pairRole
    let check := s.bit R.PAIR_STAT 6 = true
    let late (a : Word) := (a - s.fnow).toInt < 4
    let unable := role ≠ 1 ∨ s.fld R.PAIR_ROLE 18 16 ≠ 2 ∨ s.pair.swap ≠ none ∨ check
    let ports := s.chnPorts partner
    let sent (op : Nat) (w : Word) (t : State) := en → paired → ports ≠ [] → t.chnOut = s.chnOut ++ [(ports,
      ⟨4, own, partner, size - 1, mget (fun _ => 0) s.chnAlive 4, 0xFFFFFFFF, [BitVec.ofNat 8 op, 0, 0, 0] ++ leBytes 4 w.toNat⟩)]
    let proposes (a : Word) (req : Option Request) (auto : Bool) (t : State) := SameMem s t ∧ t.pairRole = role ∧
      t.bit R.PAIR_STAT 1 = true ∧ t.pair = { s.pair with swap := some ⟨a, false, req, auto⟩ } ∧ sent 1 a t
    let steady := s.pair.back = false ∨ ¬check
    let turned (r : Nat) (a : Word) (t : State) :=
      if s.flkEn = true then t.roleAt = some (r, a) ∧ t.pairRole = role else t.roleAt = none ∧ t.pairRole = r
    (∀ d, d ≤ 15 → let e := (d + size - own % size) % size
      let first := decide (size - e < e)
      s.chnPorts d = if up first = true then [first] else if up (!first) = true then [!first] else []) ∧
    (∀ (net : Bool) (r : Request) (rest : List Request),
      let w (i : Nat) := BitVec.ofNat 32 (leAt r.payload (4 * i) 4)
      let f (hi lo : Nat) := (w 0).toNat / 2 ^ lo % 2 ^ (hi + 1 - lo)
      (s.Asks net 0x0070 r rest →
        (r.payload.length ≠ 28 ∨ 0 < f 10 0 ∧ f 10 0 < 0x400 → Gives (.pairConfig net) s (· = s.refusedReq r rest E_ARG)) ∧
        (r.payload.length = 28 → (f 10 0 = 0 ∨ 0x400 ≤ f 10 0) → Gives (.pairConfig net) s fun t =>
          t.host.reqs = rest ∧ (s.pair.swap = none → Answered s t r rest OK []) ∧ SameMem s t ∧ t.rd R.PAIR_IVAL = w 1 ∧
          t.rd R.PAIR_OWN_LANE = w 2 ∧ t.rd R.PAIR_OWN_DMX = w 3 &&& 0xFFFFFF ∧ (∀ k, k < 3 → t.rd (R.PAIR_OWN_SPD k) = w (4 + k)) ∧
          t.fld R.PAIR_CFG 31 30 = f 31 30 ∧ t.fld R.PAIR_CFG 27 24 = f 27 24 ∧ t.fld R.PAIR_CFG 23 20 = max 1 (f 23 20) ∧
          t.fld R.PAIR_CFG 19 16 = max 1 (f 19 16) ∧ t.fld R.PAIR_CFG 10 0 = f 10 0 ∧
          t.pairRole = (if f 31 31 = 0 then 0 else if role ≠ 0 then role else if f 30 30 = 1 then 1 else 3) ∧
          (t.pairRole ≠ role → mget (fun _ => false) t.icuPend 0x140 = true))) ∧
      (s.Asks net 0x0071 r rest → (late r.frame → Gives (.pairSwap net) s (· = s.refusedReq r rest E_LATE)) ∧
        (¬late r.frame → unable → Gives (.pairSwap net) s (· = s.refusedReq r rest E_STATE)) ∧
        (¬late r.frame → ¬unable → Gives (.pairSwap net) s fun t => t.host = { s.host with reqs := rest } ∧ proposes r.frame (some r) false t))) ∧
    (let a := s.rd R.PAIR_SWAP
     (late a → Gives .pairSwapgo s (· = s.wr R.PAIR_SWAPRES (BitVec.ofNat 32 (0x80000000 + E_LATE)))) ∧
     (¬late a → unable → Gives .pairSwapgo s (· = s.wr R.PAIR_SWAPRES (BitVec.ofNat 32 (0x80000000 + E_STATE)))) ∧
     (¬late a → ¬unable → Gives .pairSwapgo s fun t => t.rd R.PAIR_SWAPRES = 0 ∧ proposes a none false t)) ∧
    (let n := (s.rd R.PAIR_IVAL).toNat
     let due := n ≠ 0 ∧ role = 1 ∧ s.pair.swap = none ∧ s.pair.roleTick + n * 400000000 ≤ s.now ∧ s.pair.retryAt ≤ s.now
     (¬due → Gives .pairAutoSwap s (· = s)) ∧
     (due → unable → Gives .pairAutoSwap s (· = { s with pair := { s.pair with retryAt := s.now + 60 * 400000000 } })) ∧
     (due → ¬unable → Gives .pairAutoSwap s (proposes (s.fnow + 8) none true))) ∧
    (let alive := fun (e : Word × List Byte) => decide ((s.fnow - (e.1 + 4)).toInt < 0)
     Gives .digestTimeout s (· = { s with pair := { s.pair with own := s.pair.own.filter alive, theirs := s.pair.theirs.filter alive } })) ∧
    (∀ found, (s.bit R.SPA_STAT 31 = false → Gives (.selfCheckDone found) s (· = s)) ∧
      (s.bit R.SPA_STAT 31 = true → Gives (.selfCheckDone found) s fun t => SameMem s t ∧ t.bit R.SPA_STAT 31 = false ∧
        if found = none then t.fld R.SPA_STAT 1 0 = 1 ∧ t.pairRole = role ∧ t.showState = s.showState
        else t.fld R.SPA_STAT 1 0 = 2 ∧ (role ≠ 0 → t.pairRole = 4) ∧ (1 ≤ role ∧ role ≤ 3 → t.showState = FAULTED))) ∧
    (∀ x, s.pair.swap = some x →
      let waits := (s.fnow - (x.at_ - 2)).toInt < 0 ∨ role = 1 ∧ x.accepted = true
      (waits → Gives .swapLapse s (· = s)) ∧
      (¬waits → Gives .swapLapse s fun t => t.pair.swap = none ∧ t.pairRole = role ∧ t.bit R.PAIR_STAT 1 = false ∧
        t.roleAt = (if x.accepted = true then none else s.roleAt) ∧
        (∀ r, x.req = some r → r.drop = false → (s.session? r.sid).isSome = true → Answered s t r s.host.reqs E_LATE []) ∧
        (x.req = none → s.bit R.PAIR_SWAPRES 31 = false → t.rd R.PAIR_SWAPRES = BitVec.ofNat 32 (0x80000000 + E_LATE)))) ∧
    (s.pair.swap = none → Gives .swapLapse s (· = s)) ∧
    (let held := s.pair.back = true ∧ s.flkEn = false
     (∀ r a, held → ¬check → r < 8 → s.roleAt = some (r, a) → Gives .swapCheckEnd s fun t => t.pairRole = r ∧ t.roleAt = none ∧ t.pair.back = false) ∧
     (¬held ∨ s.roleAt = none → check → s.pair.checkFrom + 400000000 ≤ s.now → Gives .swapCheckEnd s (· = s.setF R.PAIR_STAT 6 6 0)) ∧
     (¬held ∨ s.roleAt = none → ¬(check ∧ s.pair.checkFrom + 400000000 ≤ s.now) → Gives .swapCheckEnd s (· = s))) ∧
    (let ns := if s.flkEn = true then max 1 (s.fld R.PAIR_CFG 19 16) * s.pInt else 50000000
     let silent := paired ∧ role ≠ 0 ∧ 2 * ns ≤ 5 * (s.now - s.pair.heard)
     let standsBy := role = 2 ∧ s.roleAt = none
     (¬silent → Gives .partnerLossTimeout s (· = s)) ∧
     (silent → s.pair.lost = true → ¬standsBy → Gives .partnerLossTimeout s (· = s)) ∧
     (silent → s.pair.lost = true → standsBy → steady → Gives .partnerLossTimeout s fun t => SameMem s t ∧ turned 1 (s.fnow + 1) t) ∧
     (silent → s.pair.lost = false → Gives .partnerLossTimeout s fun t => t.pair.lost = true ∧ SameMem s t ∧ (role ≠ 2 → t.pairRole = role) ∧
       (role = 1 → t.bit R.PAIR_STAT 3 = true) ∧ (role = 2 → steady → turned 1 (s.fnow + 1) t))) ∧
    (s.pair.snap = none → Gives .snapCopyDone s (· = s)) ∧
    (∀ n, s.pair.snap = some n →
      let lgv := if s.pair.snapLgv = [] then s.lgvRecord else s.pair.snapLgv
      let at_ := s.snapArea + s.snapLen
      Gives .snapCopyDone s fun t => t.pair.snap = none ∧ t.bit R.PAIR_STAT 0 = false ∧
        (∀ a, t.rdB a = if at_ ≤ a ∧ a < at_ + lgv.length ∧ hubReach a = true then lgv.getD (a - at_) 0 else s.rdB a) ∧
        (s.sealHold = some (n + 2) → s.bit R.UPD_STAT 8 = false → t.sealHold = none) ∧
        (en → ports ≠ [] → ¬check → let area := t.hRdBytes t.snapArea t.snapTotal
          ∃ q m, t.chnOut = s.chnOut ++ q ++ [(ports, m)] ∧ m.typ = 6 ∧ m.frame = n ∧ m.dst = partner ∧
            m.body = leBytes 8 t.snapTotal ++ sha256 area ∧ (q.flatMap fun e => e.2.body.drop 8) = area ∧
            ∀ e, e ∈ q → e.1 = ports ∧ e.2.typ = 6 ∧ e.2.frame = n ∧ e.2.dst = partner ∧ e.2.body.length ≤ 4096 ∧ e.2.body.length ≠ 40)) ∧
    (let k := s.fnow + 1
     let ready := s.flkEn = true ∧ s.bit R.PAIR_STAT 7 = true ∧ s.rd R.FLK_COMMITTED = s.fnow ∧
       ¬∃ target trim lag, s.flkNext = some (k, target, trim, lag) ∧ (s.committedNs - target).toInt < 0
     (¬ready → Gives .catchupFrameStart s (· = s)) ∧
     (ready → Gives .catchupFrameStart s fun t => t.rd R.FLK_FRAME = k ∧ t.flkFired = true)) ∧
    ((∀ e, e ∈ s.pair.ends → (s.fnow - e.1).toInt < 0) → Gives .inlogApply s (· = s)) ∧
    (∀ f n pre post, s.pair.ends = pre ++ (f, n) :: post → (∀ e, e ∈ pre → (s.fnow - e.1).toInt < 0) → 0 ≤ (s.fnow - f).toInt →
      let mine := s.pair.inlog.filter fun m => m.frame = f
      let c := f.toNat % 2
      let word := SRAM_BASE + s.fld R.PAIR_INDONE 21 2 * 4
      let buf (m : ChnMsg) := if leAt m.body 0 1 = 1 then s.sacnBuf (leAt m.body 2 2) else s.dmxIbuf (leAt m.body 2 2)
      let data (m : ChnMsg) := leAt m.body 0 1 = 1 ∨ leAt m.body 0 1 = 2 ∧ leAt m.body 2 2 < 16
      let puts (m : ChnMsg) (a : Nat) : Option Byte :=
        if buf m + c * 512 ≤ a ∧ a < buf m + c * 512 + 512 then some (m.body.getD (4 + (a - (buf m + c * 512))) 0)
        else if buf m + 1024 + c * 16 ≤ a ∧ a < buf m + 1024 + c * 16 + 16 then some (m.body.getD (516 + (a - (buf m + 1024 + c * 16))) 0)
        else none
      let event := s.fld R.PAIR_CFG 10 0
      ∀ m, (mine = [] ∨ mine = [m] ∧ m.body.length = 532 ∧ data m ∧ ∀ i, i < 2048 → inDram (buf m + i) = true) →
        Gives .inlogApply s fun t => ∃ u : State, t = (if event = 0 then u else u.fireEvent event) ∧
          u.pair = { s.pair with ends := s.pair.ends.filter (fun e => e.1 ≠ f),
                                 inlog := s.pair.inlog.filter fun m => decide (0 < (m.frame - f).toInt) } ∧
          ∀ a, u.rdB a = if word ≤ a ∧ a < word + 4 then (leBytes 4 f.toNat).getD (a - word) 0
            else if mine = [] then s.rdB a else (puts m a).getD (s.rdB a)) ∧
    (∀ m, en → up west = true → msg = some m → m.src ≠ own → (m.dst = own ∨ m.dst = 0xFF) →
      (rxCheck (s.fld R.CHN_CFG 15 4) ((s.chnWin.find? fun e => e.1 = m.src * 256 + m.typ).map (·.2)) m.alive).ok = true →
      let op := leAt m.body 0 1
      let a := BitVec.ofNat 32 (leAt m.body 4 4)
      let kinds : List (Instr × Prop) := [(.chainDigest west rx, m.typ = 3), (.rolePropose west rx, m.typ = 4 ∧ op = 1),
        (.roleAccept west rx, m.typ = 4 ∧ op = 2), (.roleRefuse west rx, m.typ = 4 ∧ op = 3), (.roleSnapReq west rx, m.typ = 4 ∧ op = 4),
        (.roleSwapBack west rx, m.typ = 4 ∧ op = 5), (.chainSnap west rx, m.typ = 6 ∧ m.body.length ≠ 40),
        (.chainSnapEnd west rx, m.typ = 6 ∧ m.body.length = 40), (.inlogEntry west rx, m.typ = 7 ∧ op ≠ 0), (.inlogEnd west rx, m.typ = 7 ∧ op = 0)]
      let calm := s.pair.lost = false
      (¬(paired ∧ m.src = partner) → ∀ e, e ∈ kinds → e.2 → Gives e.1 s fun t => SameMem s t ∧ t.pair = s.pair ∧ t.chnOut = s.chnOut ∧
        t.roleAt = s.roleAt ∧ t.rd R.PAIR_ROLE = s.rd R.PAIR_ROLE ∧ t.rd R.PAIR_STAT = s.rd R.PAIR_STAT) ∧
      (paired → m.src = partner →
        (m.typ = 3 →
          let f := BitVec.ofNat 32 (leAt m.body 0 4)
          let b := m.body.take 400
          let same (i : Nat) (x : Word × List Byte) := x.2.getD i 0 = b.getD i 0
          let differs (i : Nat) (x : Word × List Byte) := i < x.2.length ∧ i < b.length ∧ ¬same i x ∧ ∀ j, j < i → same j x
          Gives (.chainDigest west rx) s (fun t => SameMem s t ∧
            (∀ g, g < 64 → mget (fun _ => ONE16) t.tfPair g =
              if (leAt m.body 400 8).testBit g then leAt m.body (408 + 3 * g) 3 else mget (fun _ => ONE16) s.tfPair g) ∧
            ∀ k, k < 8 → mget (fun _ => 0) t.snsPair k =
              if (leAt m.body 600 1).testBit k then leAt m.body (604 + 2 * k) 2 else mget (fun _ => 0) s.snsPair k) ∧
          (s.pair.own.find? (fun e => e.1 = f) = none → Gives (.chainDigest west rx) s fun t => t.pair.own = s.pair.own ∧
            t.pair.theirs.find? (fun e => e.1 = f) = some (f, b) ∧ t.rd R.PAIR_MATCH = s.rd R.PAIR_MATCH) ∧
          (∀ x, s.pair.own.find? (fun e => e.1 = f) = some x →
            (leAt x.2 4 4 ≠ leAt b 4 4 → Gives (.chainDigest west rx) s fun t => t.rd R.PAIR_MATCH = s.rd R.PAIR_MATCH ∧
              t.rd R.PAIR_CMPFRAME = s.rd R.PAIR_CMPFRAME ∧ t.pair.own.find? (fun e => e.1 = f) = none) ∧
            (leAt x.2 4 4 = leAt b 4 4 → (∀ i, i < x.2.length → i < b.length → same i x) → Gives (.chainDigest west rx) s fun t =>
              t.rd R.PAIR_CMPFRAME = f ∧ t.fld R.PAIR_MATCH 31 16 = min 65535 (s.fld R.PAIR_MATCH 31 16 + 1) ∧ t.pair.misRun = 0 ∧
              t.fld R.PAIR_MATCH 15 0 = s.fld R.PAIR_MATCH 15 0 ∧ t.fld R.PAIR_CNT 31 16 = s.fld R.PAIR_CNT 31 16) ∧
            (leAt x.2 4 4 = leAt b 4 4 → ∀ i, differs i x → Gives (.chainDigest west rx) s fun t =>
              let third := max 1 (s.fld R.PAIR_CFG 23 20) ≤ s.pair.misRun + 1
              t.rd R.PAIR_CMPFRAME = f ∧ t.fld R.PAIR_MATCH 31 16 = 0 ∧ t.fld R.PAIR_MATCH 15 0 = i % 65536 ∧
              t.fld R.PAIR_CNT 31 16 = (s.fld R.PAIR_CNT 31 16 + 1) % 65536 ∧ t.pair.misRun = (if third then 0 else s.pair.misRun + 1) ∧
              (third → t.bit R.PAIR_STAT 2 = true ∧ t.bit R.SPA_STAT 31 = true) ∧
              (check → t.bit R.PAIR_STAT 6 = false ∧ t.roleAt = some (if role = 1 then 4 else 1, s.fnow + 2))))) ∧
        (m.typ = 4 → op = 1 →
          (role = 2 → steady → 16 ≤ s.fld R.PAIR_MATCH 31 16 → Gives (.rolePropose west rx) s fun t => turned 1 a t ∧ sent 2 a t ∧
            (s.flkEn = false → t.bit R.PAIR_STAT 6 = true ∧ t.fld R.PAIR_CNT 15 0 = (s.fld R.PAIR_CNT 15 0 + 1) % 65536)) ∧
          (role ≠ 2 ∨ s.fld R.PAIR_MATCH 31 16 < 16 → Gives (.rolePropose west rx) s fun t => t.pairRole = role ∧ t.roleAt = s.roleAt ∧
            (calm → sent 3 a t))) ∧
        (m.typ = 4 → op = 2 → ∀ x, s.pair.swap = some x →
          let good := role = 1 ∧ x.at_ = a ∧ x.accepted = false ∧ (s.flkEn = false ∨ (s.fnow - (a - 2)).toInt < 0)
          (good → Gives (.roleAccept west rx) s fun t => turned 2 a t ∧ if s.flkEn = true then t.pair.swap = some { x with accepted := true }
            else t.pair.swap = none ∧ t.bit R.PAIR_STAT 6 = true ∧ t.fld R.PAIR_CNT 15 0 = (s.fld R.PAIR_CNT 15 0 + 1) % 65536) ∧
          (¬good → Gives (.roleAccept west rx) s fun t => t.pairRole = role ∧ t.roleAt = s.roleAt ∧ t.pair.swap = s.pair.swap)) ∧
        (m.typ = 4 → op = 3 → ∀ x, s.pair.swap = some x →
          let mineRefused := role = 1 ∧ x.at_ = a ∧ x.accepted = false
          Gives (.roleRefuse west rx) s fun t => t.pairRole = role ∧ t.roleAt = s.roleAt ∧
            if mineRefused then t.pair.swap = none ∧ t.bit R.PAIR_STAT 1 = false else t.pair.swap = s.pair.swap) ∧
        (m.typ = 4 → op = 4 → Gives (.roleSnapReq west rx) s fun t => SameMem s t ∧ t.pairRole = role ∧
          t.pair.snapWant = (s.pair.snapWant || decide (role = 1))) ∧
        (m.typ = 4 → op = 5 →
          (check → s.pair.swap = none → role = 1 ∨ role = 2 → Gives (.roleSwapBack west rx) s fun t => turned (if role = 1 then 4 else 1) a t ∧ t.bit R.PAIR_STAT 6 = false) ∧
          (¬check → ∀ r b, s.pair.back = true → s.roleAt = some (r, b) → Gives (.roleSwapBack west rx) s fun t => t.pairRole = role ∧
            t.roleAt = some (r, if (a - b).toInt < 0 then a else b))) ∧
        (m.typ = 6 → m.body.length ≠ 40 →
          let off := leAt m.body 0 8
          let n := m.body.length - 8
          let spot (i : Nat) := snapPlace s.snapRegions (off + i)
          let lands (i b : Nat) := i < n ∧ off + i < s.snapTotal ∧ spot i = (true, b) ∧ hubReach b = true
          (role ≠ 3 → Gives (.chainSnap west rx) s (SameMem s)) ∧
          (role = 3 → Gives (.chainSnap west rx) s fun t => ∀ b, ((∀ i, ¬lands i b) → t.rdB b = s.rdB b) ∧
            ∀ i, lands i b → (∀ j, i < j → ¬lands j b) → t.rdB b = m.body.getD (8 + i) 0)) ∧
        (m.typ = 6 → m.body.length = 40 →
          let got := (s.snapRegions.flatMap fun e => s.hRdBytes e.1 e.2) ++ s.pair.rxLgv
          let good := got.length = leAt m.body 0 8 ∧ sha256 got = m.body.drop 8
          (role ≠ 3 → Gives (.chainSnapEnd west rx) s fun t => SameMem s t ∧ t.rd R.FLK_FRAME = s.rd R.FLK_FRAME) ∧
          (role = 3 → good → Gives (.chainSnapEnd west rx) s fun t => SameMem s t ∧ t.bit R.PAIR_STAT 7 = true ∧ t.rd R.FLK_FRAME = m.frame ∧
            t.rd R.FLK_COMMITTED = m.frame ∧ t.sealed = some m.frame ∧
            ∀ k, k < 4 → t.rd (R.LGV_FSCALE k) = BitVec.ofNat 32 (leAt s.pair.rxLgv (256 + 4 * k) 4)) ∧
          (role = 3 → ¬good → calm → Gives (.chainSnapEnd west rx) s fun t => SameMem s t ∧ t.rd R.FLK_FRAME = s.rd R.FLK_FRAME ∧
            t.bit R.PAIR_STAT 7 = s.bit R.PAIR_STAT 7 ∧ sent 4 0 t)) ∧
        (m.typ = 7 → op ≠ 0 →
          let skip := (rxCheck (s.fld R.CHN_CFG 15 4) ((s.chnWin.find? fun e => e.1 = m.src * 256 + m.typ).map (·.2)) m.alive).skip = true
          let room := (s.pair.inlog.map fun x => 8 + x.body.length).sum + 8 + m.body.length ≤ 2 ^ (s.fld R.PAIR_INLOG 3 0 + 16)
          let ring := s.fld R.PAIR_INLOG 31 4 * 256
          let code := leAt m.body 2 2
          (role = 1 → Gives (.inlogEntry west rx) s fun t => t.pair.inlog = s.pair.inlog ∧ t.host.reqs = s.host.reqs) ∧
          (role ≠ 1 → room → Gives (.inlogEntry west rx) s fun t =>
            (∀ a, a < ring ∨ ring + 2 ^ (s.fld R.PAIR_INLOG 3 0 + 16) ≤ a → t.rdB a = s.rdB a) ∧ t.pair.inlog = s.pair.inlog ++ [m] ∧
            t.host.reqs = s.host.reqs ++ if op = 3 ∧ 0x0010 ≤ code ∧ code ≤ 0x002A then
              [⟨true, 0, 0, code, 0, 0, m.frame, m.body.drop 4, false, true⟩] else []) ∧
          (role ≠ 1 → ¬room → Gives (.inlogEntry west rx) s fun t => SameMem s t ∧ t.pair.inlog = s.pair.inlog) ∧
          (role = 2 → skip ∨ ¬room → Gives (.inlogEntry west rx) s fun t => t.pairRole = 3 ∧ sent 4 0 t)) ∧
        (m.typ = 7 → op = 0 →
          (role = 1 → Gives (.inlogEnd west rx) s fun t => t.pair.ends = s.pair.ends) ∧
          (role ≠ 1 → Gives (.inlogEnd west rx) s fun t => SameMem s t ∧ ∀ e, e ∈ t.pair.ends ↔
            e = (m.frame, leAt m.body 2 2) ∨ e ∈ s.pair.ends ∧ e.1 ≠ m.frame))))

/-- Spares, self-tests, DRAM and C-die faults, return-lane lock, and the fault log (R36, R261, R385, R392, R492, R493,
R495, R496, R497, R518). -/
def Obligations.SpareAndFaultResults : Prop :=
  ∀ (s : State),
    let count (k : Nat) := [1088, 65536, 8192, 32, 32, 1, 8, 1, 64].getD k 0
    let form (k u : Nat) := k ≤ 8 ∧ u < count k
    let used (k : Nat) := s.fld (R.SPA_KIND k) 15 0
    let bank (u : Nat) := u / 64 % 16
    let rows (u : Nat) := mget (fun _ => 0) (s.crater (u / 1024)).rowSpares (bank u)
    let left (k u : Nat) := (k = 0 → s.fld (R.SPA_CR (u / 17)) 31 27 = 31 ∧ s.bit (R.SPA_CR (u / 17)) 16 = false) ∧
      (k = 1 → rows u < 8) ∧ (2 ≤ k → used k < s.fld (R.SPA_KIND k) 31 16)
    let may (k u : Nat) := (k = 0 → ∃ p, s.slotPos (u / 17) (u % 17) = some p ∧ (s.vent (u / 17 * 16 + p)).task = none) ∧
      (k = 3 → s.lnState u = LN_RUN → s.lnSpread u = false → (s.lane u).scanning = false ∧ s.blanked u = true) ∧ (k = 5 → (s.core 0).run = .halted) ∧ (k = 7 → s.lglState = LGL_STOPPED) ∧
      (k = 8 → s.keySlot u = none)
    let recorded (code : Nat) (d0 d1 : Nat) (t : State) (P : FaultRec → Prop) := ∃ x, t.flt.find? (fun r => r.code = code) = some x ∧
      x.d0 = BitVec.ofNat 32 d0 ∧ x.d1 = BitVec.ofNat 32 d1 ∧ P x
    let boundary (k : Nat) := k = 0 ∨ k = 1 ∨ k = 6
    let serves (k u : Nat) := k = 0 → ∃ p, s.slotPos (u / 17) (u % 17) = some p
    let answer (st : Nat) := BitVec.ofNat 32 (0x80000000 + st)
    let done (k u : Nat) (t : State) := t.fld (R.SPA_KIND k) 15 0 = (used k + 1) % 65536 ∧
      mget (fun _ => false) t.icuPend 0x142 = true ∧ (k, u) ∉ t.failedUnits ∧
      (∀ p, k = 0 → s.slotPos (u / 17) (u % 17) = some p → mget id (t.crater (u / 17)).slotMap p = 16 ∧
        t.bit (R.SPA_CR (u / 17)) (u % 17) = true ∧ t.fld (R.SPA_CR (u / 17)) 31 27 = p % 32 ∧
        recorded 0x0060 0 u t fun x => x.d2 = BitVec.ofNat 32 (u / 17 * 17 + 16) ∧ x.d3 = BitVec.ofNat 32 (u / 17 * 16 + p)) ∧
      (k = 1 → mget (fun _ => 0) (t.crater (u / 1024)).rowSpares (bank u) = rows u + 1 ∧
        (bank u, u % 64) ∉ (t.crater (u / 1024)).marked ∧ recorded 0x0060 1 u t fun x => x.d2 = BitVec.ofNat 32 (rows u)) ∧
      (2 ≤ k → recorded 0x0060 k u t fun x => x.d2 = BitVec.ofNat 32 (used k)) ∧ (k = 6 → (t.core (u + 1)).run = .halted)
    let swapped (k u : Nat) (t : State) := SameMem s t ∧ done k u t ∧ (k = 3 → s.lnState u = LN_RUN →
      if s.lnSpread u = true then (t.lane u).dark = true
      else (t.lane u).sent = [(1024, [])] ∧ (t.lane u).restTill = s.now + (1024 * 528 + 249) / 250)
    (∀ (net : Bool) (r : Request) (rest : List Request),
      let k := leAt r.payload 0 1
      let u := leAt r.payload 2 2
      (s.Asks net 0x0072 r rest →
        (¬form k u → Gives (.spareSwap net) s (· = s.refusedReq r rest E_ARG)) ∧
        (form k u → ¬left k u → Gives (.spareSwap net) s (· = s.refusedReq r rest E_SPACE)) ∧
        (form k u → left k u → ¬may k u → Gives (.spareSwap net) s (· = s.refusedReq r rest E_STATE)) ∧
        (form k u → left k u → may k u → ¬boundary k → Gives (.spareSwap net) s fun t => Answered s t r rest OK [] ∧ swapped k u t) ∧
        (form k u → left k u → may k u → boundary k → Gives (.spareSwap net) s
          (· = { s with host := { s.host with reqs := rest }, swapsDue := s.swapsDue ++ [{ kind := k, unit := u, req := some r }] }))) ∧
      (s.Asks net 0x0073 r rest →
        let n := leAt r.payload 4 1
        let held := if leAt r.payload 5 1 % 2 = 1 then s.fltNvs else s.flt
        (n = 0 ∨ 127 < n → Gives (.faultRead net) s (· = s.refusedReq r rest E_ARG)) ∧
        (1 ≤ n → n ≤ 127 → Gives (.faultRead net) s fun t => t = { s with host := { s.host with reqs := rest, resps := t.host.resps } } ∧
          Answered s t r rest OK ((List.range n).flatMap fun i =>
            ((held.find? fun x => x.seq = (leAt r.payload 0 4 + i) % 2 ^ 32).map FaultRec.bytes).getD [])))) ∧
    (∀ x : FaultRec, x.seq < 2 ^ 32 → x.code < 65536 → x.sev < 4 → x.count < 256 →
      let l := x.bytes
      l.length = 32 ∧ leAt l 0 4 = x.seq ∧ leAt l 4 4 = x.ns.toNat ∧ leAt l 8 4 = x.frame.toNat ∧ leAt l 12 2 = x.code ∧ leAt l 14 1 = x.sev ∧
      leAt l 15 1 = x.count ∧ leAt l 16 4 = x.d0.toNat ∧ leAt l 20 4 = x.d1.toNat ∧ leAt l 24 4 = x.d2.toNat ∧ leAt l 28 4 = x.d3.toNat) ∧
    (let k := s.fld R.SPA_SWAPREQ 27 24
     let u := s.fld R.SPA_SWAPREQ 15 0
     (¬form k u → Gives .spaSwapgo s (· = s.wr R.SPA_SWAPRES (answer E_ARG))) ∧
     (form k u → ¬left k u → Gives .spaSwapgo s (· = s.wr R.SPA_SWAPRES (answer E_SPACE))) ∧
     (form k u → left k u → ¬may k u → Gives .spaSwapgo s (· = s.wr R.SPA_SWAPRES (answer E_STATE))) ∧
     (form k u → left k u → may k u → ¬boundary k → Gives .spaSwapgo s fun t => t.rd R.SPA_SWAPRES = answer OK ∧ swapped k u t) ∧
     (form k u → left k u → may k u → boundary k → Gives .spaSwapgo s
       (· = { s.wr R.SPA_SWAPRES 0 with swapsDue := s.swapsDue ++ [{ kind := k, unit := u, reg := true }] }))) ∧
    (∀ d n target trim lag, s.swapsDue = [d] → form d.kind d.unit → boundary d.kind → s.flkEn = true → s.bit R.PAIR_STAT 7 = false →
      s.flkNext = some (n, target, trim, lag) → 0 ≤ (s.tsuNs - target).toInt →
      (may d.kind d.unit → left d.kind d.unit → Gives .frameStart s fun t => done d.kind d.unit t ∧ t.swapsDue = [] ∧
        (d.reg = true → t.rd R.SPA_SWAPRES = answer OK) ∧
        ∀ r, d.req = some r → (s.session? r.sid).isSome = true → r.drop = false → ⟨r, OK, [], none⟩ ∈ t.host.resps) ∧
      (¬may d.kind d.unit → serves d.kind d.unit → Gives .frameStart s fun t => t.swapsDue = [d] ∧ t.craters = s.craters)) ∧
    (∀ k u,
      let retires := (k, u) ∈ s.failedUnits ∨
        (k = 0 ∧ ∃ a b q, ((s.hwFaults.filter fun e => e.1 = u).map (·.2)) = a :: b :: q ∧ a - b ≤ 86400 * 400000000) ∨
        (k = 1 ∧ (bank u, u % 64) ∈ (s.crater (u / 1024)).marked) ∨ 2 ≤ k ∧ k ≤ 7
      let due := form k u ∧ retires ∧ serves k u
      let auto : SwapDue := { kind := k, unit := u }
      let waits := boundary k ∧ left k u
      (¬due → Gives (.spareSwapAuto k u) s (· = s)) ∧
      (due → waits → Gives (.spareSwapAuto k u) s
        (· = { s with swapsDue := if auto ∈ s.swapsDue then s.swapsDue else s.swapsDue ++ [auto] })) ∧
      (due → ¬waits → ¬may k u → Gives (.spareSwapAuto k u) s (· = s)) ∧
      (due → ¬waits → may k u → left k u → Gives (.spareSwapAuto k u) s (swapped k u)) ∧
      (due → ¬left k u → may k u → Gives (.spareSwapAuto k u) s fun t => SameMem s t ∧ recorded 0x0061 k u t (fun _ => True) ∧
        t.fld (R.SPA_KIND k) 15 0 = used k ∧ (k = 0 → t.bit (R.SPA_CR (u / 17)) (u % 17) = true ∧
          ∀ p, s.slotPos (u / 17) (u % 17) = some p → p ∈ (t.crater (u / 17)).off) ∧
        (k = 3 ∨ k = 4 → t.fld (lnReg R.SCN_L_STAT u) 1 0 = 0 ∧ u ∈ t.lanesOut))) ∧
    (∀ fails : List (Nat × Nat),
      let idle := s.showState = IDLE ∨ s.showState = LOADED
      let spare (e : Nat × Nat) := e.1 = 0 ∧ e.2 % 17 = 16 ∧ s.fld (R.SPA_CR (e.2 / 17)) 31 27 = 31
      let tested (e : Nat × Nat) := s.bit R.SPA_CTRL 31 = true ∧ s.clocksRun = true ∧ e ∈ fails ∧ form e.1 e.2 ∧ (idle ∨ spare e)
      ((∀ e, ¬tested e) → Gives (.spaSelftest fails) s (· = s)) ∧
      ∀ e, tested e → Gives (.spaSelftest fails) s fun t => SameMem s t ∧ (∃ x, x ∈ t.flt ∧ x.code = 0x0062) ∧
        (spare e → t.bit (R.SPA_CR (e.2 / 17)) 16 = true) ∧ (¬spare e → e ∈ t.failedUnits)) ∧
    (∀ addr, (inDram addr = false ∨ s.clocksRun = false → Gives (.drmUe addr) s (· = s)) ∧
      (inDram addr = true → s.clocksRun = true →
        let d0 := BitVec.ofNat 32 (addr % 2 ^ 32)
        let d1 := BitVec.ofNat 32 (addr / 2 ^ 32)
        let d2 := BitVec.ofNat 32 ((addr / 256 % 16) ^^^ (addr / 65536 % 16))
        let next := s.rd R.FLT_NEXT
        let newest := s.flt.find? fun r => r.code = 4
        let repeats (x : FaultRec) := newest = some x ∧ x.d0 = d0 ∧ x.d1 = d1 ∧ x.d2 = d2 ∧ x.d3 = 0 ∧ (s.tsuNs - x.ns).toNat ≤ 1000000
        let full := 1024 ≤ (next - s.rd R.FLT_READ).toInt
        let r : FaultRec := ⟨next.toNat, s.tsuNs, s.fnow, 4, 3, 0, d0, d1, d2, 0⟩
        (∀ x, repeats x → Gives (.drmUe addr) s fun t => SameMem s t ∧ t.regs = s.regs ∧ t.host = s.host ∧
          t.flt.find? (fun r => r.code = 4) = some { x with count := min 255 (x.count + 1) }) ∧
        ((∀ x, ¬repeats x) → Gives (.drmUe addr) s fun t => SameMem s t ∧ t.flt = (r :: s.flt).take 1024 ∧
          t.fltNvs = (r :: s.fltNvs).take 256 ∧ t.rd R.FLT_NEXT = next + 1 ∧ t.rd R.FLT_LAST = 0x00030004 ∧ t.bit R.FLT_STAT 0 = true ∧
          t.rd R.FLT_READ = (if full then s.rd R.FLT_READ + 1 else s.rd R.FLT_READ) ∧
          t.fld R.FLT_STAT 31 16 = (s.fld R.FLT_STAT 31 16 + if full then 1 else 0) % 65536 ∧
          t.showState = if s.showState = ARMED ∨ s.showState = RUNNING ∨ s.showState = HELD then FAULTED else s.showState))) ∧
    (∀ d : BitVec 2,
      let lo := SCRATCH_BASE + d.toNat * 0x1000000
      ((s.die d.toNat).lost = true → Gives (.cdieLost d) s (· = s)) ∧
      ((s.die d.toNat).lost = false → Gives (.cdieLost d) s fun t => (t.die d.toNat).lost = true ∧ (t.die d.toNat).on = false ∧
        (∀ a, t.rdB a = if lo ≤ a ∧ a < lo + 0x1000000 then memReset a else s.rdB a) ∧ recorded 0x0005 d.toNat 0 t fun _ => True)) ∧
    ∀ (l : BitVec 5) (locked : Bool), Gives (.returnLaneLock l locked) s fun t =>
      let a := lnReg R.SCN_L_STAT l.toNat
      t = { s with regs := t.regs } ∧ (∀ b, b ≠ a → t.rd b = s.rd b) ∧ ∀ i, i < 32 → t.bit a i = if i = 10 then locked else s.bit a i

/-- A write to SCH_EVENT fires a software event in every caldera; any other number is ignored (R168). -/
def Obligations.SchedulerEventWrite : Prop :=
  ∀ (s : State) (w : Word),
    let e := w.toNat % 2048
    (∀ key u, (key, u) ∈ s.tasks → s.task? key = some u) →
    (0x400 ≤ e → Gives (.schEventWrite w) s fun t => SameMem s t ∧ ∀ key u, s.task? key = some u →
      (u.st = .waiting (.event e) → s.released u.desc.tag = true → t.task? key = some { u with st := .ready, since := s.now }) ∧
      (u.st = .waiting (.event e) → s.released u.desc.tag = false → t.task? key = some { u with st := .waiting .release }) ∧
      (u.st ≠ .waiting (.event e) → t.task? key = some u)) ∧
    (e < 0x400 → Gives (.schEventWrite w) s (· = s))

/-- REGISTER_WRITE: the access codes, the registers that act, reads, SPI frames and reserved accesses (R9, R10, R39,
R40, R41, R71, R325, R334, R376, R377, R442, R516). -/
def Obligations.RegisterWriteResults : Prop :=
  ∀ (s : State) (who : Master) (a x : Nat) (w : Word),
    let names := (who = .host ∧ a % 4 = 0 ∧ (a < 0x1E0000 ∧ x = 0x3000000000 + a ∨
        0x2000000 ≤ a ∧ a < 0x2100000 ∧ x = 0x3001000000 + (a - 0x2000000) ∨
        0x3FF0000 ≤ a ∧ a < 0x4000000 ∧ x = 0x3FFFFF0000 + (a - 0x3FF0000))) ∨ who ≠ .host ∧ who ≠ .lhb ∧ x = a
    let reaches := match who with
      | .host => hostWriteLevel x ≤ s.hostLevel ∨ x = R.UPD_RECOVER ∧ s.upd.recovery = true
      | .mgmt secure => coreReach 0 secure x 1 = true
      | .svc n secure => coreReach (n.toNat + 1) secure x 1 = true
      | .langal => x = R.ICU_T_EOI 9
      | .lhb => False
    let may := reaches ∧ s.langalKeeps who x = false ∧ x % 4 = 0
    let go := Instr.registerWrite who a (.write 4 w)
    let read := Instr.registerWrite who a (.read 4)
    let link := s.clocksRun = true ∧ (who = .host → s.strict = false)
    let aligned := (masterProc who).isSome = true → a % 4 = 0
    let names := link ∧ aligned ∧ names
    let acting : List Nat := [R.LGV_COMMIT, R.NRG_N, R.PAIR_SWAPGO, R.SPA_SWAPGO, R.FLK_COMMIT, R.FLK_SEAL, R.SCN_COMMIT 0,
      R.DMX_P_COMMIT 0, R.DMX_P_RDMGO 0, R.UNV_COMMIT, R.CAL_COMMIT 0]
    let plain : List Nat := [0x30000C, 0x30000E, 0x30000F, 0x300012, 0x300015, 0x300016, 0x300017]
    let faults (k cause : Nat) (t : State) := if (s.core k).run = .running ∧ (s.core k).stall = none then ∃ (u : State) (tval : Word),
        u.cores = s.cores ∧ ExceptionTaken u k cause (s.core k).pc tval (s.core k).secure t
      else t.cores = s.cores
    let quiet (d : RegDesc) := d.base ∉ acting ∧ d.rl = 0 ∧ (x / 0x10000 ∈ [0x30000C, 0x30000D, 0x30000E, 0x300010, 0x300012, 0x300013,
      0x300016, 0x300017] ∨ 0x300100 ≤ x / 0x10000 ∧ x / 0x10000 < 0x300110)
    let stored := s.stored
    let runs : List (Nat × Instr) := [(R.SYS_RESET, .sysResetWarm who w), (R.PWC_WDOG, .pwcWdogEnable w), (R.PWC_WDKICK, .pwcWdkickWrite w),
      (R.SCH_EVENT, .schEventWrite w), (R.ICU_SWSET, .icuSwset w), (R.ICU_SWCLR, .icuSwclr w), (R.MBX_LOCK, .mbxLockWrite who w),
      (R.HST_APER, .hstAperWrite w), (R.FLK_SEAL, .flkSealWrite w), (R.NRG_N, .nrgNWrite w), (R.CHN_RXREL, .chnRxrelWrite w),
      (R.SNS_LOCK, .snsLockWrite w)]
    let fires : List (Nat × Instr) := [(R.SCH_SNAP, .schSnapGo), (R.TSU_COMMIT, .tsuCommit), (R.TSU_CAP, .tsuCapGo), (R.FLK_COMMIT, .flkCommit),
      (R.LGV_COMMIT, .lgvCommit), (R.SPD_COMMIT, .spdCommit), (R.MAC_RCOMMIT, .macRcommit), (R.UNV_COMMIT, .unvCommit),
      (R.PAIR_SWAPGO, .pairSwapgo), (R.SPA_SWAPGO, .spaSwapgo)]
    let recorded (d1 d2 : Nat) (t : State) := SameMem s t ∧ (s.bit R.PAIR_STAT 6 = false → ∀ b, b / 0x10000 ≠ R.FLT_NEXT / 0x10000 → t.rd b = s.rd b) ∧
      ∃ r, t.flt.find? (fun r => r.code = 0x0002) = some r ∧ r.d1 = BitVec.ofNat 32 d1 ∧ r.d2 = BitVec.ofNat 32 d2 ∧
        r.d0 = BitVec.ofNat 32 (if d1 < 0x40000 then x else a)
    let master : Nat × Nat := match who with
      | .host => (0, 0)
      | .mgmt _ => (0x10, 0)
      | .svc n _ => (0x11, n.toNat)
      | .langal => (0x12, 0)
      | .lhb => (0x12, 0)
    (∀ d, names → regDesc x = some d → may → quiet d → Gives go s fun t =>
      t = { s with regs := t.regs, writeNo := t.writeNo, shadowNo := t.shadowNo, nrg := t.nrg } ∧
      (d.base ≠ R.NRG_PLS_WT 0 → t.nrg = s.nrg) ∧ (∀ b, b ≠ x → t.rd b = s.rd b) ∧
      ∀ i, i < 32 → t.bit x i = if d.w1s.testBit i = true ∧ bitOf (stored d.base w) i = true then true
        else if d.w1c.testBit i = true ∧ bitOf (stored d.base w) i = true then false
        else if d.rw.testBit i = true then bitOf (stored d.base w) i else s.bit x i) ∧
    (∀ e, e ∈ runs → x = e.1 → names → may → ∀ P, Gives go s P ↔ Gives e.2 s P) ∧
    (∀ e, e ∈ fires → x = e.1 → names → may → ∀ P, Gives go s P ↔ if bitOf w 0 = true then Gives e.2 s P else P s) ∧
    (names → regDesc x = none ∨ ¬may → Gives go s fun t => recorded (x / 2 ^ 32 % 256 + master.1 * 256 + 0x10000) master.2 t ∧
      ∀ p, masterProc who = some p → faults (coreNo p) C_RANGE t) ∧
    (∀ p, s.clocksRun = true → masterProc who = some p → a % 4 ≠ 0 → ∀ i, i ∈ [go, read] → Gives i s fun t => SameMem s t ∧ t.regs = s.regs ∧
      faults (coreNo p) C_ALIGN t) ∧
    (s.clocksRun = false → ∀ acc, Gives (.registerWrite who a acc) s (· = s)) ∧
    (∀ d, names → regDesc x = some d → s.mayRead who x = true → s.langalKeeps who x = false → x % 4 = 0 → x / 0x10000 ∈ plain →
      Gives read s fun t => t = { s with hostRead := t.hostRead } ∧
        ∀ i, i < 32 → bitOf t.hostRead i = (s.bit x i && !d.wo.testBit i)) ∧
    (names → regDesc x = none ∨ s.mayRead who x = false ∨ s.langalKeeps who x = true → x % 4 = 0 → Gives read s fun t =>
      recorded (x / 2 ^ 32 % 256 + master.1 * 256) master.2 t ∧ t.hostRead = 0 ∧ ∀ p, masterProc who = some p → faults (coreNo p) C_RANGE t) ∧
    (who = .host → names → ∀ n, n ≠ 4 → Gives (.registerWrite who a (.write n w)) s (recorded (x / 2 ^ 32 % 256 + 0x10000) 0) ∧
      Gives (.registerWrite who a (.read n)) s fun t => recorded (x / 2 ^ 32 % 256) 0 t ∧ t.hostRead = 0) ∧
    (who = .host → s.strict = true → ∀ acc, Gives (.registerWrite who a acc) s (· = s)) ∧
    (who = .host → link → (∀ o, o = a → 0x1E0000 ≤ o → ¬(0x1F00000 ≤ o ∧ o < 0x1F00400) → ¬(0x1F01000 ≤ o ∧ o < 0x1F01008) →
        ¬(0x2000000 ≤ o ∧ o < 0x2100000) → ¬(0x3FF0000 ≤ o ∧ o < 0x4000000) → Gives go s (recorded (0x40000 + 0x10000) 0) ∧
          Gives read s fun t => recorded 0x40000 0 t ∧ t.hostRead = 0) ∧
      (a % 4 = 0 → 0x1F01000 ≤ a → a < 0x1F01008 → Gives go s (· = s)) ∧
      (a % 4 = 0 → a % 16 ≠ 12 → 0x1F00000 ≤ a → a < 0x1F00400 → Gives go s fun t =>
        t = { s with host := { s.host with msixWords := t.host.msixWords } } ∧
        ∀ k, mget (fun _ => 0) t.host.msixWords k = if k = (a - 0x1F00000) / 4 then w else mget (fun _ => 0) s.host.msixWords k) ∧
      (a % 16 = 12 → 0x1F00000 ≤ a → a < 0x1F00400 → (s.target 10).dlv = none → Gives go s fun t =>
        t = { s with host := { s.host with msixMask := t.host.msixMask } } ∧
        ∀ k, mget (fun _ => true) t.host.msixMask k = if k = (a - 0x1F00000) / 16 then bitOf w 0 else mget (fun _ => true) s.host.msixMask k)) ∧
    (who = .lhb → link → s.lgl.lhbSpi = true → (∀ acc, (∀ l, acc ≠ .spi l) → Gives (.registerWrite who a acc) s (· = s)) ∧
      ∀ l : List Bool, let f := bitsMsb l; let go := Instr.registerWrite who a (.spi l)
        (l.length ≠ 16 → Gives go s (· = s)) ∧ (l.length = 16 → 2 ^ 15 ≤ f → Gives go s (· = s.lhbRegRead (f / 256 % 16))) ∧
        (l.length = 16 → f < 2 ^ 15 → Gives go s (· = s.lhbWriteReg (f / 256 % 16) (BitVec.ofNat 8 f)))) ∧
    (who = .lhb → link → s.lgl.lhbSpi = false → let b := BitVec.ofNat 8 w.toNat
      (a % 16 = 6 → ∀ P, Gives go s P ↔ Gives (.lglHaddrhWrite b) s P) ∧ (a % 16 = 7 → ∀ P, Gives go s P ↔ Gives (.lglHdataAccess (some b)) s P) ∧
      (a % 16 = 8 → ∀ P, Gives go s P ↔ Gives (.lglHspaceWrite b) s P) ∧
      (s.lglReady = true → (a % 16 = 2 → Gives go s (· = s.setLgl { s.lgl with arg0 := b })) ∧
        (a % 16 = 3 → Gives go s (· = s.setLgl { s.lgl with arg1 := b })) ∧ (a % 16 = 5 → Gives go s (· = s.setLgl { s.lgl with addrl := b })) ∧
        (a % 16 = 9 → Gives go s (· = s.setLgl { s.lgl with irq := s.lgl.irq &&& ~~~b })) ∧
        (a % 16 = 10 → Gives go s (· = s.setLgl { s.lgl with irqEn := b &&& 0x0F })) ∧
        (a % 16 = 11 → Gives go s (· = s.setLgl { s.lgl with h2e := b }))))

/-- Reset: the values that the register tables give, and what is empty (02_programming_model.md,
05_budgeted_dispatch.md, 06_frame_time.md, 07_fixtures_layers.md, 08_scanout_tile_link.md, 09_spread_drive.md,
11_dmx_ports.md, 14_host_commands.md, 16_energy_calibration_checks.md, 19_pair_spares_faults.md). -/
def Obligations.ResetValues : Prop :=
  let s := State.reset
  (∀ e, e ∈ [(R.SCH_CTRL, 0x2), (R.SCH_RUNLIMIT, 0xFA0), (R.SCH_STARVE, 0x1F4), (R.BGT_CTRL, 0x37), (R.BGT_LIMIT, 0xB4),
      (R.BGT_ROT, 0x8060064), (R.BGT_LEARN, 0x6), (R.TSU_INC_FR, 0x80000000), (R.TSU_INC_NS, 0x2), (R.FLK_CTRL, 0x2),
      (R.FLK_RATE_N, 0xC350), (R.FLK_RATE_D, 0x3), (R.FLK_SHORTEN, 0x140040), (R.FLK_LAG, 0x320003), (R.FLK_COMMITTED, 0xFFFFFFFF),
      (R.FLK_STATUS, 0x1), (R.FLK_FSYNC, 0x10190), (R.FLK_WCLK, 0x320), (R.FLK_LTCCFG, 0x1), (R.LGV_FRAME, 0xFFFFFFFF)] →
    s.rd e.1 = BitVec.ofNat 32 e.2) ∧
  (∀ e, e ∈ [(R.SPD_PERIOD, 0x4019640), (R.UNV_IPCFG, 0x400015C0), (R.UNV_NFP, 0x541A), (R.UNV_KEEP, 0x3E8),
      (R.UNV_IN_CFG, 0x9C420000), (R.UNV_FRAME, 0xFFFFFFFF), (R.HST_CFG, 0x2580010), (R.HST_NET, 0x541B0000),
      (R.KEY_OPCFG, 0x101), (R.KEY_RES, 0x80000000), (R.NRG_CTRL, 0x4), (R.NRG_N, 0xBB8), (R.SYS_DRST, 0x80000000),
      (R.PWC_REQRES, 0x80000000), (R.PWC_WDOG, 0x7D0), (R.UPD_AT, 0xFFFFFFFF), (R.UPD_CFG, 0x1E), (R.CHN_CFG, 0x1004000),
      (R.CHN_RXBUF_HI, 0x40000), (R.PAIR_CFG, 0x330000), (R.PAIR_IVAL, 0x15180), (R.PAIR_CMPFRAME, 0xFFFFFFFF),
      (R.PAIR_SWAPRES, 0x80000000), (R.SPA_CTRL, 0x80000E10), (R.SPA_SWAPRES, 0x80000000), (R.FLT_CTRL, 0x2), (R.SYS_RSTCAUSE, 0x21)] →
    s.rd e.1 = BitVec.ofNat 32 e.2) ∧
  (∀ k, k < 16 → s.rd (R.CAL_CTRL k) = 0x3 ∧ s.rd (R.CAL_RESV k) = 0x7D0 ∧ s.rd (R.CAL_BCAP k) = 0x1770 ∧ s.rd (R.CAL_QUANTUM k) = 0x10 ∧
    s.rd (R.CAL_BUDGET k) = 0x5DC000 ∧ s.rd (R.CAL_THERM k) = 0x100 ∧ s.rd (R.CAL_STATUS k) = 0x10000000 ∧
    s.rd (R.DMX_P_CFG k) = 0x2200 ∧ s.rd (R.DMX_P_TIME k) = 0x2C040000 ∧ s.rd (R.DMX_P_RATE k) = 0x64061A8 ∧ s.rd (R.DMX_P_FRAME k) = 0xFFFFFFFF) ∧
  (∀ f, f < 4 → s.rd (R.LGV_FSCALE f) = 0x10000) ∧
  (∀ g, g < 64 → s.rd (R.LGV_GSCALE g) = 0x10000 ∧ s.rd (R.LGV_GTF g) = 0x10000 ∧ s.rd (R.NRG_ZTF g) = 0x10000 ∧ s.rd (R.SPA_CR g) = 0xF8000000) ∧
  (∀ l, l < 32 → s.rd (lnReg R.SCN_L_CFG l) = 0x100 ∧ s.rd (lnReg R.SCN_L_FRAME l) = 0xFFFFFFFF ∧ s.fld (lnReg R.SCN_L_STAT l) 1 0 = 0) ∧
  (∀ k, k ≤ 8 → (s.core k).run = .halted ∧ (s.core k).secure = true) ∧
  s.pairRole = 0 ∧ s.showState = IDLE ∧ s.flkFired = false ∧ s.tasks = [] ∧ s.vents = [] ∧ s.fifos = [] ∧ s.keys.slots = [] ∧
  s.host.sessions = [] ∧ s.host.reqs = [] ∧ s.flt = [] ∧ s.pending = [] ∧ s.mem = [] ∧ s.regs = [] ∧ Memory.wf s.mem ∧ Regs.wf s.regs

/-- Every step keeps memory in its canonical form (02_programming_model.md). -/
def Obligations.StepKeepsMemoryCanonical : Prop :=
  ∀ s t : State, Memory.wf s.mem → step s = .next t → Memory.wf t.mem
end

