-- ==== Sys2Proof/Laws/Maps.lean ====
section
/-!
SUPPORT. Sparse maps and register files: what a read gives after a write, and that every operation keeps the canonical
form of a map.
-/
namespace Sys2Proof.Machine
open Sys2Proof

/-! ### Reads after writes -/

theorem mget_merase_self {α : Type} (d : Nat → α) (m : List (Nat × α)) (k : Nat) : mget d (merase m k) k = d k := by
  induction m with
  | nil => rfl
  | cons e t ih =>
    obtain ⟨k', v⟩ := e
    by_cases h : k' = k
    · simp [merase, h, ih]
    · simp [merase, mget, h, ih]

theorem mget_merase_ne {α : Type} (d : Nat → α) (m : List (Nat × α)) {k j : Nat} (h : j ≠ k) :
    mget d (merase m k) j = mget d m j := by
  induction m with
  | nil => rfl
  | cons e t ih =>
    obtain ⟨k', v⟩ := e
    by_cases hk : k' = k
    · have : k' ≠ j := by omega
      simp [merase, mget, hk, ih]
      simp [show k ≠ j by omega]
    · rw [show merase ((k', v) :: t) k = (k', v) :: merase t k by simp [merase, hk]]
      simp only [mget, ih]

theorem mget_minsert_self {α : Type} (d : Nat → α) (m : List (Nat × α)) (k : Nat) (v : α)
    (h : mget d m k = d k ∧ ∀ e ∈ m, e.1 ≠ k) : mget d (minsert m k v) k = v := by
  induction m with
  | nil => simp [minsert, mget]
  | cons e t ih =>
    obtain ⟨k', v'⟩ := e
    have hk : k' ≠ k := h.2 _ (List.mem_cons_self ..)
    by_cases hl : k < k'
    · simp [minsert, hl, mget]
    · simp only [minsert, hl, if_false, mget, hk]
      exact ih ⟨by simpa [mget, hk] using h.1, fun e he => h.2 e (List.mem_cons_of_mem _ he)⟩

theorem mget_minsert_ne {α : Type} (d : Nat → α) (m : List (Nat × α)) {k j : Nat} (v : α) (h : j ≠ k) :
    mget d (minsert m k v) j = mget d m j := by
  induction m with
  | nil => simp [minsert, mget, Ne.symm h]
  | cons e t ih =>
    obtain ⟨k', v'⟩ := e
    by_cases hl : k < k'
    · simp [minsert, hl, mget, Ne.symm h]
    · simp only [minsert, hl, if_false, mget, ih]

theorem merase_mem_ne {α : Type} (m : List (Nat × α)) (k : Nat) : ∀ e ∈ merase m k, e.1 ≠ k := by
  induction m with
  | nil => simp [merase]
  | cons e t ih =>
    obtain ⟨k', v⟩ := e
    by_cases h : k' = k
    · simpa [merase, h] using ih
    · simp only [merase, h, if_false, List.mem_cons, forall_eq_or_imp]
      exact ⟨h, ih⟩

/-- A key set reads as the value set. -/
@[simp] theorem mget_mset_self {α : Type} [DecidableEq α] (d : Nat → α) (m : List (Nat × α)) (k : Nat) (v : α) :
    mget d (mset d m k v) k = v := by
  unfold mset
  split
  · rename_i h; rw [h, mget_merase_self]
  · exact mget_minsert_self d _ k v ⟨mget_merase_self d m k, merase_mem_ne m k⟩

/-- A key set leaves every other key as it was. -/
theorem mget_mset_ne {α : Type} [DecidableEq α] (d : Nat → α) (m : List (Nat × α)) {k j : Nat} (v : α) (h : j ≠ k) :
    mget d (mset d m k v) j = mget d m j := by
  unfold mset
  split
  · exact mget_merase_ne d m h
  · rw [mget_minsert_ne d _ v h, mget_merase_ne d m h]

/-- What a map reads as after one key is set. -/
theorem mget_mset {α : Type} [DecidableEq α] (d : Nat → α) (m : List (Nat × α)) (k j : Nat) (v : α) :
    mget d (mset d m k v) j = if j = k then v else mget d m j := by
  by_cases h : j = k
  · subst h; simp
  · simp [h, mget_mset_ne d m v h]

@[simp] theorem mget_nil {α : Type} (d : Nat → α) (k : Nat) : mget d [] k = d k := rfl

theorem merase_merase {α : Type} (m : List (Nat × α)) (k : Nat) : merase (merase m k) k = merase m k := by
  induction m with
  | nil => rfl
  | cons e t ih =>
    obtain ⟨k', v⟩ := e
    by_cases h : k' = k
    · simpa [merase, h] using ih
    · simp [merase, h, ih]

theorem merase_minsert {α : Type} (m : List (Nat × α)) (k : Nat) (v : α) : merase (minsert m k v) k = merase m k := by
  induction m with
  | nil => simp [minsert, merase]
  | cons e t ih =>
    obtain ⟨k', v'⟩ := e
    by_cases h : k < k'
    · simp [minsert, h, merase]
    · by_cases hk : k' = k
      · simp [minsert, merase, hk, ih]
      · simp [minsert, h, merase, hk, ih]

/-- The second of two writes of one key is the one that stays. -/
theorem mset_mset {α : Type} [DecidableEq α] (d : Nat → α) (m : List (Nat × α)) (k : Nat) (a b : α) :
    mset d (mset d m k a) k b = mset d m k b := by
  have h : merase (mset d m k a) k = merase m k := by
    unfold mset; split
    · exact merase_merase m k
    · rw [merase_minsert, merase_merase]
  unfold mset at h ⊢
  rw [h]

/-! ### The canonical form -/

/-- The keys of a map strictly rise. -/
def mkeys {α : Type} : List (Nat × α) → Bool
  | [] => true
  | (k, _) :: t => (t.all fun e => decide (k < e.1)) && mkeys t

/-- The canonical form: rising keys, and no entry equal to the unlisted value. -/
theorem mwf_iff {α : Type} [DecidableEq α] (d : Nat → α) (m : List (Nat × α)) :
    mwf d m = true ↔ mkeys m = true ∧ ∀ e ∈ m, e.2 ≠ d e.1 := by
  induction m with
  | nil => simp [mwf, mkeys]
  | cons e t ih =>
    obtain ⟨k, v⟩ := e
    simp only [mwf, mkeys, Bool.and_eq_true, decide_eq_true_eq, ih, List.mem_cons, forall_eq_or_imp]
    constructor
    · rintro ⟨⟨h1, h2⟩, h3, h4⟩; exact ⟨⟨h2, h3⟩, h1, h4⟩
    · rintro ⟨⟨h2, h3⟩, h1, h4⟩; exact ⟨⟨h1, h2⟩, h3, h4⟩

theorem mem_merase {α : Type} {m : List (Nat × α)} {k : Nat} {e : Nat × α} (h : e ∈ merase m k) : e ∈ m := by
  induction m with
  | nil => simp [merase] at h
  | cons x t ih =>
    obtain ⟨k', v⟩ := x
    by_cases hk : k' = k
    · simp only [merase, hk, if_true] at h; exact List.mem_cons_of_mem _ (ih h)
    · simp only [merase, hk, if_false, List.mem_cons] at h ⊢
      exact h.imp id ih

theorem mkeys_merase {α : Type} {m : List (Nat × α)} (k : Nat) (h : mkeys m = true) : mkeys (merase m k) = true := by
  induction m with
  | nil => rfl
  | cons x t ih =>
    obtain ⟨k', v⟩ := x
    simp only [mkeys, Bool.and_eq_true, List.all_eq_true, decide_eq_true_eq] at h
    by_cases hk : k' = k
    · simpa only [merase, hk, if_true] using ih h.2
    · simp only [merase, hk, if_false, mkeys, Bool.and_eq_true, List.all_eq_true, decide_eq_true_eq]
      exact ⟨fun e he => h.1 e (mem_merase he), ih h.2⟩

theorem mem_minsert {α : Type} {m : List (Nat × α)} {k : Nat} {v : α} {e : Nat × α} (h : e ∈ minsert m k v) :
    e = (k, v) ∨ e ∈ m := by
  induction m with
  | nil => simpa [minsert] using h
  | cons x t ih =>
    obtain ⟨k', v'⟩ := x
    by_cases hl : k < k'
    · simpa [minsert, hl] using h
    · simp only [minsert, hl, if_false, List.mem_cons] at h
      rcases h with h | h
      · exact .inr (by simp [h])
      · exact (ih h).imp id (List.mem_cons_of_mem _)

theorem mkeys_minsert {α : Type} {m : List (Nat × α)} (k : Nat) (v : α) (h : mkeys m = true)
    (hk : ∀ e ∈ m, e.1 ≠ k) : mkeys (minsert m k v) = true := by
  induction m with
  | nil => rfl
  | cons x t ih =>
    obtain ⟨k', v'⟩ := x
    simp only [mkeys, Bool.and_eq_true, List.all_eq_true, decide_eq_true_eq] at h
    by_cases hl : k < k'
    · simp only [minsert, hl, if_true, mkeys, Bool.and_eq_true, List.all_eq_true, decide_eq_true_eq, List.mem_cons,
        forall_eq_or_imp]
      exact ⟨⟨trivial, fun e he => Nat.lt_trans hl (h.1 e he)⟩, h.1, h.2⟩
    · have hne : k' ≠ k := hk _ (List.mem_cons_self ..)
      simp only [minsert, hl, if_false, mkeys, Bool.and_eq_true, List.all_eq_true, decide_eq_true_eq]
      refine ⟨fun e he => ?_, ih h.2 fun e he => hk e (List.mem_cons_of_mem _ he)⟩
      rcases mem_minsert he with rfl | he
      · show k' < k; omega
      · exact h.1 e he

theorem mwf_merase {α : Type} [DecidableEq α] (d : Nat → α) {m : List (Nat × α)} (k : Nat) (h : mwf d m = true) :
    mwf d (merase m k) = true := by
  rw [mwf_iff] at h ⊢
  exact ⟨mkeys_merase k h.1, fun e he => h.2 e (mem_merase he)⟩

/-- Setting a key keeps the canonical form. -/
theorem mwf_mset {α : Type} [DecidableEq α] (d : Nat → α) {m : List (Nat × α)} (k : Nat) (v : α) (h : mwf d m = true) :
    mwf d (mset d m k v) = true := by
  unfold mset
  split
  · exact mwf_merase d k h
  · rename_i hv
    have h' := mwf_merase d k h
    rw [mwf_iff] at h' ⊢
    refine ⟨mkeys_minsert k v h'.1 (merase_mem_ne m k), fun e he => ?_⟩
    rcases mem_minsert he with rfl | he
    · exact hv
    · exact h'.2 e he

theorem mkeys_filter {α : Type} {m : List (Nat × α)} (p : Nat × α → Bool) (h : mkeys m = true) :
    mkeys (m.filter p) = true := by
  induction m with
  | nil => rfl
  | cons x t ih =>
    obtain ⟨k', v⟩ := x
    simp only [mkeys, Bool.and_eq_true, List.all_eq_true, decide_eq_true_eq] at h
    rw [List.filter_cons]
    split
    · simp only [mkeys, Bool.and_eq_true, List.all_eq_true, decide_eq_true_eq]
      exact ⟨fun e he => h.1 e ((List.mem_filter.1 he).1), ih h.2⟩
    · exact ih h.2

/-- Dropping entries keeps the canonical form. -/
theorem mwf_filter {α : Type} [DecidableEq α] (d : Nat → α) {m : List (Nat × α)} (p : Nat × α → Bool)
    (h : mwf d m = true) : mwf d (m.filter p) = true := by
  rw [mwf_iff] at h ⊢
  exact ⟨mkeys_filter p h.1, fun e he => h.2 e ((List.mem_filter.1 he).1)⟩

theorem mwf_mdropRange {α : Type} [DecidableEq α] (d : Nat → α) {m : List (Nat × α)} (lo hi : Nat) (h : mwf d m = true) :
    mwf d (mdropRange m lo hi) = true := mwf_filter d _ h

theorem mwf_mrange {α : Type} [DecidableEq α] (d : Nat → α) {m : List (Nat × α)} (lo hi : Nat) (h : mwf d m = true) :
    mwf d (mrange m lo hi) = true := mwf_filter d _ h

/-- Adding the entries of a canonical map keeps the canonical form. -/
theorem mwf_mmerge {α : Type} [DecidableEq α] (d : Nat → α) {m n : List (Nat × α)} (h : mwf d m = true)
    (hn : mwf d n = true) : mwf d (mmerge m n) = true := by
  induction n generalizing m with
  | nil => simpa [mmerge] using h
  | cons x t ih =>
    obtain ⟨k, v⟩ := x
    have hn' := (mwf_iff d _).1 hn
    have hv : v ≠ d k := hn'.2 _ (List.mem_cons_self ..)
    simp only [mwf, Bool.and_eq_true] at hn
    have := mwf_mset d k v h
    simp only [mset, hv, if_false] at this
    exact ih this hn.2

/-! ### Register files -/

/-- What a register file reads as after one entry is set. -/
theorem getD_lset {α : Type} (d : α) (l : List α) (i j : Nat) (v : α) :
    (lset d l i v).getD j d = if j = i then v else l.getD j d := by
  induction l generalizing i j with
  | nil =>
    induction i generalizing j with
    | zero => cases j <;> simp [lset]
    | succ n ih => cases j with
      | zero => simp [lset]
      | succ m => simpa [lset] using ih m
  | cons x t ih =>
    cases i with
    | zero => cases j <;> simp [lset]
    | succ n => cases j with
      | zero => simp [lset]
      | succ m => simpa [lset] using ih n m

end Sys2Proof.Machine
end

