-- ==== Sys2Proof/Laws/State.lean ====
section
/-!
SUPPORT. What an update of the state leaves: one lemma for each part of the state and each update of another part, so that
no proof unfolds an update of the state.
-/
namespace Sys2Proof.Machine
open Sys2Proof

@[simp] theorem wr_pending (s : State) (a : Nat) (v : Word) : (s.wr a v).pending = s.pending := (rfl)
@[simp] theorem wr_now (s : State) (a : Nat) (v : Word) : (s.wr a v).now = s.now := (rfl)
@[simp] theorem wr_sck (s : State) (a : Nat) (v : Word) : (s.wr a v).sck = s.sck := (rfl)
@[simp] theorem wr_fresh (s : State) (a : Nat) (v : Word) : (s.wr a v).fresh = s.fresh := (rfl)
@[simp] theorem wr_act (s : State) (a : Nat) (v : Word) : (s.wr a v).act = s.act := (rfl)
@[simp] theorem wr_taken (s : State) (a : Nat) (v : Word) : (s.wr a v).taken = s.taken := (rfl)
@[simp] theorem wr_commits (s : State) (a : Nat) (v : Word) : (s.wr a v).commits = s.commits := (rfl)
@[simp] theorem wr_writeNo (s : State) (a : Nat) (v : Word) : (s.wr a v).writeNo = s.writeNo := (rfl)
@[simp] theorem wr_shadowNo (s : State) (a : Nat) (v : Word) : (s.wr a v).shadowNo = s.shadowNo := (rfl)
@[simp] theorem wr_mem (s : State) (a : Nat) (v : Word) : (s.wr a v).mem = s.mem := (rfl)
@[simp] theorem wr_ecc (s : State) (a : Nat) (v : Word) : (s.wr a v).ecc = s.ecc := (rfl)
@[simp] theorem wr_tsuAcc (s : State) (a : Nat) (v : Word) : (s.wr a v).tsuAcc = s.tsuAcc := (rfl)
@[simp] theorem wr_tsuHi (s : State) (a : Nat) (v : Word) : (s.wr a v).tsuHi = s.tsuHi := (rfl)
@[simp] theorem wr_tsuHist (s : State) (a : Nat) (v : Word) : (s.wr a v).tsuHist = s.tsuHist := (rfl)
@[simp] theorem wr_vents (s : State) (a : Nat) (v : Word) : (s.wr a v).vents = s.vents := (rfl)
@[simp] theorem wr_craters (s : State) (a : Nat) (v : Word) : (s.wr a v).craters = s.craters := (rfl)
@[simp] theorem wr_tasks (s : State) (a : Nat) (v : Word) : (s.wr a v).tasks = s.tasks := (rfl)
@[simp] theorem wr_seqs (s : State) (a : Nat) (v : Word) : (s.wr a v).seqs = s.seqs := (rfl)
@[simp] theorem wr_cals (s : State) (a : Nat) (v : Word) : (s.wr a v).cals = s.cals := (rfl)
@[simp] theorem wr_dies (s : State) (a : Nat) (v : Word) : (s.wr a v).dies = s.dies := (rfl)
@[simp] theorem wr_gates (s : State) (a : Nat) (v : Word) : (s.wr a v).gates = s.gates := (rfl)
@[simp] theorem wr_cores (s : State) (a : Nat) (v : Word) : (s.wr a v).cores = s.cores := (rfl)
@[simp] theorem wr_ticketNo (s : State) (a : Nat) (v : Word) : (s.wr a v).ticketNo = s.ticketNo := (rfl)
@[simp] theorem wr_outTaken (s : State) (a : Nat) (v : Word) : (s.wr a v).outTaken = s.outTaken := (rfl)
@[simp] theorem wr_relTaken (s : State) (a : Nat) (v : Word) : (s.wr a v).relTaken = s.relTaken := (rfl)
@[simp] theorem wr_fifos (s : State) (a : Nat) (v : Word) : (s.wr a v).fifos = s.fifos := (rfl)
@[simp] theorem wr_chans (s : State) (a : Nat) (v : Word) : (s.wr a v).chans = s.chans := (rfl)
@[simp] theorem wr_targets (s : State) (a : Nat) (v : Word) : (s.wr a v).targets = s.targets := (rfl)
@[simp] theorem wr_icuPend (s : State) (a : Nat) (v : Word) : (s.wr a v).icuPend = s.icuPend := (rfl)
@[simp] theorem wr_icuSvc (s : State) (a : Nat) (v : Word) : (s.wr a v).icuSvc = s.icuSvc := (rfl)
@[simp] theorem wr_icuLine (s : State) (a : Nat) (v : Word) : (s.wr a v).icuLine = s.icuLine := (rfl)
@[simp] theorem wr_sinter (s : State) (a : Nat) (v : Word) : (s.wr a v).sinter = s.sinter := (rfl)
@[simp] theorem wr_springLatch (s : State) (a : Nat) (v : Word) : (s.wr a v).springLatch = s.springLatch := (rfl)
@[simp] theorem wr_flt (s : State) (a : Nat) (v : Word) : (s.wr a v).flt = s.flt := (rfl)
@[simp] theorem wr_fltNvs (s : State) (a : Nat) (v : Word) : (s.wr a v).fltNvs = s.fltNvs := (rfl)
@[simp] theorem wr_host (s : State) (a : Nat) (v : Word) : (s.wr a v).host = s.host := (rfl)
@[simp] theorem wr_hwFaults (s : State) (a : Nat) (v : Word) : (s.wr a v).hwFaults = s.hwFaults := (rfl)
@[simp] theorem wr_hwchk (s : State) (a : Nat) (v : Word) : (s.wr a v).hwchk = s.hwchk := (rfl)
@[simp] theorem wr_dramReqs (s : State) (a : Nat) (v : Word) : (s.wr a v).dramReqs = s.dramReqs := (rfl)
@[simp] theorem wr_dramRef (s : State) (a : Nat) (v : Word) : (s.wr a v).dramRef = s.dramRef := (rfl)
@[simp] theorem wr_hostRead (s : State) (a : Nat) (v : Word) : (s.wr a v).hostRead = s.hostRead := (rfl)
@[simp] theorem wr_bgtOver (s : State) (a : Nat) (v : Word) : (s.wr a v).bgtOver = s.bgtOver := (rfl)
@[simp] theorem wr_bgtUnder (s : State) (a : Nat) (v : Word) : (s.wr a v).bgtUnder = s.bgtUnder := (rfl)
@[simp] theorem wr_snapReq (s : State) (a : Nat) (v : Word) : (s.wr a v).snapReq = s.snapReq := (rfl)
@[simp] theorem wr_capReq (s : State) (a : Nat) (v : Word) : (s.wr a v).capReq = s.capReq := (rfl)
@[simp] theorem wr_flkNo (s : State) (a : Nat) (v : Word) : (s.wr a v).flkNo = s.flkNo := (rfl)
@[simp] theorem wr_ratePend (s : State) (a : Nat) (v : Word) : (s.wr a v).ratePend = s.ratePend := (rfl)
@[simp] theorem wr_fsyncAt (s : State) (a : Nat) (v : Word) : (s.wr a v).fsyncAt = s.fsyncAt := (rfl)
@[simp] theorem wr_flkNext (s : State) (a : Nat) (v : Word) : (s.wr a v).flkNext = s.flkNext := (rfl)
@[simp] theorem wr_flkFired (s : State) (a : Nat) (v : Word) : (s.wr a v).flkFired = s.flkFired := (rfl)
@[simp] theorem wr_flkS (s : State) (a : Nat) (v : Word) : (s.wr a v).flkS = s.flkS := (rfl)
@[simp] theorem wr_lateNoted (s : State) (a : Nat) (v : Word) : (s.wr a v).lateNoted = s.lateNoted := (rfl)
@[simp] theorem wr_sealed (s : State) (a : Nat) (v : Word) : (s.wr a v).sealed = s.sealed := (rfl)
@[simp] theorem wr_sealHold (s : State) (a : Nat) (v : Word) : (s.wr a v).sealHold = s.sealHold := (rfl)
@[simp] theorem wr_fadeFc (s : State) (a : Nat) (v : Word) : (s.wr a v).fadeFc = s.fadeFc := (rfl)
@[simp] theorem wr_fadeTc (s : State) (a : Nat) (v : Word) : (s.wr a v).fadeTc = s.fadeTc := (rfl)
@[simp] theorem wr_notices (s : State) (a : Nat) (v : Word) : (s.wr a v).notices = s.notices := (rfl)
@[simp] theorem wr_peers (s : State) (a : Nat) (v : Word) : (s.wr a v).peers = s.peers := (rfl)
@[simp] theorem wr_chnOut (s : State) (a : Nat) (v : Word) : (s.wr a v).chnOut = s.chnOut := (rfl)
@[simp] theorem wr_chnAlive (s : State) (a : Nat) (v : Word) : (s.wr a v).chnAlive = s.chnAlive := (rfl)
@[simp] theorem wr_roleAt (s : State) (a : Nat) (v : Word) : (s.wr a v).roleAt = s.roleAt := (rfl)
@[simp] theorem wr_tbl (s : State) (a : Nat) (v : Word) : (s.wr a v).tbl = s.tbl := (rfl)
@[simp] theorem wr_bufs (s : State) (a : Nat) (v : Word) : (s.wr a v).bufs = s.bufs := (rfl)
@[simp] theorem wr_vid (s : State) (a : Nat) (v : Word) : (s.wr a v).vid = s.vid := (rfl)
@[simp] theorem wr_vidDrop (s : State) (a : Nat) (v : Word) : (s.wr a v).vidDrop = s.vidDrop := (rfl)
@[simp] theorem wr_layerStore (s : State) (a : Nat) (v : Word) : (s.wr a v).layerStore = s.layerStore := (rfl)
@[simp] theorem wr_lgvPrev (s : State) (a : Nat) (v : Word) : (s.wr a v).lgvPrev = s.lgvPrev := (rfl)
@[simp] theorem wr_lgvD (s : State) (a : Nat) (v : Word) : (s.wr a v).lgvD = s.lgvD := (rfl)
@[simp] theorem wr_tfFrames (s : State) (a : Nat) (v : Word) : (s.wr a v).tfFrames = s.tfFrames := (rfl)
@[simp] theorem wr_tfPair (s : State) (a : Nat) (v : Word) : (s.wr a v).tfPair = s.tfPair := (rfl)
@[simp] theorem wr_tfPairAt (s : State) (a : Nat) (v : Word) : (s.wr a v).tfPairAt = s.tfPairAt := (rfl)
@[simp] theorem wr_outScale (s : State) (a : Nat) (v : Word) : (s.wr a v).outScale = s.outScale := (rfl)
@[simp] theorem wr_slotWrites (s : State) (a : Nat) (v : Word) : (s.wr a v).slotWrites = s.slotWrites := (rfl)
@[simp] theorem wr_copyWrites (s : State) (a : Nat) (v : Word) : (s.wr a v).copyWrites = s.copyWrites := (rfl)
@[simp] theorem wr_gens (s : State) (a : Nat) (v : Word) : (s.wr a v).gens = s.gens := (rfl)
@[simp] theorem wr_fadeFrames (s : State) (a : Nat) (v : Word) : (s.wr a v).fadeFrames = s.fadeFrames := (rfl)
@[simp] theorem wr_layerTs (s : State) (a : Nat) (v : Word) : (s.wr a v).layerTs = s.layerTs := (rfl)
@[simp] theorem wr_tileLanes (s : State) (a : Nat) (v : Word) : (s.wr a v).tileLanes = s.tileLanes := (rfl)
@[simp] theorem wr_spd (s : State) (a : Nat) (v : Word) : (s.wr a v).spd = s.spd := (rfl)
@[simp] theorem wr_spdAnch (s : State) (a : Nat) (v : Word) : (s.wr a v).spdAnch = s.spdAnch := (rfl)
@[simp] theorem wr_spdNew (s : State) (a : Nat) (v : Word) : (s.wr a v).spdNew = s.spdNew := (rfl)
@[simp] theorem wr_spdTick (s : State) (a : Nat) (v : Word) : (s.wr a v).spdTick = s.spdTick := (rfl)
@[simp] theorem wr_spdOut (s : State) (a : Nat) (v : Word) : (s.wr a v).spdOut = s.spdOut := (rfl)
@[simp] theorem wr_snsGood (s : State) (a : Nat) (v : Word) : (s.wr a v).snsGood = s.snsGood := (rfl)
@[simp] theorem wr_snsPair (s : State) (a : Nat) (v : Word) : (s.wr a v).snsPair = s.snsPair := (rfl)
@[simp] theorem wr_dmx (s : State) (a : Nat) (v : Word) : (s.wr a v).dmx = s.dmx := (rfl)
@[simp] theorem wr_macs (s : State) (a : Nat) (v : Word) : (s.wr a v).macs = s.macs := (rfl)
@[simp] theorem wr_fpArmed (s : State) (a : Nat) (v : Word) : (s.wr a v).fpArmed = s.fpArmed := (rfl)
@[simp] theorem wr_unv (s : State) (a : Nat) (v : Word) : (s.wr a v).unv = s.unv := (rfl)
@[simp] theorem wr_tap (s : State) (a : Nat) (v : Word) : (s.wr a v).tap = s.tap := (rfl)
@[simp] theorem wr_lgl (s : State) (a : Nat) (v : Word) : (s.wr a v).lgl = s.lgl := (rfl)
@[simp] theorem wr_keys (s : State) (a : Nat) (v : Word) : (s.wr a v).keys = s.keys := (rfl)
@[simp] theorem wr_upd (s : State) (a : Nat) (v : Word) : (s.wr a v).upd = s.upd := (rfl)
@[simp] theorem wr_pwr (s : State) (a : Nat) (v : Word) : (s.wr a v).pwr = s.pwr := (rfl)
@[simp] theorem wr_nrg (s : State) (a : Nat) (v : Word) : (s.wr a v).nrg = s.nrg := (rfl)
@[simp] theorem wr_calib (s : State) (a : Nat) (v : Word) : (s.wr a v).calib = s.calib := (rfl)
@[simp] theorem wr_chkRun (s : State) (a : Nat) (v : Word) : (s.wr a v).chkRun = s.chkRun := (rfl)
@[simp] theorem wr_chnFwd (s : State) (a : Nat) (v : Word) : (s.wr a v).chnFwd = s.chnFwd := (rfl)
@[simp] theorem wr_chnQ (s : State) (a : Nat) (v : Word) : (s.wr a v).chnQ = s.chnQ := (rfl)
@[simp] theorem wr_chnLine (s : State) (a : Nat) (v : Word) : (s.wr a v).chnLine = s.chnLine := (rfl)
@[simp] theorem wr_chnTill (s : State) (a : Nat) (v : Word) : (s.wr a v).chnTill = s.chnTill := (rfl)
@[simp] theorem wr_chnWin (s : State) (a : Nat) (v : Word) : (s.wr a v).chnWin = s.chnWin := (rfl)
@[simp] theorem wr_chnSlot (s : State) (a : Nat) (v : Word) : (s.wr a v).chnSlot = s.chnSlot := (rfl)
@[simp] theorem wr_chnUsed (s : State) (a : Nat) (v : Word) : (s.wr a v).chnUsed = s.chnUsed := (rfl)
@[simp] theorem wr_pair (s : State) (a : Nat) (v : Word) : (s.wr a v).pair = s.pair := (rfl)
@[simp] theorem wr_spdPair (s : State) (a : Nat) (v : Word) : (s.wr a v).spdPair = s.spdPair := (rfl)
@[simp] theorem wr_committedNs (s : State) (a : Nat) (v : Word) : (s.wr a v).committedNs = s.committedNs := (rfl)
@[simp] theorem wr_failedUnits (s : State) (a : Nat) (v : Word) : (s.wr a v).failedUnits = s.failedUnits := (rfl)
@[simp] theorem wr_lanesOut (s : State) (a : Nat) (v : Word) : (s.wr a v).lanesOut = s.lanesOut := (rfl)
@[simp] theorem wr_swapsDue (s : State) (a : Nat) (v : Word) : (s.wr a v).swapsDue = s.swapsDue := (rfl)
@[simp] theorem wr_nvsWear (s : State) (a : Nat) (v : Word) : (s.wr a v).nvsWear = s.nvsWear := (rfl)

@[simp] theorem setF_pending (s : State) (a hi lo v : Nat) : (s.setF a hi lo v).pending = s.pending := (rfl)
@[simp] theorem setF_now (s : State) (a hi lo v : Nat) : (s.setF a hi lo v).now = s.now := (rfl)
@[simp] theorem setF_sck (s : State) (a hi lo v : Nat) : (s.setF a hi lo v).sck = s.sck := (rfl)
@[simp] theorem setF_fresh (s : State) (a hi lo v : Nat) : (s.setF a hi lo v).fresh = s.fresh := (rfl)
@[simp] theorem setF_act (s : State) (a hi lo v : Nat) : (s.setF a hi lo v).act = s.act := (rfl)
@[simp] theorem setF_taken (s : State) (a hi lo v : Nat) : (s.setF a hi lo v).taken = s.taken := (rfl)
@[simp] theorem setF_commits (s : State) (a hi lo v : Nat) : (s.setF a hi lo v).commits = s.commits := (rfl)
@[simp] theorem setF_writeNo (s : State) (a hi lo v : Nat) : (s.setF a hi lo v).writeNo = s.writeNo := (rfl)
@[simp] theorem setF_shadowNo (s : State) (a hi lo v : Nat) : (s.setF a hi lo v).shadowNo = s.shadowNo := (rfl)
@[simp] theorem setF_mem (s : State) (a hi lo v : Nat) : (s.setF a hi lo v).mem = s.mem := (rfl)
@[simp] theorem setF_ecc (s : State) (a hi lo v : Nat) : (s.setF a hi lo v).ecc = s.ecc := (rfl)
@[simp] theorem setF_tsuAcc (s : State) (a hi lo v : Nat) : (s.setF a hi lo v).tsuAcc = s.tsuAcc := (rfl)
@[simp] theorem setF_tsuHi (s : State) (a hi lo v : Nat) : (s.setF a hi lo v).tsuHi = s.tsuHi := (rfl)
@[simp] theorem setF_tsuHist (s : State) (a hi lo v : Nat) : (s.setF a hi lo v).tsuHist = s.tsuHist := (rfl)
@[simp] theorem setF_vents (s : State) (a hi lo v : Nat) : (s.setF a hi lo v).vents = s.vents := (rfl)
@[simp] theorem setF_craters (s : State) (a hi lo v : Nat) : (s.setF a hi lo v).craters = s.craters := (rfl)
@[simp] theorem setF_tasks (s : State) (a hi lo v : Nat) : (s.setF a hi lo v).tasks = s.tasks := (rfl)
@[simp] theorem setF_seqs (s : State) (a hi lo v : Nat) : (s.setF a hi lo v).seqs = s.seqs := (rfl)
@[simp] theorem setF_cals (s : State) (a hi lo v : Nat) : (s.setF a hi lo v).cals = s.cals := (rfl)
@[simp] theorem setF_dies (s : State) (a hi lo v : Nat) : (s.setF a hi lo v).dies = s.dies := (rfl)
@[simp] theorem setF_gates (s : State) (a hi lo v : Nat) : (s.setF a hi lo v).gates = s.gates := (rfl)
@[simp] theorem setF_cores (s : State) (a hi lo v : Nat) : (s.setF a hi lo v).cores = s.cores := (rfl)
@[simp] theorem setF_ticketNo (s : State) (a hi lo v : Nat) : (s.setF a hi lo v).ticketNo = s.ticketNo := (rfl)
@[simp] theorem setF_outTaken (s : State) (a hi lo v : Nat) : (s.setF a hi lo v).outTaken = s.outTaken := (rfl)
@[simp] theorem setF_relTaken (s : State) (a hi lo v : Nat) : (s.setF a hi lo v).relTaken = s.relTaken := (rfl)
@[simp] theorem setF_fifos (s : State) (a hi lo v : Nat) : (s.setF a hi lo v).fifos = s.fifos := (rfl)
@[simp] theorem setF_chans (s : State) (a hi lo v : Nat) : (s.setF a hi lo v).chans = s.chans := (rfl)
@[simp] theorem setF_targets (s : State) (a hi lo v : Nat) : (s.setF a hi lo v).targets = s.targets := (rfl)
@[simp] theorem setF_icuPend (s : State) (a hi lo v : Nat) : (s.setF a hi lo v).icuPend = s.icuPend := (rfl)
@[simp] theorem setF_icuSvc (s : State) (a hi lo v : Nat) : (s.setF a hi lo v).icuSvc = s.icuSvc := (rfl)
@[simp] theorem setF_icuLine (s : State) (a hi lo v : Nat) : (s.setF a hi lo v).icuLine = s.icuLine := (rfl)
@[simp] theorem setF_sinter (s : State) (a hi lo v : Nat) : (s.setF a hi lo v).sinter = s.sinter := (rfl)
@[simp] theorem setF_springLatch (s : State) (a hi lo v : Nat) : (s.setF a hi lo v).springLatch = s.springLatch := (rfl)
@[simp] theorem setF_flt (s : State) (a hi lo v : Nat) : (s.setF a hi lo v).flt = s.flt := (rfl)
@[simp] theorem setF_fltNvs (s : State) (a hi lo v : Nat) : (s.setF a hi lo v).fltNvs = s.fltNvs := (rfl)
@[simp] theorem setF_host (s : State) (a hi lo v : Nat) : (s.setF a hi lo v).host = s.host := (rfl)
@[simp] theorem setF_hwFaults (s : State) (a hi lo v : Nat) : (s.setF a hi lo v).hwFaults = s.hwFaults := (rfl)
@[simp] theorem setF_hwchk (s : State) (a hi lo v : Nat) : (s.setF a hi lo v).hwchk = s.hwchk := (rfl)
@[simp] theorem setF_dramReqs (s : State) (a hi lo v : Nat) : (s.setF a hi lo v).dramReqs = s.dramReqs := (rfl)
@[simp] theorem setF_dramRef (s : State) (a hi lo v : Nat) : (s.setF a hi lo v).dramRef = s.dramRef := (rfl)
@[simp] theorem setF_hostRead (s : State) (a hi lo v : Nat) : (s.setF a hi lo v).hostRead = s.hostRead := (rfl)
@[simp] theorem setF_bgtOver (s : State) (a hi lo v : Nat) : (s.setF a hi lo v).bgtOver = s.bgtOver := (rfl)
@[simp] theorem setF_bgtUnder (s : State) (a hi lo v : Nat) : (s.setF a hi lo v).bgtUnder = s.bgtUnder := (rfl)
@[simp] theorem setF_snapReq (s : State) (a hi lo v : Nat) : (s.setF a hi lo v).snapReq = s.snapReq := (rfl)
@[simp] theorem setF_capReq (s : State) (a hi lo v : Nat) : (s.setF a hi lo v).capReq = s.capReq := (rfl)
@[simp] theorem setF_flkNo (s : State) (a hi lo v : Nat) : (s.setF a hi lo v).flkNo = s.flkNo := (rfl)
@[simp] theorem setF_ratePend (s : State) (a hi lo v : Nat) : (s.setF a hi lo v).ratePend = s.ratePend := (rfl)
@[simp] theorem setF_fsyncAt (s : State) (a hi lo v : Nat) : (s.setF a hi lo v).fsyncAt = s.fsyncAt := (rfl)
@[simp] theorem setF_flkNext (s : State) (a hi lo v : Nat) : (s.setF a hi lo v).flkNext = s.flkNext := (rfl)
@[simp] theorem setF_flkFired (s : State) (a hi lo v : Nat) : (s.setF a hi lo v).flkFired = s.flkFired := (rfl)
@[simp] theorem setF_flkS (s : State) (a hi lo v : Nat) : (s.setF a hi lo v).flkS = s.flkS := (rfl)
@[simp] theorem setF_lateNoted (s : State) (a hi lo v : Nat) : (s.setF a hi lo v).lateNoted = s.lateNoted := (rfl)
@[simp] theorem setF_sealed (s : State) (a hi lo v : Nat) : (s.setF a hi lo v).sealed = s.sealed := (rfl)
@[simp] theorem setF_sealHold (s : State) (a hi lo v : Nat) : (s.setF a hi lo v).sealHold = s.sealHold := (rfl)
@[simp] theorem setF_fadeFc (s : State) (a hi lo v : Nat) : (s.setF a hi lo v).fadeFc = s.fadeFc := (rfl)
@[simp] theorem setF_fadeTc (s : State) (a hi lo v : Nat) : (s.setF a hi lo v).fadeTc = s.fadeTc := (rfl)
@[simp] theorem setF_notices (s : State) (a hi lo v : Nat) : (s.setF a hi lo v).notices = s.notices := (rfl)
@[simp] theorem setF_peers (s : State) (a hi lo v : Nat) : (s.setF a hi lo v).peers = s.peers := (rfl)
@[simp] theorem setF_chnOut (s : State) (a hi lo v : Nat) : (s.setF a hi lo v).chnOut = s.chnOut := (rfl)
@[simp] theorem setF_chnAlive (s : State) (a hi lo v : Nat) : (s.setF a hi lo v).chnAlive = s.chnAlive := (rfl)
@[simp] theorem setF_roleAt (s : State) (a hi lo v : Nat) : (s.setF a hi lo v).roleAt = s.roleAt := (rfl)
@[simp] theorem setF_tbl (s : State) (a hi lo v : Nat) : (s.setF a hi lo v).tbl = s.tbl := (rfl)
@[simp] theorem setF_bufs (s : State) (a hi lo v : Nat) : (s.setF a hi lo v).bufs = s.bufs := (rfl)
@[simp] theorem setF_vid (s : State) (a hi lo v : Nat) : (s.setF a hi lo v).vid = s.vid := (rfl)
@[simp] theorem setF_vidDrop (s : State) (a hi lo v : Nat) : (s.setF a hi lo v).vidDrop = s.vidDrop := (rfl)
@[simp] theorem setF_layerStore (s : State) (a hi lo v : Nat) : (s.setF a hi lo v).layerStore = s.layerStore := (rfl)
@[simp] theorem setF_lgvPrev (s : State) (a hi lo v : Nat) : (s.setF a hi lo v).lgvPrev = s.lgvPrev := (rfl)
@[simp] theorem setF_lgvD (s : State) (a hi lo v : Nat) : (s.setF a hi lo v).lgvD = s.lgvD := (rfl)
@[simp] theorem setF_tfFrames (s : State) (a hi lo v : Nat) : (s.setF a hi lo v).tfFrames = s.tfFrames := (rfl)
@[simp] theorem setF_tfPair (s : State) (a hi lo v : Nat) : (s.setF a hi lo v).tfPair = s.tfPair := (rfl)
@[simp] theorem setF_tfPairAt (s : State) (a hi lo v : Nat) : (s.setF a hi lo v).tfPairAt = s.tfPairAt := (rfl)
@[simp] theorem setF_outScale (s : State) (a hi lo v : Nat) : (s.setF a hi lo v).outScale = s.outScale := (rfl)
@[simp] theorem setF_slotWrites (s : State) (a hi lo v : Nat) : (s.setF a hi lo v).slotWrites = s.slotWrites := (rfl)
@[simp] theorem setF_copyWrites (s : State) (a hi lo v : Nat) : (s.setF a hi lo v).copyWrites = s.copyWrites := (rfl)
@[simp] theorem setF_gens (s : State) (a hi lo v : Nat) : (s.setF a hi lo v).gens = s.gens := (rfl)
@[simp] theorem setF_fadeFrames (s : State) (a hi lo v : Nat) : (s.setF a hi lo v).fadeFrames = s.fadeFrames := (rfl)
@[simp] theorem setF_layerTs (s : State) (a hi lo v : Nat) : (s.setF a hi lo v).layerTs = s.layerTs := (rfl)
@[simp] theorem setF_tileLanes (s : State) (a hi lo v : Nat) : (s.setF a hi lo v).tileLanes = s.tileLanes := (rfl)
@[simp] theorem setF_spd (s : State) (a hi lo v : Nat) : (s.setF a hi lo v).spd = s.spd := (rfl)
@[simp] theorem setF_spdAnch (s : State) (a hi lo v : Nat) : (s.setF a hi lo v).spdAnch = s.spdAnch := (rfl)
@[simp] theorem setF_spdNew (s : State) (a hi lo v : Nat) : (s.setF a hi lo v).spdNew = s.spdNew := (rfl)
@[simp] theorem setF_spdTick (s : State) (a hi lo v : Nat) : (s.setF a hi lo v).spdTick = s.spdTick := (rfl)
@[simp] theorem setF_spdOut (s : State) (a hi lo v : Nat) : (s.setF a hi lo v).spdOut = s.spdOut := (rfl)
@[simp] theorem setF_snsGood (s : State) (a hi lo v : Nat) : (s.setF a hi lo v).snsGood = s.snsGood := (rfl)
@[simp] theorem setF_snsPair (s : State) (a hi lo v : Nat) : (s.setF a hi lo v).snsPair = s.snsPair := (rfl)
@[simp] theorem setF_dmx (s : State) (a hi lo v : Nat) : (s.setF a hi lo v).dmx = s.dmx := (rfl)
@[simp] theorem setF_macs (s : State) (a hi lo v : Nat) : (s.setF a hi lo v).macs = s.macs := (rfl)
@[simp] theorem setF_fpArmed (s : State) (a hi lo v : Nat) : (s.setF a hi lo v).fpArmed = s.fpArmed := (rfl)
@[simp] theorem setF_unv (s : State) (a hi lo v : Nat) : (s.setF a hi lo v).unv = s.unv := (rfl)
@[simp] theorem setF_tap (s : State) (a hi lo v : Nat) : (s.setF a hi lo v).tap = s.tap := (rfl)
@[simp] theorem setF_lgl (s : State) (a hi lo v : Nat) : (s.setF a hi lo v).lgl = s.lgl := (rfl)
@[simp] theorem setF_keys (s : State) (a hi lo v : Nat) : (s.setF a hi lo v).keys = s.keys := (rfl)
@[simp] theorem setF_upd (s : State) (a hi lo v : Nat) : (s.setF a hi lo v).upd = s.upd := (rfl)
@[simp] theorem setF_pwr (s : State) (a hi lo v : Nat) : (s.setF a hi lo v).pwr = s.pwr := (rfl)
@[simp] theorem setF_nrg (s : State) (a hi lo v : Nat) : (s.setF a hi lo v).nrg = s.nrg := (rfl)
@[simp] theorem setF_calib (s : State) (a hi lo v : Nat) : (s.setF a hi lo v).calib = s.calib := (rfl)
@[simp] theorem setF_chkRun (s : State) (a hi lo v : Nat) : (s.setF a hi lo v).chkRun = s.chkRun := (rfl)
@[simp] theorem setF_chnFwd (s : State) (a hi lo v : Nat) : (s.setF a hi lo v).chnFwd = s.chnFwd := (rfl)
@[simp] theorem setF_chnQ (s : State) (a hi lo v : Nat) : (s.setF a hi lo v).chnQ = s.chnQ := (rfl)
@[simp] theorem setF_chnLine (s : State) (a hi lo v : Nat) : (s.setF a hi lo v).chnLine = s.chnLine := (rfl)
@[simp] theorem setF_chnTill (s : State) (a hi lo v : Nat) : (s.setF a hi lo v).chnTill = s.chnTill := (rfl)
@[simp] theorem setF_chnWin (s : State) (a hi lo v : Nat) : (s.setF a hi lo v).chnWin = s.chnWin := (rfl)
@[simp] theorem setF_chnSlot (s : State) (a hi lo v : Nat) : (s.setF a hi lo v).chnSlot = s.chnSlot := (rfl)
@[simp] theorem setF_chnUsed (s : State) (a hi lo v : Nat) : (s.setF a hi lo v).chnUsed = s.chnUsed := (rfl)
@[simp] theorem setF_pair (s : State) (a hi lo v : Nat) : (s.setF a hi lo v).pair = s.pair := (rfl)
@[simp] theorem setF_spdPair (s : State) (a hi lo v : Nat) : (s.setF a hi lo v).spdPair = s.spdPair := (rfl)
@[simp] theorem setF_committedNs (s : State) (a hi lo v : Nat) : (s.setF a hi lo v).committedNs = s.committedNs := (rfl)
@[simp] theorem setF_failedUnits (s : State) (a hi lo v : Nat) : (s.setF a hi lo v).failedUnits = s.failedUnits := (rfl)
@[simp] theorem setF_lanesOut (s : State) (a hi lo v : Nat) : (s.setF a hi lo v).lanesOut = s.lanesOut := (rfl)
@[simp] theorem setF_swapsDue (s : State) (a hi lo v : Nat) : (s.setF a hi lo v).swapsDue = s.swapsDue := (rfl)
@[simp] theorem setF_nvsWear (s : State) (a hi lo v : Nat) : (s.setF a hi lo v).nvsWear = s.nvsWear := (rfl)

@[simp] theorem addF_pending (s : State) (a hi lo n : Nat) : (s.addF a hi lo n).pending = s.pending := (rfl)
@[simp] theorem addF_now (s : State) (a hi lo n : Nat) : (s.addF a hi lo n).now = s.now := (rfl)
@[simp] theorem addF_sck (s : State) (a hi lo n : Nat) : (s.addF a hi lo n).sck = s.sck := (rfl)
@[simp] theorem addF_fresh (s : State) (a hi lo n : Nat) : (s.addF a hi lo n).fresh = s.fresh := (rfl)
@[simp] theorem addF_act (s : State) (a hi lo n : Nat) : (s.addF a hi lo n).act = s.act := (rfl)
@[simp] theorem addF_taken (s : State) (a hi lo n : Nat) : (s.addF a hi lo n).taken = s.taken := (rfl)
@[simp] theorem addF_commits (s : State) (a hi lo n : Nat) : (s.addF a hi lo n).commits = s.commits := (rfl)
@[simp] theorem addF_writeNo (s : State) (a hi lo n : Nat) : (s.addF a hi lo n).writeNo = s.writeNo := (rfl)
@[simp] theorem addF_shadowNo (s : State) (a hi lo n : Nat) : (s.addF a hi lo n).shadowNo = s.shadowNo := (rfl)
@[simp] theorem addF_mem (s : State) (a hi lo n : Nat) : (s.addF a hi lo n).mem = s.mem := (rfl)
@[simp] theorem addF_ecc (s : State) (a hi lo n : Nat) : (s.addF a hi lo n).ecc = s.ecc := (rfl)
@[simp] theorem addF_tsuAcc (s : State) (a hi lo n : Nat) : (s.addF a hi lo n).tsuAcc = s.tsuAcc := (rfl)
@[simp] theorem addF_tsuHi (s : State) (a hi lo n : Nat) : (s.addF a hi lo n).tsuHi = s.tsuHi := (rfl)
@[simp] theorem addF_tsuHist (s : State) (a hi lo n : Nat) : (s.addF a hi lo n).tsuHist = s.tsuHist := (rfl)
@[simp] theorem addF_vents (s : State) (a hi lo n : Nat) : (s.addF a hi lo n).vents = s.vents := (rfl)
@[simp] theorem addF_craters (s : State) (a hi lo n : Nat) : (s.addF a hi lo n).craters = s.craters := (rfl)
@[simp] theorem addF_tasks (s : State) (a hi lo n : Nat) : (s.addF a hi lo n).tasks = s.tasks := (rfl)
@[simp] theorem addF_seqs (s : State) (a hi lo n : Nat) : (s.addF a hi lo n).seqs = s.seqs := (rfl)
@[simp] theorem addF_cals (s : State) (a hi lo n : Nat) : (s.addF a hi lo n).cals = s.cals := (rfl)
@[simp] theorem addF_dies (s : State) (a hi lo n : Nat) : (s.addF a hi lo n).dies = s.dies := (rfl)
@[simp] theorem addF_gates (s : State) (a hi lo n : Nat) : (s.addF a hi lo n).gates = s.gates := (rfl)
@[simp] theorem addF_cores (s : State) (a hi lo n : Nat) : (s.addF a hi lo n).cores = s.cores := (rfl)
@[simp] theorem addF_ticketNo (s : State) (a hi lo n : Nat) : (s.addF a hi lo n).ticketNo = s.ticketNo := (rfl)
@[simp] theorem addF_outTaken (s : State) (a hi lo n : Nat) : (s.addF a hi lo n).outTaken = s.outTaken := (rfl)
@[simp] theorem addF_relTaken (s : State) (a hi lo n : Nat) : (s.addF a hi lo n).relTaken = s.relTaken := (rfl)
@[simp] theorem addF_fifos (s : State) (a hi lo n : Nat) : (s.addF a hi lo n).fifos = s.fifos := (rfl)
@[simp] theorem addF_chans (s : State) (a hi lo n : Nat) : (s.addF a hi lo n).chans = s.chans := (rfl)
@[simp] theorem addF_targets (s : State) (a hi lo n : Nat) : (s.addF a hi lo n).targets = s.targets := (rfl)
@[simp] theorem addF_icuPend (s : State) (a hi lo n : Nat) : (s.addF a hi lo n).icuPend = s.icuPend := (rfl)
@[simp] theorem addF_icuSvc (s : State) (a hi lo n : Nat) : (s.addF a hi lo n).icuSvc = s.icuSvc := (rfl)
@[simp] theorem addF_icuLine (s : State) (a hi lo n : Nat) : (s.addF a hi lo n).icuLine = s.icuLine := (rfl)
@[simp] theorem addF_sinter (s : State) (a hi lo n : Nat) : (s.addF a hi lo n).sinter = s.sinter := (rfl)
@[simp] theorem addF_springLatch (s : State) (a hi lo n : Nat) : (s.addF a hi lo n).springLatch = s.springLatch := (rfl)
@[simp] theorem addF_flt (s : State) (a hi lo n : Nat) : (s.addF a hi lo n).flt = s.flt := (rfl)
@[simp] theorem addF_fltNvs (s : State) (a hi lo n : Nat) : (s.addF a hi lo n).fltNvs = s.fltNvs := (rfl)
@[simp] theorem addF_host (s : State) (a hi lo n : Nat) : (s.addF a hi lo n).host = s.host := (rfl)
@[simp] theorem addF_hwFaults (s : State) (a hi lo n : Nat) : (s.addF a hi lo n).hwFaults = s.hwFaults := (rfl)
@[simp] theorem addF_hwchk (s : State) (a hi lo n : Nat) : (s.addF a hi lo n).hwchk = s.hwchk := (rfl)
@[simp] theorem addF_dramReqs (s : State) (a hi lo n : Nat) : (s.addF a hi lo n).dramReqs = s.dramReqs := (rfl)
@[simp] theorem addF_dramRef (s : State) (a hi lo n : Nat) : (s.addF a hi lo n).dramRef = s.dramRef := (rfl)
@[simp] theorem addF_hostRead (s : State) (a hi lo n : Nat) : (s.addF a hi lo n).hostRead = s.hostRead := (rfl)
@[simp] theorem addF_bgtOver (s : State) (a hi lo n : Nat) : (s.addF a hi lo n).bgtOver = s.bgtOver := (rfl)
@[simp] theorem addF_bgtUnder (s : State) (a hi lo n : Nat) : (s.addF a hi lo n).bgtUnder = s.bgtUnder := (rfl)
@[simp] theorem addF_snapReq (s : State) (a hi lo n : Nat) : (s.addF a hi lo n).snapReq = s.snapReq := (rfl)
@[simp] theorem addF_capReq (s : State) (a hi lo n : Nat) : (s.addF a hi lo n).capReq = s.capReq := (rfl)
@[simp] theorem addF_flkNo (s : State) (a hi lo n : Nat) : (s.addF a hi lo n).flkNo = s.flkNo := (rfl)
@[simp] theorem addF_ratePend (s : State) (a hi lo n : Nat) : (s.addF a hi lo n).ratePend = s.ratePend := (rfl)
@[simp] theorem addF_fsyncAt (s : State) (a hi lo n : Nat) : (s.addF a hi lo n).fsyncAt = s.fsyncAt := (rfl)
@[simp] theorem addF_flkNext (s : State) (a hi lo n : Nat) : (s.addF a hi lo n).flkNext = s.flkNext := (rfl)
@[simp] theorem addF_flkFired (s : State) (a hi lo n : Nat) : (s.addF a hi lo n).flkFired = s.flkFired := (rfl)
@[simp] theorem addF_flkS (s : State) (a hi lo n : Nat) : (s.addF a hi lo n).flkS = s.flkS := (rfl)
@[simp] theorem addF_lateNoted (s : State) (a hi lo n : Nat) : (s.addF a hi lo n).lateNoted = s.lateNoted := (rfl)
@[simp] theorem addF_sealed (s : State) (a hi lo n : Nat) : (s.addF a hi lo n).sealed = s.sealed := (rfl)
@[simp] theorem addF_sealHold (s : State) (a hi lo n : Nat) : (s.addF a hi lo n).sealHold = s.sealHold := (rfl)
@[simp] theorem addF_fadeFc (s : State) (a hi lo n : Nat) : (s.addF a hi lo n).fadeFc = s.fadeFc := (rfl)
@[simp] theorem addF_fadeTc (s : State) (a hi lo n : Nat) : (s.addF a hi lo n).fadeTc = s.fadeTc := (rfl)
@[simp] theorem addF_notices (s : State) (a hi lo n : Nat) : (s.addF a hi lo n).notices = s.notices := (rfl)
@[simp] theorem addF_peers (s : State) (a hi lo n : Nat) : (s.addF a hi lo n).peers = s.peers := (rfl)
@[simp] theorem addF_chnOut (s : State) (a hi lo n : Nat) : (s.addF a hi lo n).chnOut = s.chnOut := (rfl)
@[simp] theorem addF_chnAlive (s : State) (a hi lo n : Nat) : (s.addF a hi lo n).chnAlive = s.chnAlive := (rfl)
@[simp] theorem addF_roleAt (s : State) (a hi lo n : Nat) : (s.addF a hi lo n).roleAt = s.roleAt := (rfl)
@[simp] theorem addF_tbl (s : State) (a hi lo n : Nat) : (s.addF a hi lo n).tbl = s.tbl := (rfl)
@[simp] theorem addF_bufs (s : State) (a hi lo n : Nat) : (s.addF a hi lo n).bufs = s.bufs := (rfl)
@[simp] theorem addF_vid (s : State) (a hi lo n : Nat) : (s.addF a hi lo n).vid = s.vid := (rfl)
@[simp] theorem addF_vidDrop (s : State) (a hi lo n : Nat) : (s.addF a hi lo n).vidDrop = s.vidDrop := (rfl)
@[simp] theorem addF_layerStore (s : State) (a hi lo n : Nat) : (s.addF a hi lo n).layerStore = s.layerStore := (rfl)
@[simp] theorem addF_lgvPrev (s : State) (a hi lo n : Nat) : (s.addF a hi lo n).lgvPrev = s.lgvPrev := (rfl)
@[simp] theorem addF_lgvD (s : State) (a hi lo n : Nat) : (s.addF a hi lo n).lgvD = s.lgvD := (rfl)
@[simp] theorem addF_tfFrames (s : State) (a hi lo n : Nat) : (s.addF a hi lo n).tfFrames = s.tfFrames := (rfl)
@[simp] theorem addF_tfPair (s : State) (a hi lo n : Nat) : (s.addF a hi lo n).tfPair = s.tfPair := (rfl)
@[simp] theorem addF_tfPairAt (s : State) (a hi lo n : Nat) : (s.addF a hi lo n).tfPairAt = s.tfPairAt := (rfl)
@[simp] theorem addF_outScale (s : State) (a hi lo n : Nat) : (s.addF a hi lo n).outScale = s.outScale := (rfl)
@[simp] theorem addF_slotWrites (s : State) (a hi lo n : Nat) : (s.addF a hi lo n).slotWrites = s.slotWrites := (rfl)
@[simp] theorem addF_copyWrites (s : State) (a hi lo n : Nat) : (s.addF a hi lo n).copyWrites = s.copyWrites := (rfl)
@[simp] theorem addF_gens (s : State) (a hi lo n : Nat) : (s.addF a hi lo n).gens = s.gens := (rfl)
@[simp] theorem addF_fadeFrames (s : State) (a hi lo n : Nat) : (s.addF a hi lo n).fadeFrames = s.fadeFrames := (rfl)
@[simp] theorem addF_layerTs (s : State) (a hi lo n : Nat) : (s.addF a hi lo n).layerTs = s.layerTs := (rfl)
@[simp] theorem addF_tileLanes (s : State) (a hi lo n : Nat) : (s.addF a hi lo n).tileLanes = s.tileLanes := (rfl)
@[simp] theorem addF_spd (s : State) (a hi lo n : Nat) : (s.addF a hi lo n).spd = s.spd := (rfl)
@[simp] theorem addF_spdAnch (s : State) (a hi lo n : Nat) : (s.addF a hi lo n).spdAnch = s.spdAnch := (rfl)
@[simp] theorem addF_spdNew (s : State) (a hi lo n : Nat) : (s.addF a hi lo n).spdNew = s.spdNew := (rfl)
@[simp] theorem addF_spdTick (s : State) (a hi lo n : Nat) : (s.addF a hi lo n).spdTick = s.spdTick := (rfl)
@[simp] theorem addF_spdOut (s : State) (a hi lo n : Nat) : (s.addF a hi lo n).spdOut = s.spdOut := (rfl)
@[simp] theorem addF_snsGood (s : State) (a hi lo n : Nat) : (s.addF a hi lo n).snsGood = s.snsGood := (rfl)
@[simp] theorem addF_snsPair (s : State) (a hi lo n : Nat) : (s.addF a hi lo n).snsPair = s.snsPair := (rfl)
@[simp] theorem addF_dmx (s : State) (a hi lo n : Nat) : (s.addF a hi lo n).dmx = s.dmx := (rfl)
@[simp] theorem addF_macs (s : State) (a hi lo n : Nat) : (s.addF a hi lo n).macs = s.macs := (rfl)
@[simp] theorem addF_fpArmed (s : State) (a hi lo n : Nat) : (s.addF a hi lo n).fpArmed = s.fpArmed := (rfl)
@[simp] theorem addF_unv (s : State) (a hi lo n : Nat) : (s.addF a hi lo n).unv = s.unv := (rfl)
@[simp] theorem addF_tap (s : State) (a hi lo n : Nat) : (s.addF a hi lo n).tap = s.tap := (rfl)
@[simp] theorem addF_lgl (s : State) (a hi lo n : Nat) : (s.addF a hi lo n).lgl = s.lgl := (rfl)
@[simp] theorem addF_keys (s : State) (a hi lo n : Nat) : (s.addF a hi lo n).keys = s.keys := (rfl)
@[simp] theorem addF_upd (s : State) (a hi lo n : Nat) : (s.addF a hi lo n).upd = s.upd := (rfl)
@[simp] theorem addF_pwr (s : State) (a hi lo n : Nat) : (s.addF a hi lo n).pwr = s.pwr := (rfl)
@[simp] theorem addF_nrg (s : State) (a hi lo n : Nat) : (s.addF a hi lo n).nrg = s.nrg := (rfl)
@[simp] theorem addF_calib (s : State) (a hi lo n : Nat) : (s.addF a hi lo n).calib = s.calib := (rfl)
@[simp] theorem addF_chkRun (s : State) (a hi lo n : Nat) : (s.addF a hi lo n).chkRun = s.chkRun := (rfl)
@[simp] theorem addF_chnFwd (s : State) (a hi lo n : Nat) : (s.addF a hi lo n).chnFwd = s.chnFwd := (rfl)
@[simp] theorem addF_chnQ (s : State) (a hi lo n : Nat) : (s.addF a hi lo n).chnQ = s.chnQ := (rfl)
@[simp] theorem addF_chnLine (s : State) (a hi lo n : Nat) : (s.addF a hi lo n).chnLine = s.chnLine := (rfl)
@[simp] theorem addF_chnTill (s : State) (a hi lo n : Nat) : (s.addF a hi lo n).chnTill = s.chnTill := (rfl)
@[simp] theorem addF_chnWin (s : State) (a hi lo n : Nat) : (s.addF a hi lo n).chnWin = s.chnWin := (rfl)
@[simp] theorem addF_chnSlot (s : State) (a hi lo n : Nat) : (s.addF a hi lo n).chnSlot = s.chnSlot := (rfl)
@[simp] theorem addF_chnUsed (s : State) (a hi lo n : Nat) : (s.addF a hi lo n).chnUsed = s.chnUsed := (rfl)
@[simp] theorem addF_pair (s : State) (a hi lo n : Nat) : (s.addF a hi lo n).pair = s.pair := (rfl)
@[simp] theorem addF_spdPair (s : State) (a hi lo n : Nat) : (s.addF a hi lo n).spdPair = s.spdPair := (rfl)
@[simp] theorem addF_committedNs (s : State) (a hi lo n : Nat) : (s.addF a hi lo n).committedNs = s.committedNs := (rfl)
@[simp] theorem addF_failedUnits (s : State) (a hi lo n : Nat) : (s.addF a hi lo n).failedUnits = s.failedUnits := (rfl)
@[simp] theorem addF_lanesOut (s : State) (a hi lo n : Nat) : (s.addF a hi lo n).lanesOut = s.lanesOut := (rfl)
@[simp] theorem addF_swapsDue (s : State) (a hi lo n : Nat) : (s.addF a hi lo n).swapsDue = s.swapsDue := (rfl)
@[simp] theorem addF_nvsWear (s : State) (a hi lo n : Nat) : (s.addF a hi lo n).nvsWear = s.nvsWear := (rfl)

@[simp] theorem bump_pending (s : State) (a hi lo : Nat) : (s.bump a hi lo).pending = s.pending := (rfl)
@[simp] theorem bump_now (s : State) (a hi lo : Nat) : (s.bump a hi lo).now = s.now := (rfl)
@[simp] theorem bump_sck (s : State) (a hi lo : Nat) : (s.bump a hi lo).sck = s.sck := (rfl)
@[simp] theorem bump_fresh (s : State) (a hi lo : Nat) : (s.bump a hi lo).fresh = s.fresh := (rfl)
@[simp] theorem bump_act (s : State) (a hi lo : Nat) : (s.bump a hi lo).act = s.act := (rfl)
@[simp] theorem bump_taken (s : State) (a hi lo : Nat) : (s.bump a hi lo).taken = s.taken := (rfl)
@[simp] theorem bump_commits (s : State) (a hi lo : Nat) : (s.bump a hi lo).commits = s.commits := (rfl)
@[simp] theorem bump_writeNo (s : State) (a hi lo : Nat) : (s.bump a hi lo).writeNo = s.writeNo := (rfl)
@[simp] theorem bump_shadowNo (s : State) (a hi lo : Nat) : (s.bump a hi lo).shadowNo = s.shadowNo := (rfl)
@[simp] theorem bump_mem (s : State) (a hi lo : Nat) : (s.bump a hi lo).mem = s.mem := (rfl)
@[simp] theorem bump_ecc (s : State) (a hi lo : Nat) : (s.bump a hi lo).ecc = s.ecc := (rfl)
@[simp] theorem bump_tsuAcc (s : State) (a hi lo : Nat) : (s.bump a hi lo).tsuAcc = s.tsuAcc := (rfl)
@[simp] theorem bump_tsuHi (s : State) (a hi lo : Nat) : (s.bump a hi lo).tsuHi = s.tsuHi := (rfl)
@[simp] theorem bump_tsuHist (s : State) (a hi lo : Nat) : (s.bump a hi lo).tsuHist = s.tsuHist := (rfl)
@[simp] theorem bump_vents (s : State) (a hi lo : Nat) : (s.bump a hi lo).vents = s.vents := (rfl)
@[simp] theorem bump_craters (s : State) (a hi lo : Nat) : (s.bump a hi lo).craters = s.craters := (rfl)
@[simp] theorem bump_tasks (s : State) (a hi lo : Nat) : (s.bump a hi lo).tasks = s.tasks := (rfl)
@[simp] theorem bump_seqs (s : State) (a hi lo : Nat) : (s.bump a hi lo).seqs = s.seqs := (rfl)
@[simp] theorem bump_cals (s : State) (a hi lo : Nat) : (s.bump a hi lo).cals = s.cals := (rfl)
@[simp] theorem bump_dies (s : State) (a hi lo : Nat) : (s.bump a hi lo).dies = s.dies := (rfl)
@[simp] theorem bump_gates (s : State) (a hi lo : Nat) : (s.bump a hi lo).gates = s.gates := (rfl)
@[simp] theorem bump_cores (s : State) (a hi lo : Nat) : (s.bump a hi lo).cores = s.cores := (rfl)
@[simp] theorem bump_ticketNo (s : State) (a hi lo : Nat) : (s.bump a hi lo).ticketNo = s.ticketNo := (rfl)
@[simp] theorem bump_outTaken (s : State) (a hi lo : Nat) : (s.bump a hi lo).outTaken = s.outTaken := (rfl)
@[simp] theorem bump_relTaken (s : State) (a hi lo : Nat) : (s.bump a hi lo).relTaken = s.relTaken := (rfl)
@[simp] theorem bump_fifos (s : State) (a hi lo : Nat) : (s.bump a hi lo).fifos = s.fifos := (rfl)
@[simp] theorem bump_chans (s : State) (a hi lo : Nat) : (s.bump a hi lo).chans = s.chans := (rfl)
@[simp] theorem bump_targets (s : State) (a hi lo : Nat) : (s.bump a hi lo).targets = s.targets := (rfl)
@[simp] theorem bump_icuPend (s : State) (a hi lo : Nat) : (s.bump a hi lo).icuPend = s.icuPend := (rfl)
@[simp] theorem bump_icuSvc (s : State) (a hi lo : Nat) : (s.bump a hi lo).icuSvc = s.icuSvc := (rfl)
@[simp] theorem bump_icuLine (s : State) (a hi lo : Nat) : (s.bump a hi lo).icuLine = s.icuLine := (rfl)
@[simp] theorem bump_sinter (s : State) (a hi lo : Nat) : (s.bump a hi lo).sinter = s.sinter := (rfl)
@[simp] theorem bump_springLatch (s : State) (a hi lo : Nat) : (s.bump a hi lo).springLatch = s.springLatch := (rfl)
@[simp] theorem bump_flt (s : State) (a hi lo : Nat) : (s.bump a hi lo).flt = s.flt := (rfl)
@[simp] theorem bump_fltNvs (s : State) (a hi lo : Nat) : (s.bump a hi lo).fltNvs = s.fltNvs := (rfl)
@[simp] theorem bump_host (s : State) (a hi lo : Nat) : (s.bump a hi lo).host = s.host := (rfl)
@[simp] theorem bump_hwFaults (s : State) (a hi lo : Nat) : (s.bump a hi lo).hwFaults = s.hwFaults := (rfl)
@[simp] theorem bump_hwchk (s : State) (a hi lo : Nat) : (s.bump a hi lo).hwchk = s.hwchk := (rfl)
@[simp] theorem bump_dramReqs (s : State) (a hi lo : Nat) : (s.bump a hi lo).dramReqs = s.dramReqs := (rfl)
@[simp] theorem bump_dramRef (s : State) (a hi lo : Nat) : (s.bump a hi lo).dramRef = s.dramRef := (rfl)
@[simp] theorem bump_hostRead (s : State) (a hi lo : Nat) : (s.bump a hi lo).hostRead = s.hostRead := (rfl)
@[simp] theorem bump_bgtOver (s : State) (a hi lo : Nat) : (s.bump a hi lo).bgtOver = s.bgtOver := (rfl)
@[simp] theorem bump_bgtUnder (s : State) (a hi lo : Nat) : (s.bump a hi lo).bgtUnder = s.bgtUnder := (rfl)
@[simp] theorem bump_snapReq (s : State) (a hi lo : Nat) : (s.bump a hi lo).snapReq = s.snapReq := (rfl)
@[simp] theorem bump_capReq (s : State) (a hi lo : Nat) : (s.bump a hi lo).capReq = s.capReq := (rfl)
@[simp] theorem bump_flkNo (s : State) (a hi lo : Nat) : (s.bump a hi lo).flkNo = s.flkNo := (rfl)
@[simp] theorem bump_ratePend (s : State) (a hi lo : Nat) : (s.bump a hi lo).ratePend = s.ratePend := (rfl)
@[simp] theorem bump_fsyncAt (s : State) (a hi lo : Nat) : (s.bump a hi lo).fsyncAt = s.fsyncAt := (rfl)
@[simp] theorem bump_flkNext (s : State) (a hi lo : Nat) : (s.bump a hi lo).flkNext = s.flkNext := (rfl)
@[simp] theorem bump_flkFired (s : State) (a hi lo : Nat) : (s.bump a hi lo).flkFired = s.flkFired := (rfl)
@[simp] theorem bump_flkS (s : State) (a hi lo : Nat) : (s.bump a hi lo).flkS = s.flkS := (rfl)
@[simp] theorem bump_lateNoted (s : State) (a hi lo : Nat) : (s.bump a hi lo).lateNoted = s.lateNoted := (rfl)
@[simp] theorem bump_sealed (s : State) (a hi lo : Nat) : (s.bump a hi lo).sealed = s.sealed := (rfl)
@[simp] theorem bump_sealHold (s : State) (a hi lo : Nat) : (s.bump a hi lo).sealHold = s.sealHold := (rfl)
@[simp] theorem bump_fadeFc (s : State) (a hi lo : Nat) : (s.bump a hi lo).fadeFc = s.fadeFc := (rfl)
@[simp] theorem bump_fadeTc (s : State) (a hi lo : Nat) : (s.bump a hi lo).fadeTc = s.fadeTc := (rfl)
@[simp] theorem bump_notices (s : State) (a hi lo : Nat) : (s.bump a hi lo).notices = s.notices := (rfl)
@[simp] theorem bump_peers (s : State) (a hi lo : Nat) : (s.bump a hi lo).peers = s.peers := (rfl)
@[simp] theorem bump_chnOut (s : State) (a hi lo : Nat) : (s.bump a hi lo).chnOut = s.chnOut := (rfl)
@[simp] theorem bump_chnAlive (s : State) (a hi lo : Nat) : (s.bump a hi lo).chnAlive = s.chnAlive := (rfl)
@[simp] theorem bump_roleAt (s : State) (a hi lo : Nat) : (s.bump a hi lo).roleAt = s.roleAt := (rfl)
@[simp] theorem bump_tbl (s : State) (a hi lo : Nat) : (s.bump a hi lo).tbl = s.tbl := (rfl)
@[simp] theorem bump_bufs (s : State) (a hi lo : Nat) : (s.bump a hi lo).bufs = s.bufs := (rfl)
@[simp] theorem bump_vid (s : State) (a hi lo : Nat) : (s.bump a hi lo).vid = s.vid := (rfl)
@[simp] theorem bump_vidDrop (s : State) (a hi lo : Nat) : (s.bump a hi lo).vidDrop = s.vidDrop := (rfl)
@[simp] theorem bump_layerStore (s : State) (a hi lo : Nat) : (s.bump a hi lo).layerStore = s.layerStore := (rfl)
@[simp] theorem bump_lgvPrev (s : State) (a hi lo : Nat) : (s.bump a hi lo).lgvPrev = s.lgvPrev := (rfl)
@[simp] theorem bump_lgvD (s : State) (a hi lo : Nat) : (s.bump a hi lo).lgvD = s.lgvD := (rfl)
@[simp] theorem bump_tfFrames (s : State) (a hi lo : Nat) : (s.bump a hi lo).tfFrames = s.tfFrames := (rfl)
@[simp] theorem bump_tfPair (s : State) (a hi lo : Nat) : (s.bump a hi lo).tfPair = s.tfPair := (rfl)
@[simp] theorem bump_tfPairAt (s : State) (a hi lo : Nat) : (s.bump a hi lo).tfPairAt = s.tfPairAt := (rfl)
@[simp] theorem bump_outScale (s : State) (a hi lo : Nat) : (s.bump a hi lo).outScale = s.outScale := (rfl)
@[simp] theorem bump_slotWrites (s : State) (a hi lo : Nat) : (s.bump a hi lo).slotWrites = s.slotWrites := (rfl)
@[simp] theorem bump_copyWrites (s : State) (a hi lo : Nat) : (s.bump a hi lo).copyWrites = s.copyWrites := (rfl)
@[simp] theorem bump_gens (s : State) (a hi lo : Nat) : (s.bump a hi lo).gens = s.gens := (rfl)
@[simp] theorem bump_fadeFrames (s : State) (a hi lo : Nat) : (s.bump a hi lo).fadeFrames = s.fadeFrames := (rfl)
@[simp] theorem bump_layerTs (s : State) (a hi lo : Nat) : (s.bump a hi lo).layerTs = s.layerTs := (rfl)
@[simp] theorem bump_tileLanes (s : State) (a hi lo : Nat) : (s.bump a hi lo).tileLanes = s.tileLanes := (rfl)
@[simp] theorem bump_spd (s : State) (a hi lo : Nat) : (s.bump a hi lo).spd = s.spd := (rfl)
@[simp] theorem bump_spdAnch (s : State) (a hi lo : Nat) : (s.bump a hi lo).spdAnch = s.spdAnch := (rfl)
@[simp] theorem bump_spdNew (s : State) (a hi lo : Nat) : (s.bump a hi lo).spdNew = s.spdNew := (rfl)
@[simp] theorem bump_spdTick (s : State) (a hi lo : Nat) : (s.bump a hi lo).spdTick = s.spdTick := (rfl)
@[simp] theorem bump_spdOut (s : State) (a hi lo : Nat) : (s.bump a hi lo).spdOut = s.spdOut := (rfl)
@[simp] theorem bump_snsGood (s : State) (a hi lo : Nat) : (s.bump a hi lo).snsGood = s.snsGood := (rfl)
@[simp] theorem bump_snsPair (s : State) (a hi lo : Nat) : (s.bump a hi lo).snsPair = s.snsPair := (rfl)
@[simp] theorem bump_dmx (s : State) (a hi lo : Nat) : (s.bump a hi lo).dmx = s.dmx := (rfl)
@[simp] theorem bump_macs (s : State) (a hi lo : Nat) : (s.bump a hi lo).macs = s.macs := (rfl)
@[simp] theorem bump_fpArmed (s : State) (a hi lo : Nat) : (s.bump a hi lo).fpArmed = s.fpArmed := (rfl)
@[simp] theorem bump_unv (s : State) (a hi lo : Nat) : (s.bump a hi lo).unv = s.unv := (rfl)
@[simp] theorem bump_tap (s : State) (a hi lo : Nat) : (s.bump a hi lo).tap = s.tap := (rfl)
@[simp] theorem bump_lgl (s : State) (a hi lo : Nat) : (s.bump a hi lo).lgl = s.lgl := (rfl)
@[simp] theorem bump_keys (s : State) (a hi lo : Nat) : (s.bump a hi lo).keys = s.keys := (rfl)
@[simp] theorem bump_upd (s : State) (a hi lo : Nat) : (s.bump a hi lo).upd = s.upd := (rfl)
@[simp] theorem bump_pwr (s : State) (a hi lo : Nat) : (s.bump a hi lo).pwr = s.pwr := (rfl)
@[simp] theorem bump_nrg (s : State) (a hi lo : Nat) : (s.bump a hi lo).nrg = s.nrg := (rfl)
@[simp] theorem bump_calib (s : State) (a hi lo : Nat) : (s.bump a hi lo).calib = s.calib := (rfl)
@[simp] theorem bump_chkRun (s : State) (a hi lo : Nat) : (s.bump a hi lo).chkRun = s.chkRun := (rfl)
@[simp] theorem bump_chnFwd (s : State) (a hi lo : Nat) : (s.bump a hi lo).chnFwd = s.chnFwd := (rfl)
@[simp] theorem bump_chnQ (s : State) (a hi lo : Nat) : (s.bump a hi lo).chnQ = s.chnQ := (rfl)
@[simp] theorem bump_chnLine (s : State) (a hi lo : Nat) : (s.bump a hi lo).chnLine = s.chnLine := (rfl)
@[simp] theorem bump_chnTill (s : State) (a hi lo : Nat) : (s.bump a hi lo).chnTill = s.chnTill := (rfl)
@[simp] theorem bump_chnWin (s : State) (a hi lo : Nat) : (s.bump a hi lo).chnWin = s.chnWin := (rfl)
@[simp] theorem bump_chnSlot (s : State) (a hi lo : Nat) : (s.bump a hi lo).chnSlot = s.chnSlot := (rfl)
@[simp] theorem bump_chnUsed (s : State) (a hi lo : Nat) : (s.bump a hi lo).chnUsed = s.chnUsed := (rfl)
@[simp] theorem bump_pair (s : State) (a hi lo : Nat) : (s.bump a hi lo).pair = s.pair := (rfl)
@[simp] theorem bump_spdPair (s : State) (a hi lo : Nat) : (s.bump a hi lo).spdPair = s.spdPair := (rfl)
@[simp] theorem bump_committedNs (s : State) (a hi lo : Nat) : (s.bump a hi lo).committedNs = s.committedNs := (rfl)
@[simp] theorem bump_failedUnits (s : State) (a hi lo : Nat) : (s.bump a hi lo).failedUnits = s.failedUnits := (rfl)
@[simp] theorem bump_lanesOut (s : State) (a hi lo : Nat) : (s.bump a hi lo).lanesOut = s.lanesOut := (rfl)
@[simp] theorem bump_swapsDue (s : State) (a hi lo : Nat) : (s.bump a hi lo).swapsDue = s.swapsDue := (rfl)
@[simp] theorem bump_nvsWear (s : State) (a hi lo : Nat) : (s.bump a hi lo).nvsWear = s.nvsWear := (rfl)

@[simp] theorem aWr_pending (s : State) (a : Nat) (v : Word) : (s.aWr a v).pending = s.pending := (rfl)
@[simp] theorem aWr_now (s : State) (a : Nat) (v : Word) : (s.aWr a v).now = s.now := (rfl)
@[simp] theorem aWr_sck (s : State) (a : Nat) (v : Word) : (s.aWr a v).sck = s.sck := (rfl)
@[simp] theorem aWr_fresh (s : State) (a : Nat) (v : Word) : (s.aWr a v).fresh = s.fresh := (rfl)
@[simp] theorem aWr_regs (s : State) (a : Nat) (v : Word) : (s.aWr a v).regs = s.regs := (rfl)
@[simp] theorem aWr_taken (s : State) (a : Nat) (v : Word) : (s.aWr a v).taken = s.taken := (rfl)
@[simp] theorem aWr_commits (s : State) (a : Nat) (v : Word) : (s.aWr a v).commits = s.commits := (rfl)
@[simp] theorem aWr_writeNo (s : State) (a : Nat) (v : Word) : (s.aWr a v).writeNo = s.writeNo := (rfl)
@[simp] theorem aWr_shadowNo (s : State) (a : Nat) (v : Word) : (s.aWr a v).shadowNo = s.shadowNo := (rfl)
@[simp] theorem aWr_mem (s : State) (a : Nat) (v : Word) : (s.aWr a v).mem = s.mem := (rfl)
@[simp] theorem aWr_ecc (s : State) (a : Nat) (v : Word) : (s.aWr a v).ecc = s.ecc := (rfl)
@[simp] theorem aWr_tsuAcc (s : State) (a : Nat) (v : Word) : (s.aWr a v).tsuAcc = s.tsuAcc := (rfl)
@[simp] theorem aWr_tsuHi (s : State) (a : Nat) (v : Word) : (s.aWr a v).tsuHi = s.tsuHi := (rfl)
@[simp] theorem aWr_tsuHist (s : State) (a : Nat) (v : Word) : (s.aWr a v).tsuHist = s.tsuHist := (rfl)
@[simp] theorem aWr_vents (s : State) (a : Nat) (v : Word) : (s.aWr a v).vents = s.vents := (rfl)
@[simp] theorem aWr_craters (s : State) (a : Nat) (v : Word) : (s.aWr a v).craters = s.craters := (rfl)
@[simp] theorem aWr_tasks (s : State) (a : Nat) (v : Word) : (s.aWr a v).tasks = s.tasks := (rfl)
@[simp] theorem aWr_seqs (s : State) (a : Nat) (v : Word) : (s.aWr a v).seqs = s.seqs := (rfl)
@[simp] theorem aWr_cals (s : State) (a : Nat) (v : Word) : (s.aWr a v).cals = s.cals := (rfl)
@[simp] theorem aWr_dies (s : State) (a : Nat) (v : Word) : (s.aWr a v).dies = s.dies := (rfl)
@[simp] theorem aWr_gates (s : State) (a : Nat) (v : Word) : (s.aWr a v).gates = s.gates := (rfl)
@[simp] theorem aWr_cores (s : State) (a : Nat) (v : Word) : (s.aWr a v).cores = s.cores := (rfl)
@[simp] theorem aWr_ticketNo (s : State) (a : Nat) (v : Word) : (s.aWr a v).ticketNo = s.ticketNo := (rfl)
@[simp] theorem aWr_outTaken (s : State) (a : Nat) (v : Word) : (s.aWr a v).outTaken = s.outTaken := (rfl)
@[simp] theorem aWr_relTaken (s : State) (a : Nat) (v : Word) : (s.aWr a v).relTaken = s.relTaken := (rfl)
@[simp] theorem aWr_fifos (s : State) (a : Nat) (v : Word) : (s.aWr a v).fifos = s.fifos := (rfl)
@[simp] theorem aWr_chans (s : State) (a : Nat) (v : Word) : (s.aWr a v).chans = s.chans := (rfl)
@[simp] theorem aWr_targets (s : State) (a : Nat) (v : Word) : (s.aWr a v).targets = s.targets := (rfl)
@[simp] theorem aWr_icuPend (s : State) (a : Nat) (v : Word) : (s.aWr a v).icuPend = s.icuPend := (rfl)
@[simp] theorem aWr_icuSvc (s : State) (a : Nat) (v : Word) : (s.aWr a v).icuSvc = s.icuSvc := (rfl)
@[simp] theorem aWr_icuLine (s : State) (a : Nat) (v : Word) : (s.aWr a v).icuLine = s.icuLine := (rfl)
@[simp] theorem aWr_sinter (s : State) (a : Nat) (v : Word) : (s.aWr a v).sinter = s.sinter := (rfl)
@[simp] theorem aWr_springLatch (s : State) (a : Nat) (v : Word) : (s.aWr a v).springLatch = s.springLatch := (rfl)
@[simp] theorem aWr_flt (s : State) (a : Nat) (v : Word) : (s.aWr a v).flt = s.flt := (rfl)
@[simp] theorem aWr_fltNvs (s : State) (a : Nat) (v : Word) : (s.aWr a v).fltNvs = s.fltNvs := (rfl)
@[simp] theorem aWr_host (s : State) (a : Nat) (v : Word) : (s.aWr a v).host = s.host := (rfl)
@[simp] theorem aWr_hwFaults (s : State) (a : Nat) (v : Word) : (s.aWr a v).hwFaults = s.hwFaults := (rfl)
@[simp] theorem aWr_hwchk (s : State) (a : Nat) (v : Word) : (s.aWr a v).hwchk = s.hwchk := (rfl)
@[simp] theorem aWr_dramReqs (s : State) (a : Nat) (v : Word) : (s.aWr a v).dramReqs = s.dramReqs := (rfl)
@[simp] theorem aWr_dramRef (s : State) (a : Nat) (v : Word) : (s.aWr a v).dramRef = s.dramRef := (rfl)
@[simp] theorem aWr_hostRead (s : State) (a : Nat) (v : Word) : (s.aWr a v).hostRead = s.hostRead := (rfl)
@[simp] theorem aWr_bgtOver (s : State) (a : Nat) (v : Word) : (s.aWr a v).bgtOver = s.bgtOver := (rfl)
@[simp] theorem aWr_bgtUnder (s : State) (a : Nat) (v : Word) : (s.aWr a v).bgtUnder = s.bgtUnder := (rfl)
@[simp] theorem aWr_snapReq (s : State) (a : Nat) (v : Word) : (s.aWr a v).snapReq = s.snapReq := (rfl)
@[simp] theorem aWr_capReq (s : State) (a : Nat) (v : Word) : (s.aWr a v).capReq = s.capReq := (rfl)
@[simp] theorem aWr_flkNo (s : State) (a : Nat) (v : Word) : (s.aWr a v).flkNo = s.flkNo := (rfl)
@[simp] theorem aWr_ratePend (s : State) (a : Nat) (v : Word) : (s.aWr a v).ratePend = s.ratePend := (rfl)
@[simp] theorem aWr_fsyncAt (s : State) (a : Nat) (v : Word) : (s.aWr a v).fsyncAt = s.fsyncAt := (rfl)
@[simp] theorem aWr_flkNext (s : State) (a : Nat) (v : Word) : (s.aWr a v).flkNext = s.flkNext := (rfl)
@[simp] theorem aWr_flkFired (s : State) (a : Nat) (v : Word) : (s.aWr a v).flkFired = s.flkFired := (rfl)
@[simp] theorem aWr_flkS (s : State) (a : Nat) (v : Word) : (s.aWr a v).flkS = s.flkS := (rfl)
@[simp] theorem aWr_lateNoted (s : State) (a : Nat) (v : Word) : (s.aWr a v).lateNoted = s.lateNoted := (rfl)
@[simp] theorem aWr_sealed (s : State) (a : Nat) (v : Word) : (s.aWr a v).sealed = s.sealed := (rfl)
@[simp] theorem aWr_sealHold (s : State) (a : Nat) (v : Word) : (s.aWr a v).sealHold = s.sealHold := (rfl)
@[simp] theorem aWr_fadeFc (s : State) (a : Nat) (v : Word) : (s.aWr a v).fadeFc = s.fadeFc := (rfl)
@[simp] theorem aWr_fadeTc (s : State) (a : Nat) (v : Word) : (s.aWr a v).fadeTc = s.fadeTc := (rfl)
@[simp] theorem aWr_notices (s : State) (a : Nat) (v : Word) : (s.aWr a v).notices = s.notices := (rfl)
@[simp] theorem aWr_peers (s : State) (a : Nat) (v : Word) : (s.aWr a v).peers = s.peers := (rfl)
@[simp] theorem aWr_chnOut (s : State) (a : Nat) (v : Word) : (s.aWr a v).chnOut = s.chnOut := (rfl)
@[simp] theorem aWr_chnAlive (s : State) (a : Nat) (v : Word) : (s.aWr a v).chnAlive = s.chnAlive := (rfl)
@[simp] theorem aWr_roleAt (s : State) (a : Nat) (v : Word) : (s.aWr a v).roleAt = s.roleAt := (rfl)
@[simp] theorem aWr_tbl (s : State) (a : Nat) (v : Word) : (s.aWr a v).tbl = s.tbl := (rfl)
@[simp] theorem aWr_bufs (s : State) (a : Nat) (v : Word) : (s.aWr a v).bufs = s.bufs := (rfl)
@[simp] theorem aWr_vid (s : State) (a : Nat) (v : Word) : (s.aWr a v).vid = s.vid := (rfl)
@[simp] theorem aWr_vidDrop (s : State) (a : Nat) (v : Word) : (s.aWr a v).vidDrop = s.vidDrop := (rfl)
@[simp] theorem aWr_layerStore (s : State) (a : Nat) (v : Word) : (s.aWr a v).layerStore = s.layerStore := (rfl)
@[simp] theorem aWr_lgvPrev (s : State) (a : Nat) (v : Word) : (s.aWr a v).lgvPrev = s.lgvPrev := (rfl)
@[simp] theorem aWr_lgvD (s : State) (a : Nat) (v : Word) : (s.aWr a v).lgvD = s.lgvD := (rfl)
@[simp] theorem aWr_tfFrames (s : State) (a : Nat) (v : Word) : (s.aWr a v).tfFrames = s.tfFrames := (rfl)
@[simp] theorem aWr_tfPair (s : State) (a : Nat) (v : Word) : (s.aWr a v).tfPair = s.tfPair := (rfl)
@[simp] theorem aWr_tfPairAt (s : State) (a : Nat) (v : Word) : (s.aWr a v).tfPairAt = s.tfPairAt := (rfl)
@[simp] theorem aWr_outScale (s : State) (a : Nat) (v : Word) : (s.aWr a v).outScale = s.outScale := (rfl)
@[simp] theorem aWr_slotWrites (s : State) (a : Nat) (v : Word) : (s.aWr a v).slotWrites = s.slotWrites := (rfl)
@[simp] theorem aWr_copyWrites (s : State) (a : Nat) (v : Word) : (s.aWr a v).copyWrites = s.copyWrites := (rfl)
@[simp] theorem aWr_gens (s : State) (a : Nat) (v : Word) : (s.aWr a v).gens = s.gens := (rfl)
@[simp] theorem aWr_fadeFrames (s : State) (a : Nat) (v : Word) : (s.aWr a v).fadeFrames = s.fadeFrames := (rfl)
@[simp] theorem aWr_layerTs (s : State) (a : Nat) (v : Word) : (s.aWr a v).layerTs = s.layerTs := (rfl)
@[simp] theorem aWr_tileLanes (s : State) (a : Nat) (v : Word) : (s.aWr a v).tileLanes = s.tileLanes := (rfl)
@[simp] theorem aWr_spd (s : State) (a : Nat) (v : Word) : (s.aWr a v).spd = s.spd := (rfl)
@[simp] theorem aWr_spdAnch (s : State) (a : Nat) (v : Word) : (s.aWr a v).spdAnch = s.spdAnch := (rfl)
@[simp] theorem aWr_spdNew (s : State) (a : Nat) (v : Word) : (s.aWr a v).spdNew = s.spdNew := (rfl)
@[simp] theorem aWr_spdTick (s : State) (a : Nat) (v : Word) : (s.aWr a v).spdTick = s.spdTick := (rfl)
@[simp] theorem aWr_spdOut (s : State) (a : Nat) (v : Word) : (s.aWr a v).spdOut = s.spdOut := (rfl)
@[simp] theorem aWr_snsGood (s : State) (a : Nat) (v : Word) : (s.aWr a v).snsGood = s.snsGood := (rfl)
@[simp] theorem aWr_snsPair (s : State) (a : Nat) (v : Word) : (s.aWr a v).snsPair = s.snsPair := (rfl)
@[simp] theorem aWr_dmx (s : State) (a : Nat) (v : Word) : (s.aWr a v).dmx = s.dmx := (rfl)
@[simp] theorem aWr_macs (s : State) (a : Nat) (v : Word) : (s.aWr a v).macs = s.macs := (rfl)
@[simp] theorem aWr_fpArmed (s : State) (a : Nat) (v : Word) : (s.aWr a v).fpArmed = s.fpArmed := (rfl)
@[simp] theorem aWr_unv (s : State) (a : Nat) (v : Word) : (s.aWr a v).unv = s.unv := (rfl)
@[simp] theorem aWr_tap (s : State) (a : Nat) (v : Word) : (s.aWr a v).tap = s.tap := (rfl)
@[simp] theorem aWr_lgl (s : State) (a : Nat) (v : Word) : (s.aWr a v).lgl = s.lgl := (rfl)
@[simp] theorem aWr_keys (s : State) (a : Nat) (v : Word) : (s.aWr a v).keys = s.keys := (rfl)
@[simp] theorem aWr_upd (s : State) (a : Nat) (v : Word) : (s.aWr a v).upd = s.upd := (rfl)
@[simp] theorem aWr_pwr (s : State) (a : Nat) (v : Word) : (s.aWr a v).pwr = s.pwr := (rfl)
@[simp] theorem aWr_nrg (s : State) (a : Nat) (v : Word) : (s.aWr a v).nrg = s.nrg := (rfl)
@[simp] theorem aWr_calib (s : State) (a : Nat) (v : Word) : (s.aWr a v).calib = s.calib := (rfl)
@[simp] theorem aWr_chkRun (s : State) (a : Nat) (v : Word) : (s.aWr a v).chkRun = s.chkRun := (rfl)
@[simp] theorem aWr_chnFwd (s : State) (a : Nat) (v : Word) : (s.aWr a v).chnFwd = s.chnFwd := (rfl)
@[simp] theorem aWr_chnQ (s : State) (a : Nat) (v : Word) : (s.aWr a v).chnQ = s.chnQ := (rfl)
@[simp] theorem aWr_chnLine (s : State) (a : Nat) (v : Word) : (s.aWr a v).chnLine = s.chnLine := (rfl)
@[simp] theorem aWr_chnTill (s : State) (a : Nat) (v : Word) : (s.aWr a v).chnTill = s.chnTill := (rfl)
@[simp] theorem aWr_chnWin (s : State) (a : Nat) (v : Word) : (s.aWr a v).chnWin = s.chnWin := (rfl)
@[simp] theorem aWr_chnSlot (s : State) (a : Nat) (v : Word) : (s.aWr a v).chnSlot = s.chnSlot := (rfl)
@[simp] theorem aWr_chnUsed (s : State) (a : Nat) (v : Word) : (s.aWr a v).chnUsed = s.chnUsed := (rfl)
@[simp] theorem aWr_pair (s : State) (a : Nat) (v : Word) : (s.aWr a v).pair = s.pair := (rfl)
@[simp] theorem aWr_spdPair (s : State) (a : Nat) (v : Word) : (s.aWr a v).spdPair = s.spdPair := (rfl)
@[simp] theorem aWr_committedNs (s : State) (a : Nat) (v : Word) : (s.aWr a v).committedNs = s.committedNs := (rfl)
@[simp] theorem aWr_failedUnits (s : State) (a : Nat) (v : Word) : (s.aWr a v).failedUnits = s.failedUnits := (rfl)
@[simp] theorem aWr_lanesOut (s : State) (a : Nat) (v : Word) : (s.aWr a v).lanesOut = s.lanesOut := (rfl)
@[simp] theorem aWr_swapsDue (s : State) (a : Nat) (v : Word) : (s.aWr a v).swapsDue = s.swapsDue := (rfl)
@[simp] theorem aWr_nvsWear (s : State) (a : Nat) (v : Word) : (s.aWr a v).nvsWear = s.nvsWear := (rfl)

@[simp] theorem wrB_pending (s : State) (a : Nat) (b : Byte) : (s.wrB a b).pending = s.pending := (rfl)
@[simp] theorem wrB_now (s : State) (a : Nat) (b : Byte) : (s.wrB a b).now = s.now := (rfl)
@[simp] theorem wrB_sck (s : State) (a : Nat) (b : Byte) : (s.wrB a b).sck = s.sck := (rfl)
@[simp] theorem wrB_fresh (s : State) (a : Nat) (b : Byte) : (s.wrB a b).fresh = s.fresh := (rfl)
@[simp] theorem wrB_regs (s : State) (a : Nat) (b : Byte) : (s.wrB a b).regs = s.regs := (rfl)
@[simp] theorem wrB_act (s : State) (a : Nat) (b : Byte) : (s.wrB a b).act = s.act := (rfl)
@[simp] theorem wrB_taken (s : State) (a : Nat) (b : Byte) : (s.wrB a b).taken = s.taken := (rfl)
@[simp] theorem wrB_commits (s : State) (a : Nat) (b : Byte) : (s.wrB a b).commits = s.commits := (rfl)
@[simp] theorem wrB_writeNo (s : State) (a : Nat) (b : Byte) : (s.wrB a b).writeNo = s.writeNo := (rfl)
@[simp] theorem wrB_shadowNo (s : State) (a : Nat) (b : Byte) : (s.wrB a b).shadowNo = s.shadowNo := (rfl)
@[simp] theorem wrB_ecc (s : State) (a : Nat) (b : Byte) : (s.wrB a b).ecc = s.ecc := (rfl)
@[simp] theorem wrB_tsuAcc (s : State) (a : Nat) (b : Byte) : (s.wrB a b).tsuAcc = s.tsuAcc := (rfl)
@[simp] theorem wrB_tsuHi (s : State) (a : Nat) (b : Byte) : (s.wrB a b).tsuHi = s.tsuHi := (rfl)
@[simp] theorem wrB_tsuHist (s : State) (a : Nat) (b : Byte) : (s.wrB a b).tsuHist = s.tsuHist := (rfl)
@[simp] theorem wrB_vents (s : State) (a : Nat) (b : Byte) : (s.wrB a b).vents = s.vents := (rfl)
@[simp] theorem wrB_craters (s : State) (a : Nat) (b : Byte) : (s.wrB a b).craters = s.craters := (rfl)
@[simp] theorem wrB_tasks (s : State) (a : Nat) (b : Byte) : (s.wrB a b).tasks = s.tasks := (rfl)
@[simp] theorem wrB_seqs (s : State) (a : Nat) (b : Byte) : (s.wrB a b).seqs = s.seqs := (rfl)
@[simp] theorem wrB_cals (s : State) (a : Nat) (b : Byte) : (s.wrB a b).cals = s.cals := (rfl)
@[simp] theorem wrB_dies (s : State) (a : Nat) (b : Byte) : (s.wrB a b).dies = s.dies := (rfl)
@[simp] theorem wrB_gates (s : State) (a : Nat) (b : Byte) : (s.wrB a b).gates = s.gates := (rfl)
@[simp] theorem wrB_cores (s : State) (a : Nat) (b : Byte) : (s.wrB a b).cores = s.cores := (rfl)
@[simp] theorem wrB_ticketNo (s : State) (a : Nat) (b : Byte) : (s.wrB a b).ticketNo = s.ticketNo := (rfl)
@[simp] theorem wrB_outTaken (s : State) (a : Nat) (b : Byte) : (s.wrB a b).outTaken = s.outTaken := (rfl)
@[simp] theorem wrB_relTaken (s : State) (a : Nat) (b : Byte) : (s.wrB a b).relTaken = s.relTaken := (rfl)
@[simp] theorem wrB_fifos (s : State) (a : Nat) (b : Byte) : (s.wrB a b).fifos = s.fifos := (rfl)
@[simp] theorem wrB_chans (s : State) (a : Nat) (b : Byte) : (s.wrB a b).chans = s.chans := (rfl)
@[simp] theorem wrB_targets (s : State) (a : Nat) (b : Byte) : (s.wrB a b).targets = s.targets := (rfl)
@[simp] theorem wrB_icuPend (s : State) (a : Nat) (b : Byte) : (s.wrB a b).icuPend = s.icuPend := (rfl)
@[simp] theorem wrB_icuSvc (s : State) (a : Nat) (b : Byte) : (s.wrB a b).icuSvc = s.icuSvc := (rfl)
@[simp] theorem wrB_icuLine (s : State) (a : Nat) (b : Byte) : (s.wrB a b).icuLine = s.icuLine := (rfl)
@[simp] theorem wrB_sinter (s : State) (a : Nat) (b : Byte) : (s.wrB a b).sinter = s.sinter := (rfl)
@[simp] theorem wrB_springLatch (s : State) (a : Nat) (b : Byte) : (s.wrB a b).springLatch = s.springLatch := (rfl)
@[simp] theorem wrB_flt (s : State) (a : Nat) (b : Byte) : (s.wrB a b).flt = s.flt := (rfl)
@[simp] theorem wrB_fltNvs (s : State) (a : Nat) (b : Byte) : (s.wrB a b).fltNvs = s.fltNvs := (rfl)
@[simp] theorem wrB_host (s : State) (a : Nat) (b : Byte) : (s.wrB a b).host = s.host := (rfl)
@[simp] theorem wrB_hwFaults (s : State) (a : Nat) (b : Byte) : (s.wrB a b).hwFaults = s.hwFaults := (rfl)
@[simp] theorem wrB_hwchk (s : State) (a : Nat) (b : Byte) : (s.wrB a b).hwchk = s.hwchk := (rfl)
@[simp] theorem wrB_dramReqs (s : State) (a : Nat) (b : Byte) : (s.wrB a b).dramReqs = s.dramReqs := (rfl)
@[simp] theorem wrB_dramRef (s : State) (a : Nat) (b : Byte) : (s.wrB a b).dramRef = s.dramRef := (rfl)
@[simp] theorem wrB_hostRead (s : State) (a : Nat) (b : Byte) : (s.wrB a b).hostRead = s.hostRead := (rfl)
@[simp] theorem wrB_bgtOver (s : State) (a : Nat) (b : Byte) : (s.wrB a b).bgtOver = s.bgtOver := (rfl)
@[simp] theorem wrB_bgtUnder (s : State) (a : Nat) (b : Byte) : (s.wrB a b).bgtUnder = s.bgtUnder := (rfl)
@[simp] theorem wrB_snapReq (s : State) (a : Nat) (b : Byte) : (s.wrB a b).snapReq = s.snapReq := (rfl)
@[simp] theorem wrB_capReq (s : State) (a : Nat) (b : Byte) : (s.wrB a b).capReq = s.capReq := (rfl)
@[simp] theorem wrB_flkNo (s : State) (a : Nat) (b : Byte) : (s.wrB a b).flkNo = s.flkNo := (rfl)
@[simp] theorem wrB_ratePend (s : State) (a : Nat) (b : Byte) : (s.wrB a b).ratePend = s.ratePend := (rfl)
@[simp] theorem wrB_fsyncAt (s : State) (a : Nat) (b : Byte) : (s.wrB a b).fsyncAt = s.fsyncAt := (rfl)
@[simp] theorem wrB_flkNext (s : State) (a : Nat) (b : Byte) : (s.wrB a b).flkNext = s.flkNext := (rfl)
@[simp] theorem wrB_flkFired (s : State) (a : Nat) (b : Byte) : (s.wrB a b).flkFired = s.flkFired := (rfl)
@[simp] theorem wrB_flkS (s : State) (a : Nat) (b : Byte) : (s.wrB a b).flkS = s.flkS := (rfl)
@[simp] theorem wrB_lateNoted (s : State) (a : Nat) (b : Byte) : (s.wrB a b).lateNoted = s.lateNoted := (rfl)
@[simp] theorem wrB_sealed (s : State) (a : Nat) (b : Byte) : (s.wrB a b).sealed = s.sealed := (rfl)
@[simp] theorem wrB_sealHold (s : State) (a : Nat) (b : Byte) : (s.wrB a b).sealHold = s.sealHold := (rfl)
@[simp] theorem wrB_fadeFc (s : State) (a : Nat) (b : Byte) : (s.wrB a b).fadeFc = s.fadeFc := (rfl)
@[simp] theorem wrB_fadeTc (s : State) (a : Nat) (b : Byte) : (s.wrB a b).fadeTc = s.fadeTc := (rfl)
@[simp] theorem wrB_notices (s : State) (a : Nat) (b : Byte) : (s.wrB a b).notices = s.notices := (rfl)
@[simp] theorem wrB_peers (s : State) (a : Nat) (b : Byte) : (s.wrB a b).peers = s.peers := (rfl)
@[simp] theorem wrB_chnOut (s : State) (a : Nat) (b : Byte) : (s.wrB a b).chnOut = s.chnOut := (rfl)
@[simp] theorem wrB_chnAlive (s : State) (a : Nat) (b : Byte) : (s.wrB a b).chnAlive = s.chnAlive := (rfl)
@[simp] theorem wrB_roleAt (s : State) (a : Nat) (b : Byte) : (s.wrB a b).roleAt = s.roleAt := (rfl)
@[simp] theorem wrB_tbl (s : State) (a : Nat) (b : Byte) : (s.wrB a b).tbl = s.tbl := (rfl)
@[simp] theorem wrB_bufs (s : State) (a : Nat) (b : Byte) : (s.wrB a b).bufs = s.bufs := (rfl)
@[simp] theorem wrB_vid (s : State) (a : Nat) (b : Byte) : (s.wrB a b).vid = s.vid := (rfl)
@[simp] theorem wrB_vidDrop (s : State) (a : Nat) (b : Byte) : (s.wrB a b).vidDrop = s.vidDrop := (rfl)
@[simp] theorem wrB_layerStore (s : State) (a : Nat) (b : Byte) : (s.wrB a b).layerStore = s.layerStore := (rfl)
@[simp] theorem wrB_lgvPrev (s : State) (a : Nat) (b : Byte) : (s.wrB a b).lgvPrev = s.lgvPrev := (rfl)
@[simp] theorem wrB_lgvD (s : State) (a : Nat) (b : Byte) : (s.wrB a b).lgvD = s.lgvD := (rfl)
@[simp] theorem wrB_tfFrames (s : State) (a : Nat) (b : Byte) : (s.wrB a b).tfFrames = s.tfFrames := (rfl)
@[simp] theorem wrB_tfPair (s : State) (a : Nat) (b : Byte) : (s.wrB a b).tfPair = s.tfPair := (rfl)
@[simp] theorem wrB_tfPairAt (s : State) (a : Nat) (b : Byte) : (s.wrB a b).tfPairAt = s.tfPairAt := (rfl)
@[simp] theorem wrB_outScale (s : State) (a : Nat) (b : Byte) : (s.wrB a b).outScale = s.outScale := (rfl)
@[simp] theorem wrB_slotWrites (s : State) (a : Nat) (b : Byte) : (s.wrB a b).slotWrites = s.slotWrites := (rfl)
@[simp] theorem wrB_copyWrites (s : State) (a : Nat) (b : Byte) : (s.wrB a b).copyWrites = s.copyWrites := (rfl)
@[simp] theorem wrB_gens (s : State) (a : Nat) (b : Byte) : (s.wrB a b).gens = s.gens := (rfl)
@[simp] theorem wrB_fadeFrames (s : State) (a : Nat) (b : Byte) : (s.wrB a b).fadeFrames = s.fadeFrames := (rfl)
@[simp] theorem wrB_layerTs (s : State) (a : Nat) (b : Byte) : (s.wrB a b).layerTs = s.layerTs := (rfl)
@[simp] theorem wrB_tileLanes (s : State) (a : Nat) (b : Byte) : (s.wrB a b).tileLanes = s.tileLanes := (rfl)
@[simp] theorem wrB_spd (s : State) (a : Nat) (b : Byte) : (s.wrB a b).spd = s.spd := (rfl)
@[simp] theorem wrB_spdAnch (s : State) (a : Nat) (b : Byte) : (s.wrB a b).spdAnch = s.spdAnch := (rfl)
@[simp] theorem wrB_spdNew (s : State) (a : Nat) (b : Byte) : (s.wrB a b).spdNew = s.spdNew := (rfl)
@[simp] theorem wrB_spdTick (s : State) (a : Nat) (b : Byte) : (s.wrB a b).spdTick = s.spdTick := (rfl)
@[simp] theorem wrB_spdOut (s : State) (a : Nat) (b : Byte) : (s.wrB a b).spdOut = s.spdOut := (rfl)
@[simp] theorem wrB_snsGood (s : State) (a : Nat) (b : Byte) : (s.wrB a b).snsGood = s.snsGood := (rfl)
@[simp] theorem wrB_snsPair (s : State) (a : Nat) (b : Byte) : (s.wrB a b).snsPair = s.snsPair := (rfl)
@[simp] theorem wrB_dmx (s : State) (a : Nat) (b : Byte) : (s.wrB a b).dmx = s.dmx := (rfl)
@[simp] theorem wrB_macs (s : State) (a : Nat) (b : Byte) : (s.wrB a b).macs = s.macs := (rfl)
@[simp] theorem wrB_fpArmed (s : State) (a : Nat) (b : Byte) : (s.wrB a b).fpArmed = s.fpArmed := (rfl)
@[simp] theorem wrB_unv (s : State) (a : Nat) (b : Byte) : (s.wrB a b).unv = s.unv := (rfl)
@[simp] theorem wrB_tap (s : State) (a : Nat) (b : Byte) : (s.wrB a b).tap = s.tap := (rfl)
@[simp] theorem wrB_lgl (s : State) (a : Nat) (b : Byte) : (s.wrB a b).lgl = s.lgl := (rfl)
@[simp] theorem wrB_keys (s : State) (a : Nat) (b : Byte) : (s.wrB a b).keys = s.keys := (rfl)
@[simp] theorem wrB_upd (s : State) (a : Nat) (b : Byte) : (s.wrB a b).upd = s.upd := (rfl)
@[simp] theorem wrB_pwr (s : State) (a : Nat) (b : Byte) : (s.wrB a b).pwr = s.pwr := (rfl)
@[simp] theorem wrB_nrg (s : State) (a : Nat) (b : Byte) : (s.wrB a b).nrg = s.nrg := (rfl)
@[simp] theorem wrB_calib (s : State) (a : Nat) (b : Byte) : (s.wrB a b).calib = s.calib := (rfl)
@[simp] theorem wrB_chkRun (s : State) (a : Nat) (b : Byte) : (s.wrB a b).chkRun = s.chkRun := (rfl)
@[simp] theorem wrB_chnFwd (s : State) (a : Nat) (b : Byte) : (s.wrB a b).chnFwd = s.chnFwd := (rfl)
@[simp] theorem wrB_chnQ (s : State) (a : Nat) (b : Byte) : (s.wrB a b).chnQ = s.chnQ := (rfl)
@[simp] theorem wrB_chnLine (s : State) (a : Nat) (b : Byte) : (s.wrB a b).chnLine = s.chnLine := (rfl)
@[simp] theorem wrB_chnTill (s : State) (a : Nat) (b : Byte) : (s.wrB a b).chnTill = s.chnTill := (rfl)
@[simp] theorem wrB_chnWin (s : State) (a : Nat) (b : Byte) : (s.wrB a b).chnWin = s.chnWin := (rfl)
@[simp] theorem wrB_chnSlot (s : State) (a : Nat) (b : Byte) : (s.wrB a b).chnSlot = s.chnSlot := (rfl)
@[simp] theorem wrB_chnUsed (s : State) (a : Nat) (b : Byte) : (s.wrB a b).chnUsed = s.chnUsed := (rfl)
@[simp] theorem wrB_pair (s : State) (a : Nat) (b : Byte) : (s.wrB a b).pair = s.pair := (rfl)
@[simp] theorem wrB_spdPair (s : State) (a : Nat) (b : Byte) : (s.wrB a b).spdPair = s.spdPair := (rfl)
@[simp] theorem wrB_committedNs (s : State) (a : Nat) (b : Byte) : (s.wrB a b).committedNs = s.committedNs := (rfl)
@[simp] theorem wrB_failedUnits (s : State) (a : Nat) (b : Byte) : (s.wrB a b).failedUnits = s.failedUnits := (rfl)
@[simp] theorem wrB_lanesOut (s : State) (a : Nat) (b : Byte) : (s.wrB a b).lanesOut = s.lanesOut := (rfl)
@[simp] theorem wrB_swapsDue (s : State) (a : Nat) (b : Byte) : (s.wrB a b).swapsDue = s.swapsDue := (rfl)
@[simp] theorem wrB_nvsWear (s : State) (a : Nat) (b : Byte) : (s.wrB a b).nvsWear = s.nvsWear := (rfl)

@[simp] theorem wrBytes_pending (s : State) (a : Nat) (l : List Byte) : (s.wrBytes a l).pending = s.pending := (rfl)
@[simp] theorem wrBytes_now (s : State) (a : Nat) (l : List Byte) : (s.wrBytes a l).now = s.now := (rfl)
@[simp] theorem wrBytes_sck (s : State) (a : Nat) (l : List Byte) : (s.wrBytes a l).sck = s.sck := (rfl)
@[simp] theorem wrBytes_fresh (s : State) (a : Nat) (l : List Byte) : (s.wrBytes a l).fresh = s.fresh := (rfl)
@[simp] theorem wrBytes_regs (s : State) (a : Nat) (l : List Byte) : (s.wrBytes a l).regs = s.regs := (rfl)
@[simp] theorem wrBytes_act (s : State) (a : Nat) (l : List Byte) : (s.wrBytes a l).act = s.act := (rfl)
@[simp] theorem wrBytes_taken (s : State) (a : Nat) (l : List Byte) : (s.wrBytes a l).taken = s.taken := (rfl)
@[simp] theorem wrBytes_commits (s : State) (a : Nat) (l : List Byte) : (s.wrBytes a l).commits = s.commits := (rfl)
@[simp] theorem wrBytes_writeNo (s : State) (a : Nat) (l : List Byte) : (s.wrBytes a l).writeNo = s.writeNo := (rfl)
@[simp] theorem wrBytes_shadowNo (s : State) (a : Nat) (l : List Byte) : (s.wrBytes a l).shadowNo = s.shadowNo := (rfl)
@[simp] theorem wrBytes_ecc (s : State) (a : Nat) (l : List Byte) : (s.wrBytes a l).ecc = s.ecc := (rfl)
@[simp] theorem wrBytes_tsuAcc (s : State) (a : Nat) (l : List Byte) : (s.wrBytes a l).tsuAcc = s.tsuAcc := (rfl)
@[simp] theorem wrBytes_tsuHi (s : State) (a : Nat) (l : List Byte) : (s.wrBytes a l).tsuHi = s.tsuHi := (rfl)
@[simp] theorem wrBytes_tsuHist (s : State) (a : Nat) (l : List Byte) : (s.wrBytes a l).tsuHist = s.tsuHist := (rfl)
@[simp] theorem wrBytes_vents (s : State) (a : Nat) (l : List Byte) : (s.wrBytes a l).vents = s.vents := (rfl)
@[simp] theorem wrBytes_craters (s : State) (a : Nat) (l : List Byte) : (s.wrBytes a l).craters = s.craters := (rfl)
@[simp] theorem wrBytes_tasks (s : State) (a : Nat) (l : List Byte) : (s.wrBytes a l).tasks = s.tasks := (rfl)
@[simp] theorem wrBytes_seqs (s : State) (a : Nat) (l : List Byte) : (s.wrBytes a l).seqs = s.seqs := (rfl)
@[simp] theorem wrBytes_cals (s : State) (a : Nat) (l : List Byte) : (s.wrBytes a l).cals = s.cals := (rfl)
@[simp] theorem wrBytes_dies (s : State) (a : Nat) (l : List Byte) : (s.wrBytes a l).dies = s.dies := (rfl)
@[simp] theorem wrBytes_gates (s : State) (a : Nat) (l : List Byte) : (s.wrBytes a l).gates = s.gates := (rfl)
@[simp] theorem wrBytes_cores (s : State) (a : Nat) (l : List Byte) : (s.wrBytes a l).cores = s.cores := (rfl)
@[simp] theorem wrBytes_ticketNo (s : State) (a : Nat) (l : List Byte) : (s.wrBytes a l).ticketNo = s.ticketNo := (rfl)
@[simp] theorem wrBytes_outTaken (s : State) (a : Nat) (l : List Byte) : (s.wrBytes a l).outTaken = s.outTaken := (rfl)
@[simp] theorem wrBytes_relTaken (s : State) (a : Nat) (l : List Byte) : (s.wrBytes a l).relTaken = s.relTaken := (rfl)
@[simp] theorem wrBytes_fifos (s : State) (a : Nat) (l : List Byte) : (s.wrBytes a l).fifos = s.fifos := (rfl)
@[simp] theorem wrBytes_chans (s : State) (a : Nat) (l : List Byte) : (s.wrBytes a l).chans = s.chans := (rfl)
@[simp] theorem wrBytes_targets (s : State) (a : Nat) (l : List Byte) : (s.wrBytes a l).targets = s.targets := (rfl)
@[simp] theorem wrBytes_icuPend (s : State) (a : Nat) (l : List Byte) : (s.wrBytes a l).icuPend = s.icuPend := (rfl)
@[simp] theorem wrBytes_icuSvc (s : State) (a : Nat) (l : List Byte) : (s.wrBytes a l).icuSvc = s.icuSvc := (rfl)
@[simp] theorem wrBytes_icuLine (s : State) (a : Nat) (l : List Byte) : (s.wrBytes a l).icuLine = s.icuLine := (rfl)
@[simp] theorem wrBytes_sinter (s : State) (a : Nat) (l : List Byte) : (s.wrBytes a l).sinter = s.sinter := (rfl)
@[simp] theorem wrBytes_springLatch (s : State) (a : Nat) (l : List Byte) : (s.wrBytes a l).springLatch = s.springLatch := (rfl)
@[simp] theorem wrBytes_flt (s : State) (a : Nat) (l : List Byte) : (s.wrBytes a l).flt = s.flt := (rfl)
@[simp] theorem wrBytes_fltNvs (s : State) (a : Nat) (l : List Byte) : (s.wrBytes a l).fltNvs = s.fltNvs := (rfl)
@[simp] theorem wrBytes_host (s : State) (a : Nat) (l : List Byte) : (s.wrBytes a l).host = s.host := (rfl)
@[simp] theorem wrBytes_hwFaults (s : State) (a : Nat) (l : List Byte) : (s.wrBytes a l).hwFaults = s.hwFaults := (rfl)
@[simp] theorem wrBytes_hwchk (s : State) (a : Nat) (l : List Byte) : (s.wrBytes a l).hwchk = s.hwchk := (rfl)
@[simp] theorem wrBytes_dramReqs (s : State) (a : Nat) (l : List Byte) : (s.wrBytes a l).dramReqs = s.dramReqs := (rfl)
@[simp] theorem wrBytes_dramRef (s : State) (a : Nat) (l : List Byte) : (s.wrBytes a l).dramRef = s.dramRef := (rfl)
@[simp] theorem wrBytes_hostRead (s : State) (a : Nat) (l : List Byte) : (s.wrBytes a l).hostRead = s.hostRead := (rfl)
@[simp] theorem wrBytes_bgtOver (s : State) (a : Nat) (l : List Byte) : (s.wrBytes a l).bgtOver = s.bgtOver := (rfl)
@[simp] theorem wrBytes_bgtUnder (s : State) (a : Nat) (l : List Byte) : (s.wrBytes a l).bgtUnder = s.bgtUnder := (rfl)
@[simp] theorem wrBytes_snapReq (s : State) (a : Nat) (l : List Byte) : (s.wrBytes a l).snapReq = s.snapReq := (rfl)
@[simp] theorem wrBytes_capReq (s : State) (a : Nat) (l : List Byte) : (s.wrBytes a l).capReq = s.capReq := (rfl)
@[simp] theorem wrBytes_flkNo (s : State) (a : Nat) (l : List Byte) : (s.wrBytes a l).flkNo = s.flkNo := (rfl)
@[simp] theorem wrBytes_ratePend (s : State) (a : Nat) (l : List Byte) : (s.wrBytes a l).ratePend = s.ratePend := (rfl)
@[simp] theorem wrBytes_fsyncAt (s : State) (a : Nat) (l : List Byte) : (s.wrBytes a l).fsyncAt = s.fsyncAt := (rfl)
@[simp] theorem wrBytes_flkNext (s : State) (a : Nat) (l : List Byte) : (s.wrBytes a l).flkNext = s.flkNext := (rfl)
@[simp] theorem wrBytes_flkFired (s : State) (a : Nat) (l : List Byte) : (s.wrBytes a l).flkFired = s.flkFired := (rfl)
@[simp] theorem wrBytes_flkS (s : State) (a : Nat) (l : List Byte) : (s.wrBytes a l).flkS = s.flkS := (rfl)
@[simp] theorem wrBytes_lateNoted (s : State) (a : Nat) (l : List Byte) : (s.wrBytes a l).lateNoted = s.lateNoted := (rfl)
@[simp] theorem wrBytes_sealed (s : State) (a : Nat) (l : List Byte) : (s.wrBytes a l).sealed = s.sealed := (rfl)
@[simp] theorem wrBytes_sealHold (s : State) (a : Nat) (l : List Byte) : (s.wrBytes a l).sealHold = s.sealHold := (rfl)
@[simp] theorem wrBytes_fadeFc (s : State) (a : Nat) (l : List Byte) : (s.wrBytes a l).fadeFc = s.fadeFc := (rfl)
@[simp] theorem wrBytes_fadeTc (s : State) (a : Nat) (l : List Byte) : (s.wrBytes a l).fadeTc = s.fadeTc := (rfl)
@[simp] theorem wrBytes_notices (s : State) (a : Nat) (l : List Byte) : (s.wrBytes a l).notices = s.notices := (rfl)
@[simp] theorem wrBytes_peers (s : State) (a : Nat) (l : List Byte) : (s.wrBytes a l).peers = s.peers := (rfl)
@[simp] theorem wrBytes_chnOut (s : State) (a : Nat) (l : List Byte) : (s.wrBytes a l).chnOut = s.chnOut := (rfl)
@[simp] theorem wrBytes_chnAlive (s : State) (a : Nat) (l : List Byte) : (s.wrBytes a l).chnAlive = s.chnAlive := (rfl)
@[simp] theorem wrBytes_roleAt (s : State) (a : Nat) (l : List Byte) : (s.wrBytes a l).roleAt = s.roleAt := (rfl)
@[simp] theorem wrBytes_tbl (s : State) (a : Nat) (l : List Byte) : (s.wrBytes a l).tbl = s.tbl := (rfl)
@[simp] theorem wrBytes_bufs (s : State) (a : Nat) (l : List Byte) : (s.wrBytes a l).bufs = s.bufs := (rfl)
@[simp] theorem wrBytes_vid (s : State) (a : Nat) (l : List Byte) : (s.wrBytes a l).vid = s.vid := (rfl)
@[simp] theorem wrBytes_vidDrop (s : State) (a : Nat) (l : List Byte) : (s.wrBytes a l).vidDrop = s.vidDrop := (rfl)
@[simp] theorem wrBytes_layerStore (s : State) (a : Nat) (l : List Byte) : (s.wrBytes a l).layerStore = s.layerStore := (rfl)
@[simp] theorem wrBytes_lgvPrev (s : State) (a : Nat) (l : List Byte) : (s.wrBytes a l).lgvPrev = s.lgvPrev := (rfl)
@[simp] theorem wrBytes_lgvD (s : State) (a : Nat) (l : List Byte) : (s.wrBytes a l).lgvD = s.lgvD := (rfl)
@[simp] theorem wrBytes_tfFrames (s : State) (a : Nat) (l : List Byte) : (s.wrBytes a l).tfFrames = s.tfFrames := (rfl)
@[simp] theorem wrBytes_tfPair (s : State) (a : Nat) (l : List Byte) : (s.wrBytes a l).tfPair = s.tfPair := (rfl)
@[simp] theorem wrBytes_tfPairAt (s : State) (a : Nat) (l : List Byte) : (s.wrBytes a l).tfPairAt = s.tfPairAt := (rfl)
@[simp] theorem wrBytes_outScale (s : State) (a : Nat) (l : List Byte) : (s.wrBytes a l).outScale = s.outScale := (rfl)
@[simp] theorem wrBytes_slotWrites (s : State) (a : Nat) (l : List Byte) : (s.wrBytes a l).slotWrites = s.slotWrites := (rfl)
@[simp] theorem wrBytes_copyWrites (s : State) (a : Nat) (l : List Byte) : (s.wrBytes a l).copyWrites = s.copyWrites := (rfl)
@[simp] theorem wrBytes_gens (s : State) (a : Nat) (l : List Byte) : (s.wrBytes a l).gens = s.gens := (rfl)
@[simp] theorem wrBytes_fadeFrames (s : State) (a : Nat) (l : List Byte) : (s.wrBytes a l).fadeFrames = s.fadeFrames := (rfl)
@[simp] theorem wrBytes_layerTs (s : State) (a : Nat) (l : List Byte) : (s.wrBytes a l).layerTs = s.layerTs := (rfl)
@[simp] theorem wrBytes_tileLanes (s : State) (a : Nat) (l : List Byte) : (s.wrBytes a l).tileLanes = s.tileLanes := (rfl)
@[simp] theorem wrBytes_spd (s : State) (a : Nat) (l : List Byte) : (s.wrBytes a l).spd = s.spd := (rfl)
@[simp] theorem wrBytes_spdAnch (s : State) (a : Nat) (l : List Byte) : (s.wrBytes a l).spdAnch = s.spdAnch := (rfl)
@[simp] theorem wrBytes_spdNew (s : State) (a : Nat) (l : List Byte) : (s.wrBytes a l).spdNew = s.spdNew := (rfl)
@[simp] theorem wrBytes_spdTick (s : State) (a : Nat) (l : List Byte) : (s.wrBytes a l).spdTick = s.spdTick := (rfl)
@[simp] theorem wrBytes_spdOut (s : State) (a : Nat) (l : List Byte) : (s.wrBytes a l).spdOut = s.spdOut := (rfl)
@[simp] theorem wrBytes_snsGood (s : State) (a : Nat) (l : List Byte) : (s.wrBytes a l).snsGood = s.snsGood := (rfl)
@[simp] theorem wrBytes_snsPair (s : State) (a : Nat) (l : List Byte) : (s.wrBytes a l).snsPair = s.snsPair := (rfl)
@[simp] theorem wrBytes_dmx (s : State) (a : Nat) (l : List Byte) : (s.wrBytes a l).dmx = s.dmx := (rfl)
@[simp] theorem wrBytes_macs (s : State) (a : Nat) (l : List Byte) : (s.wrBytes a l).macs = s.macs := (rfl)
@[simp] theorem wrBytes_fpArmed (s : State) (a : Nat) (l : List Byte) : (s.wrBytes a l).fpArmed = s.fpArmed := (rfl)
@[simp] theorem wrBytes_unv (s : State) (a : Nat) (l : List Byte) : (s.wrBytes a l).unv = s.unv := (rfl)
@[simp] theorem wrBytes_tap (s : State) (a : Nat) (l : List Byte) : (s.wrBytes a l).tap = s.tap := (rfl)
@[simp] theorem wrBytes_lgl (s : State) (a : Nat) (l : List Byte) : (s.wrBytes a l).lgl = s.lgl := (rfl)
@[simp] theorem wrBytes_keys (s : State) (a : Nat) (l : List Byte) : (s.wrBytes a l).keys = s.keys := (rfl)
@[simp] theorem wrBytes_upd (s : State) (a : Nat) (l : List Byte) : (s.wrBytes a l).upd = s.upd := (rfl)
@[simp] theorem wrBytes_pwr (s : State) (a : Nat) (l : List Byte) : (s.wrBytes a l).pwr = s.pwr := (rfl)
@[simp] theorem wrBytes_nrg (s : State) (a : Nat) (l : List Byte) : (s.wrBytes a l).nrg = s.nrg := (rfl)
@[simp] theorem wrBytes_calib (s : State) (a : Nat) (l : List Byte) : (s.wrBytes a l).calib = s.calib := (rfl)
@[simp] theorem wrBytes_chkRun (s : State) (a : Nat) (l : List Byte) : (s.wrBytes a l).chkRun = s.chkRun := (rfl)
@[simp] theorem wrBytes_chnFwd (s : State) (a : Nat) (l : List Byte) : (s.wrBytes a l).chnFwd = s.chnFwd := (rfl)
@[simp] theorem wrBytes_chnQ (s : State) (a : Nat) (l : List Byte) : (s.wrBytes a l).chnQ = s.chnQ := (rfl)
@[simp] theorem wrBytes_chnLine (s : State) (a : Nat) (l : List Byte) : (s.wrBytes a l).chnLine = s.chnLine := (rfl)
@[simp] theorem wrBytes_chnTill (s : State) (a : Nat) (l : List Byte) : (s.wrBytes a l).chnTill = s.chnTill := (rfl)
@[simp] theorem wrBytes_chnWin (s : State) (a : Nat) (l : List Byte) : (s.wrBytes a l).chnWin = s.chnWin := (rfl)
@[simp] theorem wrBytes_chnSlot (s : State) (a : Nat) (l : List Byte) : (s.wrBytes a l).chnSlot = s.chnSlot := (rfl)
@[simp] theorem wrBytes_chnUsed (s : State) (a : Nat) (l : List Byte) : (s.wrBytes a l).chnUsed = s.chnUsed := (rfl)
@[simp] theorem wrBytes_pair (s : State) (a : Nat) (l : List Byte) : (s.wrBytes a l).pair = s.pair := (rfl)
@[simp] theorem wrBytes_spdPair (s : State) (a : Nat) (l : List Byte) : (s.wrBytes a l).spdPair = s.spdPair := (rfl)
@[simp] theorem wrBytes_committedNs (s : State) (a : Nat) (l : List Byte) : (s.wrBytes a l).committedNs = s.committedNs := (rfl)
@[simp] theorem wrBytes_failedUnits (s : State) (a : Nat) (l : List Byte) : (s.wrBytes a l).failedUnits = s.failedUnits := (rfl)
@[simp] theorem wrBytes_lanesOut (s : State) (a : Nat) (l : List Byte) : (s.wrBytes a l).lanesOut = s.lanesOut := (rfl)
@[simp] theorem wrBytes_swapsDue (s : State) (a : Nat) (l : List Byte) : (s.wrBytes a l).swapsDue = s.swapsDue := (rfl)
@[simp] theorem wrBytes_nvsWear (s : State) (a : Nat) (l : List Byte) : (s.wrBytes a l).nvsWear = s.nvsWear := (rfl)

@[simp] theorem useFree_pending (s : State) : s.useFree.pending = s.pending := (rfl)
@[simp] theorem useFree_now (s : State) : s.useFree.now = s.now := (rfl)
@[simp] theorem useFree_sck (s : State) : s.useFree.sck = s.sck := (rfl)
@[simp] theorem useFree_regs (s : State) : s.useFree.regs = s.regs := (rfl)
@[simp] theorem useFree_act (s : State) : s.useFree.act = s.act := (rfl)
@[simp] theorem useFree_taken (s : State) : s.useFree.taken = s.taken := (rfl)
@[simp] theorem useFree_commits (s : State) : s.useFree.commits = s.commits := (rfl)
@[simp] theorem useFree_writeNo (s : State) : s.useFree.writeNo = s.writeNo := (rfl)
@[simp] theorem useFree_shadowNo (s : State) : s.useFree.shadowNo = s.shadowNo := (rfl)
@[simp] theorem useFree_mem (s : State) : s.useFree.mem = s.mem := (rfl)
@[simp] theorem useFree_ecc (s : State) : s.useFree.ecc = s.ecc := (rfl)
@[simp] theorem useFree_tsuAcc (s : State) : s.useFree.tsuAcc = s.tsuAcc := (rfl)
@[simp] theorem useFree_tsuHi (s : State) : s.useFree.tsuHi = s.tsuHi := (rfl)
@[simp] theorem useFree_tsuHist (s : State) : s.useFree.tsuHist = s.tsuHist := (rfl)
@[simp] theorem useFree_vents (s : State) : s.useFree.vents = s.vents := (rfl)
@[simp] theorem useFree_craters (s : State) : s.useFree.craters = s.craters := (rfl)
@[simp] theorem useFree_tasks (s : State) : s.useFree.tasks = s.tasks := (rfl)
@[simp] theorem useFree_seqs (s : State) : s.useFree.seqs = s.seqs := (rfl)
@[simp] theorem useFree_cals (s : State) : s.useFree.cals = s.cals := (rfl)
@[simp] theorem useFree_dies (s : State) : s.useFree.dies = s.dies := (rfl)
@[simp] theorem useFree_gates (s : State) : s.useFree.gates = s.gates := (rfl)
@[simp] theorem useFree_cores (s : State) : s.useFree.cores = s.cores := (rfl)
@[simp] theorem useFree_ticketNo (s : State) : s.useFree.ticketNo = s.ticketNo := (rfl)
@[simp] theorem useFree_outTaken (s : State) : s.useFree.outTaken = s.outTaken := (rfl)
@[simp] theorem useFree_relTaken (s : State) : s.useFree.relTaken = s.relTaken := (rfl)
@[simp] theorem useFree_fifos (s : State) : s.useFree.fifos = s.fifos := (rfl)
@[simp] theorem useFree_chans (s : State) : s.useFree.chans = s.chans := (rfl)
@[simp] theorem useFree_targets (s : State) : s.useFree.targets = s.targets := (rfl)
@[simp] theorem useFree_icuPend (s : State) : s.useFree.icuPend = s.icuPend := (rfl)
@[simp] theorem useFree_icuSvc (s : State) : s.useFree.icuSvc = s.icuSvc := (rfl)
@[simp] theorem useFree_icuLine (s : State) : s.useFree.icuLine = s.icuLine := (rfl)
@[simp] theorem useFree_sinter (s : State) : s.useFree.sinter = s.sinter := (rfl)
@[simp] theorem useFree_springLatch (s : State) : s.useFree.springLatch = s.springLatch := (rfl)
@[simp] theorem useFree_flt (s : State) : s.useFree.flt = s.flt := (rfl)
@[simp] theorem useFree_fltNvs (s : State) : s.useFree.fltNvs = s.fltNvs := (rfl)
@[simp] theorem useFree_host (s : State) : s.useFree.host = s.host := (rfl)
@[simp] theorem useFree_hwFaults (s : State) : s.useFree.hwFaults = s.hwFaults := (rfl)
@[simp] theorem useFree_hwchk (s : State) : s.useFree.hwchk = s.hwchk := (rfl)
@[simp] theorem useFree_dramReqs (s : State) : s.useFree.dramReqs = s.dramReqs := (rfl)
@[simp] theorem useFree_dramRef (s : State) : s.useFree.dramRef = s.dramRef := (rfl)
@[simp] theorem useFree_hostRead (s : State) : s.useFree.hostRead = s.hostRead := (rfl)
@[simp] theorem useFree_bgtOver (s : State) : s.useFree.bgtOver = s.bgtOver := (rfl)
@[simp] theorem useFree_bgtUnder (s : State) : s.useFree.bgtUnder = s.bgtUnder := (rfl)
@[simp] theorem useFree_snapReq (s : State) : s.useFree.snapReq = s.snapReq := (rfl)
@[simp] theorem useFree_capReq (s : State) : s.useFree.capReq = s.capReq := (rfl)
@[simp] theorem useFree_flkNo (s : State) : s.useFree.flkNo = s.flkNo := (rfl)
@[simp] theorem useFree_ratePend (s : State) : s.useFree.ratePend = s.ratePend := (rfl)
@[simp] theorem useFree_fsyncAt (s : State) : s.useFree.fsyncAt = s.fsyncAt := (rfl)
@[simp] theorem useFree_flkNext (s : State) : s.useFree.flkNext = s.flkNext := (rfl)
@[simp] theorem useFree_flkFired (s : State) : s.useFree.flkFired = s.flkFired := (rfl)
@[simp] theorem useFree_flkS (s : State) : s.useFree.flkS = s.flkS := (rfl)
@[simp] theorem useFree_lateNoted (s : State) : s.useFree.lateNoted = s.lateNoted := (rfl)
@[simp] theorem useFree_sealed (s : State) : s.useFree.sealed = s.sealed := (rfl)
@[simp] theorem useFree_sealHold (s : State) : s.useFree.sealHold = s.sealHold := (rfl)
@[simp] theorem useFree_fadeFc (s : State) : s.useFree.fadeFc = s.fadeFc := (rfl)
@[simp] theorem useFree_fadeTc (s : State) : s.useFree.fadeTc = s.fadeTc := (rfl)
@[simp] theorem useFree_notices (s : State) : s.useFree.notices = s.notices := (rfl)
@[simp] theorem useFree_peers (s : State) : s.useFree.peers = s.peers := (rfl)
@[simp] theorem useFree_chnOut (s : State) : s.useFree.chnOut = s.chnOut := (rfl)
@[simp] theorem useFree_chnAlive (s : State) : s.useFree.chnAlive = s.chnAlive := (rfl)
@[simp] theorem useFree_roleAt (s : State) : s.useFree.roleAt = s.roleAt := (rfl)
@[simp] theorem useFree_tbl (s : State) : s.useFree.tbl = s.tbl := (rfl)
@[simp] theorem useFree_bufs (s : State) : s.useFree.bufs = s.bufs := (rfl)
@[simp] theorem useFree_vid (s : State) : s.useFree.vid = s.vid := (rfl)
@[simp] theorem useFree_vidDrop (s : State) : s.useFree.vidDrop = s.vidDrop := (rfl)
@[simp] theorem useFree_layerStore (s : State) : s.useFree.layerStore = s.layerStore := (rfl)
@[simp] theorem useFree_lgvPrev (s : State) : s.useFree.lgvPrev = s.lgvPrev := (rfl)
@[simp] theorem useFree_lgvD (s : State) : s.useFree.lgvD = s.lgvD := (rfl)
@[simp] theorem useFree_tfFrames (s : State) : s.useFree.tfFrames = s.tfFrames := (rfl)
@[simp] theorem useFree_tfPair (s : State) : s.useFree.tfPair = s.tfPair := (rfl)
@[simp] theorem useFree_tfPairAt (s : State) : s.useFree.tfPairAt = s.tfPairAt := (rfl)
@[simp] theorem useFree_outScale (s : State) : s.useFree.outScale = s.outScale := (rfl)
@[simp] theorem useFree_slotWrites (s : State) : s.useFree.slotWrites = s.slotWrites := (rfl)
@[simp] theorem useFree_copyWrites (s : State) : s.useFree.copyWrites = s.copyWrites := (rfl)
@[simp] theorem useFree_gens (s : State) : s.useFree.gens = s.gens := (rfl)
@[simp] theorem useFree_fadeFrames (s : State) : s.useFree.fadeFrames = s.fadeFrames := (rfl)
@[simp] theorem useFree_layerTs (s : State) : s.useFree.layerTs = s.layerTs := (rfl)
@[simp] theorem useFree_tileLanes (s : State) : s.useFree.tileLanes = s.tileLanes := (rfl)
@[simp] theorem useFree_spd (s : State) : s.useFree.spd = s.spd := (rfl)
@[simp] theorem useFree_spdAnch (s : State) : s.useFree.spdAnch = s.spdAnch := (rfl)
@[simp] theorem useFree_spdNew (s : State) : s.useFree.spdNew = s.spdNew := (rfl)
@[simp] theorem useFree_spdTick (s : State) : s.useFree.spdTick = s.spdTick := (rfl)
@[simp] theorem useFree_spdOut (s : State) : s.useFree.spdOut = s.spdOut := (rfl)
@[simp] theorem useFree_snsGood (s : State) : s.useFree.snsGood = s.snsGood := (rfl)
@[simp] theorem useFree_snsPair (s : State) : s.useFree.snsPair = s.snsPair := (rfl)
@[simp] theorem useFree_dmx (s : State) : s.useFree.dmx = s.dmx := (rfl)
@[simp] theorem useFree_macs (s : State) : s.useFree.macs = s.macs := (rfl)
@[simp] theorem useFree_fpArmed (s : State) : s.useFree.fpArmed = s.fpArmed := (rfl)
@[simp] theorem useFree_unv (s : State) : s.useFree.unv = s.unv := (rfl)
@[simp] theorem useFree_tap (s : State) : s.useFree.tap = s.tap := (rfl)
@[simp] theorem useFree_lgl (s : State) : s.useFree.lgl = s.lgl := (rfl)
@[simp] theorem useFree_keys (s : State) : s.useFree.keys = s.keys := (rfl)
@[simp] theorem useFree_upd (s : State) : s.useFree.upd = s.upd := (rfl)
@[simp] theorem useFree_pwr (s : State) : s.useFree.pwr = s.pwr := (rfl)
@[simp] theorem useFree_nrg (s : State) : s.useFree.nrg = s.nrg := (rfl)
@[simp] theorem useFree_calib (s : State) : s.useFree.calib = s.calib := (rfl)
@[simp] theorem useFree_chkRun (s : State) : s.useFree.chkRun = s.chkRun := (rfl)
@[simp] theorem useFree_chnFwd (s : State) : s.useFree.chnFwd = s.chnFwd := (rfl)
@[simp] theorem useFree_chnQ (s : State) : s.useFree.chnQ = s.chnQ := (rfl)
@[simp] theorem useFree_chnLine (s : State) : s.useFree.chnLine = s.chnLine := (rfl)
@[simp] theorem useFree_chnTill (s : State) : s.useFree.chnTill = s.chnTill := (rfl)
@[simp] theorem useFree_chnWin (s : State) : s.useFree.chnWin = s.chnWin := (rfl)
@[simp] theorem useFree_chnSlot (s : State) : s.useFree.chnSlot = s.chnSlot := (rfl)
@[simp] theorem useFree_chnUsed (s : State) : s.useFree.chnUsed = s.chnUsed := (rfl)
@[simp] theorem useFree_pair (s : State) : s.useFree.pair = s.pair := (rfl)
@[simp] theorem useFree_spdPair (s : State) : s.useFree.spdPair = s.spdPair := (rfl)
@[simp] theorem useFree_committedNs (s : State) : s.useFree.committedNs = s.committedNs := (rfl)
@[simp] theorem useFree_failedUnits (s : State) : s.useFree.failedUnits = s.failedUnits := (rfl)
@[simp] theorem useFree_lanesOut (s : State) : s.useFree.lanesOut = s.lanesOut := (rfl)
@[simp] theorem useFree_swapsDue (s : State) : s.useFree.swapsDue = s.swapsDue := (rfl)
@[simp] theorem useFree_nvsWear (s : State) : s.useFree.nvsWear = s.nvsWear := (rfl)

@[simp] theorem irq_pending (s : State) (n : Nat) : (s.irq n).pending = s.pending := (rfl)
@[simp] theorem irq_now (s : State) (n : Nat) : (s.irq n).now = s.now := (rfl)
@[simp] theorem irq_sck (s : State) (n : Nat) : (s.irq n).sck = s.sck := (rfl)
@[simp] theorem irq_fresh (s : State) (n : Nat) : (s.irq n).fresh = s.fresh := (rfl)
@[simp] theorem irq_regs (s : State) (n : Nat) : (s.irq n).regs = s.regs := (rfl)
@[simp] theorem irq_act (s : State) (n : Nat) : (s.irq n).act = s.act := (rfl)
@[simp] theorem irq_taken (s : State) (n : Nat) : (s.irq n).taken = s.taken := (rfl)
@[simp] theorem irq_commits (s : State) (n : Nat) : (s.irq n).commits = s.commits := (rfl)
@[simp] theorem irq_writeNo (s : State) (n : Nat) : (s.irq n).writeNo = s.writeNo := (rfl)
@[simp] theorem irq_shadowNo (s : State) (n : Nat) : (s.irq n).shadowNo = s.shadowNo := (rfl)
@[simp] theorem irq_mem (s : State) (n : Nat) : (s.irq n).mem = s.mem := (rfl)
@[simp] theorem irq_ecc (s : State) (n : Nat) : (s.irq n).ecc = s.ecc := (rfl)
@[simp] theorem irq_tsuAcc (s : State) (n : Nat) : (s.irq n).tsuAcc = s.tsuAcc := (rfl)
@[simp] theorem irq_tsuHi (s : State) (n : Nat) : (s.irq n).tsuHi = s.tsuHi := (rfl)
@[simp] theorem irq_tsuHist (s : State) (n : Nat) : (s.irq n).tsuHist = s.tsuHist := (rfl)
@[simp] theorem irq_vents (s : State) (n : Nat) : (s.irq n).vents = s.vents := (rfl)
@[simp] theorem irq_craters (s : State) (n : Nat) : (s.irq n).craters = s.craters := (rfl)
@[simp] theorem irq_tasks (s : State) (n : Nat) : (s.irq n).tasks = s.tasks := (rfl)
@[simp] theorem irq_seqs (s : State) (n : Nat) : (s.irq n).seqs = s.seqs := (rfl)
@[simp] theorem irq_cals (s : State) (n : Nat) : (s.irq n).cals = s.cals := (rfl)
@[simp] theorem irq_dies (s : State) (n : Nat) : (s.irq n).dies = s.dies := (rfl)
@[simp] theorem irq_gates (s : State) (n : Nat) : (s.irq n).gates = s.gates := (rfl)
@[simp] theorem irq_cores (s : State) (n : Nat) : (s.irq n).cores = s.cores := (rfl)
@[simp] theorem irq_ticketNo (s : State) (n : Nat) : (s.irq n).ticketNo = s.ticketNo := (rfl)
@[simp] theorem irq_outTaken (s : State) (n : Nat) : (s.irq n).outTaken = s.outTaken := (rfl)
@[simp] theorem irq_relTaken (s : State) (n : Nat) : (s.irq n).relTaken = s.relTaken := (rfl)
@[simp] theorem irq_fifos (s : State) (n : Nat) : (s.irq n).fifos = s.fifos := (rfl)
@[simp] theorem irq_chans (s : State) (n : Nat) : (s.irq n).chans = s.chans := (rfl)
@[simp] theorem irq_targets (s : State) (n : Nat) : (s.irq n).targets = s.targets := (rfl)
@[simp] theorem irq_icuSvc (s : State) (n : Nat) : (s.irq n).icuSvc = s.icuSvc := (rfl)
@[simp] theorem irq_icuLine (s : State) (n : Nat) : (s.irq n).icuLine = s.icuLine := (rfl)
@[simp] theorem irq_sinter (s : State) (n : Nat) : (s.irq n).sinter = s.sinter := (rfl)
@[simp] theorem irq_springLatch (s : State) (n : Nat) : (s.irq n).springLatch = s.springLatch := (rfl)
@[simp] theorem irq_flt (s : State) (n : Nat) : (s.irq n).flt = s.flt := (rfl)
@[simp] theorem irq_fltNvs (s : State) (n : Nat) : (s.irq n).fltNvs = s.fltNvs := (rfl)
@[simp] theorem irq_host (s : State) (n : Nat) : (s.irq n).host = s.host := (rfl)
@[simp] theorem irq_hwFaults (s : State) (n : Nat) : (s.irq n).hwFaults = s.hwFaults := (rfl)
@[simp] theorem irq_hwchk (s : State) (n : Nat) : (s.irq n).hwchk = s.hwchk := (rfl)
@[simp] theorem irq_dramReqs (s : State) (n : Nat) : (s.irq n).dramReqs = s.dramReqs := (rfl)
@[simp] theorem irq_dramRef (s : State) (n : Nat) : (s.irq n).dramRef = s.dramRef := (rfl)
@[simp] theorem irq_hostRead (s : State) (n : Nat) : (s.irq n).hostRead = s.hostRead := (rfl)
@[simp] theorem irq_bgtOver (s : State) (n : Nat) : (s.irq n).bgtOver = s.bgtOver := (rfl)
@[simp] theorem irq_bgtUnder (s : State) (n : Nat) : (s.irq n).bgtUnder = s.bgtUnder := (rfl)
@[simp] theorem irq_snapReq (s : State) (n : Nat) : (s.irq n).snapReq = s.snapReq := (rfl)
@[simp] theorem irq_capReq (s : State) (n : Nat) : (s.irq n).capReq = s.capReq := (rfl)
@[simp] theorem irq_flkNo (s : State) (n : Nat) : (s.irq n).flkNo = s.flkNo := (rfl)
@[simp] theorem irq_ratePend (s : State) (n : Nat) : (s.irq n).ratePend = s.ratePend := (rfl)
@[simp] theorem irq_fsyncAt (s : State) (n : Nat) : (s.irq n).fsyncAt = s.fsyncAt := (rfl)
@[simp] theorem irq_flkNext (s : State) (n : Nat) : (s.irq n).flkNext = s.flkNext := (rfl)
@[simp] theorem irq_flkFired (s : State) (n : Nat) : (s.irq n).flkFired = s.flkFired := (rfl)
@[simp] theorem irq_flkS (s : State) (n : Nat) : (s.irq n).flkS = s.flkS := (rfl)
@[simp] theorem irq_lateNoted (s : State) (n : Nat) : (s.irq n).lateNoted = s.lateNoted := (rfl)
@[simp] theorem irq_sealed (s : State) (n : Nat) : (s.irq n).sealed = s.sealed := (rfl)
@[simp] theorem irq_sealHold (s : State) (n : Nat) : (s.irq n).sealHold = s.sealHold := (rfl)
@[simp] theorem irq_fadeFc (s : State) (n : Nat) : (s.irq n).fadeFc = s.fadeFc := (rfl)
@[simp] theorem irq_fadeTc (s : State) (n : Nat) : (s.irq n).fadeTc = s.fadeTc := (rfl)
@[simp] theorem irq_notices (s : State) (n : Nat) : (s.irq n).notices = s.notices := (rfl)
@[simp] theorem irq_peers (s : State) (n : Nat) : (s.irq n).peers = s.peers := (rfl)
@[simp] theorem irq_chnOut (s : State) (n : Nat) : (s.irq n).chnOut = s.chnOut := (rfl)
@[simp] theorem irq_chnAlive (s : State) (n : Nat) : (s.irq n).chnAlive = s.chnAlive := (rfl)
@[simp] theorem irq_roleAt (s : State) (n : Nat) : (s.irq n).roleAt = s.roleAt := (rfl)
@[simp] theorem irq_tbl (s : State) (n : Nat) : (s.irq n).tbl = s.tbl := (rfl)
@[simp] theorem irq_bufs (s : State) (n : Nat) : (s.irq n).bufs = s.bufs := (rfl)
@[simp] theorem irq_vid (s : State) (n : Nat) : (s.irq n).vid = s.vid := (rfl)
@[simp] theorem irq_vidDrop (s : State) (n : Nat) : (s.irq n).vidDrop = s.vidDrop := (rfl)
@[simp] theorem irq_layerStore (s : State) (n : Nat) : (s.irq n).layerStore = s.layerStore := (rfl)
@[simp] theorem irq_lgvPrev (s : State) (n : Nat) : (s.irq n).lgvPrev = s.lgvPrev := (rfl)
@[simp] theorem irq_lgvD (s : State) (n : Nat) : (s.irq n).lgvD = s.lgvD := (rfl)
@[simp] theorem irq_tfFrames (s : State) (n : Nat) : (s.irq n).tfFrames = s.tfFrames := (rfl)
@[simp] theorem irq_tfPair (s : State) (n : Nat) : (s.irq n).tfPair = s.tfPair := (rfl)
@[simp] theorem irq_tfPairAt (s : State) (n : Nat) : (s.irq n).tfPairAt = s.tfPairAt := (rfl)
@[simp] theorem irq_outScale (s : State) (n : Nat) : (s.irq n).outScale = s.outScale := (rfl)
@[simp] theorem irq_slotWrites (s : State) (n : Nat) : (s.irq n).slotWrites = s.slotWrites := (rfl)
@[simp] theorem irq_copyWrites (s : State) (n : Nat) : (s.irq n).copyWrites = s.copyWrites := (rfl)
@[simp] theorem irq_gens (s : State) (n : Nat) : (s.irq n).gens = s.gens := (rfl)
@[simp] theorem irq_fadeFrames (s : State) (n : Nat) : (s.irq n).fadeFrames = s.fadeFrames := (rfl)
@[simp] theorem irq_layerTs (s : State) (n : Nat) : (s.irq n).layerTs = s.layerTs := (rfl)
@[simp] theorem irq_tileLanes (s : State) (n : Nat) : (s.irq n).tileLanes = s.tileLanes := (rfl)
@[simp] theorem irq_spd (s : State) (n : Nat) : (s.irq n).spd = s.spd := (rfl)
@[simp] theorem irq_spdAnch (s : State) (n : Nat) : (s.irq n).spdAnch = s.spdAnch := (rfl)
@[simp] theorem irq_spdNew (s : State) (n : Nat) : (s.irq n).spdNew = s.spdNew := (rfl)
@[simp] theorem irq_spdTick (s : State) (n : Nat) : (s.irq n).spdTick = s.spdTick := (rfl)
@[simp] theorem irq_spdOut (s : State) (n : Nat) : (s.irq n).spdOut = s.spdOut := (rfl)
@[simp] theorem irq_snsGood (s : State) (n : Nat) : (s.irq n).snsGood = s.snsGood := (rfl)
@[simp] theorem irq_snsPair (s : State) (n : Nat) : (s.irq n).snsPair = s.snsPair := (rfl)
@[simp] theorem irq_dmx (s : State) (n : Nat) : (s.irq n).dmx = s.dmx := (rfl)
@[simp] theorem irq_macs (s : State) (n : Nat) : (s.irq n).macs = s.macs := (rfl)
@[simp] theorem irq_fpArmed (s : State) (n : Nat) : (s.irq n).fpArmed = s.fpArmed := (rfl)
@[simp] theorem irq_unv (s : State) (n : Nat) : (s.irq n).unv = s.unv := (rfl)
@[simp] theorem irq_tap (s : State) (n : Nat) : (s.irq n).tap = s.tap := (rfl)
@[simp] theorem irq_lgl (s : State) (n : Nat) : (s.irq n).lgl = s.lgl := (rfl)
@[simp] theorem irq_keys (s : State) (n : Nat) : (s.irq n).keys = s.keys := (rfl)
@[simp] theorem irq_upd (s : State) (n : Nat) : (s.irq n).upd = s.upd := (rfl)
@[simp] theorem irq_pwr (s : State) (n : Nat) : (s.irq n).pwr = s.pwr := (rfl)
@[simp] theorem irq_nrg (s : State) (n : Nat) : (s.irq n).nrg = s.nrg := (rfl)
@[simp] theorem irq_calib (s : State) (n : Nat) : (s.irq n).calib = s.calib := (rfl)
@[simp] theorem irq_chkRun (s : State) (n : Nat) : (s.irq n).chkRun = s.chkRun := (rfl)
@[simp] theorem irq_chnFwd (s : State) (n : Nat) : (s.irq n).chnFwd = s.chnFwd := (rfl)
@[simp] theorem irq_chnQ (s : State) (n : Nat) : (s.irq n).chnQ = s.chnQ := (rfl)
@[simp] theorem irq_chnLine (s : State) (n : Nat) : (s.irq n).chnLine = s.chnLine := (rfl)
@[simp] theorem irq_chnTill (s : State) (n : Nat) : (s.irq n).chnTill = s.chnTill := (rfl)
@[simp] theorem irq_chnWin (s : State) (n : Nat) : (s.irq n).chnWin = s.chnWin := (rfl)
@[simp] theorem irq_chnSlot (s : State) (n : Nat) : (s.irq n).chnSlot = s.chnSlot := (rfl)
@[simp] theorem irq_chnUsed (s : State) (n : Nat) : (s.irq n).chnUsed = s.chnUsed := (rfl)
@[simp] theorem irq_pair (s : State) (n : Nat) : (s.irq n).pair = s.pair := (rfl)
@[simp] theorem irq_spdPair (s : State) (n : Nat) : (s.irq n).spdPair = s.spdPair := (rfl)
@[simp] theorem irq_committedNs (s : State) (n : Nat) : (s.irq n).committedNs = s.committedNs := (rfl)
@[simp] theorem irq_failedUnits (s : State) (n : Nat) : (s.irq n).failedUnits = s.failedUnits := (rfl)
@[simp] theorem irq_lanesOut (s : State) (n : Nat) : (s.irq n).lanesOut = s.lanesOut := (rfl)
@[simp] theorem irq_swapsDue (s : State) (n : Nat) : (s.irq n).swapsDue = s.swapsDue := (rfl)
@[simp] theorem irq_nvsWear (s : State) (n : Nat) : (s.irq n).nvsWear = s.nvsWear := (rfl)

@[simp] theorem irqClear_pending (s : State) (n : Nat) : (s.irqClear n).pending = s.pending := (rfl)
@[simp] theorem irqClear_now (s : State) (n : Nat) : (s.irqClear n).now = s.now := (rfl)
@[simp] theorem irqClear_sck (s : State) (n : Nat) : (s.irqClear n).sck = s.sck := (rfl)
@[simp] theorem irqClear_fresh (s : State) (n : Nat) : (s.irqClear n).fresh = s.fresh := (rfl)
@[simp] theorem irqClear_regs (s : State) (n : Nat) : (s.irqClear n).regs = s.regs := (rfl)
@[simp] theorem irqClear_act (s : State) (n : Nat) : (s.irqClear n).act = s.act := (rfl)
@[simp] theorem irqClear_taken (s : State) (n : Nat) : (s.irqClear n).taken = s.taken := (rfl)
@[simp] theorem irqClear_commits (s : State) (n : Nat) : (s.irqClear n).commits = s.commits := (rfl)
@[simp] theorem irqClear_writeNo (s : State) (n : Nat) : (s.irqClear n).writeNo = s.writeNo := (rfl)
@[simp] theorem irqClear_shadowNo (s : State) (n : Nat) : (s.irqClear n).shadowNo = s.shadowNo := (rfl)
@[simp] theorem irqClear_mem (s : State) (n : Nat) : (s.irqClear n).mem = s.mem := (rfl)
@[simp] theorem irqClear_ecc (s : State) (n : Nat) : (s.irqClear n).ecc = s.ecc := (rfl)
@[simp] theorem irqClear_tsuAcc (s : State) (n : Nat) : (s.irqClear n).tsuAcc = s.tsuAcc := (rfl)
@[simp] theorem irqClear_tsuHi (s : State) (n : Nat) : (s.irqClear n).tsuHi = s.tsuHi := (rfl)
@[simp] theorem irqClear_tsuHist (s : State) (n : Nat) : (s.irqClear n).tsuHist = s.tsuHist := (rfl)
@[simp] theorem irqClear_vents (s : State) (n : Nat) : (s.irqClear n).vents = s.vents := (rfl)
@[simp] theorem irqClear_craters (s : State) (n : Nat) : (s.irqClear n).craters = s.craters := (rfl)
@[simp] theorem irqClear_tasks (s : State) (n : Nat) : (s.irqClear n).tasks = s.tasks := (rfl)
@[simp] theorem irqClear_seqs (s : State) (n : Nat) : (s.irqClear n).seqs = s.seqs := (rfl)
@[simp] theorem irqClear_cals (s : State) (n : Nat) : (s.irqClear n).cals = s.cals := (rfl)
@[simp] theorem irqClear_dies (s : State) (n : Nat) : (s.irqClear n).dies = s.dies := (rfl)
@[simp] theorem irqClear_gates (s : State) (n : Nat) : (s.irqClear n).gates = s.gates := (rfl)
@[simp] theorem irqClear_cores (s : State) (n : Nat) : (s.irqClear n).cores = s.cores := (rfl)
@[simp] theorem irqClear_ticketNo (s : State) (n : Nat) : (s.irqClear n).ticketNo = s.ticketNo := (rfl)
@[simp] theorem irqClear_outTaken (s : State) (n : Nat) : (s.irqClear n).outTaken = s.outTaken := (rfl)
@[simp] theorem irqClear_relTaken (s : State) (n : Nat) : (s.irqClear n).relTaken = s.relTaken := (rfl)
@[simp] theorem irqClear_fifos (s : State) (n : Nat) : (s.irqClear n).fifos = s.fifos := (rfl)
@[simp] theorem irqClear_chans (s : State) (n : Nat) : (s.irqClear n).chans = s.chans := (rfl)
@[simp] theorem irqClear_targets (s : State) (n : Nat) : (s.irqClear n).targets = s.targets := (rfl)
@[simp] theorem irqClear_icuSvc (s : State) (n : Nat) : (s.irqClear n).icuSvc = s.icuSvc := (rfl)
@[simp] theorem irqClear_icuLine (s : State) (n : Nat) : (s.irqClear n).icuLine = s.icuLine := (rfl)
@[simp] theorem irqClear_sinter (s : State) (n : Nat) : (s.irqClear n).sinter = s.sinter := (rfl)
@[simp] theorem irqClear_springLatch (s : State) (n : Nat) : (s.irqClear n).springLatch = s.springLatch := (rfl)
@[simp] theorem irqClear_flt (s : State) (n : Nat) : (s.irqClear n).flt = s.flt := (rfl)
@[simp] theorem irqClear_fltNvs (s : State) (n : Nat) : (s.irqClear n).fltNvs = s.fltNvs := (rfl)
@[simp] theorem irqClear_host (s : State) (n : Nat) : (s.irqClear n).host = s.host := (rfl)
@[simp] theorem irqClear_hwFaults (s : State) (n : Nat) : (s.irqClear n).hwFaults = s.hwFaults := (rfl)
@[simp] theorem irqClear_hwchk (s : State) (n : Nat) : (s.irqClear n).hwchk = s.hwchk := (rfl)
@[simp] theorem irqClear_dramReqs (s : State) (n : Nat) : (s.irqClear n).dramReqs = s.dramReqs := (rfl)
@[simp] theorem irqClear_dramRef (s : State) (n : Nat) : (s.irqClear n).dramRef = s.dramRef := (rfl)
@[simp] theorem irqClear_hostRead (s : State) (n : Nat) : (s.irqClear n).hostRead = s.hostRead := (rfl)
@[simp] theorem irqClear_bgtOver (s : State) (n : Nat) : (s.irqClear n).bgtOver = s.bgtOver := (rfl)
@[simp] theorem irqClear_bgtUnder (s : State) (n : Nat) : (s.irqClear n).bgtUnder = s.bgtUnder := (rfl)
@[simp] theorem irqClear_snapReq (s : State) (n : Nat) : (s.irqClear n).snapReq = s.snapReq := (rfl)
@[simp] theorem irqClear_capReq (s : State) (n : Nat) : (s.irqClear n).capReq = s.capReq := (rfl)
@[simp] theorem irqClear_flkNo (s : State) (n : Nat) : (s.irqClear n).flkNo = s.flkNo := (rfl)
@[simp] theorem irqClear_ratePend (s : State) (n : Nat) : (s.irqClear n).ratePend = s.ratePend := (rfl)
@[simp] theorem irqClear_fsyncAt (s : State) (n : Nat) : (s.irqClear n).fsyncAt = s.fsyncAt := (rfl)
@[simp] theorem irqClear_flkNext (s : State) (n : Nat) : (s.irqClear n).flkNext = s.flkNext := (rfl)
@[simp] theorem irqClear_flkFired (s : State) (n : Nat) : (s.irqClear n).flkFired = s.flkFired := (rfl)
@[simp] theorem irqClear_flkS (s : State) (n : Nat) : (s.irqClear n).flkS = s.flkS := (rfl)
@[simp] theorem irqClear_lateNoted (s : State) (n : Nat) : (s.irqClear n).lateNoted = s.lateNoted := (rfl)
@[simp] theorem irqClear_sealed (s : State) (n : Nat) : (s.irqClear n).sealed = s.sealed := (rfl)
@[simp] theorem irqClear_sealHold (s : State) (n : Nat) : (s.irqClear n).sealHold = s.sealHold := (rfl)
@[simp] theorem irqClear_fadeFc (s : State) (n : Nat) : (s.irqClear n).fadeFc = s.fadeFc := (rfl)
@[simp] theorem irqClear_fadeTc (s : State) (n : Nat) : (s.irqClear n).fadeTc = s.fadeTc := (rfl)
@[simp] theorem irqClear_notices (s : State) (n : Nat) : (s.irqClear n).notices = s.notices := (rfl)
@[simp] theorem irqClear_peers (s : State) (n : Nat) : (s.irqClear n).peers = s.peers := (rfl)
@[simp] theorem irqClear_chnOut (s : State) (n : Nat) : (s.irqClear n).chnOut = s.chnOut := (rfl)
@[simp] theorem irqClear_chnAlive (s : State) (n : Nat) : (s.irqClear n).chnAlive = s.chnAlive := (rfl)
@[simp] theorem irqClear_roleAt (s : State) (n : Nat) : (s.irqClear n).roleAt = s.roleAt := (rfl)
@[simp] theorem irqClear_tbl (s : State) (n : Nat) : (s.irqClear n).tbl = s.tbl := (rfl)
@[simp] theorem irqClear_bufs (s : State) (n : Nat) : (s.irqClear n).bufs = s.bufs := (rfl)
@[simp] theorem irqClear_vid (s : State) (n : Nat) : (s.irqClear n).vid = s.vid := (rfl)
@[simp] theorem irqClear_vidDrop (s : State) (n : Nat) : (s.irqClear n).vidDrop = s.vidDrop := (rfl)
@[simp] theorem irqClear_layerStore (s : State) (n : Nat) : (s.irqClear n).layerStore = s.layerStore := (rfl)
@[simp] theorem irqClear_lgvPrev (s : State) (n : Nat) : (s.irqClear n).lgvPrev = s.lgvPrev := (rfl)
@[simp] theorem irqClear_lgvD (s : State) (n : Nat) : (s.irqClear n).lgvD = s.lgvD := (rfl)
@[simp] theorem irqClear_tfFrames (s : State) (n : Nat) : (s.irqClear n).tfFrames = s.tfFrames := (rfl)
@[simp] theorem irqClear_tfPair (s : State) (n : Nat) : (s.irqClear n).tfPair = s.tfPair := (rfl)
@[simp] theorem irqClear_tfPairAt (s : State) (n : Nat) : (s.irqClear n).tfPairAt = s.tfPairAt := (rfl)
@[simp] theorem irqClear_outScale (s : State) (n : Nat) : (s.irqClear n).outScale = s.outScale := (rfl)
@[simp] theorem irqClear_slotWrites (s : State) (n : Nat) : (s.irqClear n).slotWrites = s.slotWrites := (rfl)
@[simp] theorem irqClear_copyWrites (s : State) (n : Nat) : (s.irqClear n).copyWrites = s.copyWrites := (rfl)
@[simp] theorem irqClear_gens (s : State) (n : Nat) : (s.irqClear n).gens = s.gens := (rfl)
@[simp] theorem irqClear_fadeFrames (s : State) (n : Nat) : (s.irqClear n).fadeFrames = s.fadeFrames := (rfl)
@[simp] theorem irqClear_layerTs (s : State) (n : Nat) : (s.irqClear n).layerTs = s.layerTs := (rfl)
@[simp] theorem irqClear_tileLanes (s : State) (n : Nat) : (s.irqClear n).tileLanes = s.tileLanes := (rfl)
@[simp] theorem irqClear_spd (s : State) (n : Nat) : (s.irqClear n).spd = s.spd := (rfl)
@[simp] theorem irqClear_spdAnch (s : State) (n : Nat) : (s.irqClear n).spdAnch = s.spdAnch := (rfl)
@[simp] theorem irqClear_spdNew (s : State) (n : Nat) : (s.irqClear n).spdNew = s.spdNew := (rfl)
@[simp] theorem irqClear_spdTick (s : State) (n : Nat) : (s.irqClear n).spdTick = s.spdTick := (rfl)
@[simp] theorem irqClear_spdOut (s : State) (n : Nat) : (s.irqClear n).spdOut = s.spdOut := (rfl)
@[simp] theorem irqClear_snsGood (s : State) (n : Nat) : (s.irqClear n).snsGood = s.snsGood := (rfl)
@[simp] theorem irqClear_snsPair (s : State) (n : Nat) : (s.irqClear n).snsPair = s.snsPair := (rfl)
@[simp] theorem irqClear_dmx (s : State) (n : Nat) : (s.irqClear n).dmx = s.dmx := (rfl)
@[simp] theorem irqClear_macs (s : State) (n : Nat) : (s.irqClear n).macs = s.macs := (rfl)
@[simp] theorem irqClear_fpArmed (s : State) (n : Nat) : (s.irqClear n).fpArmed = s.fpArmed := (rfl)
@[simp] theorem irqClear_unv (s : State) (n : Nat) : (s.irqClear n).unv = s.unv := (rfl)
@[simp] theorem irqClear_tap (s : State) (n : Nat) : (s.irqClear n).tap = s.tap := (rfl)
@[simp] theorem irqClear_lgl (s : State) (n : Nat) : (s.irqClear n).lgl = s.lgl := (rfl)
@[simp] theorem irqClear_keys (s : State) (n : Nat) : (s.irqClear n).keys = s.keys := (rfl)
@[simp] theorem irqClear_upd (s : State) (n : Nat) : (s.irqClear n).upd = s.upd := (rfl)
@[simp] theorem irqClear_pwr (s : State) (n : Nat) : (s.irqClear n).pwr = s.pwr := (rfl)
@[simp] theorem irqClear_nrg (s : State) (n : Nat) : (s.irqClear n).nrg = s.nrg := (rfl)
@[simp] theorem irqClear_calib (s : State) (n : Nat) : (s.irqClear n).calib = s.calib := (rfl)
@[simp] theorem irqClear_chkRun (s : State) (n : Nat) : (s.irqClear n).chkRun = s.chkRun := (rfl)
@[simp] theorem irqClear_chnFwd (s : State) (n : Nat) : (s.irqClear n).chnFwd = s.chnFwd := (rfl)
@[simp] theorem irqClear_chnQ (s : State) (n : Nat) : (s.irqClear n).chnQ = s.chnQ := (rfl)
@[simp] theorem irqClear_chnLine (s : State) (n : Nat) : (s.irqClear n).chnLine = s.chnLine := (rfl)
@[simp] theorem irqClear_chnTill (s : State) (n : Nat) : (s.irqClear n).chnTill = s.chnTill := (rfl)
@[simp] theorem irqClear_chnWin (s : State) (n : Nat) : (s.irqClear n).chnWin = s.chnWin := (rfl)
@[simp] theorem irqClear_chnSlot (s : State) (n : Nat) : (s.irqClear n).chnSlot = s.chnSlot := (rfl)
@[simp] theorem irqClear_chnUsed (s : State) (n : Nat) : (s.irqClear n).chnUsed = s.chnUsed := (rfl)
@[simp] theorem irqClear_pair (s : State) (n : Nat) : (s.irqClear n).pair = s.pair := (rfl)
@[simp] theorem irqClear_spdPair (s : State) (n : Nat) : (s.irqClear n).spdPair = s.spdPair := (rfl)
@[simp] theorem irqClear_committedNs (s : State) (n : Nat) : (s.irqClear n).committedNs = s.committedNs := (rfl)
@[simp] theorem irqClear_failedUnits (s : State) (n : Nat) : (s.irqClear n).failedUnits = s.failedUnits := (rfl)
@[simp] theorem irqClear_lanesOut (s : State) (n : Nat) : (s.irqClear n).lanesOut = s.lanesOut := (rfl)
@[simp] theorem irqClear_swapsDue (s : State) (n : Nat) : (s.irqClear n).swapsDue = s.swapsDue := (rfl)
@[simp] theorem irqClear_nvsWear (s : State) (n : Nat) : (s.irqClear n).nvsWear = s.nvsWear := (rfl)

@[simp] theorem setVent_pending (s : State) (n : Nat) (x : Vent) : (s.setVent n x).pending = s.pending := (rfl)
@[simp] theorem setVent_now (s : State) (n : Nat) (x : Vent) : (s.setVent n x).now = s.now := (rfl)
@[simp] theorem setVent_sck (s : State) (n : Nat) (x : Vent) : (s.setVent n x).sck = s.sck := (rfl)
@[simp] theorem setVent_fresh (s : State) (n : Nat) (x : Vent) : (s.setVent n x).fresh = s.fresh := (rfl)
@[simp] theorem setVent_regs (s : State) (n : Nat) (x : Vent) : (s.setVent n x).regs = s.regs := (rfl)
@[simp] theorem setVent_act (s : State) (n : Nat) (x : Vent) : (s.setVent n x).act = s.act := (rfl)
@[simp] theorem setVent_taken (s : State) (n : Nat) (x : Vent) : (s.setVent n x).taken = s.taken := (rfl)
@[simp] theorem setVent_commits (s : State) (n : Nat) (x : Vent) : (s.setVent n x).commits = s.commits := (rfl)
@[simp] theorem setVent_writeNo (s : State) (n : Nat) (x : Vent) : (s.setVent n x).writeNo = s.writeNo := (rfl)
@[simp] theorem setVent_shadowNo (s : State) (n : Nat) (x : Vent) : (s.setVent n x).shadowNo = s.shadowNo := (rfl)
@[simp] theorem setVent_mem (s : State) (n : Nat) (x : Vent) : (s.setVent n x).mem = s.mem := (rfl)
@[simp] theorem setVent_ecc (s : State) (n : Nat) (x : Vent) : (s.setVent n x).ecc = s.ecc := (rfl)
@[simp] theorem setVent_tsuAcc (s : State) (n : Nat) (x : Vent) : (s.setVent n x).tsuAcc = s.tsuAcc := (rfl)
@[simp] theorem setVent_tsuHi (s : State) (n : Nat) (x : Vent) : (s.setVent n x).tsuHi = s.tsuHi := (rfl)
@[simp] theorem setVent_tsuHist (s : State) (n : Nat) (x : Vent) : (s.setVent n x).tsuHist = s.tsuHist := (rfl)
@[simp] theorem setVent_craters (s : State) (n : Nat) (x : Vent) : (s.setVent n x).craters = s.craters := (rfl)
@[simp] theorem setVent_tasks (s : State) (n : Nat) (x : Vent) : (s.setVent n x).tasks = s.tasks := (rfl)
@[simp] theorem setVent_seqs (s : State) (n : Nat) (x : Vent) : (s.setVent n x).seqs = s.seqs := (rfl)
@[simp] theorem setVent_cals (s : State) (n : Nat) (x : Vent) : (s.setVent n x).cals = s.cals := (rfl)
@[simp] theorem setVent_dies (s : State) (n : Nat) (x : Vent) : (s.setVent n x).dies = s.dies := (rfl)
@[simp] theorem setVent_gates (s : State) (n : Nat) (x : Vent) : (s.setVent n x).gates = s.gates := (rfl)
@[simp] theorem setVent_cores (s : State) (n : Nat) (x : Vent) : (s.setVent n x).cores = s.cores := (rfl)
@[simp] theorem setVent_ticketNo (s : State) (n : Nat) (x : Vent) : (s.setVent n x).ticketNo = s.ticketNo := (rfl)
@[simp] theorem setVent_outTaken (s : State) (n : Nat) (x : Vent) : (s.setVent n x).outTaken = s.outTaken := (rfl)
@[simp] theorem setVent_relTaken (s : State) (n : Nat) (x : Vent) : (s.setVent n x).relTaken = s.relTaken := (rfl)
@[simp] theorem setVent_fifos (s : State) (n : Nat) (x : Vent) : (s.setVent n x).fifos = s.fifos := (rfl)
@[simp] theorem setVent_chans (s : State) (n : Nat) (x : Vent) : (s.setVent n x).chans = s.chans := (rfl)
@[simp] theorem setVent_targets (s : State) (n : Nat) (x : Vent) : (s.setVent n x).targets = s.targets := (rfl)
@[simp] theorem setVent_icuPend (s : State) (n : Nat) (x : Vent) : (s.setVent n x).icuPend = s.icuPend := (rfl)
@[simp] theorem setVent_icuSvc (s : State) (n : Nat) (x : Vent) : (s.setVent n x).icuSvc = s.icuSvc := (rfl)
@[simp] theorem setVent_icuLine (s : State) (n : Nat) (x : Vent) : (s.setVent n x).icuLine = s.icuLine := (rfl)
@[simp] theorem setVent_sinter (s : State) (n : Nat) (x : Vent) : (s.setVent n x).sinter = s.sinter := (rfl)
@[simp] theorem setVent_springLatch (s : State) (n : Nat) (x : Vent) : (s.setVent n x).springLatch = s.springLatch := (rfl)
@[simp] theorem setVent_flt (s : State) (n : Nat) (x : Vent) : (s.setVent n x).flt = s.flt := (rfl)
@[simp] theorem setVent_fltNvs (s : State) (n : Nat) (x : Vent) : (s.setVent n x).fltNvs = s.fltNvs := (rfl)
@[simp] theorem setVent_host (s : State) (n : Nat) (x : Vent) : (s.setVent n x).host = s.host := (rfl)
@[simp] theorem setVent_hwFaults (s : State) (n : Nat) (x : Vent) : (s.setVent n x).hwFaults = s.hwFaults := (rfl)
@[simp] theorem setVent_hwchk (s : State) (n : Nat) (x : Vent) : (s.setVent n x).hwchk = s.hwchk := (rfl)
@[simp] theorem setVent_dramReqs (s : State) (n : Nat) (x : Vent) : (s.setVent n x).dramReqs = s.dramReqs := (rfl)
@[simp] theorem setVent_dramRef (s : State) (n : Nat) (x : Vent) : (s.setVent n x).dramRef = s.dramRef := (rfl)
@[simp] theorem setVent_hostRead (s : State) (n : Nat) (x : Vent) : (s.setVent n x).hostRead = s.hostRead := (rfl)
@[simp] theorem setVent_bgtOver (s : State) (n : Nat) (x : Vent) : (s.setVent n x).bgtOver = s.bgtOver := (rfl)
@[simp] theorem setVent_bgtUnder (s : State) (n : Nat) (x : Vent) : (s.setVent n x).bgtUnder = s.bgtUnder := (rfl)
@[simp] theorem setVent_snapReq (s : State) (n : Nat) (x : Vent) : (s.setVent n x).snapReq = s.snapReq := (rfl)
@[simp] theorem setVent_capReq (s : State) (n : Nat) (x : Vent) : (s.setVent n x).capReq = s.capReq := (rfl)
@[simp] theorem setVent_flkNo (s : State) (n : Nat) (x : Vent) : (s.setVent n x).flkNo = s.flkNo := (rfl)
@[simp] theorem setVent_ratePend (s : State) (n : Nat) (x : Vent) : (s.setVent n x).ratePend = s.ratePend := (rfl)
@[simp] theorem setVent_fsyncAt (s : State) (n : Nat) (x : Vent) : (s.setVent n x).fsyncAt = s.fsyncAt := (rfl)
@[simp] theorem setVent_flkNext (s : State) (n : Nat) (x : Vent) : (s.setVent n x).flkNext = s.flkNext := (rfl)
@[simp] theorem setVent_flkFired (s : State) (n : Nat) (x : Vent) : (s.setVent n x).flkFired = s.flkFired := (rfl)
@[simp] theorem setVent_flkS (s : State) (n : Nat) (x : Vent) : (s.setVent n x).flkS = s.flkS := (rfl)
@[simp] theorem setVent_lateNoted (s : State) (n : Nat) (x : Vent) : (s.setVent n x).lateNoted = s.lateNoted := (rfl)
@[simp] theorem setVent_sealed (s : State) (n : Nat) (x : Vent) : (s.setVent n x).sealed = s.sealed := (rfl)
@[simp] theorem setVent_sealHold (s : State) (n : Nat) (x : Vent) : (s.setVent n x).sealHold = s.sealHold := (rfl)
@[simp] theorem setVent_fadeFc (s : State) (n : Nat) (x : Vent) : (s.setVent n x).fadeFc = s.fadeFc := (rfl)
@[simp] theorem setVent_fadeTc (s : State) (n : Nat) (x : Vent) : (s.setVent n x).fadeTc = s.fadeTc := (rfl)
@[simp] theorem setVent_notices (s : State) (n : Nat) (x : Vent) : (s.setVent n x).notices = s.notices := (rfl)
@[simp] theorem setVent_peers (s : State) (n : Nat) (x : Vent) : (s.setVent n x).peers = s.peers := (rfl)
@[simp] theorem setVent_chnOut (s : State) (n : Nat) (x : Vent) : (s.setVent n x).chnOut = s.chnOut := (rfl)
@[simp] theorem setVent_chnAlive (s : State) (n : Nat) (x : Vent) : (s.setVent n x).chnAlive = s.chnAlive := (rfl)
@[simp] theorem setVent_roleAt (s : State) (n : Nat) (x : Vent) : (s.setVent n x).roleAt = s.roleAt := (rfl)
@[simp] theorem setVent_tbl (s : State) (n : Nat) (x : Vent) : (s.setVent n x).tbl = s.tbl := (rfl)
@[simp] theorem setVent_bufs (s : State) (n : Nat) (x : Vent) : (s.setVent n x).bufs = s.bufs := (rfl)
@[simp] theorem setVent_vid (s : State) (n : Nat) (x : Vent) : (s.setVent n x).vid = s.vid := (rfl)
@[simp] theorem setVent_vidDrop (s : State) (n : Nat) (x : Vent) : (s.setVent n x).vidDrop = s.vidDrop := (rfl)
@[simp] theorem setVent_layerStore (s : State) (n : Nat) (x : Vent) : (s.setVent n x).layerStore = s.layerStore := (rfl)
@[simp] theorem setVent_lgvPrev (s : State) (n : Nat) (x : Vent) : (s.setVent n x).lgvPrev = s.lgvPrev := (rfl)
@[simp] theorem setVent_lgvD (s : State) (n : Nat) (x : Vent) : (s.setVent n x).lgvD = s.lgvD := (rfl)
@[simp] theorem setVent_tfFrames (s : State) (n : Nat) (x : Vent) : (s.setVent n x).tfFrames = s.tfFrames := (rfl)
@[simp] theorem setVent_tfPair (s : State) (n : Nat) (x : Vent) : (s.setVent n x).tfPair = s.tfPair := (rfl)
@[simp] theorem setVent_tfPairAt (s : State) (n : Nat) (x : Vent) : (s.setVent n x).tfPairAt = s.tfPairAt := (rfl)
@[simp] theorem setVent_outScale (s : State) (n : Nat) (x : Vent) : (s.setVent n x).outScale = s.outScale := (rfl)
@[simp] theorem setVent_slotWrites (s : State) (n : Nat) (x : Vent) : (s.setVent n x).slotWrites = s.slotWrites := (rfl)
@[simp] theorem setVent_copyWrites (s : State) (n : Nat) (x : Vent) : (s.setVent n x).copyWrites = s.copyWrites := (rfl)
@[simp] theorem setVent_gens (s : State) (n : Nat) (x : Vent) : (s.setVent n x).gens = s.gens := (rfl)
@[simp] theorem setVent_fadeFrames (s : State) (n : Nat) (x : Vent) : (s.setVent n x).fadeFrames = s.fadeFrames := (rfl)
@[simp] theorem setVent_layerTs (s : State) (n : Nat) (x : Vent) : (s.setVent n x).layerTs = s.layerTs := (rfl)
@[simp] theorem setVent_tileLanes (s : State) (n : Nat) (x : Vent) : (s.setVent n x).tileLanes = s.tileLanes := (rfl)
@[simp] theorem setVent_spd (s : State) (n : Nat) (x : Vent) : (s.setVent n x).spd = s.spd := (rfl)
@[simp] theorem setVent_spdAnch (s : State) (n : Nat) (x : Vent) : (s.setVent n x).spdAnch = s.spdAnch := (rfl)
@[simp] theorem setVent_spdNew (s : State) (n : Nat) (x : Vent) : (s.setVent n x).spdNew = s.spdNew := (rfl)
@[simp] theorem setVent_spdTick (s : State) (n : Nat) (x : Vent) : (s.setVent n x).spdTick = s.spdTick := (rfl)
@[simp] theorem setVent_spdOut (s : State) (n : Nat) (x : Vent) : (s.setVent n x).spdOut = s.spdOut := (rfl)
@[simp] theorem setVent_snsGood (s : State) (n : Nat) (x : Vent) : (s.setVent n x).snsGood = s.snsGood := (rfl)
@[simp] theorem setVent_snsPair (s : State) (n : Nat) (x : Vent) : (s.setVent n x).snsPair = s.snsPair := (rfl)
@[simp] theorem setVent_dmx (s : State) (n : Nat) (x : Vent) : (s.setVent n x).dmx = s.dmx := (rfl)
@[simp] theorem setVent_macs (s : State) (n : Nat) (x : Vent) : (s.setVent n x).macs = s.macs := (rfl)
@[simp] theorem setVent_fpArmed (s : State) (n : Nat) (x : Vent) : (s.setVent n x).fpArmed = s.fpArmed := (rfl)
@[simp] theorem setVent_unv (s : State) (n : Nat) (x : Vent) : (s.setVent n x).unv = s.unv := (rfl)
@[simp] theorem setVent_tap (s : State) (n : Nat) (x : Vent) : (s.setVent n x).tap = s.tap := (rfl)
@[simp] theorem setVent_lgl (s : State) (n : Nat) (x : Vent) : (s.setVent n x).lgl = s.lgl := (rfl)
@[simp] theorem setVent_keys (s : State) (n : Nat) (x : Vent) : (s.setVent n x).keys = s.keys := (rfl)
@[simp] theorem setVent_upd (s : State) (n : Nat) (x : Vent) : (s.setVent n x).upd = s.upd := (rfl)
@[simp] theorem setVent_pwr (s : State) (n : Nat) (x : Vent) : (s.setVent n x).pwr = s.pwr := (rfl)
@[simp] theorem setVent_nrg (s : State) (n : Nat) (x : Vent) : (s.setVent n x).nrg = s.nrg := (rfl)
@[simp] theorem setVent_calib (s : State) (n : Nat) (x : Vent) : (s.setVent n x).calib = s.calib := (rfl)
@[simp] theorem setVent_chkRun (s : State) (n : Nat) (x : Vent) : (s.setVent n x).chkRun = s.chkRun := (rfl)
@[simp] theorem setVent_chnFwd (s : State) (n : Nat) (x : Vent) : (s.setVent n x).chnFwd = s.chnFwd := (rfl)
@[simp] theorem setVent_chnQ (s : State) (n : Nat) (x : Vent) : (s.setVent n x).chnQ = s.chnQ := (rfl)
@[simp] theorem setVent_chnLine (s : State) (n : Nat) (x : Vent) : (s.setVent n x).chnLine = s.chnLine := (rfl)
@[simp] theorem setVent_chnTill (s : State) (n : Nat) (x : Vent) : (s.setVent n x).chnTill = s.chnTill := (rfl)
@[simp] theorem setVent_chnWin (s : State) (n : Nat) (x : Vent) : (s.setVent n x).chnWin = s.chnWin := (rfl)
@[simp] theorem setVent_chnSlot (s : State) (n : Nat) (x : Vent) : (s.setVent n x).chnSlot = s.chnSlot := (rfl)
@[simp] theorem setVent_chnUsed (s : State) (n : Nat) (x : Vent) : (s.setVent n x).chnUsed = s.chnUsed := (rfl)
@[simp] theorem setVent_pair (s : State) (n : Nat) (x : Vent) : (s.setVent n x).pair = s.pair := (rfl)
@[simp] theorem setVent_spdPair (s : State) (n : Nat) (x : Vent) : (s.setVent n x).spdPair = s.spdPair := (rfl)
@[simp] theorem setVent_committedNs (s : State) (n : Nat) (x : Vent) : (s.setVent n x).committedNs = s.committedNs := (rfl)
@[simp] theorem setVent_failedUnits (s : State) (n : Nat) (x : Vent) : (s.setVent n x).failedUnits = s.failedUnits := (rfl)
@[simp] theorem setVent_lanesOut (s : State) (n : Nat) (x : Vent) : (s.setVent n x).lanesOut = s.lanesOut := (rfl)
@[simp] theorem setVent_swapsDue (s : State) (n : Nat) (x : Vent) : (s.setVent n x).swapsDue = s.swapsDue := (rfl)
@[simp] theorem setVent_nvsWear (s : State) (n : Nat) (x : Vent) : (s.setVent n x).nvsWear = s.nvsWear := (rfl)

@[simp] theorem setCore_pending (s : State) (n : Nat) (x : Core) : (s.setCore n x).pending = s.pending := (rfl)
@[simp] theorem setCore_now (s : State) (n : Nat) (x : Core) : (s.setCore n x).now = s.now := (rfl)
@[simp] theorem setCore_sck (s : State) (n : Nat) (x : Core) : (s.setCore n x).sck = s.sck := (rfl)
@[simp] theorem setCore_fresh (s : State) (n : Nat) (x : Core) : (s.setCore n x).fresh = s.fresh := (rfl)
@[simp] theorem setCore_regs (s : State) (n : Nat) (x : Core) : (s.setCore n x).regs = s.regs := (rfl)
@[simp] theorem setCore_act (s : State) (n : Nat) (x : Core) : (s.setCore n x).act = s.act := (rfl)
@[simp] theorem setCore_taken (s : State) (n : Nat) (x : Core) : (s.setCore n x).taken = s.taken := (rfl)
@[simp] theorem setCore_commits (s : State) (n : Nat) (x : Core) : (s.setCore n x).commits = s.commits := (rfl)
@[simp] theorem setCore_writeNo (s : State) (n : Nat) (x : Core) : (s.setCore n x).writeNo = s.writeNo := (rfl)
@[simp] theorem setCore_shadowNo (s : State) (n : Nat) (x : Core) : (s.setCore n x).shadowNo = s.shadowNo := (rfl)
@[simp] theorem setCore_mem (s : State) (n : Nat) (x : Core) : (s.setCore n x).mem = s.mem := (rfl)
@[simp] theorem setCore_ecc (s : State) (n : Nat) (x : Core) : (s.setCore n x).ecc = s.ecc := (rfl)
@[simp] theorem setCore_tsuAcc (s : State) (n : Nat) (x : Core) : (s.setCore n x).tsuAcc = s.tsuAcc := (rfl)
@[simp] theorem setCore_tsuHi (s : State) (n : Nat) (x : Core) : (s.setCore n x).tsuHi = s.tsuHi := (rfl)
@[simp] theorem setCore_tsuHist (s : State) (n : Nat) (x : Core) : (s.setCore n x).tsuHist = s.tsuHist := (rfl)
@[simp] theorem setCore_vents (s : State) (n : Nat) (x : Core) : (s.setCore n x).vents = s.vents := (rfl)
@[simp] theorem setCore_craters (s : State) (n : Nat) (x : Core) : (s.setCore n x).craters = s.craters := (rfl)
@[simp] theorem setCore_tasks (s : State) (n : Nat) (x : Core) : (s.setCore n x).tasks = s.tasks := (rfl)
@[simp] theorem setCore_seqs (s : State) (n : Nat) (x : Core) : (s.setCore n x).seqs = s.seqs := (rfl)
@[simp] theorem setCore_cals (s : State) (n : Nat) (x : Core) : (s.setCore n x).cals = s.cals := (rfl)
@[simp] theorem setCore_dies (s : State) (n : Nat) (x : Core) : (s.setCore n x).dies = s.dies := (rfl)
@[simp] theorem setCore_gates (s : State) (n : Nat) (x : Core) : (s.setCore n x).gates = s.gates := (rfl)
@[simp] theorem setCore_ticketNo (s : State) (n : Nat) (x : Core) : (s.setCore n x).ticketNo = s.ticketNo := (rfl)
@[simp] theorem setCore_outTaken (s : State) (n : Nat) (x : Core) : (s.setCore n x).outTaken = s.outTaken := (rfl)
@[simp] theorem setCore_relTaken (s : State) (n : Nat) (x : Core) : (s.setCore n x).relTaken = s.relTaken := (rfl)
@[simp] theorem setCore_fifos (s : State) (n : Nat) (x : Core) : (s.setCore n x).fifos = s.fifos := (rfl)
@[simp] theorem setCore_chans (s : State) (n : Nat) (x : Core) : (s.setCore n x).chans = s.chans := (rfl)
@[simp] theorem setCore_targets (s : State) (n : Nat) (x : Core) : (s.setCore n x).targets = s.targets := (rfl)
@[simp] theorem setCore_icuPend (s : State) (n : Nat) (x : Core) : (s.setCore n x).icuPend = s.icuPend := (rfl)
@[simp] theorem setCore_icuSvc (s : State) (n : Nat) (x : Core) : (s.setCore n x).icuSvc = s.icuSvc := (rfl)
@[simp] theorem setCore_icuLine (s : State) (n : Nat) (x : Core) : (s.setCore n x).icuLine = s.icuLine := (rfl)
@[simp] theorem setCore_sinter (s : State) (n : Nat) (x : Core) : (s.setCore n x).sinter = s.sinter := (rfl)
@[simp] theorem setCore_springLatch (s : State) (n : Nat) (x : Core) : (s.setCore n x).springLatch = s.springLatch := (rfl)
@[simp] theorem setCore_flt (s : State) (n : Nat) (x : Core) : (s.setCore n x).flt = s.flt := (rfl)
@[simp] theorem setCore_fltNvs (s : State) (n : Nat) (x : Core) : (s.setCore n x).fltNvs = s.fltNvs := (rfl)
@[simp] theorem setCore_host (s : State) (n : Nat) (x : Core) : (s.setCore n x).host = s.host := (rfl)
@[simp] theorem setCore_hwFaults (s : State) (n : Nat) (x : Core) : (s.setCore n x).hwFaults = s.hwFaults := (rfl)
@[simp] theorem setCore_hwchk (s : State) (n : Nat) (x : Core) : (s.setCore n x).hwchk = s.hwchk := (rfl)
@[simp] theorem setCore_dramReqs (s : State) (n : Nat) (x : Core) : (s.setCore n x).dramReqs = s.dramReqs := (rfl)
@[simp] theorem setCore_dramRef (s : State) (n : Nat) (x : Core) : (s.setCore n x).dramRef = s.dramRef := (rfl)
@[simp] theorem setCore_hostRead (s : State) (n : Nat) (x : Core) : (s.setCore n x).hostRead = s.hostRead := (rfl)
@[simp] theorem setCore_bgtOver (s : State) (n : Nat) (x : Core) : (s.setCore n x).bgtOver = s.bgtOver := (rfl)
@[simp] theorem setCore_bgtUnder (s : State) (n : Nat) (x : Core) : (s.setCore n x).bgtUnder = s.bgtUnder := (rfl)
@[simp] theorem setCore_snapReq (s : State) (n : Nat) (x : Core) : (s.setCore n x).snapReq = s.snapReq := (rfl)
@[simp] theorem setCore_capReq (s : State) (n : Nat) (x : Core) : (s.setCore n x).capReq = s.capReq := (rfl)
@[simp] theorem setCore_flkNo (s : State) (n : Nat) (x : Core) : (s.setCore n x).flkNo = s.flkNo := (rfl)
@[simp] theorem setCore_ratePend (s : State) (n : Nat) (x : Core) : (s.setCore n x).ratePend = s.ratePend := (rfl)
@[simp] theorem setCore_fsyncAt (s : State) (n : Nat) (x : Core) : (s.setCore n x).fsyncAt = s.fsyncAt := (rfl)
@[simp] theorem setCore_flkNext (s : State) (n : Nat) (x : Core) : (s.setCore n x).flkNext = s.flkNext := (rfl)
@[simp] theorem setCore_flkFired (s : State) (n : Nat) (x : Core) : (s.setCore n x).flkFired = s.flkFired := (rfl)
@[simp] theorem setCore_flkS (s : State) (n : Nat) (x : Core) : (s.setCore n x).flkS = s.flkS := (rfl)
@[simp] theorem setCore_lateNoted (s : State) (n : Nat) (x : Core) : (s.setCore n x).lateNoted = s.lateNoted := (rfl)
@[simp] theorem setCore_sealed (s : State) (n : Nat) (x : Core) : (s.setCore n x).sealed = s.sealed := (rfl)
@[simp] theorem setCore_sealHold (s : State) (n : Nat) (x : Core) : (s.setCore n x).sealHold = s.sealHold := (rfl)
@[simp] theorem setCore_fadeFc (s : State) (n : Nat) (x : Core) : (s.setCore n x).fadeFc = s.fadeFc := (rfl)
@[simp] theorem setCore_fadeTc (s : State) (n : Nat) (x : Core) : (s.setCore n x).fadeTc = s.fadeTc := (rfl)
@[simp] theorem setCore_notices (s : State) (n : Nat) (x : Core) : (s.setCore n x).notices = s.notices := (rfl)
@[simp] theorem setCore_peers (s : State) (n : Nat) (x : Core) : (s.setCore n x).peers = s.peers := (rfl)
@[simp] theorem setCore_chnOut (s : State) (n : Nat) (x : Core) : (s.setCore n x).chnOut = s.chnOut := (rfl)
@[simp] theorem setCore_chnAlive (s : State) (n : Nat) (x : Core) : (s.setCore n x).chnAlive = s.chnAlive := (rfl)
@[simp] theorem setCore_roleAt (s : State) (n : Nat) (x : Core) : (s.setCore n x).roleAt = s.roleAt := (rfl)
@[simp] theorem setCore_tbl (s : State) (n : Nat) (x : Core) : (s.setCore n x).tbl = s.tbl := (rfl)
@[simp] theorem setCore_bufs (s : State) (n : Nat) (x : Core) : (s.setCore n x).bufs = s.bufs := (rfl)
@[simp] theorem setCore_vid (s : State) (n : Nat) (x : Core) : (s.setCore n x).vid = s.vid := (rfl)
@[simp] theorem setCore_vidDrop (s : State) (n : Nat) (x : Core) : (s.setCore n x).vidDrop = s.vidDrop := (rfl)
@[simp] theorem setCore_layerStore (s : State) (n : Nat) (x : Core) : (s.setCore n x).layerStore = s.layerStore := (rfl)
@[simp] theorem setCore_lgvPrev (s : State) (n : Nat) (x : Core) : (s.setCore n x).lgvPrev = s.lgvPrev := (rfl)
@[simp] theorem setCore_lgvD (s : State) (n : Nat) (x : Core) : (s.setCore n x).lgvD = s.lgvD := (rfl)
@[simp] theorem setCore_tfFrames (s : State) (n : Nat) (x : Core) : (s.setCore n x).tfFrames = s.tfFrames := (rfl)
@[simp] theorem setCore_tfPair (s : State) (n : Nat) (x : Core) : (s.setCore n x).tfPair = s.tfPair := (rfl)
@[simp] theorem setCore_tfPairAt (s : State) (n : Nat) (x : Core) : (s.setCore n x).tfPairAt = s.tfPairAt := (rfl)
@[simp] theorem setCore_outScale (s : State) (n : Nat) (x : Core) : (s.setCore n x).outScale = s.outScale := (rfl)
@[simp] theorem setCore_slotWrites (s : State) (n : Nat) (x : Core) : (s.setCore n x).slotWrites = s.slotWrites := (rfl)
@[simp] theorem setCore_copyWrites (s : State) (n : Nat) (x : Core) : (s.setCore n x).copyWrites = s.copyWrites := (rfl)
@[simp] theorem setCore_gens (s : State) (n : Nat) (x : Core) : (s.setCore n x).gens = s.gens := (rfl)
@[simp] theorem setCore_fadeFrames (s : State) (n : Nat) (x : Core) : (s.setCore n x).fadeFrames = s.fadeFrames := (rfl)
@[simp] theorem setCore_layerTs (s : State) (n : Nat) (x : Core) : (s.setCore n x).layerTs = s.layerTs := (rfl)
@[simp] theorem setCore_tileLanes (s : State) (n : Nat) (x : Core) : (s.setCore n x).tileLanes = s.tileLanes := (rfl)
@[simp] theorem setCore_spd (s : State) (n : Nat) (x : Core) : (s.setCore n x).spd = s.spd := (rfl)
@[simp] theorem setCore_spdAnch (s : State) (n : Nat) (x : Core) : (s.setCore n x).spdAnch = s.spdAnch := (rfl)
@[simp] theorem setCore_spdNew (s : State) (n : Nat) (x : Core) : (s.setCore n x).spdNew = s.spdNew := (rfl)
@[simp] theorem setCore_spdTick (s : State) (n : Nat) (x : Core) : (s.setCore n x).spdTick = s.spdTick := (rfl)
@[simp] theorem setCore_spdOut (s : State) (n : Nat) (x : Core) : (s.setCore n x).spdOut = s.spdOut := (rfl)
@[simp] theorem setCore_snsGood (s : State) (n : Nat) (x : Core) : (s.setCore n x).snsGood = s.snsGood := (rfl)
@[simp] theorem setCore_snsPair (s : State) (n : Nat) (x : Core) : (s.setCore n x).snsPair = s.snsPair := (rfl)
@[simp] theorem setCore_dmx (s : State) (n : Nat) (x : Core) : (s.setCore n x).dmx = s.dmx := (rfl)
@[simp] theorem setCore_macs (s : State) (n : Nat) (x : Core) : (s.setCore n x).macs = s.macs := (rfl)
@[simp] theorem setCore_fpArmed (s : State) (n : Nat) (x : Core) : (s.setCore n x).fpArmed = s.fpArmed := (rfl)
@[simp] theorem setCore_unv (s : State) (n : Nat) (x : Core) : (s.setCore n x).unv = s.unv := (rfl)
@[simp] theorem setCore_tap (s : State) (n : Nat) (x : Core) : (s.setCore n x).tap = s.tap := (rfl)
@[simp] theorem setCore_lgl (s : State) (n : Nat) (x : Core) : (s.setCore n x).lgl = s.lgl := (rfl)
@[simp] theorem setCore_keys (s : State) (n : Nat) (x : Core) : (s.setCore n x).keys = s.keys := (rfl)
@[simp] theorem setCore_upd (s : State) (n : Nat) (x : Core) : (s.setCore n x).upd = s.upd := (rfl)
@[simp] theorem setCore_pwr (s : State) (n : Nat) (x : Core) : (s.setCore n x).pwr = s.pwr := (rfl)
@[simp] theorem setCore_nrg (s : State) (n : Nat) (x : Core) : (s.setCore n x).nrg = s.nrg := (rfl)
@[simp] theorem setCore_calib (s : State) (n : Nat) (x : Core) : (s.setCore n x).calib = s.calib := (rfl)
@[simp] theorem setCore_chkRun (s : State) (n : Nat) (x : Core) : (s.setCore n x).chkRun = s.chkRun := (rfl)
@[simp] theorem setCore_chnFwd (s : State) (n : Nat) (x : Core) : (s.setCore n x).chnFwd = s.chnFwd := (rfl)
@[simp] theorem setCore_chnQ (s : State) (n : Nat) (x : Core) : (s.setCore n x).chnQ = s.chnQ := (rfl)
@[simp] theorem setCore_chnLine (s : State) (n : Nat) (x : Core) : (s.setCore n x).chnLine = s.chnLine := (rfl)
@[simp] theorem setCore_chnTill (s : State) (n : Nat) (x : Core) : (s.setCore n x).chnTill = s.chnTill := (rfl)
@[simp] theorem setCore_chnWin (s : State) (n : Nat) (x : Core) : (s.setCore n x).chnWin = s.chnWin := (rfl)
@[simp] theorem setCore_chnSlot (s : State) (n : Nat) (x : Core) : (s.setCore n x).chnSlot = s.chnSlot := (rfl)
@[simp] theorem setCore_chnUsed (s : State) (n : Nat) (x : Core) : (s.setCore n x).chnUsed = s.chnUsed := (rfl)
@[simp] theorem setCore_pair (s : State) (n : Nat) (x : Core) : (s.setCore n x).pair = s.pair := (rfl)
@[simp] theorem setCore_spdPair (s : State) (n : Nat) (x : Core) : (s.setCore n x).spdPair = s.spdPair := (rfl)
@[simp] theorem setCore_committedNs (s : State) (n : Nat) (x : Core) : (s.setCore n x).committedNs = s.committedNs := (rfl)
@[simp] theorem setCore_failedUnits (s : State) (n : Nat) (x : Core) : (s.setCore n x).failedUnits = s.failedUnits := (rfl)
@[simp] theorem setCore_lanesOut (s : State) (n : Nat) (x : Core) : (s.setCore n x).lanesOut = s.lanesOut := (rfl)
@[simp] theorem setCore_swapsDue (s : State) (n : Nat) (x : Core) : (s.setCore n x).swapsDue = s.swapsDue := (rfl)
@[simp] theorem setCore_nvsWear (s : State) (n : Nat) (x : Core) : (s.setCore n x).nvsWear = s.nvsWear := (rfl)

@[simp] theorem setCal_pending (s : State) (k : Nat) (x : Caldera) : (s.setCal k x).pending = s.pending := (rfl)
@[simp] theorem setCal_now (s : State) (k : Nat) (x : Caldera) : (s.setCal k x).now = s.now := (rfl)
@[simp] theorem setCal_sck (s : State) (k : Nat) (x : Caldera) : (s.setCal k x).sck = s.sck := (rfl)
@[simp] theorem setCal_fresh (s : State) (k : Nat) (x : Caldera) : (s.setCal k x).fresh = s.fresh := (rfl)
@[simp] theorem setCal_regs (s : State) (k : Nat) (x : Caldera) : (s.setCal k x).regs = s.regs := (rfl)
@[simp] theorem setCal_act (s : State) (k : Nat) (x : Caldera) : (s.setCal k x).act = s.act := (rfl)
@[simp] theorem setCal_taken (s : State) (k : Nat) (x : Caldera) : (s.setCal k x).taken = s.taken := (rfl)
@[simp] theorem setCal_commits (s : State) (k : Nat) (x : Caldera) : (s.setCal k x).commits = s.commits := (rfl)
@[simp] theorem setCal_writeNo (s : State) (k : Nat) (x : Caldera) : (s.setCal k x).writeNo = s.writeNo := (rfl)
@[simp] theorem setCal_shadowNo (s : State) (k : Nat) (x : Caldera) : (s.setCal k x).shadowNo = s.shadowNo := (rfl)
@[simp] theorem setCal_mem (s : State) (k : Nat) (x : Caldera) : (s.setCal k x).mem = s.mem := (rfl)
@[simp] theorem setCal_ecc (s : State) (k : Nat) (x : Caldera) : (s.setCal k x).ecc = s.ecc := (rfl)
@[simp] theorem setCal_tsuAcc (s : State) (k : Nat) (x : Caldera) : (s.setCal k x).tsuAcc = s.tsuAcc := (rfl)
@[simp] theorem setCal_tsuHi (s : State) (k : Nat) (x : Caldera) : (s.setCal k x).tsuHi = s.tsuHi := (rfl)
@[simp] theorem setCal_tsuHist (s : State) (k : Nat) (x : Caldera) : (s.setCal k x).tsuHist = s.tsuHist := (rfl)
@[simp] theorem setCal_vents (s : State) (k : Nat) (x : Caldera) : (s.setCal k x).vents = s.vents := (rfl)
@[simp] theorem setCal_craters (s : State) (k : Nat) (x : Caldera) : (s.setCal k x).craters = s.craters := (rfl)
@[simp] theorem setCal_tasks (s : State) (k : Nat) (x : Caldera) : (s.setCal k x).tasks = s.tasks := (rfl)
@[simp] theorem setCal_seqs (s : State) (k : Nat) (x : Caldera) : (s.setCal k x).seqs = s.seqs := (rfl)
@[simp] theorem setCal_dies (s : State) (k : Nat) (x : Caldera) : (s.setCal k x).dies = s.dies := (rfl)
@[simp] theorem setCal_gates (s : State) (k : Nat) (x : Caldera) : (s.setCal k x).gates = s.gates := (rfl)
@[simp] theorem setCal_cores (s : State) (k : Nat) (x : Caldera) : (s.setCal k x).cores = s.cores := (rfl)
@[simp] theorem setCal_ticketNo (s : State) (k : Nat) (x : Caldera) : (s.setCal k x).ticketNo = s.ticketNo := (rfl)
@[simp] theorem setCal_outTaken (s : State) (k : Nat) (x : Caldera) : (s.setCal k x).outTaken = s.outTaken := (rfl)
@[simp] theorem setCal_relTaken (s : State) (k : Nat) (x : Caldera) : (s.setCal k x).relTaken = s.relTaken := (rfl)
@[simp] theorem setCal_fifos (s : State) (k : Nat) (x : Caldera) : (s.setCal k x).fifos = s.fifos := (rfl)
@[simp] theorem setCal_chans (s : State) (k : Nat) (x : Caldera) : (s.setCal k x).chans = s.chans := (rfl)
@[simp] theorem setCal_targets (s : State) (k : Nat) (x : Caldera) : (s.setCal k x).targets = s.targets := (rfl)
@[simp] theorem setCal_icuPend (s : State) (k : Nat) (x : Caldera) : (s.setCal k x).icuPend = s.icuPend := (rfl)
@[simp] theorem setCal_icuSvc (s : State) (k : Nat) (x : Caldera) : (s.setCal k x).icuSvc = s.icuSvc := (rfl)
@[simp] theorem setCal_icuLine (s : State) (k : Nat) (x : Caldera) : (s.setCal k x).icuLine = s.icuLine := (rfl)
@[simp] theorem setCal_sinter (s : State) (k : Nat) (x : Caldera) : (s.setCal k x).sinter = s.sinter := (rfl)
@[simp] theorem setCal_springLatch (s : State) (k : Nat) (x : Caldera) : (s.setCal k x).springLatch = s.springLatch := (rfl)
@[simp] theorem setCal_flt (s : State) (k : Nat) (x : Caldera) : (s.setCal k x).flt = s.flt := (rfl)
@[simp] theorem setCal_fltNvs (s : State) (k : Nat) (x : Caldera) : (s.setCal k x).fltNvs = s.fltNvs := (rfl)
@[simp] theorem setCal_host (s : State) (k : Nat) (x : Caldera) : (s.setCal k x).host = s.host := (rfl)
@[simp] theorem setCal_hwFaults (s : State) (k : Nat) (x : Caldera) : (s.setCal k x).hwFaults = s.hwFaults := (rfl)
@[simp] theorem setCal_hwchk (s : State) (k : Nat) (x : Caldera) : (s.setCal k x).hwchk = s.hwchk := (rfl)
@[simp] theorem setCal_dramReqs (s : State) (k : Nat) (x : Caldera) : (s.setCal k x).dramReqs = s.dramReqs := (rfl)
@[simp] theorem setCal_dramRef (s : State) (k : Nat) (x : Caldera) : (s.setCal k x).dramRef = s.dramRef := (rfl)
@[simp] theorem setCal_hostRead (s : State) (k : Nat) (x : Caldera) : (s.setCal k x).hostRead = s.hostRead := (rfl)
@[simp] theorem setCal_bgtOver (s : State) (k : Nat) (x : Caldera) : (s.setCal k x).bgtOver = s.bgtOver := (rfl)
@[simp] theorem setCal_bgtUnder (s : State) (k : Nat) (x : Caldera) : (s.setCal k x).bgtUnder = s.bgtUnder := (rfl)
@[simp] theorem setCal_snapReq (s : State) (k : Nat) (x : Caldera) : (s.setCal k x).snapReq = s.snapReq := (rfl)
@[simp] theorem setCal_capReq (s : State) (k : Nat) (x : Caldera) : (s.setCal k x).capReq = s.capReq := (rfl)
@[simp] theorem setCal_flkNo (s : State) (k : Nat) (x : Caldera) : (s.setCal k x).flkNo = s.flkNo := (rfl)
@[simp] theorem setCal_ratePend (s : State) (k : Nat) (x : Caldera) : (s.setCal k x).ratePend = s.ratePend := (rfl)
@[simp] theorem setCal_fsyncAt (s : State) (k : Nat) (x : Caldera) : (s.setCal k x).fsyncAt = s.fsyncAt := (rfl)
@[simp] theorem setCal_flkNext (s : State) (k : Nat) (x : Caldera) : (s.setCal k x).flkNext = s.flkNext := (rfl)
@[simp] theorem setCal_flkFired (s : State) (k : Nat) (x : Caldera) : (s.setCal k x).flkFired = s.flkFired := (rfl)
@[simp] theorem setCal_flkS (s : State) (k : Nat) (x : Caldera) : (s.setCal k x).flkS = s.flkS := (rfl)
@[simp] theorem setCal_lateNoted (s : State) (k : Nat) (x : Caldera) : (s.setCal k x).lateNoted = s.lateNoted := (rfl)
@[simp] theorem setCal_sealed (s : State) (k : Nat) (x : Caldera) : (s.setCal k x).sealed = s.sealed := (rfl)
@[simp] theorem setCal_sealHold (s : State) (k : Nat) (x : Caldera) : (s.setCal k x).sealHold = s.sealHold := (rfl)
@[simp] theorem setCal_fadeFc (s : State) (k : Nat) (x : Caldera) : (s.setCal k x).fadeFc = s.fadeFc := (rfl)
@[simp] theorem setCal_fadeTc (s : State) (k : Nat) (x : Caldera) : (s.setCal k x).fadeTc = s.fadeTc := (rfl)
@[simp] theorem setCal_notices (s : State) (k : Nat) (x : Caldera) : (s.setCal k x).notices = s.notices := (rfl)
@[simp] theorem setCal_peers (s : State) (k : Nat) (x : Caldera) : (s.setCal k x).peers = s.peers := (rfl)
@[simp] theorem setCal_chnOut (s : State) (k : Nat) (x : Caldera) : (s.setCal k x).chnOut = s.chnOut := (rfl)
@[simp] theorem setCal_chnAlive (s : State) (k : Nat) (x : Caldera) : (s.setCal k x).chnAlive = s.chnAlive := (rfl)
@[simp] theorem setCal_roleAt (s : State) (k : Nat) (x : Caldera) : (s.setCal k x).roleAt = s.roleAt := (rfl)
@[simp] theorem setCal_tbl (s : State) (k : Nat) (x : Caldera) : (s.setCal k x).tbl = s.tbl := (rfl)
@[simp] theorem setCal_bufs (s : State) (k : Nat) (x : Caldera) : (s.setCal k x).bufs = s.bufs := (rfl)
@[simp] theorem setCal_vid (s : State) (k : Nat) (x : Caldera) : (s.setCal k x).vid = s.vid := (rfl)
@[simp] theorem setCal_vidDrop (s : State) (k : Nat) (x : Caldera) : (s.setCal k x).vidDrop = s.vidDrop := (rfl)
@[simp] theorem setCal_layerStore (s : State) (k : Nat) (x : Caldera) : (s.setCal k x).layerStore = s.layerStore := (rfl)
@[simp] theorem setCal_lgvPrev (s : State) (k : Nat) (x : Caldera) : (s.setCal k x).lgvPrev = s.lgvPrev := (rfl)
@[simp] theorem setCal_lgvD (s : State) (k : Nat) (x : Caldera) : (s.setCal k x).lgvD = s.lgvD := (rfl)
@[simp] theorem setCal_tfFrames (s : State) (k : Nat) (x : Caldera) : (s.setCal k x).tfFrames = s.tfFrames := (rfl)
@[simp] theorem setCal_tfPair (s : State) (k : Nat) (x : Caldera) : (s.setCal k x).tfPair = s.tfPair := (rfl)
@[simp] theorem setCal_tfPairAt (s : State) (k : Nat) (x : Caldera) : (s.setCal k x).tfPairAt = s.tfPairAt := (rfl)
@[simp] theorem setCal_outScale (s : State) (k : Nat) (x : Caldera) : (s.setCal k x).outScale = s.outScale := (rfl)
@[simp] theorem setCal_slotWrites (s : State) (k : Nat) (x : Caldera) : (s.setCal k x).slotWrites = s.slotWrites := (rfl)
@[simp] theorem setCal_copyWrites (s : State) (k : Nat) (x : Caldera) : (s.setCal k x).copyWrites = s.copyWrites := (rfl)
@[simp] theorem setCal_gens (s : State) (k : Nat) (x : Caldera) : (s.setCal k x).gens = s.gens := (rfl)
@[simp] theorem setCal_fadeFrames (s : State) (k : Nat) (x : Caldera) : (s.setCal k x).fadeFrames = s.fadeFrames := (rfl)
@[simp] theorem setCal_layerTs (s : State) (k : Nat) (x : Caldera) : (s.setCal k x).layerTs = s.layerTs := (rfl)
@[simp] theorem setCal_tileLanes (s : State) (k : Nat) (x : Caldera) : (s.setCal k x).tileLanes = s.tileLanes := (rfl)
@[simp] theorem setCal_spd (s : State) (k : Nat) (x : Caldera) : (s.setCal k x).spd = s.spd := (rfl)
@[simp] theorem setCal_spdAnch (s : State) (k : Nat) (x : Caldera) : (s.setCal k x).spdAnch = s.spdAnch := (rfl)
@[simp] theorem setCal_spdNew (s : State) (k : Nat) (x : Caldera) : (s.setCal k x).spdNew = s.spdNew := (rfl)
@[simp] theorem setCal_spdTick (s : State) (k : Nat) (x : Caldera) : (s.setCal k x).spdTick = s.spdTick := (rfl)
@[simp] theorem setCal_spdOut (s : State) (k : Nat) (x : Caldera) : (s.setCal k x).spdOut = s.spdOut := (rfl)
@[simp] theorem setCal_snsGood (s : State) (k : Nat) (x : Caldera) : (s.setCal k x).snsGood = s.snsGood := (rfl)
@[simp] theorem setCal_snsPair (s : State) (k : Nat) (x : Caldera) : (s.setCal k x).snsPair = s.snsPair := (rfl)
@[simp] theorem setCal_dmx (s : State) (k : Nat) (x : Caldera) : (s.setCal k x).dmx = s.dmx := (rfl)
@[simp] theorem setCal_macs (s : State) (k : Nat) (x : Caldera) : (s.setCal k x).macs = s.macs := (rfl)
@[simp] theorem setCal_fpArmed (s : State) (k : Nat) (x : Caldera) : (s.setCal k x).fpArmed = s.fpArmed := (rfl)
@[simp] theorem setCal_unv (s : State) (k : Nat) (x : Caldera) : (s.setCal k x).unv = s.unv := (rfl)
@[simp] theorem setCal_tap (s : State) (k : Nat) (x : Caldera) : (s.setCal k x).tap = s.tap := (rfl)
@[simp] theorem setCal_lgl (s : State) (k : Nat) (x : Caldera) : (s.setCal k x).lgl = s.lgl := (rfl)
@[simp] theorem setCal_keys (s : State) (k : Nat) (x : Caldera) : (s.setCal k x).keys = s.keys := (rfl)
@[simp] theorem setCal_upd (s : State) (k : Nat) (x : Caldera) : (s.setCal k x).upd = s.upd := (rfl)
@[simp] theorem setCal_pwr (s : State) (k : Nat) (x : Caldera) : (s.setCal k x).pwr = s.pwr := (rfl)
@[simp] theorem setCal_nrg (s : State) (k : Nat) (x : Caldera) : (s.setCal k x).nrg = s.nrg := (rfl)
@[simp] theorem setCal_calib (s : State) (k : Nat) (x : Caldera) : (s.setCal k x).calib = s.calib := (rfl)
@[simp] theorem setCal_chkRun (s : State) (k : Nat) (x : Caldera) : (s.setCal k x).chkRun = s.chkRun := (rfl)
@[simp] theorem setCal_chnFwd (s : State) (k : Nat) (x : Caldera) : (s.setCal k x).chnFwd = s.chnFwd := (rfl)
@[simp] theorem setCal_chnQ (s : State) (k : Nat) (x : Caldera) : (s.setCal k x).chnQ = s.chnQ := (rfl)
@[simp] theorem setCal_chnLine (s : State) (k : Nat) (x : Caldera) : (s.setCal k x).chnLine = s.chnLine := (rfl)
@[simp] theorem setCal_chnTill (s : State) (k : Nat) (x : Caldera) : (s.setCal k x).chnTill = s.chnTill := (rfl)
@[simp] theorem setCal_chnWin (s : State) (k : Nat) (x : Caldera) : (s.setCal k x).chnWin = s.chnWin := (rfl)
@[simp] theorem setCal_chnSlot (s : State) (k : Nat) (x : Caldera) : (s.setCal k x).chnSlot = s.chnSlot := (rfl)
@[simp] theorem setCal_chnUsed (s : State) (k : Nat) (x : Caldera) : (s.setCal k x).chnUsed = s.chnUsed := (rfl)
@[simp] theorem setCal_pair (s : State) (k : Nat) (x : Caldera) : (s.setCal k x).pair = s.pair := (rfl)
@[simp] theorem setCal_spdPair (s : State) (k : Nat) (x : Caldera) : (s.setCal k x).spdPair = s.spdPair := (rfl)
@[simp] theorem setCal_committedNs (s : State) (k : Nat) (x : Caldera) : (s.setCal k x).committedNs = s.committedNs := (rfl)
@[simp] theorem setCal_failedUnits (s : State) (k : Nat) (x : Caldera) : (s.setCal k x).failedUnits = s.failedUnits := (rfl)
@[simp] theorem setCal_lanesOut (s : State) (k : Nat) (x : Caldera) : (s.setCal k x).lanesOut = s.lanesOut := (rfl)
@[simp] theorem setCal_swapsDue (s : State) (k : Nat) (x : Caldera) : (s.setCal k x).swapsDue = s.swapsDue := (rfl)
@[simp] theorem setCal_nvsWear (s : State) (k : Nat) (x : Caldera) : (s.setCal k x).nvsWear = s.nvsWear := (rfl)

@[simp] theorem setDie_pending (s : State) (d : Nat) (x : CDie) : (s.setDie d x).pending = s.pending := (rfl)
@[simp] theorem setDie_now (s : State) (d : Nat) (x : CDie) : (s.setDie d x).now = s.now := (rfl)
@[simp] theorem setDie_sck (s : State) (d : Nat) (x : CDie) : (s.setDie d x).sck = s.sck := (rfl)
@[simp] theorem setDie_fresh (s : State) (d : Nat) (x : CDie) : (s.setDie d x).fresh = s.fresh := (rfl)
@[simp] theorem setDie_regs (s : State) (d : Nat) (x : CDie) : (s.setDie d x).regs = s.regs := (rfl)
@[simp] theorem setDie_act (s : State) (d : Nat) (x : CDie) : (s.setDie d x).act = s.act := (rfl)
@[simp] theorem setDie_taken (s : State) (d : Nat) (x : CDie) : (s.setDie d x).taken = s.taken := (rfl)
@[simp] theorem setDie_commits (s : State) (d : Nat) (x : CDie) : (s.setDie d x).commits = s.commits := (rfl)
@[simp] theorem setDie_writeNo (s : State) (d : Nat) (x : CDie) : (s.setDie d x).writeNo = s.writeNo := (rfl)
@[simp] theorem setDie_shadowNo (s : State) (d : Nat) (x : CDie) : (s.setDie d x).shadowNo = s.shadowNo := (rfl)
@[simp] theorem setDie_mem (s : State) (d : Nat) (x : CDie) : (s.setDie d x).mem = s.mem := (rfl)
@[simp] theorem setDie_ecc (s : State) (d : Nat) (x : CDie) : (s.setDie d x).ecc = s.ecc := (rfl)
@[simp] theorem setDie_tsuAcc (s : State) (d : Nat) (x : CDie) : (s.setDie d x).tsuAcc = s.tsuAcc := (rfl)
@[simp] theorem setDie_tsuHi (s : State) (d : Nat) (x : CDie) : (s.setDie d x).tsuHi = s.tsuHi := (rfl)
@[simp] theorem setDie_tsuHist (s : State) (d : Nat) (x : CDie) : (s.setDie d x).tsuHist = s.tsuHist := (rfl)
@[simp] theorem setDie_vents (s : State) (d : Nat) (x : CDie) : (s.setDie d x).vents = s.vents := (rfl)
@[simp] theorem setDie_craters (s : State) (d : Nat) (x : CDie) : (s.setDie d x).craters = s.craters := (rfl)
@[simp] theorem setDie_tasks (s : State) (d : Nat) (x : CDie) : (s.setDie d x).tasks = s.tasks := (rfl)
@[simp] theorem setDie_seqs (s : State) (d : Nat) (x : CDie) : (s.setDie d x).seqs = s.seqs := (rfl)
@[simp] theorem setDie_cals (s : State) (d : Nat) (x : CDie) : (s.setDie d x).cals = s.cals := (rfl)
@[simp] theorem setDie_gates (s : State) (d : Nat) (x : CDie) : (s.setDie d x).gates = s.gates := (rfl)
@[simp] theorem setDie_cores (s : State) (d : Nat) (x : CDie) : (s.setDie d x).cores = s.cores := (rfl)
@[simp] theorem setDie_ticketNo (s : State) (d : Nat) (x : CDie) : (s.setDie d x).ticketNo = s.ticketNo := (rfl)
@[simp] theorem setDie_outTaken (s : State) (d : Nat) (x : CDie) : (s.setDie d x).outTaken = s.outTaken := (rfl)
@[simp] theorem setDie_relTaken (s : State) (d : Nat) (x : CDie) : (s.setDie d x).relTaken = s.relTaken := (rfl)
@[simp] theorem setDie_fifos (s : State) (d : Nat) (x : CDie) : (s.setDie d x).fifos = s.fifos := (rfl)
@[simp] theorem setDie_chans (s : State) (d : Nat) (x : CDie) : (s.setDie d x).chans = s.chans := (rfl)
@[simp] theorem setDie_targets (s : State) (d : Nat) (x : CDie) : (s.setDie d x).targets = s.targets := (rfl)
@[simp] theorem setDie_icuPend (s : State) (d : Nat) (x : CDie) : (s.setDie d x).icuPend = s.icuPend := (rfl)
@[simp] theorem setDie_icuSvc (s : State) (d : Nat) (x : CDie) : (s.setDie d x).icuSvc = s.icuSvc := (rfl)
@[simp] theorem setDie_icuLine (s : State) (d : Nat) (x : CDie) : (s.setDie d x).icuLine = s.icuLine := (rfl)
@[simp] theorem setDie_sinter (s : State) (d : Nat) (x : CDie) : (s.setDie d x).sinter = s.sinter := (rfl)
@[simp] theorem setDie_springLatch (s : State) (d : Nat) (x : CDie) : (s.setDie d x).springLatch = s.springLatch := (rfl)
@[simp] theorem setDie_flt (s : State) (d : Nat) (x : CDie) : (s.setDie d x).flt = s.flt := (rfl)
@[simp] theorem setDie_fltNvs (s : State) (d : Nat) (x : CDie) : (s.setDie d x).fltNvs = s.fltNvs := (rfl)
@[simp] theorem setDie_host (s : State) (d : Nat) (x : CDie) : (s.setDie d x).host = s.host := (rfl)
@[simp] theorem setDie_hwFaults (s : State) (d : Nat) (x : CDie) : (s.setDie d x).hwFaults = s.hwFaults := (rfl)
@[simp] theorem setDie_hwchk (s : State) (d : Nat) (x : CDie) : (s.setDie d x).hwchk = s.hwchk := (rfl)
@[simp] theorem setDie_dramReqs (s : State) (d : Nat) (x : CDie) : (s.setDie d x).dramReqs = s.dramReqs := (rfl)
@[simp] theorem setDie_dramRef (s : State) (d : Nat) (x : CDie) : (s.setDie d x).dramRef = s.dramRef := (rfl)
@[simp] theorem setDie_hostRead (s : State) (d : Nat) (x : CDie) : (s.setDie d x).hostRead = s.hostRead := (rfl)
@[simp] theorem setDie_bgtOver (s : State) (d : Nat) (x : CDie) : (s.setDie d x).bgtOver = s.bgtOver := (rfl)
@[simp] theorem setDie_bgtUnder (s : State) (d : Nat) (x : CDie) : (s.setDie d x).bgtUnder = s.bgtUnder := (rfl)
@[simp] theorem setDie_snapReq (s : State) (d : Nat) (x : CDie) : (s.setDie d x).snapReq = s.snapReq := (rfl)
@[simp] theorem setDie_capReq (s : State) (d : Nat) (x : CDie) : (s.setDie d x).capReq = s.capReq := (rfl)
@[simp] theorem setDie_flkNo (s : State) (d : Nat) (x : CDie) : (s.setDie d x).flkNo = s.flkNo := (rfl)
@[simp] theorem setDie_ratePend (s : State) (d : Nat) (x : CDie) : (s.setDie d x).ratePend = s.ratePend := (rfl)
@[simp] theorem setDie_fsyncAt (s : State) (d : Nat) (x : CDie) : (s.setDie d x).fsyncAt = s.fsyncAt := (rfl)
@[simp] theorem setDie_flkNext (s : State) (d : Nat) (x : CDie) : (s.setDie d x).flkNext = s.flkNext := (rfl)
@[simp] theorem setDie_flkFired (s : State) (d : Nat) (x : CDie) : (s.setDie d x).flkFired = s.flkFired := (rfl)
@[simp] theorem setDie_flkS (s : State) (d : Nat) (x : CDie) : (s.setDie d x).flkS = s.flkS := (rfl)
@[simp] theorem setDie_lateNoted (s : State) (d : Nat) (x : CDie) : (s.setDie d x).lateNoted = s.lateNoted := (rfl)
@[simp] theorem setDie_sealed (s : State) (d : Nat) (x : CDie) : (s.setDie d x).sealed = s.sealed := (rfl)
@[simp] theorem setDie_sealHold (s : State) (d : Nat) (x : CDie) : (s.setDie d x).sealHold = s.sealHold := (rfl)
@[simp] theorem setDie_fadeFc (s : State) (d : Nat) (x : CDie) : (s.setDie d x).fadeFc = s.fadeFc := (rfl)
@[simp] theorem setDie_fadeTc (s : State) (d : Nat) (x : CDie) : (s.setDie d x).fadeTc = s.fadeTc := (rfl)
@[simp] theorem setDie_notices (s : State) (d : Nat) (x : CDie) : (s.setDie d x).notices = s.notices := (rfl)
@[simp] theorem setDie_peers (s : State) (d : Nat) (x : CDie) : (s.setDie d x).peers = s.peers := (rfl)
@[simp] theorem setDie_chnOut (s : State) (d : Nat) (x : CDie) : (s.setDie d x).chnOut = s.chnOut := (rfl)
@[simp] theorem setDie_chnAlive (s : State) (d : Nat) (x : CDie) : (s.setDie d x).chnAlive = s.chnAlive := (rfl)
@[simp] theorem setDie_roleAt (s : State) (d : Nat) (x : CDie) : (s.setDie d x).roleAt = s.roleAt := (rfl)
@[simp] theorem setDie_tbl (s : State) (d : Nat) (x : CDie) : (s.setDie d x).tbl = s.tbl := (rfl)
@[simp] theorem setDie_bufs (s : State) (d : Nat) (x : CDie) : (s.setDie d x).bufs = s.bufs := (rfl)
@[simp] theorem setDie_vid (s : State) (d : Nat) (x : CDie) : (s.setDie d x).vid = s.vid := (rfl)
@[simp] theorem setDie_vidDrop (s : State) (d : Nat) (x : CDie) : (s.setDie d x).vidDrop = s.vidDrop := (rfl)
@[simp] theorem setDie_layerStore (s : State) (d : Nat) (x : CDie) : (s.setDie d x).layerStore = s.layerStore := (rfl)
@[simp] theorem setDie_lgvPrev (s : State) (d : Nat) (x : CDie) : (s.setDie d x).lgvPrev = s.lgvPrev := (rfl)
@[simp] theorem setDie_lgvD (s : State) (d : Nat) (x : CDie) : (s.setDie d x).lgvD = s.lgvD := (rfl)
@[simp] theorem setDie_tfFrames (s : State) (d : Nat) (x : CDie) : (s.setDie d x).tfFrames = s.tfFrames := (rfl)
@[simp] theorem setDie_tfPair (s : State) (d : Nat) (x : CDie) : (s.setDie d x).tfPair = s.tfPair := (rfl)
@[simp] theorem setDie_tfPairAt (s : State) (d : Nat) (x : CDie) : (s.setDie d x).tfPairAt = s.tfPairAt := (rfl)
@[simp] theorem setDie_outScale (s : State) (d : Nat) (x : CDie) : (s.setDie d x).outScale = s.outScale := (rfl)
@[simp] theorem setDie_slotWrites (s : State) (d : Nat) (x : CDie) : (s.setDie d x).slotWrites = s.slotWrites := (rfl)
@[simp] theorem setDie_copyWrites (s : State) (d : Nat) (x : CDie) : (s.setDie d x).copyWrites = s.copyWrites := (rfl)
@[simp] theorem setDie_gens (s : State) (d : Nat) (x : CDie) : (s.setDie d x).gens = s.gens := (rfl)
@[simp] theorem setDie_fadeFrames (s : State) (d : Nat) (x : CDie) : (s.setDie d x).fadeFrames = s.fadeFrames := (rfl)
@[simp] theorem setDie_layerTs (s : State) (d : Nat) (x : CDie) : (s.setDie d x).layerTs = s.layerTs := (rfl)
@[simp] theorem setDie_tileLanes (s : State) (d : Nat) (x : CDie) : (s.setDie d x).tileLanes = s.tileLanes := (rfl)
@[simp] theorem setDie_spd (s : State) (d : Nat) (x : CDie) : (s.setDie d x).spd = s.spd := (rfl)
@[simp] theorem setDie_spdAnch (s : State) (d : Nat) (x : CDie) : (s.setDie d x).spdAnch = s.spdAnch := (rfl)
@[simp] theorem setDie_spdNew (s : State) (d : Nat) (x : CDie) : (s.setDie d x).spdNew = s.spdNew := (rfl)
@[simp] theorem setDie_spdTick (s : State) (d : Nat) (x : CDie) : (s.setDie d x).spdTick = s.spdTick := (rfl)
@[simp] theorem setDie_spdOut (s : State) (d : Nat) (x : CDie) : (s.setDie d x).spdOut = s.spdOut := (rfl)
@[simp] theorem setDie_snsGood (s : State) (d : Nat) (x : CDie) : (s.setDie d x).snsGood = s.snsGood := (rfl)
@[simp] theorem setDie_snsPair (s : State) (d : Nat) (x : CDie) : (s.setDie d x).snsPair = s.snsPair := (rfl)
@[simp] theorem setDie_dmx (s : State) (d : Nat) (x : CDie) : (s.setDie d x).dmx = s.dmx := (rfl)
@[simp] theorem setDie_macs (s : State) (d : Nat) (x : CDie) : (s.setDie d x).macs = s.macs := (rfl)
@[simp] theorem setDie_fpArmed (s : State) (d : Nat) (x : CDie) : (s.setDie d x).fpArmed = s.fpArmed := (rfl)
@[simp] theorem setDie_unv (s : State) (d : Nat) (x : CDie) : (s.setDie d x).unv = s.unv := (rfl)
@[simp] theorem setDie_tap (s : State) (d : Nat) (x : CDie) : (s.setDie d x).tap = s.tap := (rfl)
@[simp] theorem setDie_lgl (s : State) (d : Nat) (x : CDie) : (s.setDie d x).lgl = s.lgl := (rfl)
@[simp] theorem setDie_keys (s : State) (d : Nat) (x : CDie) : (s.setDie d x).keys = s.keys := (rfl)
@[simp] theorem setDie_upd (s : State) (d : Nat) (x : CDie) : (s.setDie d x).upd = s.upd := (rfl)
@[simp] theorem setDie_pwr (s : State) (d : Nat) (x : CDie) : (s.setDie d x).pwr = s.pwr := (rfl)
@[simp] theorem setDie_nrg (s : State) (d : Nat) (x : CDie) : (s.setDie d x).nrg = s.nrg := (rfl)
@[simp] theorem setDie_calib (s : State) (d : Nat) (x : CDie) : (s.setDie d x).calib = s.calib := (rfl)
@[simp] theorem setDie_chkRun (s : State) (d : Nat) (x : CDie) : (s.setDie d x).chkRun = s.chkRun := (rfl)
@[simp] theorem setDie_chnFwd (s : State) (d : Nat) (x : CDie) : (s.setDie d x).chnFwd = s.chnFwd := (rfl)
@[simp] theorem setDie_chnQ (s : State) (d : Nat) (x : CDie) : (s.setDie d x).chnQ = s.chnQ := (rfl)
@[simp] theorem setDie_chnLine (s : State) (d : Nat) (x : CDie) : (s.setDie d x).chnLine = s.chnLine := (rfl)
@[simp] theorem setDie_chnTill (s : State) (d : Nat) (x : CDie) : (s.setDie d x).chnTill = s.chnTill := (rfl)
@[simp] theorem setDie_chnWin (s : State) (d : Nat) (x : CDie) : (s.setDie d x).chnWin = s.chnWin := (rfl)
@[simp] theorem setDie_chnSlot (s : State) (d : Nat) (x : CDie) : (s.setDie d x).chnSlot = s.chnSlot := (rfl)
@[simp] theorem setDie_chnUsed (s : State) (d : Nat) (x : CDie) : (s.setDie d x).chnUsed = s.chnUsed := (rfl)
@[simp] theorem setDie_pair (s : State) (d : Nat) (x : CDie) : (s.setDie d x).pair = s.pair := (rfl)
@[simp] theorem setDie_spdPair (s : State) (d : Nat) (x : CDie) : (s.setDie d x).spdPair = s.spdPair := (rfl)
@[simp] theorem setDie_committedNs (s : State) (d : Nat) (x : CDie) : (s.setDie d x).committedNs = s.committedNs := (rfl)
@[simp] theorem setDie_failedUnits (s : State) (d : Nat) (x : CDie) : (s.setDie d x).failedUnits = s.failedUnits := (rfl)
@[simp] theorem setDie_lanesOut (s : State) (d : Nat) (x : CDie) : (s.setDie d x).lanesOut = s.lanesOut := (rfl)
@[simp] theorem setDie_swapsDue (s : State) (d : Nat) (x : CDie) : (s.setDie d x).swapsDue = s.swapsDue := (rfl)
@[simp] theorem setDie_nvsWear (s : State) (d : Nat) (x : CDie) : (s.setDie d x).nvsWear = s.nvsWear := (rfl)

@[simp] theorem setCrater_pending (s : State) (c : Nat) (x : Crater) : (s.setCrater c x).pending = s.pending := (rfl)
@[simp] theorem setCrater_now (s : State) (c : Nat) (x : Crater) : (s.setCrater c x).now = s.now := (rfl)
@[simp] theorem setCrater_sck (s : State) (c : Nat) (x : Crater) : (s.setCrater c x).sck = s.sck := (rfl)
@[simp] theorem setCrater_fresh (s : State) (c : Nat) (x : Crater) : (s.setCrater c x).fresh = s.fresh := (rfl)
@[simp] theorem setCrater_regs (s : State) (c : Nat) (x : Crater) : (s.setCrater c x).regs = s.regs := (rfl)
@[simp] theorem setCrater_act (s : State) (c : Nat) (x : Crater) : (s.setCrater c x).act = s.act := (rfl)
@[simp] theorem setCrater_taken (s : State) (c : Nat) (x : Crater) : (s.setCrater c x).taken = s.taken := (rfl)
@[simp] theorem setCrater_commits (s : State) (c : Nat) (x : Crater) : (s.setCrater c x).commits = s.commits := (rfl)
@[simp] theorem setCrater_writeNo (s : State) (c : Nat) (x : Crater) : (s.setCrater c x).writeNo = s.writeNo := (rfl)
@[simp] theorem setCrater_shadowNo (s : State) (c : Nat) (x : Crater) : (s.setCrater c x).shadowNo = s.shadowNo := (rfl)
@[simp] theorem setCrater_mem (s : State) (c : Nat) (x : Crater) : (s.setCrater c x).mem = s.mem := (rfl)
@[simp] theorem setCrater_ecc (s : State) (c : Nat) (x : Crater) : (s.setCrater c x).ecc = s.ecc := (rfl)
@[simp] theorem setCrater_tsuAcc (s : State) (c : Nat) (x : Crater) : (s.setCrater c x).tsuAcc = s.tsuAcc := (rfl)
@[simp] theorem setCrater_tsuHi (s : State) (c : Nat) (x : Crater) : (s.setCrater c x).tsuHi = s.tsuHi := (rfl)
@[simp] theorem setCrater_tsuHist (s : State) (c : Nat) (x : Crater) : (s.setCrater c x).tsuHist = s.tsuHist := (rfl)
@[simp] theorem setCrater_vents (s : State) (c : Nat) (x : Crater) : (s.setCrater c x).vents = s.vents := (rfl)
@[simp] theorem setCrater_tasks (s : State) (c : Nat) (x : Crater) : (s.setCrater c x).tasks = s.tasks := (rfl)
@[simp] theorem setCrater_seqs (s : State) (c : Nat) (x : Crater) : (s.setCrater c x).seqs = s.seqs := (rfl)
@[simp] theorem setCrater_cals (s : State) (c : Nat) (x : Crater) : (s.setCrater c x).cals = s.cals := (rfl)
@[simp] theorem setCrater_dies (s : State) (c : Nat) (x : Crater) : (s.setCrater c x).dies = s.dies := (rfl)
@[simp] theorem setCrater_gates (s : State) (c : Nat) (x : Crater) : (s.setCrater c x).gates = s.gates := (rfl)
@[simp] theorem setCrater_cores (s : State) (c : Nat) (x : Crater) : (s.setCrater c x).cores = s.cores := (rfl)
@[simp] theorem setCrater_ticketNo (s : State) (c : Nat) (x : Crater) : (s.setCrater c x).ticketNo = s.ticketNo := (rfl)
@[simp] theorem setCrater_outTaken (s : State) (c : Nat) (x : Crater) : (s.setCrater c x).outTaken = s.outTaken := (rfl)
@[simp] theorem setCrater_relTaken (s : State) (c : Nat) (x : Crater) : (s.setCrater c x).relTaken = s.relTaken := (rfl)
@[simp] theorem setCrater_fifos (s : State) (c : Nat) (x : Crater) : (s.setCrater c x).fifos = s.fifos := (rfl)
@[simp] theorem setCrater_chans (s : State) (c : Nat) (x : Crater) : (s.setCrater c x).chans = s.chans := (rfl)
@[simp] theorem setCrater_targets (s : State) (c : Nat) (x : Crater) : (s.setCrater c x).targets = s.targets := (rfl)
@[simp] theorem setCrater_icuPend (s : State) (c : Nat) (x : Crater) : (s.setCrater c x).icuPend = s.icuPend := (rfl)
@[simp] theorem setCrater_icuSvc (s : State) (c : Nat) (x : Crater) : (s.setCrater c x).icuSvc = s.icuSvc := (rfl)
@[simp] theorem setCrater_icuLine (s : State) (c : Nat) (x : Crater) : (s.setCrater c x).icuLine = s.icuLine := (rfl)
@[simp] theorem setCrater_sinter (s : State) (c : Nat) (x : Crater) : (s.setCrater c x).sinter = s.sinter := (rfl)
@[simp] theorem setCrater_springLatch (s : State) (c : Nat) (x : Crater) : (s.setCrater c x).springLatch = s.springLatch := (rfl)
@[simp] theorem setCrater_flt (s : State) (c : Nat) (x : Crater) : (s.setCrater c x).flt = s.flt := (rfl)
@[simp] theorem setCrater_fltNvs (s : State) (c : Nat) (x : Crater) : (s.setCrater c x).fltNvs = s.fltNvs := (rfl)
@[simp] theorem setCrater_host (s : State) (c : Nat) (x : Crater) : (s.setCrater c x).host = s.host := (rfl)
@[simp] theorem setCrater_hwFaults (s : State) (c : Nat) (x : Crater) : (s.setCrater c x).hwFaults = s.hwFaults := (rfl)
@[simp] theorem setCrater_hwchk (s : State) (c : Nat) (x : Crater) : (s.setCrater c x).hwchk = s.hwchk := (rfl)
@[simp] theorem setCrater_dramReqs (s : State) (c : Nat) (x : Crater) : (s.setCrater c x).dramReqs = s.dramReqs := (rfl)
@[simp] theorem setCrater_dramRef (s : State) (c : Nat) (x : Crater) : (s.setCrater c x).dramRef = s.dramRef := (rfl)
@[simp] theorem setCrater_hostRead (s : State) (c : Nat) (x : Crater) : (s.setCrater c x).hostRead = s.hostRead := (rfl)
@[simp] theorem setCrater_bgtOver (s : State) (c : Nat) (x : Crater) : (s.setCrater c x).bgtOver = s.bgtOver := (rfl)
@[simp] theorem setCrater_bgtUnder (s : State) (c : Nat) (x : Crater) : (s.setCrater c x).bgtUnder = s.bgtUnder := (rfl)
@[simp] theorem setCrater_snapReq (s : State) (c : Nat) (x : Crater) : (s.setCrater c x).snapReq = s.snapReq := (rfl)
@[simp] theorem setCrater_capReq (s : State) (c : Nat) (x : Crater) : (s.setCrater c x).capReq = s.capReq := (rfl)
@[simp] theorem setCrater_flkNo (s : State) (c : Nat) (x : Crater) : (s.setCrater c x).flkNo = s.flkNo := (rfl)
@[simp] theorem setCrater_ratePend (s : State) (c : Nat) (x : Crater) : (s.setCrater c x).ratePend = s.ratePend := (rfl)
@[simp] theorem setCrater_fsyncAt (s : State) (c : Nat) (x : Crater) : (s.setCrater c x).fsyncAt = s.fsyncAt := (rfl)
@[simp] theorem setCrater_flkNext (s : State) (c : Nat) (x : Crater) : (s.setCrater c x).flkNext = s.flkNext := (rfl)
@[simp] theorem setCrater_flkFired (s : State) (c : Nat) (x : Crater) : (s.setCrater c x).flkFired = s.flkFired := (rfl)
@[simp] theorem setCrater_flkS (s : State) (c : Nat) (x : Crater) : (s.setCrater c x).flkS = s.flkS := (rfl)
@[simp] theorem setCrater_lateNoted (s : State) (c : Nat) (x : Crater) : (s.setCrater c x).lateNoted = s.lateNoted := (rfl)
@[simp] theorem setCrater_sealed (s : State) (c : Nat) (x : Crater) : (s.setCrater c x).sealed = s.sealed := (rfl)
@[simp] theorem setCrater_sealHold (s : State) (c : Nat) (x : Crater) : (s.setCrater c x).sealHold = s.sealHold := (rfl)
@[simp] theorem setCrater_fadeFc (s : State) (c : Nat) (x : Crater) : (s.setCrater c x).fadeFc = s.fadeFc := (rfl)
@[simp] theorem setCrater_fadeTc (s : State) (c : Nat) (x : Crater) : (s.setCrater c x).fadeTc = s.fadeTc := (rfl)
@[simp] theorem setCrater_notices (s : State) (c : Nat) (x : Crater) : (s.setCrater c x).notices = s.notices := (rfl)
@[simp] theorem setCrater_peers (s : State) (c : Nat) (x : Crater) : (s.setCrater c x).peers = s.peers := (rfl)
@[simp] theorem setCrater_chnOut (s : State) (c : Nat) (x : Crater) : (s.setCrater c x).chnOut = s.chnOut := (rfl)
@[simp] theorem setCrater_chnAlive (s : State) (c : Nat) (x : Crater) : (s.setCrater c x).chnAlive = s.chnAlive := (rfl)
@[simp] theorem setCrater_roleAt (s : State) (c : Nat) (x : Crater) : (s.setCrater c x).roleAt = s.roleAt := (rfl)
@[simp] theorem setCrater_tbl (s : State) (c : Nat) (x : Crater) : (s.setCrater c x).tbl = s.tbl := (rfl)
@[simp] theorem setCrater_bufs (s : State) (c : Nat) (x : Crater) : (s.setCrater c x).bufs = s.bufs := (rfl)
@[simp] theorem setCrater_vid (s : State) (c : Nat) (x : Crater) : (s.setCrater c x).vid = s.vid := (rfl)
@[simp] theorem setCrater_vidDrop (s : State) (c : Nat) (x : Crater) : (s.setCrater c x).vidDrop = s.vidDrop := (rfl)
@[simp] theorem setCrater_layerStore (s : State) (c : Nat) (x : Crater) : (s.setCrater c x).layerStore = s.layerStore := (rfl)
@[simp] theorem setCrater_lgvPrev (s : State) (c : Nat) (x : Crater) : (s.setCrater c x).lgvPrev = s.lgvPrev := (rfl)
@[simp] theorem setCrater_lgvD (s : State) (c : Nat) (x : Crater) : (s.setCrater c x).lgvD = s.lgvD := (rfl)
@[simp] theorem setCrater_tfFrames (s : State) (c : Nat) (x : Crater) : (s.setCrater c x).tfFrames = s.tfFrames := (rfl)
@[simp] theorem setCrater_tfPair (s : State) (c : Nat) (x : Crater) : (s.setCrater c x).tfPair = s.tfPair := (rfl)
@[simp] theorem setCrater_tfPairAt (s : State) (c : Nat) (x : Crater) : (s.setCrater c x).tfPairAt = s.tfPairAt := (rfl)
@[simp] theorem setCrater_outScale (s : State) (c : Nat) (x : Crater) : (s.setCrater c x).outScale = s.outScale := (rfl)
@[simp] theorem setCrater_slotWrites (s : State) (c : Nat) (x : Crater) : (s.setCrater c x).slotWrites = s.slotWrites := (rfl)
@[simp] theorem setCrater_copyWrites (s : State) (c : Nat) (x : Crater) : (s.setCrater c x).copyWrites = s.copyWrites := (rfl)
@[simp] theorem setCrater_gens (s : State) (c : Nat) (x : Crater) : (s.setCrater c x).gens = s.gens := (rfl)
@[simp] theorem setCrater_fadeFrames (s : State) (c : Nat) (x : Crater) : (s.setCrater c x).fadeFrames = s.fadeFrames := (rfl)
@[simp] theorem setCrater_layerTs (s : State) (c : Nat) (x : Crater) : (s.setCrater c x).layerTs = s.layerTs := (rfl)
@[simp] theorem setCrater_tileLanes (s : State) (c : Nat) (x : Crater) : (s.setCrater c x).tileLanes = s.tileLanes := (rfl)
@[simp] theorem setCrater_spd (s : State) (c : Nat) (x : Crater) : (s.setCrater c x).spd = s.spd := (rfl)
@[simp] theorem setCrater_spdAnch (s : State) (c : Nat) (x : Crater) : (s.setCrater c x).spdAnch = s.spdAnch := (rfl)
@[simp] theorem setCrater_spdNew (s : State) (c : Nat) (x : Crater) : (s.setCrater c x).spdNew = s.spdNew := (rfl)
@[simp] theorem setCrater_spdTick (s : State) (c : Nat) (x : Crater) : (s.setCrater c x).spdTick = s.spdTick := (rfl)
@[simp] theorem setCrater_spdOut (s : State) (c : Nat) (x : Crater) : (s.setCrater c x).spdOut = s.spdOut := (rfl)
@[simp] theorem setCrater_snsGood (s : State) (c : Nat) (x : Crater) : (s.setCrater c x).snsGood = s.snsGood := (rfl)
@[simp] theorem setCrater_snsPair (s : State) (c : Nat) (x : Crater) : (s.setCrater c x).snsPair = s.snsPair := (rfl)
@[simp] theorem setCrater_dmx (s : State) (c : Nat) (x : Crater) : (s.setCrater c x).dmx = s.dmx := (rfl)
@[simp] theorem setCrater_macs (s : State) (c : Nat) (x : Crater) : (s.setCrater c x).macs = s.macs := (rfl)
@[simp] theorem setCrater_fpArmed (s : State) (c : Nat) (x : Crater) : (s.setCrater c x).fpArmed = s.fpArmed := (rfl)
@[simp] theorem setCrater_unv (s : State) (c : Nat) (x : Crater) : (s.setCrater c x).unv = s.unv := (rfl)
@[simp] theorem setCrater_tap (s : State) (c : Nat) (x : Crater) : (s.setCrater c x).tap = s.tap := (rfl)
@[simp] theorem setCrater_lgl (s : State) (c : Nat) (x : Crater) : (s.setCrater c x).lgl = s.lgl := (rfl)
@[simp] theorem setCrater_keys (s : State) (c : Nat) (x : Crater) : (s.setCrater c x).keys = s.keys := (rfl)
@[simp] theorem setCrater_upd (s : State) (c : Nat) (x : Crater) : (s.setCrater c x).upd = s.upd := (rfl)
@[simp] theorem setCrater_pwr (s : State) (c : Nat) (x : Crater) : (s.setCrater c x).pwr = s.pwr := (rfl)
@[simp] theorem setCrater_nrg (s : State) (c : Nat) (x : Crater) : (s.setCrater c x).nrg = s.nrg := (rfl)
@[simp] theorem setCrater_calib (s : State) (c : Nat) (x : Crater) : (s.setCrater c x).calib = s.calib := (rfl)
@[simp] theorem setCrater_chkRun (s : State) (c : Nat) (x : Crater) : (s.setCrater c x).chkRun = s.chkRun := (rfl)
@[simp] theorem setCrater_chnFwd (s : State) (c : Nat) (x : Crater) : (s.setCrater c x).chnFwd = s.chnFwd := (rfl)
@[simp] theorem setCrater_chnQ (s : State) (c : Nat) (x : Crater) : (s.setCrater c x).chnQ = s.chnQ := (rfl)
@[simp] theorem setCrater_chnLine (s : State) (c : Nat) (x : Crater) : (s.setCrater c x).chnLine = s.chnLine := (rfl)
@[simp] theorem setCrater_chnTill (s : State) (c : Nat) (x : Crater) : (s.setCrater c x).chnTill = s.chnTill := (rfl)
@[simp] theorem setCrater_chnWin (s : State) (c : Nat) (x : Crater) : (s.setCrater c x).chnWin = s.chnWin := (rfl)
@[simp] theorem setCrater_chnSlot (s : State) (c : Nat) (x : Crater) : (s.setCrater c x).chnSlot = s.chnSlot := (rfl)
@[simp] theorem setCrater_chnUsed (s : State) (c : Nat) (x : Crater) : (s.setCrater c x).chnUsed = s.chnUsed := (rfl)
@[simp] theorem setCrater_pair (s : State) (c : Nat) (x : Crater) : (s.setCrater c x).pair = s.pair := (rfl)
@[simp] theorem setCrater_spdPair (s : State) (c : Nat) (x : Crater) : (s.setCrater c x).spdPair = s.spdPair := (rfl)
@[simp] theorem setCrater_committedNs (s : State) (c : Nat) (x : Crater) : (s.setCrater c x).committedNs = s.committedNs := (rfl)
@[simp] theorem setCrater_failedUnits (s : State) (c : Nat) (x : Crater) : (s.setCrater c x).failedUnits = s.failedUnits := (rfl)
@[simp] theorem setCrater_lanesOut (s : State) (c : Nat) (x : Crater) : (s.setCrater c x).lanesOut = s.lanesOut := (rfl)
@[simp] theorem setCrater_swapsDue (s : State) (c : Nat) (x : Crater) : (s.setCrater c x).swapsDue = s.swapsDue := (rfl)
@[simp] theorem setCrater_nvsWear (s : State) (c : Nat) (x : Crater) : (s.setCrater c x).nvsWear = s.nvsWear := (rfl)

@[simp] theorem setTask_pending (s : State) (k : Nat) (x : Task) : (s.setTask k x).pending = s.pending := (rfl)
@[simp] theorem setTask_now (s : State) (k : Nat) (x : Task) : (s.setTask k x).now = s.now := (rfl)
@[simp] theorem setTask_sck (s : State) (k : Nat) (x : Task) : (s.setTask k x).sck = s.sck := (rfl)
@[simp] theorem setTask_fresh (s : State) (k : Nat) (x : Task) : (s.setTask k x).fresh = s.fresh := (rfl)
@[simp] theorem setTask_regs (s : State) (k : Nat) (x : Task) : (s.setTask k x).regs = s.regs := (rfl)
@[simp] theorem setTask_act (s : State) (k : Nat) (x : Task) : (s.setTask k x).act = s.act := (rfl)
@[simp] theorem setTask_taken (s : State) (k : Nat) (x : Task) : (s.setTask k x).taken = s.taken := (rfl)
@[simp] theorem setTask_commits (s : State) (k : Nat) (x : Task) : (s.setTask k x).commits = s.commits := (rfl)
@[simp] theorem setTask_writeNo (s : State) (k : Nat) (x : Task) : (s.setTask k x).writeNo = s.writeNo := (rfl)
@[simp] theorem setTask_shadowNo (s : State) (k : Nat) (x : Task) : (s.setTask k x).shadowNo = s.shadowNo := (rfl)
@[simp] theorem setTask_mem (s : State) (k : Nat) (x : Task) : (s.setTask k x).mem = s.mem := (rfl)
@[simp] theorem setTask_ecc (s : State) (k : Nat) (x : Task) : (s.setTask k x).ecc = s.ecc := (rfl)
@[simp] theorem setTask_tsuAcc (s : State) (k : Nat) (x : Task) : (s.setTask k x).tsuAcc = s.tsuAcc := (rfl)
@[simp] theorem setTask_tsuHi (s : State) (k : Nat) (x : Task) : (s.setTask k x).tsuHi = s.tsuHi := (rfl)
@[simp] theorem setTask_tsuHist (s : State) (k : Nat) (x : Task) : (s.setTask k x).tsuHist = s.tsuHist := (rfl)
@[simp] theorem setTask_vents (s : State) (k : Nat) (x : Task) : (s.setTask k x).vents = s.vents := (rfl)
@[simp] theorem setTask_craters (s : State) (k : Nat) (x : Task) : (s.setTask k x).craters = s.craters := (rfl)
@[simp] theorem setTask_seqs (s : State) (k : Nat) (x : Task) : (s.setTask k x).seqs = s.seqs := (rfl)
@[simp] theorem setTask_cals (s : State) (k : Nat) (x : Task) : (s.setTask k x).cals = s.cals := (rfl)
@[simp] theorem setTask_dies (s : State) (k : Nat) (x : Task) : (s.setTask k x).dies = s.dies := (rfl)
@[simp] theorem setTask_gates (s : State) (k : Nat) (x : Task) : (s.setTask k x).gates = s.gates := (rfl)
@[simp] theorem setTask_cores (s : State) (k : Nat) (x : Task) : (s.setTask k x).cores = s.cores := (rfl)
@[simp] theorem setTask_ticketNo (s : State) (k : Nat) (x : Task) : (s.setTask k x).ticketNo = s.ticketNo := (rfl)
@[simp] theorem setTask_outTaken (s : State) (k : Nat) (x : Task) : (s.setTask k x).outTaken = s.outTaken := (rfl)
@[simp] theorem setTask_relTaken (s : State) (k : Nat) (x : Task) : (s.setTask k x).relTaken = s.relTaken := (rfl)
@[simp] theorem setTask_fifos (s : State) (k : Nat) (x : Task) : (s.setTask k x).fifos = s.fifos := (rfl)
@[simp] theorem setTask_chans (s : State) (k : Nat) (x : Task) : (s.setTask k x).chans = s.chans := (rfl)
@[simp] theorem setTask_targets (s : State) (k : Nat) (x : Task) : (s.setTask k x).targets = s.targets := (rfl)
@[simp] theorem setTask_icuPend (s : State) (k : Nat) (x : Task) : (s.setTask k x).icuPend = s.icuPend := (rfl)
@[simp] theorem setTask_icuSvc (s : State) (k : Nat) (x : Task) : (s.setTask k x).icuSvc = s.icuSvc := (rfl)
@[simp] theorem setTask_icuLine (s : State) (k : Nat) (x : Task) : (s.setTask k x).icuLine = s.icuLine := (rfl)
@[simp] theorem setTask_sinter (s : State) (k : Nat) (x : Task) : (s.setTask k x).sinter = s.sinter := (rfl)
@[simp] theorem setTask_springLatch (s : State) (k : Nat) (x : Task) : (s.setTask k x).springLatch = s.springLatch := (rfl)
@[simp] theorem setTask_flt (s : State) (k : Nat) (x : Task) : (s.setTask k x).flt = s.flt := (rfl)
@[simp] theorem setTask_fltNvs (s : State) (k : Nat) (x : Task) : (s.setTask k x).fltNvs = s.fltNvs := (rfl)
@[simp] theorem setTask_host (s : State) (k : Nat) (x : Task) : (s.setTask k x).host = s.host := (rfl)
@[simp] theorem setTask_hwFaults (s : State) (k : Nat) (x : Task) : (s.setTask k x).hwFaults = s.hwFaults := (rfl)
@[simp] theorem setTask_hwchk (s : State) (k : Nat) (x : Task) : (s.setTask k x).hwchk = s.hwchk := (rfl)
@[simp] theorem setTask_dramReqs (s : State) (k : Nat) (x : Task) : (s.setTask k x).dramReqs = s.dramReqs := (rfl)
@[simp] theorem setTask_dramRef (s : State) (k : Nat) (x : Task) : (s.setTask k x).dramRef = s.dramRef := (rfl)
@[simp] theorem setTask_hostRead (s : State) (k : Nat) (x : Task) : (s.setTask k x).hostRead = s.hostRead := (rfl)
@[simp] theorem setTask_bgtOver (s : State) (k : Nat) (x : Task) : (s.setTask k x).bgtOver = s.bgtOver := (rfl)
@[simp] theorem setTask_bgtUnder (s : State) (k : Nat) (x : Task) : (s.setTask k x).bgtUnder = s.bgtUnder := (rfl)
@[simp] theorem setTask_snapReq (s : State) (k : Nat) (x : Task) : (s.setTask k x).snapReq = s.snapReq := (rfl)
@[simp] theorem setTask_capReq (s : State) (k : Nat) (x : Task) : (s.setTask k x).capReq = s.capReq := (rfl)
@[simp] theorem setTask_flkNo (s : State) (k : Nat) (x : Task) : (s.setTask k x).flkNo = s.flkNo := (rfl)
@[simp] theorem setTask_ratePend (s : State) (k : Nat) (x : Task) : (s.setTask k x).ratePend = s.ratePend := (rfl)
@[simp] theorem setTask_fsyncAt (s : State) (k : Nat) (x : Task) : (s.setTask k x).fsyncAt = s.fsyncAt := (rfl)
@[simp] theorem setTask_flkNext (s : State) (k : Nat) (x : Task) : (s.setTask k x).flkNext = s.flkNext := (rfl)
@[simp] theorem setTask_flkFired (s : State) (k : Nat) (x : Task) : (s.setTask k x).flkFired = s.flkFired := (rfl)
@[simp] theorem setTask_flkS (s : State) (k : Nat) (x : Task) : (s.setTask k x).flkS = s.flkS := (rfl)
@[simp] theorem setTask_lateNoted (s : State) (k : Nat) (x : Task) : (s.setTask k x).lateNoted = s.lateNoted := (rfl)
@[simp] theorem setTask_sealed (s : State) (k : Nat) (x : Task) : (s.setTask k x).sealed = s.sealed := (rfl)
@[simp] theorem setTask_sealHold (s : State) (k : Nat) (x : Task) : (s.setTask k x).sealHold = s.sealHold := (rfl)
@[simp] theorem setTask_fadeFc (s : State) (k : Nat) (x : Task) : (s.setTask k x).fadeFc = s.fadeFc := (rfl)
@[simp] theorem setTask_fadeTc (s : State) (k : Nat) (x : Task) : (s.setTask k x).fadeTc = s.fadeTc := (rfl)
@[simp] theorem setTask_notices (s : State) (k : Nat) (x : Task) : (s.setTask k x).notices = s.notices := (rfl)
@[simp] theorem setTask_peers (s : State) (k : Nat) (x : Task) : (s.setTask k x).peers = s.peers := (rfl)
@[simp] theorem setTask_chnOut (s : State) (k : Nat) (x : Task) : (s.setTask k x).chnOut = s.chnOut := (rfl)
@[simp] theorem setTask_chnAlive (s : State) (k : Nat) (x : Task) : (s.setTask k x).chnAlive = s.chnAlive := (rfl)
@[simp] theorem setTask_roleAt (s : State) (k : Nat) (x : Task) : (s.setTask k x).roleAt = s.roleAt := (rfl)
@[simp] theorem setTask_tbl (s : State) (k : Nat) (x : Task) : (s.setTask k x).tbl = s.tbl := (rfl)
@[simp] theorem setTask_bufs (s : State) (k : Nat) (x : Task) : (s.setTask k x).bufs = s.bufs := (rfl)
@[simp] theorem setTask_vid (s : State) (k : Nat) (x : Task) : (s.setTask k x).vid = s.vid := (rfl)
@[simp] theorem setTask_vidDrop (s : State) (k : Nat) (x : Task) : (s.setTask k x).vidDrop = s.vidDrop := (rfl)
@[simp] theorem setTask_layerStore (s : State) (k : Nat) (x : Task) : (s.setTask k x).layerStore = s.layerStore := (rfl)
@[simp] theorem setTask_lgvPrev (s : State) (k : Nat) (x : Task) : (s.setTask k x).lgvPrev = s.lgvPrev := (rfl)
@[simp] theorem setTask_lgvD (s : State) (k : Nat) (x : Task) : (s.setTask k x).lgvD = s.lgvD := (rfl)
@[simp] theorem setTask_tfFrames (s : State) (k : Nat) (x : Task) : (s.setTask k x).tfFrames = s.tfFrames := (rfl)
@[simp] theorem setTask_tfPair (s : State) (k : Nat) (x : Task) : (s.setTask k x).tfPair = s.tfPair := (rfl)
@[simp] theorem setTask_tfPairAt (s : State) (k : Nat) (x : Task) : (s.setTask k x).tfPairAt = s.tfPairAt := (rfl)
@[simp] theorem setTask_outScale (s : State) (k : Nat) (x : Task) : (s.setTask k x).outScale = s.outScale := (rfl)
@[simp] theorem setTask_slotWrites (s : State) (k : Nat) (x : Task) : (s.setTask k x).slotWrites = s.slotWrites := (rfl)
@[simp] theorem setTask_copyWrites (s : State) (k : Nat) (x : Task) : (s.setTask k x).copyWrites = s.copyWrites := (rfl)
@[simp] theorem setTask_gens (s : State) (k : Nat) (x : Task) : (s.setTask k x).gens = s.gens := (rfl)
@[simp] theorem setTask_fadeFrames (s : State) (k : Nat) (x : Task) : (s.setTask k x).fadeFrames = s.fadeFrames := (rfl)
@[simp] theorem setTask_layerTs (s : State) (k : Nat) (x : Task) : (s.setTask k x).layerTs = s.layerTs := (rfl)
@[simp] theorem setTask_tileLanes (s : State) (k : Nat) (x : Task) : (s.setTask k x).tileLanes = s.tileLanes := (rfl)
@[simp] theorem setTask_spd (s : State) (k : Nat) (x : Task) : (s.setTask k x).spd = s.spd := (rfl)
@[simp] theorem setTask_spdAnch (s : State) (k : Nat) (x : Task) : (s.setTask k x).spdAnch = s.spdAnch := (rfl)
@[simp] theorem setTask_spdNew (s : State) (k : Nat) (x : Task) : (s.setTask k x).spdNew = s.spdNew := (rfl)
@[simp] theorem setTask_spdTick (s : State) (k : Nat) (x : Task) : (s.setTask k x).spdTick = s.spdTick := (rfl)
@[simp] theorem setTask_spdOut (s : State) (k : Nat) (x : Task) : (s.setTask k x).spdOut = s.spdOut := (rfl)
@[simp] theorem setTask_snsGood (s : State) (k : Nat) (x : Task) : (s.setTask k x).snsGood = s.snsGood := (rfl)
@[simp] theorem setTask_snsPair (s : State) (k : Nat) (x : Task) : (s.setTask k x).snsPair = s.snsPair := (rfl)
@[simp] theorem setTask_dmx (s : State) (k : Nat) (x : Task) : (s.setTask k x).dmx = s.dmx := (rfl)
@[simp] theorem setTask_macs (s : State) (k : Nat) (x : Task) : (s.setTask k x).macs = s.macs := (rfl)
@[simp] theorem setTask_fpArmed (s : State) (k : Nat) (x : Task) : (s.setTask k x).fpArmed = s.fpArmed := (rfl)
@[simp] theorem setTask_unv (s : State) (k : Nat) (x : Task) : (s.setTask k x).unv = s.unv := (rfl)
@[simp] theorem setTask_tap (s : State) (k : Nat) (x : Task) : (s.setTask k x).tap = s.tap := (rfl)
@[simp] theorem setTask_lgl (s : State) (k : Nat) (x : Task) : (s.setTask k x).lgl = s.lgl := (rfl)
@[simp] theorem setTask_keys (s : State) (k : Nat) (x : Task) : (s.setTask k x).keys = s.keys := (rfl)
@[simp] theorem setTask_upd (s : State) (k : Nat) (x : Task) : (s.setTask k x).upd = s.upd := (rfl)
@[simp] theorem setTask_pwr (s : State) (k : Nat) (x : Task) : (s.setTask k x).pwr = s.pwr := (rfl)
@[simp] theorem setTask_nrg (s : State) (k : Nat) (x : Task) : (s.setTask k x).nrg = s.nrg := (rfl)
@[simp] theorem setTask_calib (s : State) (k : Nat) (x : Task) : (s.setTask k x).calib = s.calib := (rfl)
@[simp] theorem setTask_chkRun (s : State) (k : Nat) (x : Task) : (s.setTask k x).chkRun = s.chkRun := (rfl)
@[simp] theorem setTask_chnFwd (s : State) (k : Nat) (x : Task) : (s.setTask k x).chnFwd = s.chnFwd := (rfl)
@[simp] theorem setTask_chnQ (s : State) (k : Nat) (x : Task) : (s.setTask k x).chnQ = s.chnQ := (rfl)
@[simp] theorem setTask_chnLine (s : State) (k : Nat) (x : Task) : (s.setTask k x).chnLine = s.chnLine := (rfl)
@[simp] theorem setTask_chnTill (s : State) (k : Nat) (x : Task) : (s.setTask k x).chnTill = s.chnTill := (rfl)
@[simp] theorem setTask_chnWin (s : State) (k : Nat) (x : Task) : (s.setTask k x).chnWin = s.chnWin := (rfl)
@[simp] theorem setTask_chnSlot (s : State) (k : Nat) (x : Task) : (s.setTask k x).chnSlot = s.chnSlot := (rfl)
@[simp] theorem setTask_chnUsed (s : State) (k : Nat) (x : Task) : (s.setTask k x).chnUsed = s.chnUsed := (rfl)
@[simp] theorem setTask_pair (s : State) (k : Nat) (x : Task) : (s.setTask k x).pair = s.pair := (rfl)
@[simp] theorem setTask_spdPair (s : State) (k : Nat) (x : Task) : (s.setTask k x).spdPair = s.spdPair := (rfl)
@[simp] theorem setTask_committedNs (s : State) (k : Nat) (x : Task) : (s.setTask k x).committedNs = s.committedNs := (rfl)
@[simp] theorem setTask_failedUnits (s : State) (k : Nat) (x : Task) : (s.setTask k x).failedUnits = s.failedUnits := (rfl)
@[simp] theorem setTask_lanesOut (s : State) (k : Nat) (x : Task) : (s.setTask k x).lanesOut = s.lanesOut := (rfl)
@[simp] theorem setTask_swapsDue (s : State) (k : Nat) (x : Task) : (s.setTask k x).swapsDue = s.swapsDue := (rfl)
@[simp] theorem setTask_nvsWear (s : State) (k : Nat) (x : Task) : (s.setTask k x).nvsWear = s.nvsWear := (rfl)

@[simp] theorem dropTask_pending (s : State) (k : Nat) : (s.dropTask k).pending = s.pending := (rfl)
@[simp] theorem dropTask_now (s : State) (k : Nat) : (s.dropTask k).now = s.now := (rfl)
@[simp] theorem dropTask_sck (s : State) (k : Nat) : (s.dropTask k).sck = s.sck := (rfl)
@[simp] theorem dropTask_fresh (s : State) (k : Nat) : (s.dropTask k).fresh = s.fresh := (rfl)
@[simp] theorem dropTask_regs (s : State) (k : Nat) : (s.dropTask k).regs = s.regs := (rfl)
@[simp] theorem dropTask_act (s : State) (k : Nat) : (s.dropTask k).act = s.act := (rfl)
@[simp] theorem dropTask_taken (s : State) (k : Nat) : (s.dropTask k).taken = s.taken := (rfl)
@[simp] theorem dropTask_commits (s : State) (k : Nat) : (s.dropTask k).commits = s.commits := (rfl)
@[simp] theorem dropTask_writeNo (s : State) (k : Nat) : (s.dropTask k).writeNo = s.writeNo := (rfl)
@[simp] theorem dropTask_shadowNo (s : State) (k : Nat) : (s.dropTask k).shadowNo = s.shadowNo := (rfl)
@[simp] theorem dropTask_mem (s : State) (k : Nat) : (s.dropTask k).mem = s.mem := (rfl)
@[simp] theorem dropTask_ecc (s : State) (k : Nat) : (s.dropTask k).ecc = s.ecc := (rfl)
@[simp] theorem dropTask_tsuAcc (s : State) (k : Nat) : (s.dropTask k).tsuAcc = s.tsuAcc := (rfl)
@[simp] theorem dropTask_tsuHi (s : State) (k : Nat) : (s.dropTask k).tsuHi = s.tsuHi := (rfl)
@[simp] theorem dropTask_tsuHist (s : State) (k : Nat) : (s.dropTask k).tsuHist = s.tsuHist := (rfl)
@[simp] theorem dropTask_vents (s : State) (k : Nat) : (s.dropTask k).vents = s.vents := (rfl)
@[simp] theorem dropTask_craters (s : State) (k : Nat) : (s.dropTask k).craters = s.craters := (rfl)
@[simp] theorem dropTask_seqs (s : State) (k : Nat) : (s.dropTask k).seqs = s.seqs := (rfl)
@[simp] theorem dropTask_cals (s : State) (k : Nat) : (s.dropTask k).cals = s.cals := (rfl)
@[simp] theorem dropTask_dies (s : State) (k : Nat) : (s.dropTask k).dies = s.dies := (rfl)
@[simp] theorem dropTask_gates (s : State) (k : Nat) : (s.dropTask k).gates = s.gates := (rfl)
@[simp] theorem dropTask_cores (s : State) (k : Nat) : (s.dropTask k).cores = s.cores := (rfl)
@[simp] theorem dropTask_ticketNo (s : State) (k : Nat) : (s.dropTask k).ticketNo = s.ticketNo := (rfl)
@[simp] theorem dropTask_outTaken (s : State) (k : Nat) : (s.dropTask k).outTaken = s.outTaken := (rfl)
@[simp] theorem dropTask_relTaken (s : State) (k : Nat) : (s.dropTask k).relTaken = s.relTaken := (rfl)
@[simp] theorem dropTask_fifos (s : State) (k : Nat) : (s.dropTask k).fifos = s.fifos := (rfl)
@[simp] theorem dropTask_chans (s : State) (k : Nat) : (s.dropTask k).chans = s.chans := (rfl)
@[simp] theorem dropTask_targets (s : State) (k : Nat) : (s.dropTask k).targets = s.targets := (rfl)
@[simp] theorem dropTask_icuPend (s : State) (k : Nat) : (s.dropTask k).icuPend = s.icuPend := (rfl)
@[simp] theorem dropTask_icuSvc (s : State) (k : Nat) : (s.dropTask k).icuSvc = s.icuSvc := (rfl)
@[simp] theorem dropTask_icuLine (s : State) (k : Nat) : (s.dropTask k).icuLine = s.icuLine := (rfl)
@[simp] theorem dropTask_sinter (s : State) (k : Nat) : (s.dropTask k).sinter = s.sinter := (rfl)
@[simp] theorem dropTask_springLatch (s : State) (k : Nat) : (s.dropTask k).springLatch = s.springLatch := (rfl)
@[simp] theorem dropTask_flt (s : State) (k : Nat) : (s.dropTask k).flt = s.flt := (rfl)
@[simp] theorem dropTask_fltNvs (s : State) (k : Nat) : (s.dropTask k).fltNvs = s.fltNvs := (rfl)
@[simp] theorem dropTask_host (s : State) (k : Nat) : (s.dropTask k).host = s.host := (rfl)
@[simp] theorem dropTask_hwFaults (s : State) (k : Nat) : (s.dropTask k).hwFaults = s.hwFaults := (rfl)
@[simp] theorem dropTask_hwchk (s : State) (k : Nat) : (s.dropTask k).hwchk = s.hwchk := (rfl)
@[simp] theorem dropTask_dramReqs (s : State) (k : Nat) : (s.dropTask k).dramReqs = s.dramReqs := (rfl)
@[simp] theorem dropTask_dramRef (s : State) (k : Nat) : (s.dropTask k).dramRef = s.dramRef := (rfl)
@[simp] theorem dropTask_hostRead (s : State) (k : Nat) : (s.dropTask k).hostRead = s.hostRead := (rfl)
@[simp] theorem dropTask_bgtOver (s : State) (k : Nat) : (s.dropTask k).bgtOver = s.bgtOver := (rfl)
@[simp] theorem dropTask_bgtUnder (s : State) (k : Nat) : (s.dropTask k).bgtUnder = s.bgtUnder := (rfl)
@[simp] theorem dropTask_snapReq (s : State) (k : Nat) : (s.dropTask k).snapReq = s.snapReq := (rfl)
@[simp] theorem dropTask_capReq (s : State) (k : Nat) : (s.dropTask k).capReq = s.capReq := (rfl)
@[simp] theorem dropTask_flkNo (s : State) (k : Nat) : (s.dropTask k).flkNo = s.flkNo := (rfl)
@[simp] theorem dropTask_ratePend (s : State) (k : Nat) : (s.dropTask k).ratePend = s.ratePend := (rfl)
@[simp] theorem dropTask_fsyncAt (s : State) (k : Nat) : (s.dropTask k).fsyncAt = s.fsyncAt := (rfl)
@[simp] theorem dropTask_flkNext (s : State) (k : Nat) : (s.dropTask k).flkNext = s.flkNext := (rfl)
@[simp] theorem dropTask_flkFired (s : State) (k : Nat) : (s.dropTask k).flkFired = s.flkFired := (rfl)
@[simp] theorem dropTask_flkS (s : State) (k : Nat) : (s.dropTask k).flkS = s.flkS := (rfl)
@[simp] theorem dropTask_lateNoted (s : State) (k : Nat) : (s.dropTask k).lateNoted = s.lateNoted := (rfl)
@[simp] theorem dropTask_sealed (s : State) (k : Nat) : (s.dropTask k).sealed = s.sealed := (rfl)
@[simp] theorem dropTask_sealHold (s : State) (k : Nat) : (s.dropTask k).sealHold = s.sealHold := (rfl)
@[simp] theorem dropTask_fadeFc (s : State) (k : Nat) : (s.dropTask k).fadeFc = s.fadeFc := (rfl)
@[simp] theorem dropTask_fadeTc (s : State) (k : Nat) : (s.dropTask k).fadeTc = s.fadeTc := (rfl)
@[simp] theorem dropTask_notices (s : State) (k : Nat) : (s.dropTask k).notices = s.notices := (rfl)
@[simp] theorem dropTask_peers (s : State) (k : Nat) : (s.dropTask k).peers = s.peers := (rfl)
@[simp] theorem dropTask_chnOut (s : State) (k : Nat) : (s.dropTask k).chnOut = s.chnOut := (rfl)
@[simp] theorem dropTask_chnAlive (s : State) (k : Nat) : (s.dropTask k).chnAlive = s.chnAlive := (rfl)
@[simp] theorem dropTask_roleAt (s : State) (k : Nat) : (s.dropTask k).roleAt = s.roleAt := (rfl)
@[simp] theorem dropTask_tbl (s : State) (k : Nat) : (s.dropTask k).tbl = s.tbl := (rfl)
@[simp] theorem dropTask_bufs (s : State) (k : Nat) : (s.dropTask k).bufs = s.bufs := (rfl)
@[simp] theorem dropTask_vid (s : State) (k : Nat) : (s.dropTask k).vid = s.vid := (rfl)
@[simp] theorem dropTask_vidDrop (s : State) (k : Nat) : (s.dropTask k).vidDrop = s.vidDrop := (rfl)
@[simp] theorem dropTask_layerStore (s : State) (k : Nat) : (s.dropTask k).layerStore = s.layerStore := (rfl)
@[simp] theorem dropTask_lgvPrev (s : State) (k : Nat) : (s.dropTask k).lgvPrev = s.lgvPrev := (rfl)
@[simp] theorem dropTask_lgvD (s : State) (k : Nat) : (s.dropTask k).lgvD = s.lgvD := (rfl)
@[simp] theorem dropTask_tfFrames (s : State) (k : Nat) : (s.dropTask k).tfFrames = s.tfFrames := (rfl)
@[simp] theorem dropTask_tfPair (s : State) (k : Nat) : (s.dropTask k).tfPair = s.tfPair := (rfl)
@[simp] theorem dropTask_tfPairAt (s : State) (k : Nat) : (s.dropTask k).tfPairAt = s.tfPairAt := (rfl)
@[simp] theorem dropTask_outScale (s : State) (k : Nat) : (s.dropTask k).outScale = s.outScale := (rfl)
@[simp] theorem dropTask_slotWrites (s : State) (k : Nat) : (s.dropTask k).slotWrites = s.slotWrites := (rfl)
@[simp] theorem dropTask_copyWrites (s : State) (k : Nat) : (s.dropTask k).copyWrites = s.copyWrites := (rfl)
@[simp] theorem dropTask_gens (s : State) (k : Nat) : (s.dropTask k).gens = s.gens := (rfl)
@[simp] theorem dropTask_fadeFrames (s : State) (k : Nat) : (s.dropTask k).fadeFrames = s.fadeFrames := (rfl)
@[simp] theorem dropTask_layerTs (s : State) (k : Nat) : (s.dropTask k).layerTs = s.layerTs := (rfl)
@[simp] theorem dropTask_tileLanes (s : State) (k : Nat) : (s.dropTask k).tileLanes = s.tileLanes := (rfl)
@[simp] theorem dropTask_spd (s : State) (k : Nat) : (s.dropTask k).spd = s.spd := (rfl)
@[simp] theorem dropTask_spdAnch (s : State) (k : Nat) : (s.dropTask k).spdAnch = s.spdAnch := (rfl)
@[simp] theorem dropTask_spdNew (s : State) (k : Nat) : (s.dropTask k).spdNew = s.spdNew := (rfl)
@[simp] theorem dropTask_spdTick (s : State) (k : Nat) : (s.dropTask k).spdTick = s.spdTick := (rfl)
@[simp] theorem dropTask_spdOut (s : State) (k : Nat) : (s.dropTask k).spdOut = s.spdOut := (rfl)
@[simp] theorem dropTask_snsGood (s : State) (k : Nat) : (s.dropTask k).snsGood = s.snsGood := (rfl)
@[simp] theorem dropTask_snsPair (s : State) (k : Nat) : (s.dropTask k).snsPair = s.snsPair := (rfl)
@[simp] theorem dropTask_dmx (s : State) (k : Nat) : (s.dropTask k).dmx = s.dmx := (rfl)
@[simp] theorem dropTask_macs (s : State) (k : Nat) : (s.dropTask k).macs = s.macs := (rfl)
@[simp] theorem dropTask_fpArmed (s : State) (k : Nat) : (s.dropTask k).fpArmed = s.fpArmed := (rfl)
@[simp] theorem dropTask_unv (s : State) (k : Nat) : (s.dropTask k).unv = s.unv := (rfl)
@[simp] theorem dropTask_tap (s : State) (k : Nat) : (s.dropTask k).tap = s.tap := (rfl)
@[simp] theorem dropTask_lgl (s : State) (k : Nat) : (s.dropTask k).lgl = s.lgl := (rfl)
@[simp] theorem dropTask_keys (s : State) (k : Nat) : (s.dropTask k).keys = s.keys := (rfl)
@[simp] theorem dropTask_upd (s : State) (k : Nat) : (s.dropTask k).upd = s.upd := (rfl)
@[simp] theorem dropTask_pwr (s : State) (k : Nat) : (s.dropTask k).pwr = s.pwr := (rfl)
@[simp] theorem dropTask_nrg (s : State) (k : Nat) : (s.dropTask k).nrg = s.nrg := (rfl)
@[simp] theorem dropTask_calib (s : State) (k : Nat) : (s.dropTask k).calib = s.calib := (rfl)
@[simp] theorem dropTask_chkRun (s : State) (k : Nat) : (s.dropTask k).chkRun = s.chkRun := (rfl)
@[simp] theorem dropTask_chnFwd (s : State) (k : Nat) : (s.dropTask k).chnFwd = s.chnFwd := (rfl)
@[simp] theorem dropTask_chnQ (s : State) (k : Nat) : (s.dropTask k).chnQ = s.chnQ := (rfl)
@[simp] theorem dropTask_chnLine (s : State) (k : Nat) : (s.dropTask k).chnLine = s.chnLine := (rfl)
@[simp] theorem dropTask_chnTill (s : State) (k : Nat) : (s.dropTask k).chnTill = s.chnTill := (rfl)
@[simp] theorem dropTask_chnWin (s : State) (k : Nat) : (s.dropTask k).chnWin = s.chnWin := (rfl)
@[simp] theorem dropTask_chnSlot (s : State) (k : Nat) : (s.dropTask k).chnSlot = s.chnSlot := (rfl)
@[simp] theorem dropTask_chnUsed (s : State) (k : Nat) : (s.dropTask k).chnUsed = s.chnUsed := (rfl)
@[simp] theorem dropTask_pair (s : State) (k : Nat) : (s.dropTask k).pair = s.pair := (rfl)
@[simp] theorem dropTask_spdPair (s : State) (k : Nat) : (s.dropTask k).spdPair = s.spdPair := (rfl)
@[simp] theorem dropTask_committedNs (s : State) (k : Nat) : (s.dropTask k).committedNs = s.committedNs := (rfl)
@[simp] theorem dropTask_failedUnits (s : State) (k : Nat) : (s.dropTask k).failedUnits = s.failedUnits := (rfl)
@[simp] theorem dropTask_lanesOut (s : State) (k : Nat) : (s.dropTask k).lanesOut = s.lanesOut := (rfl)
@[simp] theorem dropTask_swapsDue (s : State) (k : Nat) : (s.dropTask k).swapsDue = s.swapsDue := (rfl)
@[simp] theorem dropTask_nvsWear (s : State) (k : Nat) : (s.dropTask k).nvsWear = s.nvsWear := (rfl)

@[simp] theorem setFifo_pending (s : State) (n : Nat) (x : Fifo) : (s.setFifo n x).pending = s.pending := (rfl)
@[simp] theorem setFifo_now (s : State) (n : Nat) (x : Fifo) : (s.setFifo n x).now = s.now := (rfl)
@[simp] theorem setFifo_sck (s : State) (n : Nat) (x : Fifo) : (s.setFifo n x).sck = s.sck := (rfl)
@[simp] theorem setFifo_fresh (s : State) (n : Nat) (x : Fifo) : (s.setFifo n x).fresh = s.fresh := (rfl)
@[simp] theorem setFifo_regs (s : State) (n : Nat) (x : Fifo) : (s.setFifo n x).regs = s.regs := (rfl)
@[simp] theorem setFifo_act (s : State) (n : Nat) (x : Fifo) : (s.setFifo n x).act = s.act := (rfl)
@[simp] theorem setFifo_taken (s : State) (n : Nat) (x : Fifo) : (s.setFifo n x).taken = s.taken := (rfl)
@[simp] theorem setFifo_commits (s : State) (n : Nat) (x : Fifo) : (s.setFifo n x).commits = s.commits := (rfl)
@[simp] theorem setFifo_writeNo (s : State) (n : Nat) (x : Fifo) : (s.setFifo n x).writeNo = s.writeNo := (rfl)
@[simp] theorem setFifo_shadowNo (s : State) (n : Nat) (x : Fifo) : (s.setFifo n x).shadowNo = s.shadowNo := (rfl)
@[simp] theorem setFifo_mem (s : State) (n : Nat) (x : Fifo) : (s.setFifo n x).mem = s.mem := (rfl)
@[simp] theorem setFifo_ecc (s : State) (n : Nat) (x : Fifo) : (s.setFifo n x).ecc = s.ecc := (rfl)
@[simp] theorem setFifo_tsuAcc (s : State) (n : Nat) (x : Fifo) : (s.setFifo n x).tsuAcc = s.tsuAcc := (rfl)
@[simp] theorem setFifo_tsuHi (s : State) (n : Nat) (x : Fifo) : (s.setFifo n x).tsuHi = s.tsuHi := (rfl)
@[simp] theorem setFifo_tsuHist (s : State) (n : Nat) (x : Fifo) : (s.setFifo n x).tsuHist = s.tsuHist := (rfl)
@[simp] theorem setFifo_vents (s : State) (n : Nat) (x : Fifo) : (s.setFifo n x).vents = s.vents := (rfl)
@[simp] theorem setFifo_craters (s : State) (n : Nat) (x : Fifo) : (s.setFifo n x).craters = s.craters := (rfl)
@[simp] theorem setFifo_tasks (s : State) (n : Nat) (x : Fifo) : (s.setFifo n x).tasks = s.tasks := (rfl)
@[simp] theorem setFifo_seqs (s : State) (n : Nat) (x : Fifo) : (s.setFifo n x).seqs = s.seqs := (rfl)
@[simp] theorem setFifo_cals (s : State) (n : Nat) (x : Fifo) : (s.setFifo n x).cals = s.cals := (rfl)
@[simp] theorem setFifo_dies (s : State) (n : Nat) (x : Fifo) : (s.setFifo n x).dies = s.dies := (rfl)
@[simp] theorem setFifo_gates (s : State) (n : Nat) (x : Fifo) : (s.setFifo n x).gates = s.gates := (rfl)
@[simp] theorem setFifo_cores (s : State) (n : Nat) (x : Fifo) : (s.setFifo n x).cores = s.cores := (rfl)
@[simp] theorem setFifo_ticketNo (s : State) (n : Nat) (x : Fifo) : (s.setFifo n x).ticketNo = s.ticketNo := (rfl)
@[simp] theorem setFifo_outTaken (s : State) (n : Nat) (x : Fifo) : (s.setFifo n x).outTaken = s.outTaken := (rfl)
@[simp] theorem setFifo_relTaken (s : State) (n : Nat) (x : Fifo) : (s.setFifo n x).relTaken = s.relTaken := (rfl)
@[simp] theorem setFifo_chans (s : State) (n : Nat) (x : Fifo) : (s.setFifo n x).chans = s.chans := (rfl)
@[simp] theorem setFifo_targets (s : State) (n : Nat) (x : Fifo) : (s.setFifo n x).targets = s.targets := (rfl)
@[simp] theorem setFifo_icuPend (s : State) (n : Nat) (x : Fifo) : (s.setFifo n x).icuPend = s.icuPend := (rfl)
@[simp] theorem setFifo_icuSvc (s : State) (n : Nat) (x : Fifo) : (s.setFifo n x).icuSvc = s.icuSvc := (rfl)
@[simp] theorem setFifo_icuLine (s : State) (n : Nat) (x : Fifo) : (s.setFifo n x).icuLine = s.icuLine := (rfl)
@[simp] theorem setFifo_sinter (s : State) (n : Nat) (x : Fifo) : (s.setFifo n x).sinter = s.sinter := (rfl)
@[simp] theorem setFifo_springLatch (s : State) (n : Nat) (x : Fifo) : (s.setFifo n x).springLatch = s.springLatch := (rfl)
@[simp] theorem setFifo_flt (s : State) (n : Nat) (x : Fifo) : (s.setFifo n x).flt = s.flt := (rfl)
@[simp] theorem setFifo_fltNvs (s : State) (n : Nat) (x : Fifo) : (s.setFifo n x).fltNvs = s.fltNvs := (rfl)
@[simp] theorem setFifo_host (s : State) (n : Nat) (x : Fifo) : (s.setFifo n x).host = s.host := (rfl)
@[simp] theorem setFifo_hwFaults (s : State) (n : Nat) (x : Fifo) : (s.setFifo n x).hwFaults = s.hwFaults := (rfl)
@[simp] theorem setFifo_hwchk (s : State) (n : Nat) (x : Fifo) : (s.setFifo n x).hwchk = s.hwchk := (rfl)
@[simp] theorem setFifo_dramReqs (s : State) (n : Nat) (x : Fifo) : (s.setFifo n x).dramReqs = s.dramReqs := (rfl)
@[simp] theorem setFifo_dramRef (s : State) (n : Nat) (x : Fifo) : (s.setFifo n x).dramRef = s.dramRef := (rfl)
@[simp] theorem setFifo_hostRead (s : State) (n : Nat) (x : Fifo) : (s.setFifo n x).hostRead = s.hostRead := (rfl)
@[simp] theorem setFifo_bgtOver (s : State) (n : Nat) (x : Fifo) : (s.setFifo n x).bgtOver = s.bgtOver := (rfl)
@[simp] theorem setFifo_bgtUnder (s : State) (n : Nat) (x : Fifo) : (s.setFifo n x).bgtUnder = s.bgtUnder := (rfl)
@[simp] theorem setFifo_snapReq (s : State) (n : Nat) (x : Fifo) : (s.setFifo n x).snapReq = s.snapReq := (rfl)
@[simp] theorem setFifo_capReq (s : State) (n : Nat) (x : Fifo) : (s.setFifo n x).capReq = s.capReq := (rfl)
@[simp] theorem setFifo_flkNo (s : State) (n : Nat) (x : Fifo) : (s.setFifo n x).flkNo = s.flkNo := (rfl)
@[simp] theorem setFifo_ratePend (s : State) (n : Nat) (x : Fifo) : (s.setFifo n x).ratePend = s.ratePend := (rfl)
@[simp] theorem setFifo_fsyncAt (s : State) (n : Nat) (x : Fifo) : (s.setFifo n x).fsyncAt = s.fsyncAt := (rfl)
@[simp] theorem setFifo_flkNext (s : State) (n : Nat) (x : Fifo) : (s.setFifo n x).flkNext = s.flkNext := (rfl)
@[simp] theorem setFifo_flkFired (s : State) (n : Nat) (x : Fifo) : (s.setFifo n x).flkFired = s.flkFired := (rfl)
@[simp] theorem setFifo_flkS (s : State) (n : Nat) (x : Fifo) : (s.setFifo n x).flkS = s.flkS := (rfl)
@[simp] theorem setFifo_lateNoted (s : State) (n : Nat) (x : Fifo) : (s.setFifo n x).lateNoted = s.lateNoted := (rfl)
@[simp] theorem setFifo_sealed (s : State) (n : Nat) (x : Fifo) : (s.setFifo n x).sealed = s.sealed := (rfl)
@[simp] theorem setFifo_sealHold (s : State) (n : Nat) (x : Fifo) : (s.setFifo n x).sealHold = s.sealHold := (rfl)
@[simp] theorem setFifo_fadeFc (s : State) (n : Nat) (x : Fifo) : (s.setFifo n x).fadeFc = s.fadeFc := (rfl)
@[simp] theorem setFifo_fadeTc (s : State) (n : Nat) (x : Fifo) : (s.setFifo n x).fadeTc = s.fadeTc := (rfl)
@[simp] theorem setFifo_notices (s : State) (n : Nat) (x : Fifo) : (s.setFifo n x).notices = s.notices := (rfl)
@[simp] theorem setFifo_peers (s : State) (n : Nat) (x : Fifo) : (s.setFifo n x).peers = s.peers := (rfl)
@[simp] theorem setFifo_chnOut (s : State) (n : Nat) (x : Fifo) : (s.setFifo n x).chnOut = s.chnOut := (rfl)
@[simp] theorem setFifo_chnAlive (s : State) (n : Nat) (x : Fifo) : (s.setFifo n x).chnAlive = s.chnAlive := (rfl)
@[simp] theorem setFifo_roleAt (s : State) (n : Nat) (x : Fifo) : (s.setFifo n x).roleAt = s.roleAt := (rfl)
@[simp] theorem setFifo_tbl (s : State) (n : Nat) (x : Fifo) : (s.setFifo n x).tbl = s.tbl := (rfl)
@[simp] theorem setFifo_bufs (s : State) (n : Nat) (x : Fifo) : (s.setFifo n x).bufs = s.bufs := (rfl)
@[simp] theorem setFifo_vid (s : State) (n : Nat) (x : Fifo) : (s.setFifo n x).vid = s.vid := (rfl)
@[simp] theorem setFifo_vidDrop (s : State) (n : Nat) (x : Fifo) : (s.setFifo n x).vidDrop = s.vidDrop := (rfl)
@[simp] theorem setFifo_layerStore (s : State) (n : Nat) (x : Fifo) : (s.setFifo n x).layerStore = s.layerStore := (rfl)
@[simp] theorem setFifo_lgvPrev (s : State) (n : Nat) (x : Fifo) : (s.setFifo n x).lgvPrev = s.lgvPrev := (rfl)
@[simp] theorem setFifo_lgvD (s : State) (n : Nat) (x : Fifo) : (s.setFifo n x).lgvD = s.lgvD := (rfl)
@[simp] theorem setFifo_tfFrames (s : State) (n : Nat) (x : Fifo) : (s.setFifo n x).tfFrames = s.tfFrames := (rfl)
@[simp] theorem setFifo_tfPair (s : State) (n : Nat) (x : Fifo) : (s.setFifo n x).tfPair = s.tfPair := (rfl)
@[simp] theorem setFifo_tfPairAt (s : State) (n : Nat) (x : Fifo) : (s.setFifo n x).tfPairAt = s.tfPairAt := (rfl)
@[simp] theorem setFifo_outScale (s : State) (n : Nat) (x : Fifo) : (s.setFifo n x).outScale = s.outScale := (rfl)
@[simp] theorem setFifo_slotWrites (s : State) (n : Nat) (x : Fifo) : (s.setFifo n x).slotWrites = s.slotWrites := (rfl)
@[simp] theorem setFifo_copyWrites (s : State) (n : Nat) (x : Fifo) : (s.setFifo n x).copyWrites = s.copyWrites := (rfl)
@[simp] theorem setFifo_gens (s : State) (n : Nat) (x : Fifo) : (s.setFifo n x).gens = s.gens := (rfl)
@[simp] theorem setFifo_fadeFrames (s : State) (n : Nat) (x : Fifo) : (s.setFifo n x).fadeFrames = s.fadeFrames := (rfl)
@[simp] theorem setFifo_layerTs (s : State) (n : Nat) (x : Fifo) : (s.setFifo n x).layerTs = s.layerTs := (rfl)
@[simp] theorem setFifo_tileLanes (s : State) (n : Nat) (x : Fifo) : (s.setFifo n x).tileLanes = s.tileLanes := (rfl)
@[simp] theorem setFifo_spd (s : State) (n : Nat) (x : Fifo) : (s.setFifo n x).spd = s.spd := (rfl)
@[simp] theorem setFifo_spdAnch (s : State) (n : Nat) (x : Fifo) : (s.setFifo n x).spdAnch = s.spdAnch := (rfl)
@[simp] theorem setFifo_spdNew (s : State) (n : Nat) (x : Fifo) : (s.setFifo n x).spdNew = s.spdNew := (rfl)
@[simp] theorem setFifo_spdTick (s : State) (n : Nat) (x : Fifo) : (s.setFifo n x).spdTick = s.spdTick := (rfl)
@[simp] theorem setFifo_spdOut (s : State) (n : Nat) (x : Fifo) : (s.setFifo n x).spdOut = s.spdOut := (rfl)
@[simp] theorem setFifo_snsGood (s : State) (n : Nat) (x : Fifo) : (s.setFifo n x).snsGood = s.snsGood := (rfl)
@[simp] theorem setFifo_snsPair (s : State) (n : Nat) (x : Fifo) : (s.setFifo n x).snsPair = s.snsPair := (rfl)
@[simp] theorem setFifo_dmx (s : State) (n : Nat) (x : Fifo) : (s.setFifo n x).dmx = s.dmx := (rfl)
@[simp] theorem setFifo_macs (s : State) (n : Nat) (x : Fifo) : (s.setFifo n x).macs = s.macs := (rfl)
@[simp] theorem setFifo_fpArmed (s : State) (n : Nat) (x : Fifo) : (s.setFifo n x).fpArmed = s.fpArmed := (rfl)
@[simp] theorem setFifo_unv (s : State) (n : Nat) (x : Fifo) : (s.setFifo n x).unv = s.unv := (rfl)
@[simp] theorem setFifo_tap (s : State) (n : Nat) (x : Fifo) : (s.setFifo n x).tap = s.tap := (rfl)
@[simp] theorem setFifo_lgl (s : State) (n : Nat) (x : Fifo) : (s.setFifo n x).lgl = s.lgl := (rfl)
@[simp] theorem setFifo_keys (s : State) (n : Nat) (x : Fifo) : (s.setFifo n x).keys = s.keys := (rfl)
@[simp] theorem setFifo_upd (s : State) (n : Nat) (x : Fifo) : (s.setFifo n x).upd = s.upd := (rfl)
@[simp] theorem setFifo_pwr (s : State) (n : Nat) (x : Fifo) : (s.setFifo n x).pwr = s.pwr := (rfl)
@[simp] theorem setFifo_nrg (s : State) (n : Nat) (x : Fifo) : (s.setFifo n x).nrg = s.nrg := (rfl)
@[simp] theorem setFifo_calib (s : State) (n : Nat) (x : Fifo) : (s.setFifo n x).calib = s.calib := (rfl)
@[simp] theorem setFifo_chkRun (s : State) (n : Nat) (x : Fifo) : (s.setFifo n x).chkRun = s.chkRun := (rfl)
@[simp] theorem setFifo_chnFwd (s : State) (n : Nat) (x : Fifo) : (s.setFifo n x).chnFwd = s.chnFwd := (rfl)
@[simp] theorem setFifo_chnQ (s : State) (n : Nat) (x : Fifo) : (s.setFifo n x).chnQ = s.chnQ := (rfl)
@[simp] theorem setFifo_chnLine (s : State) (n : Nat) (x : Fifo) : (s.setFifo n x).chnLine = s.chnLine := (rfl)
@[simp] theorem setFifo_chnTill (s : State) (n : Nat) (x : Fifo) : (s.setFifo n x).chnTill = s.chnTill := (rfl)
@[simp] theorem setFifo_chnWin (s : State) (n : Nat) (x : Fifo) : (s.setFifo n x).chnWin = s.chnWin := (rfl)
@[simp] theorem setFifo_chnSlot (s : State) (n : Nat) (x : Fifo) : (s.setFifo n x).chnSlot = s.chnSlot := (rfl)
@[simp] theorem setFifo_chnUsed (s : State) (n : Nat) (x : Fifo) : (s.setFifo n x).chnUsed = s.chnUsed := (rfl)
@[simp] theorem setFifo_pair (s : State) (n : Nat) (x : Fifo) : (s.setFifo n x).pair = s.pair := (rfl)
@[simp] theorem setFifo_spdPair (s : State) (n : Nat) (x : Fifo) : (s.setFifo n x).spdPair = s.spdPair := (rfl)
@[simp] theorem setFifo_committedNs (s : State) (n : Nat) (x : Fifo) : (s.setFifo n x).committedNs = s.committedNs := (rfl)
@[simp] theorem setFifo_failedUnits (s : State) (n : Nat) (x : Fifo) : (s.setFifo n x).failedUnits = s.failedUnits := (rfl)
@[simp] theorem setFifo_lanesOut (s : State) (n : Nat) (x : Fifo) : (s.setFifo n x).lanesOut = s.lanesOut := (rfl)
@[simp] theorem setFifo_swapsDue (s : State) (n : Nat) (x : Fifo) : (s.setFifo n x).swapsDue = s.swapsDue := (rfl)
@[simp] theorem setFifo_nvsWear (s : State) (n : Nat) (x : Fifo) : (s.setFifo n x).nvsWear = s.nvsWear := (rfl)

@[simp] theorem setChan_pending (s : State) (n : Nat) (x : Channel) : (s.setChan n x).pending = s.pending := (rfl)
@[simp] theorem setChan_now (s : State) (n : Nat) (x : Channel) : (s.setChan n x).now = s.now := (rfl)
@[simp] theorem setChan_sck (s : State) (n : Nat) (x : Channel) : (s.setChan n x).sck = s.sck := (rfl)
@[simp] theorem setChan_fresh (s : State) (n : Nat) (x : Channel) : (s.setChan n x).fresh = s.fresh := (rfl)
@[simp] theorem setChan_regs (s : State) (n : Nat) (x : Channel) : (s.setChan n x).regs = s.regs := (rfl)
@[simp] theorem setChan_act (s : State) (n : Nat) (x : Channel) : (s.setChan n x).act = s.act := (rfl)
@[simp] theorem setChan_taken (s : State) (n : Nat) (x : Channel) : (s.setChan n x).taken = s.taken := (rfl)
@[simp] theorem setChan_commits (s : State) (n : Nat) (x : Channel) : (s.setChan n x).commits = s.commits := (rfl)
@[simp] theorem setChan_writeNo (s : State) (n : Nat) (x : Channel) : (s.setChan n x).writeNo = s.writeNo := (rfl)
@[simp] theorem setChan_shadowNo (s : State) (n : Nat) (x : Channel) : (s.setChan n x).shadowNo = s.shadowNo := (rfl)
@[simp] theorem setChan_mem (s : State) (n : Nat) (x : Channel) : (s.setChan n x).mem = s.mem := (rfl)
@[simp] theorem setChan_ecc (s : State) (n : Nat) (x : Channel) : (s.setChan n x).ecc = s.ecc := (rfl)
@[simp] theorem setChan_tsuAcc (s : State) (n : Nat) (x : Channel) : (s.setChan n x).tsuAcc = s.tsuAcc := (rfl)
@[simp] theorem setChan_tsuHi (s : State) (n : Nat) (x : Channel) : (s.setChan n x).tsuHi = s.tsuHi := (rfl)
@[simp] theorem setChan_tsuHist (s : State) (n : Nat) (x : Channel) : (s.setChan n x).tsuHist = s.tsuHist := (rfl)
@[simp] theorem setChan_vents (s : State) (n : Nat) (x : Channel) : (s.setChan n x).vents = s.vents := (rfl)
@[simp] theorem setChan_craters (s : State) (n : Nat) (x : Channel) : (s.setChan n x).craters = s.craters := (rfl)
@[simp] theorem setChan_tasks (s : State) (n : Nat) (x : Channel) : (s.setChan n x).tasks = s.tasks := (rfl)
@[simp] theorem setChan_seqs (s : State) (n : Nat) (x : Channel) : (s.setChan n x).seqs = s.seqs := (rfl)
@[simp] theorem setChan_cals (s : State) (n : Nat) (x : Channel) : (s.setChan n x).cals = s.cals := (rfl)
@[simp] theorem setChan_dies (s : State) (n : Nat) (x : Channel) : (s.setChan n x).dies = s.dies := (rfl)
@[simp] theorem setChan_gates (s : State) (n : Nat) (x : Channel) : (s.setChan n x).gates = s.gates := (rfl)
@[simp] theorem setChan_cores (s : State) (n : Nat) (x : Channel) : (s.setChan n x).cores = s.cores := (rfl)
@[simp] theorem setChan_ticketNo (s : State) (n : Nat) (x : Channel) : (s.setChan n x).ticketNo = s.ticketNo := (rfl)
@[simp] theorem setChan_outTaken (s : State) (n : Nat) (x : Channel) : (s.setChan n x).outTaken = s.outTaken := (rfl)
@[simp] theorem setChan_relTaken (s : State) (n : Nat) (x : Channel) : (s.setChan n x).relTaken = s.relTaken := (rfl)
@[simp] theorem setChan_fifos (s : State) (n : Nat) (x : Channel) : (s.setChan n x).fifos = s.fifos := (rfl)
@[simp] theorem setChan_targets (s : State) (n : Nat) (x : Channel) : (s.setChan n x).targets = s.targets := (rfl)
@[simp] theorem setChan_icuPend (s : State) (n : Nat) (x : Channel) : (s.setChan n x).icuPend = s.icuPend := (rfl)
@[simp] theorem setChan_icuSvc (s : State) (n : Nat) (x : Channel) : (s.setChan n x).icuSvc = s.icuSvc := (rfl)
@[simp] theorem setChan_icuLine (s : State) (n : Nat) (x : Channel) : (s.setChan n x).icuLine = s.icuLine := (rfl)
@[simp] theorem setChan_sinter (s : State) (n : Nat) (x : Channel) : (s.setChan n x).sinter = s.sinter := (rfl)
@[simp] theorem setChan_springLatch (s : State) (n : Nat) (x : Channel) : (s.setChan n x).springLatch = s.springLatch := (rfl)
@[simp] theorem setChan_flt (s : State) (n : Nat) (x : Channel) : (s.setChan n x).flt = s.flt := (rfl)
@[simp] theorem setChan_fltNvs (s : State) (n : Nat) (x : Channel) : (s.setChan n x).fltNvs = s.fltNvs := (rfl)
@[simp] theorem setChan_host (s : State) (n : Nat) (x : Channel) : (s.setChan n x).host = s.host := (rfl)
@[simp] theorem setChan_hwFaults (s : State) (n : Nat) (x : Channel) : (s.setChan n x).hwFaults = s.hwFaults := (rfl)
@[simp] theorem setChan_hwchk (s : State) (n : Nat) (x : Channel) : (s.setChan n x).hwchk = s.hwchk := (rfl)
@[simp] theorem setChan_dramReqs (s : State) (n : Nat) (x : Channel) : (s.setChan n x).dramReqs = s.dramReqs := (rfl)
@[simp] theorem setChan_dramRef (s : State) (n : Nat) (x : Channel) : (s.setChan n x).dramRef = s.dramRef := (rfl)
@[simp] theorem setChan_hostRead (s : State) (n : Nat) (x : Channel) : (s.setChan n x).hostRead = s.hostRead := (rfl)
@[simp] theorem setChan_bgtOver (s : State) (n : Nat) (x : Channel) : (s.setChan n x).bgtOver = s.bgtOver := (rfl)
@[simp] theorem setChan_bgtUnder (s : State) (n : Nat) (x : Channel) : (s.setChan n x).bgtUnder = s.bgtUnder := (rfl)
@[simp] theorem setChan_snapReq (s : State) (n : Nat) (x : Channel) : (s.setChan n x).snapReq = s.snapReq := (rfl)
@[simp] theorem setChan_capReq (s : State) (n : Nat) (x : Channel) : (s.setChan n x).capReq = s.capReq := (rfl)
@[simp] theorem setChan_flkNo (s : State) (n : Nat) (x : Channel) : (s.setChan n x).flkNo = s.flkNo := (rfl)
@[simp] theorem setChan_ratePend (s : State) (n : Nat) (x : Channel) : (s.setChan n x).ratePend = s.ratePend := (rfl)
@[simp] theorem setChan_fsyncAt (s : State) (n : Nat) (x : Channel) : (s.setChan n x).fsyncAt = s.fsyncAt := (rfl)
@[simp] theorem setChan_flkNext (s : State) (n : Nat) (x : Channel) : (s.setChan n x).flkNext = s.flkNext := (rfl)
@[simp] theorem setChan_flkFired (s : State) (n : Nat) (x : Channel) : (s.setChan n x).flkFired = s.flkFired := (rfl)
@[simp] theorem setChan_flkS (s : State) (n : Nat) (x : Channel) : (s.setChan n x).flkS = s.flkS := (rfl)
@[simp] theorem setChan_lateNoted (s : State) (n : Nat) (x : Channel) : (s.setChan n x).lateNoted = s.lateNoted := (rfl)
@[simp] theorem setChan_sealed (s : State) (n : Nat) (x : Channel) : (s.setChan n x).sealed = s.sealed := (rfl)
@[simp] theorem setChan_sealHold (s : State) (n : Nat) (x : Channel) : (s.setChan n x).sealHold = s.sealHold := (rfl)
@[simp] theorem setChan_fadeFc (s : State) (n : Nat) (x : Channel) : (s.setChan n x).fadeFc = s.fadeFc := (rfl)
@[simp] theorem setChan_fadeTc (s : State) (n : Nat) (x : Channel) : (s.setChan n x).fadeTc = s.fadeTc := (rfl)
@[simp] theorem setChan_notices (s : State) (n : Nat) (x : Channel) : (s.setChan n x).notices = s.notices := (rfl)
@[simp] theorem setChan_peers (s : State) (n : Nat) (x : Channel) : (s.setChan n x).peers = s.peers := (rfl)
@[simp] theorem setChan_chnOut (s : State) (n : Nat) (x : Channel) : (s.setChan n x).chnOut = s.chnOut := (rfl)
@[simp] theorem setChan_chnAlive (s : State) (n : Nat) (x : Channel) : (s.setChan n x).chnAlive = s.chnAlive := (rfl)
@[simp] theorem setChan_roleAt (s : State) (n : Nat) (x : Channel) : (s.setChan n x).roleAt = s.roleAt := (rfl)
@[simp] theorem setChan_tbl (s : State) (n : Nat) (x : Channel) : (s.setChan n x).tbl = s.tbl := (rfl)
@[simp] theorem setChan_bufs (s : State) (n : Nat) (x : Channel) : (s.setChan n x).bufs = s.bufs := (rfl)
@[simp] theorem setChan_vid (s : State) (n : Nat) (x : Channel) : (s.setChan n x).vid = s.vid := (rfl)
@[simp] theorem setChan_vidDrop (s : State) (n : Nat) (x : Channel) : (s.setChan n x).vidDrop = s.vidDrop := (rfl)
@[simp] theorem setChan_layerStore (s : State) (n : Nat) (x : Channel) : (s.setChan n x).layerStore = s.layerStore := (rfl)
@[simp] theorem setChan_lgvPrev (s : State) (n : Nat) (x : Channel) : (s.setChan n x).lgvPrev = s.lgvPrev := (rfl)
@[simp] theorem setChan_lgvD (s : State) (n : Nat) (x : Channel) : (s.setChan n x).lgvD = s.lgvD := (rfl)
@[simp] theorem setChan_tfFrames (s : State) (n : Nat) (x : Channel) : (s.setChan n x).tfFrames = s.tfFrames := (rfl)
@[simp] theorem setChan_tfPair (s : State) (n : Nat) (x : Channel) : (s.setChan n x).tfPair = s.tfPair := (rfl)
@[simp] theorem setChan_tfPairAt (s : State) (n : Nat) (x : Channel) : (s.setChan n x).tfPairAt = s.tfPairAt := (rfl)
@[simp] theorem setChan_outScale (s : State) (n : Nat) (x : Channel) : (s.setChan n x).outScale = s.outScale := (rfl)
@[simp] theorem setChan_slotWrites (s : State) (n : Nat) (x : Channel) : (s.setChan n x).slotWrites = s.slotWrites := (rfl)
@[simp] theorem setChan_copyWrites (s : State) (n : Nat) (x : Channel) : (s.setChan n x).copyWrites = s.copyWrites := (rfl)
@[simp] theorem setChan_gens (s : State) (n : Nat) (x : Channel) : (s.setChan n x).gens = s.gens := (rfl)
@[simp] theorem setChan_fadeFrames (s : State) (n : Nat) (x : Channel) : (s.setChan n x).fadeFrames = s.fadeFrames := (rfl)
@[simp] theorem setChan_layerTs (s : State) (n : Nat) (x : Channel) : (s.setChan n x).layerTs = s.layerTs := (rfl)
@[simp] theorem setChan_tileLanes (s : State) (n : Nat) (x : Channel) : (s.setChan n x).tileLanes = s.tileLanes := (rfl)
@[simp] theorem setChan_spd (s : State) (n : Nat) (x : Channel) : (s.setChan n x).spd = s.spd := (rfl)
@[simp] theorem setChan_spdAnch (s : State) (n : Nat) (x : Channel) : (s.setChan n x).spdAnch = s.spdAnch := (rfl)
@[simp] theorem setChan_spdNew (s : State) (n : Nat) (x : Channel) : (s.setChan n x).spdNew = s.spdNew := (rfl)
@[simp] theorem setChan_spdTick (s : State) (n : Nat) (x : Channel) : (s.setChan n x).spdTick = s.spdTick := (rfl)
@[simp] theorem setChan_spdOut (s : State) (n : Nat) (x : Channel) : (s.setChan n x).spdOut = s.spdOut := (rfl)
@[simp] theorem setChan_snsGood (s : State) (n : Nat) (x : Channel) : (s.setChan n x).snsGood = s.snsGood := (rfl)
@[simp] theorem setChan_snsPair (s : State) (n : Nat) (x : Channel) : (s.setChan n x).snsPair = s.snsPair := (rfl)
@[simp] theorem setChan_dmx (s : State) (n : Nat) (x : Channel) : (s.setChan n x).dmx = s.dmx := (rfl)
@[simp] theorem setChan_macs (s : State) (n : Nat) (x : Channel) : (s.setChan n x).macs = s.macs := (rfl)
@[simp] theorem setChan_fpArmed (s : State) (n : Nat) (x : Channel) : (s.setChan n x).fpArmed = s.fpArmed := (rfl)
@[simp] theorem setChan_unv (s : State) (n : Nat) (x : Channel) : (s.setChan n x).unv = s.unv := (rfl)
@[simp] theorem setChan_tap (s : State) (n : Nat) (x : Channel) : (s.setChan n x).tap = s.tap := (rfl)
@[simp] theorem setChan_lgl (s : State) (n : Nat) (x : Channel) : (s.setChan n x).lgl = s.lgl := (rfl)
@[simp] theorem setChan_keys (s : State) (n : Nat) (x : Channel) : (s.setChan n x).keys = s.keys := (rfl)
@[simp] theorem setChan_upd (s : State) (n : Nat) (x : Channel) : (s.setChan n x).upd = s.upd := (rfl)
@[simp] theorem setChan_pwr (s : State) (n : Nat) (x : Channel) : (s.setChan n x).pwr = s.pwr := (rfl)
@[simp] theorem setChan_nrg (s : State) (n : Nat) (x : Channel) : (s.setChan n x).nrg = s.nrg := (rfl)
@[simp] theorem setChan_calib (s : State) (n : Nat) (x : Channel) : (s.setChan n x).calib = s.calib := (rfl)
@[simp] theorem setChan_chkRun (s : State) (n : Nat) (x : Channel) : (s.setChan n x).chkRun = s.chkRun := (rfl)
@[simp] theorem setChan_chnFwd (s : State) (n : Nat) (x : Channel) : (s.setChan n x).chnFwd = s.chnFwd := (rfl)
@[simp] theorem setChan_chnQ (s : State) (n : Nat) (x : Channel) : (s.setChan n x).chnQ = s.chnQ := (rfl)
@[simp] theorem setChan_chnLine (s : State) (n : Nat) (x : Channel) : (s.setChan n x).chnLine = s.chnLine := (rfl)
@[simp] theorem setChan_chnTill (s : State) (n : Nat) (x : Channel) : (s.setChan n x).chnTill = s.chnTill := (rfl)
@[simp] theorem setChan_chnWin (s : State) (n : Nat) (x : Channel) : (s.setChan n x).chnWin = s.chnWin := (rfl)
@[simp] theorem setChan_chnSlot (s : State) (n : Nat) (x : Channel) : (s.setChan n x).chnSlot = s.chnSlot := (rfl)
@[simp] theorem setChan_chnUsed (s : State) (n : Nat) (x : Channel) : (s.setChan n x).chnUsed = s.chnUsed := (rfl)
@[simp] theorem setChan_pair (s : State) (n : Nat) (x : Channel) : (s.setChan n x).pair = s.pair := (rfl)
@[simp] theorem setChan_spdPair (s : State) (n : Nat) (x : Channel) : (s.setChan n x).spdPair = s.spdPair := (rfl)
@[simp] theorem setChan_committedNs (s : State) (n : Nat) (x : Channel) : (s.setChan n x).committedNs = s.committedNs := (rfl)
@[simp] theorem setChan_failedUnits (s : State) (n : Nat) (x : Channel) : (s.setChan n x).failedUnits = s.failedUnits := (rfl)
@[simp] theorem setChan_lanesOut (s : State) (n : Nat) (x : Channel) : (s.setChan n x).lanesOut = s.lanesOut := (rfl)
@[simp] theorem setChan_swapsDue (s : State) (n : Nat) (x : Channel) : (s.setChan n x).swapsDue = s.swapsDue := (rfl)
@[simp] theorem setChan_nvsWear (s : State) (n : Nat) (x : Channel) : (s.setChan n x).nvsWear = s.nvsWear := (rfl)

@[simp] theorem setTarget_pending (s : State) (n : Nat) (x : IcuTarget) : (s.setTarget n x).pending = s.pending := (rfl)
@[simp] theorem setTarget_now (s : State) (n : Nat) (x : IcuTarget) : (s.setTarget n x).now = s.now := (rfl)
@[simp] theorem setTarget_sck (s : State) (n : Nat) (x : IcuTarget) : (s.setTarget n x).sck = s.sck := (rfl)
@[simp] theorem setTarget_fresh (s : State) (n : Nat) (x : IcuTarget) : (s.setTarget n x).fresh = s.fresh := (rfl)
@[simp] theorem setTarget_regs (s : State) (n : Nat) (x : IcuTarget) : (s.setTarget n x).regs = s.regs := (rfl)
@[simp] theorem setTarget_act (s : State) (n : Nat) (x : IcuTarget) : (s.setTarget n x).act = s.act := (rfl)
@[simp] theorem setTarget_taken (s : State) (n : Nat) (x : IcuTarget) : (s.setTarget n x).taken = s.taken := (rfl)
@[simp] theorem setTarget_commits (s : State) (n : Nat) (x : IcuTarget) : (s.setTarget n x).commits = s.commits := (rfl)
@[simp] theorem setTarget_writeNo (s : State) (n : Nat) (x : IcuTarget) : (s.setTarget n x).writeNo = s.writeNo := (rfl)
@[simp] theorem setTarget_shadowNo (s : State) (n : Nat) (x : IcuTarget) : (s.setTarget n x).shadowNo = s.shadowNo := (rfl)
@[simp] theorem setTarget_mem (s : State) (n : Nat) (x : IcuTarget) : (s.setTarget n x).mem = s.mem := (rfl)
@[simp] theorem setTarget_ecc (s : State) (n : Nat) (x : IcuTarget) : (s.setTarget n x).ecc = s.ecc := (rfl)
@[simp] theorem setTarget_tsuAcc (s : State) (n : Nat) (x : IcuTarget) : (s.setTarget n x).tsuAcc = s.tsuAcc := (rfl)
@[simp] theorem setTarget_tsuHi (s : State) (n : Nat) (x : IcuTarget) : (s.setTarget n x).tsuHi = s.tsuHi := (rfl)
@[simp] theorem setTarget_tsuHist (s : State) (n : Nat) (x : IcuTarget) : (s.setTarget n x).tsuHist = s.tsuHist := (rfl)
@[simp] theorem setTarget_vents (s : State) (n : Nat) (x : IcuTarget) : (s.setTarget n x).vents = s.vents := (rfl)
@[simp] theorem setTarget_craters (s : State) (n : Nat) (x : IcuTarget) : (s.setTarget n x).craters = s.craters := (rfl)
@[simp] theorem setTarget_tasks (s : State) (n : Nat) (x : IcuTarget) : (s.setTarget n x).tasks = s.tasks := (rfl)
@[simp] theorem setTarget_seqs (s : State) (n : Nat) (x : IcuTarget) : (s.setTarget n x).seqs = s.seqs := (rfl)
@[simp] theorem setTarget_cals (s : State) (n : Nat) (x : IcuTarget) : (s.setTarget n x).cals = s.cals := (rfl)
@[simp] theorem setTarget_dies (s : State) (n : Nat) (x : IcuTarget) : (s.setTarget n x).dies = s.dies := (rfl)
@[simp] theorem setTarget_gates (s : State) (n : Nat) (x : IcuTarget) : (s.setTarget n x).gates = s.gates := (rfl)
@[simp] theorem setTarget_cores (s : State) (n : Nat) (x : IcuTarget) : (s.setTarget n x).cores = s.cores := (rfl)
@[simp] theorem setTarget_ticketNo (s : State) (n : Nat) (x : IcuTarget) : (s.setTarget n x).ticketNo = s.ticketNo := (rfl)
@[simp] theorem setTarget_outTaken (s : State) (n : Nat) (x : IcuTarget) : (s.setTarget n x).outTaken = s.outTaken := (rfl)
@[simp] theorem setTarget_relTaken (s : State) (n : Nat) (x : IcuTarget) : (s.setTarget n x).relTaken = s.relTaken := (rfl)
@[simp] theorem setTarget_fifos (s : State) (n : Nat) (x : IcuTarget) : (s.setTarget n x).fifos = s.fifos := (rfl)
@[simp] theorem setTarget_chans (s : State) (n : Nat) (x : IcuTarget) : (s.setTarget n x).chans = s.chans := (rfl)
@[simp] theorem setTarget_icuPend (s : State) (n : Nat) (x : IcuTarget) : (s.setTarget n x).icuPend = s.icuPend := (rfl)
@[simp] theorem setTarget_icuSvc (s : State) (n : Nat) (x : IcuTarget) : (s.setTarget n x).icuSvc = s.icuSvc := (rfl)
@[simp] theorem setTarget_icuLine (s : State) (n : Nat) (x : IcuTarget) : (s.setTarget n x).icuLine = s.icuLine := (rfl)
@[simp] theorem setTarget_sinter (s : State) (n : Nat) (x : IcuTarget) : (s.setTarget n x).sinter = s.sinter := (rfl)
@[simp] theorem setTarget_springLatch (s : State) (n : Nat) (x : IcuTarget) : (s.setTarget n x).springLatch = s.springLatch := (rfl)
@[simp] theorem setTarget_flt (s : State) (n : Nat) (x : IcuTarget) : (s.setTarget n x).flt = s.flt := (rfl)
@[simp] theorem setTarget_fltNvs (s : State) (n : Nat) (x : IcuTarget) : (s.setTarget n x).fltNvs = s.fltNvs := (rfl)
@[simp] theorem setTarget_host (s : State) (n : Nat) (x : IcuTarget) : (s.setTarget n x).host = s.host := (rfl)
@[simp] theorem setTarget_hwFaults (s : State) (n : Nat) (x : IcuTarget) : (s.setTarget n x).hwFaults = s.hwFaults := (rfl)
@[simp] theorem setTarget_hwchk (s : State) (n : Nat) (x : IcuTarget) : (s.setTarget n x).hwchk = s.hwchk := (rfl)
@[simp] theorem setTarget_dramReqs (s : State) (n : Nat) (x : IcuTarget) : (s.setTarget n x).dramReqs = s.dramReqs := (rfl)
@[simp] theorem setTarget_dramRef (s : State) (n : Nat) (x : IcuTarget) : (s.setTarget n x).dramRef = s.dramRef := (rfl)
@[simp] theorem setTarget_hostRead (s : State) (n : Nat) (x : IcuTarget) : (s.setTarget n x).hostRead = s.hostRead := (rfl)
@[simp] theorem setTarget_bgtOver (s : State) (n : Nat) (x : IcuTarget) : (s.setTarget n x).bgtOver = s.bgtOver := (rfl)
@[simp] theorem setTarget_bgtUnder (s : State) (n : Nat) (x : IcuTarget) : (s.setTarget n x).bgtUnder = s.bgtUnder := (rfl)
@[simp] theorem setTarget_snapReq (s : State) (n : Nat) (x : IcuTarget) : (s.setTarget n x).snapReq = s.snapReq := (rfl)
@[simp] theorem setTarget_capReq (s : State) (n : Nat) (x : IcuTarget) : (s.setTarget n x).capReq = s.capReq := (rfl)
@[simp] theorem setTarget_flkNo (s : State) (n : Nat) (x : IcuTarget) : (s.setTarget n x).flkNo = s.flkNo := (rfl)
@[simp] theorem setTarget_ratePend (s : State) (n : Nat) (x : IcuTarget) : (s.setTarget n x).ratePend = s.ratePend := (rfl)
@[simp] theorem setTarget_fsyncAt (s : State) (n : Nat) (x : IcuTarget) : (s.setTarget n x).fsyncAt = s.fsyncAt := (rfl)
@[simp] theorem setTarget_flkNext (s : State) (n : Nat) (x : IcuTarget) : (s.setTarget n x).flkNext = s.flkNext := (rfl)
@[simp] theorem setTarget_flkFired (s : State) (n : Nat) (x : IcuTarget) : (s.setTarget n x).flkFired = s.flkFired := (rfl)
@[simp] theorem setTarget_flkS (s : State) (n : Nat) (x : IcuTarget) : (s.setTarget n x).flkS = s.flkS := (rfl)
@[simp] theorem setTarget_lateNoted (s : State) (n : Nat) (x : IcuTarget) : (s.setTarget n x).lateNoted = s.lateNoted := (rfl)
@[simp] theorem setTarget_sealed (s : State) (n : Nat) (x : IcuTarget) : (s.setTarget n x).sealed = s.sealed := (rfl)
@[simp] theorem setTarget_sealHold (s : State) (n : Nat) (x : IcuTarget) : (s.setTarget n x).sealHold = s.sealHold := (rfl)
@[simp] theorem setTarget_fadeFc (s : State) (n : Nat) (x : IcuTarget) : (s.setTarget n x).fadeFc = s.fadeFc := (rfl)
@[simp] theorem setTarget_fadeTc (s : State) (n : Nat) (x : IcuTarget) : (s.setTarget n x).fadeTc = s.fadeTc := (rfl)
@[simp] theorem setTarget_notices (s : State) (n : Nat) (x : IcuTarget) : (s.setTarget n x).notices = s.notices := (rfl)
@[simp] theorem setTarget_peers (s : State) (n : Nat) (x : IcuTarget) : (s.setTarget n x).peers = s.peers := (rfl)
@[simp] theorem setTarget_chnOut (s : State) (n : Nat) (x : IcuTarget) : (s.setTarget n x).chnOut = s.chnOut := (rfl)
@[simp] theorem setTarget_chnAlive (s : State) (n : Nat) (x : IcuTarget) : (s.setTarget n x).chnAlive = s.chnAlive := (rfl)
@[simp] theorem setTarget_roleAt (s : State) (n : Nat) (x : IcuTarget) : (s.setTarget n x).roleAt = s.roleAt := (rfl)
@[simp] theorem setTarget_tbl (s : State) (n : Nat) (x : IcuTarget) : (s.setTarget n x).tbl = s.tbl := (rfl)
@[simp] theorem setTarget_bufs (s : State) (n : Nat) (x : IcuTarget) : (s.setTarget n x).bufs = s.bufs := (rfl)
@[simp] theorem setTarget_vid (s : State) (n : Nat) (x : IcuTarget) : (s.setTarget n x).vid = s.vid := (rfl)
@[simp] theorem setTarget_vidDrop (s : State) (n : Nat) (x : IcuTarget) : (s.setTarget n x).vidDrop = s.vidDrop := (rfl)
@[simp] theorem setTarget_layerStore (s : State) (n : Nat) (x : IcuTarget) : (s.setTarget n x).layerStore = s.layerStore := (rfl)
@[simp] theorem setTarget_lgvPrev (s : State) (n : Nat) (x : IcuTarget) : (s.setTarget n x).lgvPrev = s.lgvPrev := (rfl)
@[simp] theorem setTarget_lgvD (s : State) (n : Nat) (x : IcuTarget) : (s.setTarget n x).lgvD = s.lgvD := (rfl)
@[simp] theorem setTarget_tfFrames (s : State) (n : Nat) (x : IcuTarget) : (s.setTarget n x).tfFrames = s.tfFrames := (rfl)
@[simp] theorem setTarget_tfPair (s : State) (n : Nat) (x : IcuTarget) : (s.setTarget n x).tfPair = s.tfPair := (rfl)
@[simp] theorem setTarget_tfPairAt (s : State) (n : Nat) (x : IcuTarget) : (s.setTarget n x).tfPairAt = s.tfPairAt := (rfl)
@[simp] theorem setTarget_outScale (s : State) (n : Nat) (x : IcuTarget) : (s.setTarget n x).outScale = s.outScale := (rfl)
@[simp] theorem setTarget_slotWrites (s : State) (n : Nat) (x : IcuTarget) : (s.setTarget n x).slotWrites = s.slotWrites := (rfl)
@[simp] theorem setTarget_copyWrites (s : State) (n : Nat) (x : IcuTarget) : (s.setTarget n x).copyWrites = s.copyWrites := (rfl)
@[simp] theorem setTarget_gens (s : State) (n : Nat) (x : IcuTarget) : (s.setTarget n x).gens = s.gens := (rfl)
@[simp] theorem setTarget_fadeFrames (s : State) (n : Nat) (x : IcuTarget) : (s.setTarget n x).fadeFrames = s.fadeFrames := (rfl)
@[simp] theorem setTarget_layerTs (s : State) (n : Nat) (x : IcuTarget) : (s.setTarget n x).layerTs = s.layerTs := (rfl)
@[simp] theorem setTarget_tileLanes (s : State) (n : Nat) (x : IcuTarget) : (s.setTarget n x).tileLanes = s.tileLanes := (rfl)
@[simp] theorem setTarget_spd (s : State) (n : Nat) (x : IcuTarget) : (s.setTarget n x).spd = s.spd := (rfl)
@[simp] theorem setTarget_spdAnch (s : State) (n : Nat) (x : IcuTarget) : (s.setTarget n x).spdAnch = s.spdAnch := (rfl)
@[simp] theorem setTarget_spdNew (s : State) (n : Nat) (x : IcuTarget) : (s.setTarget n x).spdNew = s.spdNew := (rfl)
@[simp] theorem setTarget_spdTick (s : State) (n : Nat) (x : IcuTarget) : (s.setTarget n x).spdTick = s.spdTick := (rfl)
@[simp] theorem setTarget_spdOut (s : State) (n : Nat) (x : IcuTarget) : (s.setTarget n x).spdOut = s.spdOut := (rfl)
@[simp] theorem setTarget_snsGood (s : State) (n : Nat) (x : IcuTarget) : (s.setTarget n x).snsGood = s.snsGood := (rfl)
@[simp] theorem setTarget_snsPair (s : State) (n : Nat) (x : IcuTarget) : (s.setTarget n x).snsPair = s.snsPair := (rfl)
@[simp] theorem setTarget_dmx (s : State) (n : Nat) (x : IcuTarget) : (s.setTarget n x).dmx = s.dmx := (rfl)
@[simp] theorem setTarget_macs (s : State) (n : Nat) (x : IcuTarget) : (s.setTarget n x).macs = s.macs := (rfl)
@[simp] theorem setTarget_fpArmed (s : State) (n : Nat) (x : IcuTarget) : (s.setTarget n x).fpArmed = s.fpArmed := (rfl)
@[simp] theorem setTarget_unv (s : State) (n : Nat) (x : IcuTarget) : (s.setTarget n x).unv = s.unv := (rfl)
@[simp] theorem setTarget_tap (s : State) (n : Nat) (x : IcuTarget) : (s.setTarget n x).tap = s.tap := (rfl)
@[simp] theorem setTarget_lgl (s : State) (n : Nat) (x : IcuTarget) : (s.setTarget n x).lgl = s.lgl := (rfl)
@[simp] theorem setTarget_keys (s : State) (n : Nat) (x : IcuTarget) : (s.setTarget n x).keys = s.keys := (rfl)
@[simp] theorem setTarget_upd (s : State) (n : Nat) (x : IcuTarget) : (s.setTarget n x).upd = s.upd := (rfl)
@[simp] theorem setTarget_pwr (s : State) (n : Nat) (x : IcuTarget) : (s.setTarget n x).pwr = s.pwr := (rfl)
@[simp] theorem setTarget_nrg (s : State) (n : Nat) (x : IcuTarget) : (s.setTarget n x).nrg = s.nrg := (rfl)
@[simp] theorem setTarget_calib (s : State) (n : Nat) (x : IcuTarget) : (s.setTarget n x).calib = s.calib := (rfl)
@[simp] theorem setTarget_chkRun (s : State) (n : Nat) (x : IcuTarget) : (s.setTarget n x).chkRun = s.chkRun := (rfl)
@[simp] theorem setTarget_chnFwd (s : State) (n : Nat) (x : IcuTarget) : (s.setTarget n x).chnFwd = s.chnFwd := (rfl)
@[simp] theorem setTarget_chnQ (s : State) (n : Nat) (x : IcuTarget) : (s.setTarget n x).chnQ = s.chnQ := (rfl)
@[simp] theorem setTarget_chnLine (s : State) (n : Nat) (x : IcuTarget) : (s.setTarget n x).chnLine = s.chnLine := (rfl)
@[simp] theorem setTarget_chnTill (s : State) (n : Nat) (x : IcuTarget) : (s.setTarget n x).chnTill = s.chnTill := (rfl)
@[simp] theorem setTarget_chnWin (s : State) (n : Nat) (x : IcuTarget) : (s.setTarget n x).chnWin = s.chnWin := (rfl)
@[simp] theorem setTarget_chnSlot (s : State) (n : Nat) (x : IcuTarget) : (s.setTarget n x).chnSlot = s.chnSlot := (rfl)
@[simp] theorem setTarget_chnUsed (s : State) (n : Nat) (x : IcuTarget) : (s.setTarget n x).chnUsed = s.chnUsed := (rfl)
@[simp] theorem setTarget_pair (s : State) (n : Nat) (x : IcuTarget) : (s.setTarget n x).pair = s.pair := (rfl)
@[simp] theorem setTarget_spdPair (s : State) (n : Nat) (x : IcuTarget) : (s.setTarget n x).spdPair = s.spdPair := (rfl)
@[simp] theorem setTarget_committedNs (s : State) (n : Nat) (x : IcuTarget) : (s.setTarget n x).committedNs = s.committedNs := (rfl)
@[simp] theorem setTarget_failedUnits (s : State) (n : Nat) (x : IcuTarget) : (s.setTarget n x).failedUnits = s.failedUnits := (rfl)
@[simp] theorem setTarget_lanesOut (s : State) (n : Nat) (x : IcuTarget) : (s.setTarget n x).lanesOut = s.lanesOut := (rfl)
@[simp] theorem setTarget_swapsDue (s : State) (n : Nat) (x : IcuTarget) : (s.setTarget n x).swapsDue = s.swapsDue := (rfl)
@[simp] theorem setTarget_nvsWear (s : State) (n : Nat) (x : IcuTarget) : (s.setTarget n x).nvsWear = s.nvsWear := (rfl)

@[simp] theorem setHost_pending (s : State) (h : HostSide) : (s.setHost h).pending = s.pending := (rfl)
@[simp] theorem setHost_now (s : State) (h : HostSide) : (s.setHost h).now = s.now := (rfl)
@[simp] theorem setHost_sck (s : State) (h : HostSide) : (s.setHost h).sck = s.sck := (rfl)
@[simp] theorem setHost_fresh (s : State) (h : HostSide) : (s.setHost h).fresh = s.fresh := (rfl)
@[simp] theorem setHost_regs (s : State) (h : HostSide) : (s.setHost h).regs = s.regs := (rfl)
@[simp] theorem setHost_act (s : State) (h : HostSide) : (s.setHost h).act = s.act := (rfl)
@[simp] theorem setHost_taken (s : State) (h : HostSide) : (s.setHost h).taken = s.taken := (rfl)
@[simp] theorem setHost_commits (s : State) (h : HostSide) : (s.setHost h).commits = s.commits := (rfl)
@[simp] theorem setHost_writeNo (s : State) (h : HostSide) : (s.setHost h).writeNo = s.writeNo := (rfl)
@[simp] theorem setHost_shadowNo (s : State) (h : HostSide) : (s.setHost h).shadowNo = s.shadowNo := (rfl)
@[simp] theorem setHost_mem (s : State) (h : HostSide) : (s.setHost h).mem = s.mem := (rfl)
@[simp] theorem setHost_ecc (s : State) (h : HostSide) : (s.setHost h).ecc = s.ecc := (rfl)
@[simp] theorem setHost_tsuAcc (s : State) (h : HostSide) : (s.setHost h).tsuAcc = s.tsuAcc := (rfl)
@[simp] theorem setHost_tsuHi (s : State) (h : HostSide) : (s.setHost h).tsuHi = s.tsuHi := (rfl)
@[simp] theorem setHost_tsuHist (s : State) (h : HostSide) : (s.setHost h).tsuHist = s.tsuHist := (rfl)
@[simp] theorem setHost_vents (s : State) (h : HostSide) : (s.setHost h).vents = s.vents := (rfl)
@[simp] theorem setHost_craters (s : State) (h : HostSide) : (s.setHost h).craters = s.craters := (rfl)
@[simp] theorem setHost_tasks (s : State) (h : HostSide) : (s.setHost h).tasks = s.tasks := (rfl)
@[simp] theorem setHost_seqs (s : State) (h : HostSide) : (s.setHost h).seqs = s.seqs := (rfl)
@[simp] theorem setHost_cals (s : State) (h : HostSide) : (s.setHost h).cals = s.cals := (rfl)
@[simp] theorem setHost_dies (s : State) (h : HostSide) : (s.setHost h).dies = s.dies := (rfl)
@[simp] theorem setHost_gates (s : State) (h : HostSide) : (s.setHost h).gates = s.gates := (rfl)
@[simp] theorem setHost_cores (s : State) (h : HostSide) : (s.setHost h).cores = s.cores := (rfl)
@[simp] theorem setHost_ticketNo (s : State) (h : HostSide) : (s.setHost h).ticketNo = s.ticketNo := (rfl)
@[simp] theorem setHost_outTaken (s : State) (h : HostSide) : (s.setHost h).outTaken = s.outTaken := (rfl)
@[simp] theorem setHost_relTaken (s : State) (h : HostSide) : (s.setHost h).relTaken = s.relTaken := (rfl)
@[simp] theorem setHost_fifos (s : State) (h : HostSide) : (s.setHost h).fifos = s.fifos := (rfl)
@[simp] theorem setHost_chans (s : State) (h : HostSide) : (s.setHost h).chans = s.chans := (rfl)
@[simp] theorem setHost_targets (s : State) (h : HostSide) : (s.setHost h).targets = s.targets := (rfl)
@[simp] theorem setHost_icuPend (s : State) (h : HostSide) : (s.setHost h).icuPend = s.icuPend := (rfl)
@[simp] theorem setHost_icuSvc (s : State) (h : HostSide) : (s.setHost h).icuSvc = s.icuSvc := (rfl)
@[simp] theorem setHost_icuLine (s : State) (h : HostSide) : (s.setHost h).icuLine = s.icuLine := (rfl)
@[simp] theorem setHost_sinter (s : State) (h : HostSide) : (s.setHost h).sinter = s.sinter := (rfl)
@[simp] theorem setHost_springLatch (s : State) (h : HostSide) : (s.setHost h).springLatch = s.springLatch := (rfl)
@[simp] theorem setHost_flt (s : State) (h : HostSide) : (s.setHost h).flt = s.flt := (rfl)
@[simp] theorem setHost_fltNvs (s : State) (h : HostSide) : (s.setHost h).fltNvs = s.fltNvs := (rfl)
@[simp] theorem setHost_hwFaults (s : State) (h : HostSide) : (s.setHost h).hwFaults = s.hwFaults := (rfl)
@[simp] theorem setHost_hwchk (s : State) (h : HostSide) : (s.setHost h).hwchk = s.hwchk := (rfl)
@[simp] theorem setHost_dramReqs (s : State) (h : HostSide) : (s.setHost h).dramReqs = s.dramReqs := (rfl)
@[simp] theorem setHost_dramRef (s : State) (h : HostSide) : (s.setHost h).dramRef = s.dramRef := (rfl)
@[simp] theorem setHost_hostRead (s : State) (h : HostSide) : (s.setHost h).hostRead = s.hostRead := (rfl)
@[simp] theorem setHost_bgtOver (s : State) (h : HostSide) : (s.setHost h).bgtOver = s.bgtOver := (rfl)
@[simp] theorem setHost_bgtUnder (s : State) (h : HostSide) : (s.setHost h).bgtUnder = s.bgtUnder := (rfl)
@[simp] theorem setHost_snapReq (s : State) (h : HostSide) : (s.setHost h).snapReq = s.snapReq := (rfl)
@[simp] theorem setHost_capReq (s : State) (h : HostSide) : (s.setHost h).capReq = s.capReq := (rfl)
@[simp] theorem setHost_flkNo (s : State) (h : HostSide) : (s.setHost h).flkNo = s.flkNo := (rfl)
@[simp] theorem setHost_ratePend (s : State) (h : HostSide) : (s.setHost h).ratePend = s.ratePend := (rfl)
@[simp] theorem setHost_fsyncAt (s : State) (h : HostSide) : (s.setHost h).fsyncAt = s.fsyncAt := (rfl)
@[simp] theorem setHost_flkNext (s : State) (h : HostSide) : (s.setHost h).flkNext = s.flkNext := (rfl)
@[simp] theorem setHost_flkFired (s : State) (h : HostSide) : (s.setHost h).flkFired = s.flkFired := (rfl)
@[simp] theorem setHost_flkS (s : State) (h : HostSide) : (s.setHost h).flkS = s.flkS := (rfl)
@[simp] theorem setHost_lateNoted (s : State) (h : HostSide) : (s.setHost h).lateNoted = s.lateNoted := (rfl)
@[simp] theorem setHost_sealed (s : State) (h : HostSide) : (s.setHost h).sealed = s.sealed := (rfl)
@[simp] theorem setHost_sealHold (s : State) (h : HostSide) : (s.setHost h).sealHold = s.sealHold := (rfl)
@[simp] theorem setHost_fadeFc (s : State) (h : HostSide) : (s.setHost h).fadeFc = s.fadeFc := (rfl)
@[simp] theorem setHost_fadeTc (s : State) (h : HostSide) : (s.setHost h).fadeTc = s.fadeTc := (rfl)
@[simp] theorem setHost_notices (s : State) (h : HostSide) : (s.setHost h).notices = s.notices := (rfl)
@[simp] theorem setHost_peers (s : State) (h : HostSide) : (s.setHost h).peers = s.peers := (rfl)
@[simp] theorem setHost_chnOut (s : State) (h : HostSide) : (s.setHost h).chnOut = s.chnOut := (rfl)
@[simp] theorem setHost_chnAlive (s : State) (h : HostSide) : (s.setHost h).chnAlive = s.chnAlive := (rfl)
@[simp] theorem setHost_roleAt (s : State) (h : HostSide) : (s.setHost h).roleAt = s.roleAt := (rfl)
@[simp] theorem setHost_tbl (s : State) (h : HostSide) : (s.setHost h).tbl = s.tbl := (rfl)
@[simp] theorem setHost_bufs (s : State) (h : HostSide) : (s.setHost h).bufs = s.bufs := (rfl)
@[simp] theorem setHost_vid (s : State) (h : HostSide) : (s.setHost h).vid = s.vid := (rfl)
@[simp] theorem setHost_vidDrop (s : State) (h : HostSide) : (s.setHost h).vidDrop = s.vidDrop := (rfl)
@[simp] theorem setHost_layerStore (s : State) (h : HostSide) : (s.setHost h).layerStore = s.layerStore := (rfl)
@[simp] theorem setHost_lgvPrev (s : State) (h : HostSide) : (s.setHost h).lgvPrev = s.lgvPrev := (rfl)
@[simp] theorem setHost_lgvD (s : State) (h : HostSide) : (s.setHost h).lgvD = s.lgvD := (rfl)
@[simp] theorem setHost_tfFrames (s : State) (h : HostSide) : (s.setHost h).tfFrames = s.tfFrames := (rfl)
@[simp] theorem setHost_tfPair (s : State) (h : HostSide) : (s.setHost h).tfPair = s.tfPair := (rfl)
@[simp] theorem setHost_tfPairAt (s : State) (h : HostSide) : (s.setHost h).tfPairAt = s.tfPairAt := (rfl)
@[simp] theorem setHost_outScale (s : State) (h : HostSide) : (s.setHost h).outScale = s.outScale := (rfl)
@[simp] theorem setHost_slotWrites (s : State) (h : HostSide) : (s.setHost h).slotWrites = s.slotWrites := (rfl)
@[simp] theorem setHost_copyWrites (s : State) (h : HostSide) : (s.setHost h).copyWrites = s.copyWrites := (rfl)
@[simp] theorem setHost_gens (s : State) (h : HostSide) : (s.setHost h).gens = s.gens := (rfl)
@[simp] theorem setHost_fadeFrames (s : State) (h : HostSide) : (s.setHost h).fadeFrames = s.fadeFrames := (rfl)
@[simp] theorem setHost_layerTs (s : State) (h : HostSide) : (s.setHost h).layerTs = s.layerTs := (rfl)
@[simp] theorem setHost_tileLanes (s : State) (h : HostSide) : (s.setHost h).tileLanes = s.tileLanes := (rfl)
@[simp] theorem setHost_spd (s : State) (h : HostSide) : (s.setHost h).spd = s.spd := (rfl)
@[simp] theorem setHost_spdAnch (s : State) (h : HostSide) : (s.setHost h).spdAnch = s.spdAnch := (rfl)
@[simp] theorem setHost_spdNew (s : State) (h : HostSide) : (s.setHost h).spdNew = s.spdNew := (rfl)
@[simp] theorem setHost_spdTick (s : State) (h : HostSide) : (s.setHost h).spdTick = s.spdTick := (rfl)
@[simp] theorem setHost_spdOut (s : State) (h : HostSide) : (s.setHost h).spdOut = s.spdOut := (rfl)
@[simp] theorem setHost_snsGood (s : State) (h : HostSide) : (s.setHost h).snsGood = s.snsGood := (rfl)
@[simp] theorem setHost_snsPair (s : State) (h : HostSide) : (s.setHost h).snsPair = s.snsPair := (rfl)
@[simp] theorem setHost_dmx (s : State) (h : HostSide) : (s.setHost h).dmx = s.dmx := (rfl)
@[simp] theorem setHost_macs (s : State) (h : HostSide) : (s.setHost h).macs = s.macs := (rfl)
@[simp] theorem setHost_fpArmed (s : State) (h : HostSide) : (s.setHost h).fpArmed = s.fpArmed := (rfl)
@[simp] theorem setHost_unv (s : State) (h : HostSide) : (s.setHost h).unv = s.unv := (rfl)
@[simp] theorem setHost_tap (s : State) (h : HostSide) : (s.setHost h).tap = s.tap := (rfl)
@[simp] theorem setHost_lgl (s : State) (h : HostSide) : (s.setHost h).lgl = s.lgl := (rfl)
@[simp] theorem setHost_keys (s : State) (h : HostSide) : (s.setHost h).keys = s.keys := (rfl)
@[simp] theorem setHost_upd (s : State) (h : HostSide) : (s.setHost h).upd = s.upd := (rfl)
@[simp] theorem setHost_pwr (s : State) (h : HostSide) : (s.setHost h).pwr = s.pwr := (rfl)
@[simp] theorem setHost_nrg (s : State) (h : HostSide) : (s.setHost h).nrg = s.nrg := (rfl)
@[simp] theorem setHost_calib (s : State) (h : HostSide) : (s.setHost h).calib = s.calib := (rfl)
@[simp] theorem setHost_chkRun (s : State) (h : HostSide) : (s.setHost h).chkRun = s.chkRun := (rfl)
@[simp] theorem setHost_chnFwd (s : State) (h : HostSide) : (s.setHost h).chnFwd = s.chnFwd := (rfl)
@[simp] theorem setHost_chnQ (s : State) (h : HostSide) : (s.setHost h).chnQ = s.chnQ := (rfl)
@[simp] theorem setHost_chnLine (s : State) (h : HostSide) : (s.setHost h).chnLine = s.chnLine := (rfl)
@[simp] theorem setHost_chnTill (s : State) (h : HostSide) : (s.setHost h).chnTill = s.chnTill := (rfl)
@[simp] theorem setHost_chnWin (s : State) (h : HostSide) : (s.setHost h).chnWin = s.chnWin := (rfl)
@[simp] theorem setHost_chnSlot (s : State) (h : HostSide) : (s.setHost h).chnSlot = s.chnSlot := (rfl)
@[simp] theorem setHost_chnUsed (s : State) (h : HostSide) : (s.setHost h).chnUsed = s.chnUsed := (rfl)
@[simp] theorem setHost_pair (s : State) (h : HostSide) : (s.setHost h).pair = s.pair := (rfl)
@[simp] theorem setHost_spdPair (s : State) (h : HostSide) : (s.setHost h).spdPair = s.spdPair := (rfl)
@[simp] theorem setHost_committedNs (s : State) (h : HostSide) : (s.setHost h).committedNs = s.committedNs := (rfl)
@[simp] theorem setHost_failedUnits (s : State) (h : HostSide) : (s.setHost h).failedUnits = s.failedUnits := (rfl)
@[simp] theorem setHost_lanesOut (s : State) (h : HostSide) : (s.setHost h).lanesOut = s.lanesOut := (rfl)
@[simp] theorem setHost_swapsDue (s : State) (h : HostSide) : (s.setHost h).swapsDue = s.swapsDue := (rfl)
@[simp] theorem setHost_nvsWear (s : State) (h : HostSide) : (s.setHost h).nvsWear = s.nvsWear := (rfl)

@[simp] theorem setPairEng_pending (s : State) (p : PairEng) : (s.setPairEng p).pending = s.pending := (rfl)
@[simp] theorem setPairEng_now (s : State) (p : PairEng) : (s.setPairEng p).now = s.now := (rfl)
@[simp] theorem setPairEng_sck (s : State) (p : PairEng) : (s.setPairEng p).sck = s.sck := (rfl)
@[simp] theorem setPairEng_fresh (s : State) (p : PairEng) : (s.setPairEng p).fresh = s.fresh := (rfl)
@[simp] theorem setPairEng_regs (s : State) (p : PairEng) : (s.setPairEng p).regs = s.regs := (rfl)
@[simp] theorem setPairEng_act (s : State) (p : PairEng) : (s.setPairEng p).act = s.act := (rfl)
@[simp] theorem setPairEng_taken (s : State) (p : PairEng) : (s.setPairEng p).taken = s.taken := (rfl)
@[simp] theorem setPairEng_commits (s : State) (p : PairEng) : (s.setPairEng p).commits = s.commits := (rfl)
@[simp] theorem setPairEng_writeNo (s : State) (p : PairEng) : (s.setPairEng p).writeNo = s.writeNo := (rfl)
@[simp] theorem setPairEng_shadowNo (s : State) (p : PairEng) : (s.setPairEng p).shadowNo = s.shadowNo := (rfl)
@[simp] theorem setPairEng_mem (s : State) (p : PairEng) : (s.setPairEng p).mem = s.mem := (rfl)
@[simp] theorem setPairEng_ecc (s : State) (p : PairEng) : (s.setPairEng p).ecc = s.ecc := (rfl)
@[simp] theorem setPairEng_tsuAcc (s : State) (p : PairEng) : (s.setPairEng p).tsuAcc = s.tsuAcc := (rfl)
@[simp] theorem setPairEng_tsuHi (s : State) (p : PairEng) : (s.setPairEng p).tsuHi = s.tsuHi := (rfl)
@[simp] theorem setPairEng_tsuHist (s : State) (p : PairEng) : (s.setPairEng p).tsuHist = s.tsuHist := (rfl)
@[simp] theorem setPairEng_vents (s : State) (p : PairEng) : (s.setPairEng p).vents = s.vents := (rfl)
@[simp] theorem setPairEng_craters (s : State) (p : PairEng) : (s.setPairEng p).craters = s.craters := (rfl)
@[simp] theorem setPairEng_tasks (s : State) (p : PairEng) : (s.setPairEng p).tasks = s.tasks := (rfl)
@[simp] theorem setPairEng_seqs (s : State) (p : PairEng) : (s.setPairEng p).seqs = s.seqs := (rfl)
@[simp] theorem setPairEng_cals (s : State) (p : PairEng) : (s.setPairEng p).cals = s.cals := (rfl)
@[simp] theorem setPairEng_dies (s : State) (p : PairEng) : (s.setPairEng p).dies = s.dies := (rfl)
@[simp] theorem setPairEng_gates (s : State) (p : PairEng) : (s.setPairEng p).gates = s.gates := (rfl)
@[simp] theorem setPairEng_cores (s : State) (p : PairEng) : (s.setPairEng p).cores = s.cores := (rfl)
@[simp] theorem setPairEng_ticketNo (s : State) (p : PairEng) : (s.setPairEng p).ticketNo = s.ticketNo := (rfl)
@[simp] theorem setPairEng_outTaken (s : State) (p : PairEng) : (s.setPairEng p).outTaken = s.outTaken := (rfl)
@[simp] theorem setPairEng_relTaken (s : State) (p : PairEng) : (s.setPairEng p).relTaken = s.relTaken := (rfl)
@[simp] theorem setPairEng_fifos (s : State) (p : PairEng) : (s.setPairEng p).fifos = s.fifos := (rfl)
@[simp] theorem setPairEng_chans (s : State) (p : PairEng) : (s.setPairEng p).chans = s.chans := (rfl)
@[simp] theorem setPairEng_targets (s : State) (p : PairEng) : (s.setPairEng p).targets = s.targets := (rfl)
@[simp] theorem setPairEng_icuPend (s : State) (p : PairEng) : (s.setPairEng p).icuPend = s.icuPend := (rfl)
@[simp] theorem setPairEng_icuSvc (s : State) (p : PairEng) : (s.setPairEng p).icuSvc = s.icuSvc := (rfl)
@[simp] theorem setPairEng_icuLine (s : State) (p : PairEng) : (s.setPairEng p).icuLine = s.icuLine := (rfl)
@[simp] theorem setPairEng_sinter (s : State) (p : PairEng) : (s.setPairEng p).sinter = s.sinter := (rfl)
@[simp] theorem setPairEng_springLatch (s : State) (p : PairEng) : (s.setPairEng p).springLatch = s.springLatch := (rfl)
@[simp] theorem setPairEng_flt (s : State) (p : PairEng) : (s.setPairEng p).flt = s.flt := (rfl)
@[simp] theorem setPairEng_fltNvs (s : State) (p : PairEng) : (s.setPairEng p).fltNvs = s.fltNvs := (rfl)
@[simp] theorem setPairEng_host (s : State) (p : PairEng) : (s.setPairEng p).host = s.host := (rfl)
@[simp] theorem setPairEng_hwFaults (s : State) (p : PairEng) : (s.setPairEng p).hwFaults = s.hwFaults := (rfl)
@[simp] theorem setPairEng_hwchk (s : State) (p : PairEng) : (s.setPairEng p).hwchk = s.hwchk := (rfl)
@[simp] theorem setPairEng_dramReqs (s : State) (p : PairEng) : (s.setPairEng p).dramReqs = s.dramReqs := (rfl)
@[simp] theorem setPairEng_dramRef (s : State) (p : PairEng) : (s.setPairEng p).dramRef = s.dramRef := (rfl)
@[simp] theorem setPairEng_hostRead (s : State) (p : PairEng) : (s.setPairEng p).hostRead = s.hostRead := (rfl)
@[simp] theorem setPairEng_bgtOver (s : State) (p : PairEng) : (s.setPairEng p).bgtOver = s.bgtOver := (rfl)
@[simp] theorem setPairEng_bgtUnder (s : State) (p : PairEng) : (s.setPairEng p).bgtUnder = s.bgtUnder := (rfl)
@[simp] theorem setPairEng_snapReq (s : State) (p : PairEng) : (s.setPairEng p).snapReq = s.snapReq := (rfl)
@[simp] theorem setPairEng_capReq (s : State) (p : PairEng) : (s.setPairEng p).capReq = s.capReq := (rfl)
@[simp] theorem setPairEng_flkNo (s : State) (p : PairEng) : (s.setPairEng p).flkNo = s.flkNo := (rfl)
@[simp] theorem setPairEng_ratePend (s : State) (p : PairEng) : (s.setPairEng p).ratePend = s.ratePend := (rfl)
@[simp] theorem setPairEng_fsyncAt (s : State) (p : PairEng) : (s.setPairEng p).fsyncAt = s.fsyncAt := (rfl)
@[simp] theorem setPairEng_flkNext (s : State) (p : PairEng) : (s.setPairEng p).flkNext = s.flkNext := (rfl)
@[simp] theorem setPairEng_flkFired (s : State) (p : PairEng) : (s.setPairEng p).flkFired = s.flkFired := (rfl)
@[simp] theorem setPairEng_flkS (s : State) (p : PairEng) : (s.setPairEng p).flkS = s.flkS := (rfl)
@[simp] theorem setPairEng_lateNoted (s : State) (p : PairEng) : (s.setPairEng p).lateNoted = s.lateNoted := (rfl)
@[simp] theorem setPairEng_sealed (s : State) (p : PairEng) : (s.setPairEng p).sealed = s.sealed := (rfl)
@[simp] theorem setPairEng_sealHold (s : State) (p : PairEng) : (s.setPairEng p).sealHold = s.sealHold := (rfl)
@[simp] theorem setPairEng_fadeFc (s : State) (p : PairEng) : (s.setPairEng p).fadeFc = s.fadeFc := (rfl)
@[simp] theorem setPairEng_fadeTc (s : State) (p : PairEng) : (s.setPairEng p).fadeTc = s.fadeTc := (rfl)
@[simp] theorem setPairEng_notices (s : State) (p : PairEng) : (s.setPairEng p).notices = s.notices := (rfl)
@[simp] theorem setPairEng_peers (s : State) (p : PairEng) : (s.setPairEng p).peers = s.peers := (rfl)
@[simp] theorem setPairEng_chnOut (s : State) (p : PairEng) : (s.setPairEng p).chnOut = s.chnOut := (rfl)
@[simp] theorem setPairEng_chnAlive (s : State) (p : PairEng) : (s.setPairEng p).chnAlive = s.chnAlive := (rfl)
@[simp] theorem setPairEng_roleAt (s : State) (p : PairEng) : (s.setPairEng p).roleAt = s.roleAt := (rfl)
@[simp] theorem setPairEng_tbl (s : State) (p : PairEng) : (s.setPairEng p).tbl = s.tbl := (rfl)
@[simp] theorem setPairEng_bufs (s : State) (p : PairEng) : (s.setPairEng p).bufs = s.bufs := (rfl)
@[simp] theorem setPairEng_vid (s : State) (p : PairEng) : (s.setPairEng p).vid = s.vid := (rfl)
@[simp] theorem setPairEng_vidDrop (s : State) (p : PairEng) : (s.setPairEng p).vidDrop = s.vidDrop := (rfl)
@[simp] theorem setPairEng_layerStore (s : State) (p : PairEng) : (s.setPairEng p).layerStore = s.layerStore := (rfl)
@[simp] theorem setPairEng_lgvPrev (s : State) (p : PairEng) : (s.setPairEng p).lgvPrev = s.lgvPrev := (rfl)
@[simp] theorem setPairEng_lgvD (s : State) (p : PairEng) : (s.setPairEng p).lgvD = s.lgvD := (rfl)
@[simp] theorem setPairEng_tfFrames (s : State) (p : PairEng) : (s.setPairEng p).tfFrames = s.tfFrames := (rfl)
@[simp] theorem setPairEng_tfPair (s : State) (p : PairEng) : (s.setPairEng p).tfPair = s.tfPair := (rfl)
@[simp] theorem setPairEng_tfPairAt (s : State) (p : PairEng) : (s.setPairEng p).tfPairAt = s.tfPairAt := (rfl)
@[simp] theorem setPairEng_outScale (s : State) (p : PairEng) : (s.setPairEng p).outScale = s.outScale := (rfl)
@[simp] theorem setPairEng_slotWrites (s : State) (p : PairEng) : (s.setPairEng p).slotWrites = s.slotWrites := (rfl)
@[simp] theorem setPairEng_copyWrites (s : State) (p : PairEng) : (s.setPairEng p).copyWrites = s.copyWrites := (rfl)
@[simp] theorem setPairEng_gens (s : State) (p : PairEng) : (s.setPairEng p).gens = s.gens := (rfl)
@[simp] theorem setPairEng_fadeFrames (s : State) (p : PairEng) : (s.setPairEng p).fadeFrames = s.fadeFrames := (rfl)
@[simp] theorem setPairEng_layerTs (s : State) (p : PairEng) : (s.setPairEng p).layerTs = s.layerTs := (rfl)
@[simp] theorem setPairEng_tileLanes (s : State) (p : PairEng) : (s.setPairEng p).tileLanes = s.tileLanes := (rfl)
@[simp] theorem setPairEng_spd (s : State) (p : PairEng) : (s.setPairEng p).spd = s.spd := (rfl)
@[simp] theorem setPairEng_spdAnch (s : State) (p : PairEng) : (s.setPairEng p).spdAnch = s.spdAnch := (rfl)
@[simp] theorem setPairEng_spdNew (s : State) (p : PairEng) : (s.setPairEng p).spdNew = s.spdNew := (rfl)
@[simp] theorem setPairEng_spdTick (s : State) (p : PairEng) : (s.setPairEng p).spdTick = s.spdTick := (rfl)
@[simp] theorem setPairEng_spdOut (s : State) (p : PairEng) : (s.setPairEng p).spdOut = s.spdOut := (rfl)
@[simp] theorem setPairEng_snsGood (s : State) (p : PairEng) : (s.setPairEng p).snsGood = s.snsGood := (rfl)
@[simp] theorem setPairEng_snsPair (s : State) (p : PairEng) : (s.setPairEng p).snsPair = s.snsPair := (rfl)
@[simp] theorem setPairEng_dmx (s : State) (p : PairEng) : (s.setPairEng p).dmx = s.dmx := (rfl)
@[simp] theorem setPairEng_macs (s : State) (p : PairEng) : (s.setPairEng p).macs = s.macs := (rfl)
@[simp] theorem setPairEng_fpArmed (s : State) (p : PairEng) : (s.setPairEng p).fpArmed = s.fpArmed := (rfl)
@[simp] theorem setPairEng_unv (s : State) (p : PairEng) : (s.setPairEng p).unv = s.unv := (rfl)
@[simp] theorem setPairEng_tap (s : State) (p : PairEng) : (s.setPairEng p).tap = s.tap := (rfl)
@[simp] theorem setPairEng_lgl (s : State) (p : PairEng) : (s.setPairEng p).lgl = s.lgl := (rfl)
@[simp] theorem setPairEng_keys (s : State) (p : PairEng) : (s.setPairEng p).keys = s.keys := (rfl)
@[simp] theorem setPairEng_upd (s : State) (p : PairEng) : (s.setPairEng p).upd = s.upd := (rfl)
@[simp] theorem setPairEng_pwr (s : State) (p : PairEng) : (s.setPairEng p).pwr = s.pwr := (rfl)
@[simp] theorem setPairEng_nrg (s : State) (p : PairEng) : (s.setPairEng p).nrg = s.nrg := (rfl)
@[simp] theorem setPairEng_calib (s : State) (p : PairEng) : (s.setPairEng p).calib = s.calib := (rfl)
@[simp] theorem setPairEng_chkRun (s : State) (p : PairEng) : (s.setPairEng p).chkRun = s.chkRun := (rfl)
@[simp] theorem setPairEng_chnFwd (s : State) (p : PairEng) : (s.setPairEng p).chnFwd = s.chnFwd := (rfl)
@[simp] theorem setPairEng_chnQ (s : State) (p : PairEng) : (s.setPairEng p).chnQ = s.chnQ := (rfl)
@[simp] theorem setPairEng_chnLine (s : State) (p : PairEng) : (s.setPairEng p).chnLine = s.chnLine := (rfl)
@[simp] theorem setPairEng_chnTill (s : State) (p : PairEng) : (s.setPairEng p).chnTill = s.chnTill := (rfl)
@[simp] theorem setPairEng_chnWin (s : State) (p : PairEng) : (s.setPairEng p).chnWin = s.chnWin := (rfl)
@[simp] theorem setPairEng_chnSlot (s : State) (p : PairEng) : (s.setPairEng p).chnSlot = s.chnSlot := (rfl)
@[simp] theorem setPairEng_chnUsed (s : State) (p : PairEng) : (s.setPairEng p).chnUsed = s.chnUsed := (rfl)
@[simp] theorem setPairEng_spdPair (s : State) (p : PairEng) : (s.setPairEng p).spdPair = s.spdPair := (rfl)
@[simp] theorem setPairEng_committedNs (s : State) (p : PairEng) : (s.setPairEng p).committedNs = s.committedNs := (rfl)
@[simp] theorem setPairEng_failedUnits (s : State) (p : PairEng) : (s.setPairEng p).failedUnits = s.failedUnits := (rfl)
@[simp] theorem setPairEng_lanesOut (s : State) (p : PairEng) : (s.setPairEng p).lanesOut = s.lanesOut := (rfl)
@[simp] theorem setPairEng_swapsDue (s : State) (p : PairEng) : (s.setPairEng p).swapsDue = s.swapsDue := (rfl)
@[simp] theorem setPairEng_nvsWear (s : State) (p : PairEng) : (s.setPairEng p).nvsWear = s.nvsWear := (rfl)

@[simp] theorem setKeys_pending (s : State) (k : KeyEng) : (s.setKeys k).pending = s.pending := (rfl)
@[simp] theorem setKeys_now (s : State) (k : KeyEng) : (s.setKeys k).now = s.now := (rfl)
@[simp] theorem setKeys_sck (s : State) (k : KeyEng) : (s.setKeys k).sck = s.sck := (rfl)
@[simp] theorem setKeys_fresh (s : State) (k : KeyEng) : (s.setKeys k).fresh = s.fresh := (rfl)
@[simp] theorem setKeys_regs (s : State) (k : KeyEng) : (s.setKeys k).regs = s.regs := (rfl)
@[simp] theorem setKeys_act (s : State) (k : KeyEng) : (s.setKeys k).act = s.act := (rfl)
@[simp] theorem setKeys_taken (s : State) (k : KeyEng) : (s.setKeys k).taken = s.taken := (rfl)
@[simp] theorem setKeys_commits (s : State) (k : KeyEng) : (s.setKeys k).commits = s.commits := (rfl)
@[simp] theorem setKeys_writeNo (s : State) (k : KeyEng) : (s.setKeys k).writeNo = s.writeNo := (rfl)
@[simp] theorem setKeys_shadowNo (s : State) (k : KeyEng) : (s.setKeys k).shadowNo = s.shadowNo := (rfl)
@[simp] theorem setKeys_mem (s : State) (k : KeyEng) : (s.setKeys k).mem = s.mem := (rfl)
@[simp] theorem setKeys_ecc (s : State) (k : KeyEng) : (s.setKeys k).ecc = s.ecc := (rfl)
@[simp] theorem setKeys_tsuAcc (s : State) (k : KeyEng) : (s.setKeys k).tsuAcc = s.tsuAcc := (rfl)
@[simp] theorem setKeys_tsuHi (s : State) (k : KeyEng) : (s.setKeys k).tsuHi = s.tsuHi := (rfl)
@[simp] theorem setKeys_tsuHist (s : State) (k : KeyEng) : (s.setKeys k).tsuHist = s.tsuHist := (rfl)
@[simp] theorem setKeys_vents (s : State) (k : KeyEng) : (s.setKeys k).vents = s.vents := (rfl)
@[simp] theorem setKeys_craters (s : State) (k : KeyEng) : (s.setKeys k).craters = s.craters := (rfl)
@[simp] theorem setKeys_tasks (s : State) (k : KeyEng) : (s.setKeys k).tasks = s.tasks := (rfl)
@[simp] theorem setKeys_seqs (s : State) (k : KeyEng) : (s.setKeys k).seqs = s.seqs := (rfl)
@[simp] theorem setKeys_cals (s : State) (k : KeyEng) : (s.setKeys k).cals = s.cals := (rfl)
@[simp] theorem setKeys_dies (s : State) (k : KeyEng) : (s.setKeys k).dies = s.dies := (rfl)
@[simp] theorem setKeys_gates (s : State) (k : KeyEng) : (s.setKeys k).gates = s.gates := (rfl)
@[simp] theorem setKeys_cores (s : State) (k : KeyEng) : (s.setKeys k).cores = s.cores := (rfl)
@[simp] theorem setKeys_ticketNo (s : State) (k : KeyEng) : (s.setKeys k).ticketNo = s.ticketNo := (rfl)
@[simp] theorem setKeys_outTaken (s : State) (k : KeyEng) : (s.setKeys k).outTaken = s.outTaken := (rfl)
@[simp] theorem setKeys_relTaken (s : State) (k : KeyEng) : (s.setKeys k).relTaken = s.relTaken := (rfl)
@[simp] theorem setKeys_fifos (s : State) (k : KeyEng) : (s.setKeys k).fifos = s.fifos := (rfl)
@[simp] theorem setKeys_chans (s : State) (k : KeyEng) : (s.setKeys k).chans = s.chans := (rfl)
@[simp] theorem setKeys_targets (s : State) (k : KeyEng) : (s.setKeys k).targets = s.targets := (rfl)
@[simp] theorem setKeys_icuPend (s : State) (k : KeyEng) : (s.setKeys k).icuPend = s.icuPend := (rfl)
@[simp] theorem setKeys_icuSvc (s : State) (k : KeyEng) : (s.setKeys k).icuSvc = s.icuSvc := (rfl)
@[simp] theorem setKeys_icuLine (s : State) (k : KeyEng) : (s.setKeys k).icuLine = s.icuLine := (rfl)
@[simp] theorem setKeys_sinter (s : State) (k : KeyEng) : (s.setKeys k).sinter = s.sinter := (rfl)
@[simp] theorem setKeys_springLatch (s : State) (k : KeyEng) : (s.setKeys k).springLatch = s.springLatch := (rfl)
@[simp] theorem setKeys_flt (s : State) (k : KeyEng) : (s.setKeys k).flt = s.flt := (rfl)
@[simp] theorem setKeys_fltNvs (s : State) (k : KeyEng) : (s.setKeys k).fltNvs = s.fltNvs := (rfl)
@[simp] theorem setKeys_host (s : State) (k : KeyEng) : (s.setKeys k).host = s.host := (rfl)
@[simp] theorem setKeys_hwFaults (s : State) (k : KeyEng) : (s.setKeys k).hwFaults = s.hwFaults := (rfl)
@[simp] theorem setKeys_hwchk (s : State) (k : KeyEng) : (s.setKeys k).hwchk = s.hwchk := (rfl)
@[simp] theorem setKeys_dramReqs (s : State) (k : KeyEng) : (s.setKeys k).dramReqs = s.dramReqs := (rfl)
@[simp] theorem setKeys_dramRef (s : State) (k : KeyEng) : (s.setKeys k).dramRef = s.dramRef := (rfl)
@[simp] theorem setKeys_hostRead (s : State) (k : KeyEng) : (s.setKeys k).hostRead = s.hostRead := (rfl)
@[simp] theorem setKeys_bgtOver (s : State) (k : KeyEng) : (s.setKeys k).bgtOver = s.bgtOver := (rfl)
@[simp] theorem setKeys_bgtUnder (s : State) (k : KeyEng) : (s.setKeys k).bgtUnder = s.bgtUnder := (rfl)
@[simp] theorem setKeys_snapReq (s : State) (k : KeyEng) : (s.setKeys k).snapReq = s.snapReq := (rfl)
@[simp] theorem setKeys_capReq (s : State) (k : KeyEng) : (s.setKeys k).capReq = s.capReq := (rfl)
@[simp] theorem setKeys_flkNo (s : State) (k : KeyEng) : (s.setKeys k).flkNo = s.flkNo := (rfl)
@[simp] theorem setKeys_ratePend (s : State) (k : KeyEng) : (s.setKeys k).ratePend = s.ratePend := (rfl)
@[simp] theorem setKeys_fsyncAt (s : State) (k : KeyEng) : (s.setKeys k).fsyncAt = s.fsyncAt := (rfl)
@[simp] theorem setKeys_flkNext (s : State) (k : KeyEng) : (s.setKeys k).flkNext = s.flkNext := (rfl)
@[simp] theorem setKeys_flkFired (s : State) (k : KeyEng) : (s.setKeys k).flkFired = s.flkFired := (rfl)
@[simp] theorem setKeys_flkS (s : State) (k : KeyEng) : (s.setKeys k).flkS = s.flkS := (rfl)
@[simp] theorem setKeys_lateNoted (s : State) (k : KeyEng) : (s.setKeys k).lateNoted = s.lateNoted := (rfl)
@[simp] theorem setKeys_sealed (s : State) (k : KeyEng) : (s.setKeys k).sealed = s.sealed := (rfl)
@[simp] theorem setKeys_sealHold (s : State) (k : KeyEng) : (s.setKeys k).sealHold = s.sealHold := (rfl)
@[simp] theorem setKeys_fadeFc (s : State) (k : KeyEng) : (s.setKeys k).fadeFc = s.fadeFc := (rfl)
@[simp] theorem setKeys_fadeTc (s : State) (k : KeyEng) : (s.setKeys k).fadeTc = s.fadeTc := (rfl)
@[simp] theorem setKeys_notices (s : State) (k : KeyEng) : (s.setKeys k).notices = s.notices := (rfl)
@[simp] theorem setKeys_peers (s : State) (k : KeyEng) : (s.setKeys k).peers = s.peers := (rfl)
@[simp] theorem setKeys_chnOut (s : State) (k : KeyEng) : (s.setKeys k).chnOut = s.chnOut := (rfl)
@[simp] theorem setKeys_chnAlive (s : State) (k : KeyEng) : (s.setKeys k).chnAlive = s.chnAlive := (rfl)
@[simp] theorem setKeys_roleAt (s : State) (k : KeyEng) : (s.setKeys k).roleAt = s.roleAt := (rfl)
@[simp] theorem setKeys_tbl (s : State) (k : KeyEng) : (s.setKeys k).tbl = s.tbl := (rfl)
@[simp] theorem setKeys_bufs (s : State) (k : KeyEng) : (s.setKeys k).bufs = s.bufs := (rfl)
@[simp] theorem setKeys_vid (s : State) (k : KeyEng) : (s.setKeys k).vid = s.vid := (rfl)
@[simp] theorem setKeys_vidDrop (s : State) (k : KeyEng) : (s.setKeys k).vidDrop = s.vidDrop := (rfl)
@[simp] theorem setKeys_layerStore (s : State) (k : KeyEng) : (s.setKeys k).layerStore = s.layerStore := (rfl)
@[simp] theorem setKeys_lgvPrev (s : State) (k : KeyEng) : (s.setKeys k).lgvPrev = s.lgvPrev := (rfl)
@[simp] theorem setKeys_lgvD (s : State) (k : KeyEng) : (s.setKeys k).lgvD = s.lgvD := (rfl)
@[simp] theorem setKeys_tfFrames (s : State) (k : KeyEng) : (s.setKeys k).tfFrames = s.tfFrames := (rfl)
@[simp] theorem setKeys_tfPair (s : State) (k : KeyEng) : (s.setKeys k).tfPair = s.tfPair := (rfl)
@[simp] theorem setKeys_tfPairAt (s : State) (k : KeyEng) : (s.setKeys k).tfPairAt = s.tfPairAt := (rfl)
@[simp] theorem setKeys_outScale (s : State) (k : KeyEng) : (s.setKeys k).outScale = s.outScale := (rfl)
@[simp] theorem setKeys_slotWrites (s : State) (k : KeyEng) : (s.setKeys k).slotWrites = s.slotWrites := (rfl)
@[simp] theorem setKeys_copyWrites (s : State) (k : KeyEng) : (s.setKeys k).copyWrites = s.copyWrites := (rfl)
@[simp] theorem setKeys_gens (s : State) (k : KeyEng) : (s.setKeys k).gens = s.gens := (rfl)
@[simp] theorem setKeys_fadeFrames (s : State) (k : KeyEng) : (s.setKeys k).fadeFrames = s.fadeFrames := (rfl)
@[simp] theorem setKeys_layerTs (s : State) (k : KeyEng) : (s.setKeys k).layerTs = s.layerTs := (rfl)
@[simp] theorem setKeys_tileLanes (s : State) (k : KeyEng) : (s.setKeys k).tileLanes = s.tileLanes := (rfl)
@[simp] theorem setKeys_spd (s : State) (k : KeyEng) : (s.setKeys k).spd = s.spd := (rfl)
@[simp] theorem setKeys_spdAnch (s : State) (k : KeyEng) : (s.setKeys k).spdAnch = s.spdAnch := (rfl)
@[simp] theorem setKeys_spdNew (s : State) (k : KeyEng) : (s.setKeys k).spdNew = s.spdNew := (rfl)
@[simp] theorem setKeys_spdTick (s : State) (k : KeyEng) : (s.setKeys k).spdTick = s.spdTick := (rfl)
@[simp] theorem setKeys_spdOut (s : State) (k : KeyEng) : (s.setKeys k).spdOut = s.spdOut := (rfl)
@[simp] theorem setKeys_snsGood (s : State) (k : KeyEng) : (s.setKeys k).snsGood = s.snsGood := (rfl)
@[simp] theorem setKeys_snsPair (s : State) (k : KeyEng) : (s.setKeys k).snsPair = s.snsPair := (rfl)
@[simp] theorem setKeys_dmx (s : State) (k : KeyEng) : (s.setKeys k).dmx = s.dmx := (rfl)
@[simp] theorem setKeys_macs (s : State) (k : KeyEng) : (s.setKeys k).macs = s.macs := (rfl)
@[simp] theorem setKeys_fpArmed (s : State) (k : KeyEng) : (s.setKeys k).fpArmed = s.fpArmed := (rfl)
@[simp] theorem setKeys_unv (s : State) (k : KeyEng) : (s.setKeys k).unv = s.unv := (rfl)
@[simp] theorem setKeys_tap (s : State) (k : KeyEng) : (s.setKeys k).tap = s.tap := (rfl)
@[simp] theorem setKeys_lgl (s : State) (k : KeyEng) : (s.setKeys k).lgl = s.lgl := (rfl)
@[simp] theorem setKeys_upd (s : State) (k : KeyEng) : (s.setKeys k).upd = s.upd := (rfl)
@[simp] theorem setKeys_pwr (s : State) (k : KeyEng) : (s.setKeys k).pwr = s.pwr := (rfl)
@[simp] theorem setKeys_nrg (s : State) (k : KeyEng) : (s.setKeys k).nrg = s.nrg := (rfl)
@[simp] theorem setKeys_calib (s : State) (k : KeyEng) : (s.setKeys k).calib = s.calib := (rfl)
@[simp] theorem setKeys_chkRun (s : State) (k : KeyEng) : (s.setKeys k).chkRun = s.chkRun := (rfl)
@[simp] theorem setKeys_chnFwd (s : State) (k : KeyEng) : (s.setKeys k).chnFwd = s.chnFwd := (rfl)
@[simp] theorem setKeys_chnQ (s : State) (k : KeyEng) : (s.setKeys k).chnQ = s.chnQ := (rfl)
@[simp] theorem setKeys_chnLine (s : State) (k : KeyEng) : (s.setKeys k).chnLine = s.chnLine := (rfl)
@[simp] theorem setKeys_chnTill (s : State) (k : KeyEng) : (s.setKeys k).chnTill = s.chnTill := (rfl)
@[simp] theorem setKeys_chnWin (s : State) (k : KeyEng) : (s.setKeys k).chnWin = s.chnWin := (rfl)
@[simp] theorem setKeys_chnSlot (s : State) (k : KeyEng) : (s.setKeys k).chnSlot = s.chnSlot := (rfl)
@[simp] theorem setKeys_chnUsed (s : State) (k : KeyEng) : (s.setKeys k).chnUsed = s.chnUsed := (rfl)
@[simp] theorem setKeys_pair (s : State) (k : KeyEng) : (s.setKeys k).pair = s.pair := (rfl)
@[simp] theorem setKeys_spdPair (s : State) (k : KeyEng) : (s.setKeys k).spdPair = s.spdPair := (rfl)
@[simp] theorem setKeys_committedNs (s : State) (k : KeyEng) : (s.setKeys k).committedNs = s.committedNs := (rfl)
@[simp] theorem setKeys_failedUnits (s : State) (k : KeyEng) : (s.setKeys k).failedUnits = s.failedUnits := (rfl)
@[simp] theorem setKeys_lanesOut (s : State) (k : KeyEng) : (s.setKeys k).lanesOut = s.lanesOut := (rfl)
@[simp] theorem setKeys_swapsDue (s : State) (k : KeyEng) : (s.setKeys k).swapsDue = s.swapsDue := (rfl)
@[simp] theorem setKeys_nvsWear (s : State) (k : KeyEng) : (s.setKeys k).nvsWear = s.nvsWear := (rfl)

@[simp] theorem setUpd_pending (s : State) (u : Upd) : (s.setUpd u).pending = s.pending := (rfl)
@[simp] theorem setUpd_now (s : State) (u : Upd) : (s.setUpd u).now = s.now := (rfl)
@[simp] theorem setUpd_sck (s : State) (u : Upd) : (s.setUpd u).sck = s.sck := (rfl)
@[simp] theorem setUpd_fresh (s : State) (u : Upd) : (s.setUpd u).fresh = s.fresh := (rfl)
@[simp] theorem setUpd_regs (s : State) (u : Upd) : (s.setUpd u).regs = s.regs := (rfl)
@[simp] theorem setUpd_act (s : State) (u : Upd) : (s.setUpd u).act = s.act := (rfl)
@[simp] theorem setUpd_taken (s : State) (u : Upd) : (s.setUpd u).taken = s.taken := (rfl)
@[simp] theorem setUpd_commits (s : State) (u : Upd) : (s.setUpd u).commits = s.commits := (rfl)
@[simp] theorem setUpd_writeNo (s : State) (u : Upd) : (s.setUpd u).writeNo = s.writeNo := (rfl)
@[simp] theorem setUpd_shadowNo (s : State) (u : Upd) : (s.setUpd u).shadowNo = s.shadowNo := (rfl)
@[simp] theorem setUpd_mem (s : State) (u : Upd) : (s.setUpd u).mem = s.mem := (rfl)
@[simp] theorem setUpd_ecc (s : State) (u : Upd) : (s.setUpd u).ecc = s.ecc := (rfl)
@[simp] theorem setUpd_tsuAcc (s : State) (u : Upd) : (s.setUpd u).tsuAcc = s.tsuAcc := (rfl)
@[simp] theorem setUpd_tsuHi (s : State) (u : Upd) : (s.setUpd u).tsuHi = s.tsuHi := (rfl)
@[simp] theorem setUpd_tsuHist (s : State) (u : Upd) : (s.setUpd u).tsuHist = s.tsuHist := (rfl)
@[simp] theorem setUpd_vents (s : State) (u : Upd) : (s.setUpd u).vents = s.vents := (rfl)
@[simp] theorem setUpd_craters (s : State) (u : Upd) : (s.setUpd u).craters = s.craters := (rfl)
@[simp] theorem setUpd_tasks (s : State) (u : Upd) : (s.setUpd u).tasks = s.tasks := (rfl)
@[simp] theorem setUpd_seqs (s : State) (u : Upd) : (s.setUpd u).seqs = s.seqs := (rfl)
@[simp] theorem setUpd_cals (s : State) (u : Upd) : (s.setUpd u).cals = s.cals := (rfl)
@[simp] theorem setUpd_dies (s : State) (u : Upd) : (s.setUpd u).dies = s.dies := (rfl)
@[simp] theorem setUpd_gates (s : State) (u : Upd) : (s.setUpd u).gates = s.gates := (rfl)
@[simp] theorem setUpd_cores (s : State) (u : Upd) : (s.setUpd u).cores = s.cores := (rfl)
@[simp] theorem setUpd_ticketNo (s : State) (u : Upd) : (s.setUpd u).ticketNo = s.ticketNo := (rfl)
@[simp] theorem setUpd_outTaken (s : State) (u : Upd) : (s.setUpd u).outTaken = s.outTaken := (rfl)
@[simp] theorem setUpd_relTaken (s : State) (u : Upd) : (s.setUpd u).relTaken = s.relTaken := (rfl)
@[simp] theorem setUpd_fifos (s : State) (u : Upd) : (s.setUpd u).fifos = s.fifos := (rfl)
@[simp] theorem setUpd_chans (s : State) (u : Upd) : (s.setUpd u).chans = s.chans := (rfl)
@[simp] theorem setUpd_targets (s : State) (u : Upd) : (s.setUpd u).targets = s.targets := (rfl)
@[simp] theorem setUpd_icuPend (s : State) (u : Upd) : (s.setUpd u).icuPend = s.icuPend := (rfl)
@[simp] theorem setUpd_icuSvc (s : State) (u : Upd) : (s.setUpd u).icuSvc = s.icuSvc := (rfl)
@[simp] theorem setUpd_icuLine (s : State) (u : Upd) : (s.setUpd u).icuLine = s.icuLine := (rfl)
@[simp] theorem setUpd_sinter (s : State) (u : Upd) : (s.setUpd u).sinter = s.sinter := (rfl)
@[simp] theorem setUpd_springLatch (s : State) (u : Upd) : (s.setUpd u).springLatch = s.springLatch := (rfl)
@[simp] theorem setUpd_flt (s : State) (u : Upd) : (s.setUpd u).flt = s.flt := (rfl)
@[simp] theorem setUpd_fltNvs (s : State) (u : Upd) : (s.setUpd u).fltNvs = s.fltNvs := (rfl)
@[simp] theorem setUpd_host (s : State) (u : Upd) : (s.setUpd u).host = s.host := (rfl)
@[simp] theorem setUpd_hwFaults (s : State) (u : Upd) : (s.setUpd u).hwFaults = s.hwFaults := (rfl)
@[simp] theorem setUpd_hwchk (s : State) (u : Upd) : (s.setUpd u).hwchk = s.hwchk := (rfl)
@[simp] theorem setUpd_dramReqs (s : State) (u : Upd) : (s.setUpd u).dramReqs = s.dramReqs := (rfl)
@[simp] theorem setUpd_dramRef (s : State) (u : Upd) : (s.setUpd u).dramRef = s.dramRef := (rfl)
@[simp] theorem setUpd_hostRead (s : State) (u : Upd) : (s.setUpd u).hostRead = s.hostRead := (rfl)
@[simp] theorem setUpd_bgtOver (s : State) (u : Upd) : (s.setUpd u).bgtOver = s.bgtOver := (rfl)
@[simp] theorem setUpd_bgtUnder (s : State) (u : Upd) : (s.setUpd u).bgtUnder = s.bgtUnder := (rfl)
@[simp] theorem setUpd_snapReq (s : State) (u : Upd) : (s.setUpd u).snapReq = s.snapReq := (rfl)
@[simp] theorem setUpd_capReq (s : State) (u : Upd) : (s.setUpd u).capReq = s.capReq := (rfl)
@[simp] theorem setUpd_flkNo (s : State) (u : Upd) : (s.setUpd u).flkNo = s.flkNo := (rfl)
@[simp] theorem setUpd_ratePend (s : State) (u : Upd) : (s.setUpd u).ratePend = s.ratePend := (rfl)
@[simp] theorem setUpd_fsyncAt (s : State) (u : Upd) : (s.setUpd u).fsyncAt = s.fsyncAt := (rfl)
@[simp] theorem setUpd_flkNext (s : State) (u : Upd) : (s.setUpd u).flkNext = s.flkNext := (rfl)
@[simp] theorem setUpd_flkFired (s : State) (u : Upd) : (s.setUpd u).flkFired = s.flkFired := (rfl)
@[simp] theorem setUpd_flkS (s : State) (u : Upd) : (s.setUpd u).flkS = s.flkS := (rfl)
@[simp] theorem setUpd_lateNoted (s : State) (u : Upd) : (s.setUpd u).lateNoted = s.lateNoted := (rfl)
@[simp] theorem setUpd_sealed (s : State) (u : Upd) : (s.setUpd u).sealed = s.sealed := (rfl)
@[simp] theorem setUpd_sealHold (s : State) (u : Upd) : (s.setUpd u).sealHold = s.sealHold := (rfl)
@[simp] theorem setUpd_fadeFc (s : State) (u : Upd) : (s.setUpd u).fadeFc = s.fadeFc := (rfl)
@[simp] theorem setUpd_fadeTc (s : State) (u : Upd) : (s.setUpd u).fadeTc = s.fadeTc := (rfl)
@[simp] theorem setUpd_notices (s : State) (u : Upd) : (s.setUpd u).notices = s.notices := (rfl)
@[simp] theorem setUpd_peers (s : State) (u : Upd) : (s.setUpd u).peers = s.peers := (rfl)
@[simp] theorem setUpd_chnOut (s : State) (u : Upd) : (s.setUpd u).chnOut = s.chnOut := (rfl)
@[simp] theorem setUpd_chnAlive (s : State) (u : Upd) : (s.setUpd u).chnAlive = s.chnAlive := (rfl)
@[simp] theorem setUpd_roleAt (s : State) (u : Upd) : (s.setUpd u).roleAt = s.roleAt := (rfl)
@[simp] theorem setUpd_tbl (s : State) (u : Upd) : (s.setUpd u).tbl = s.tbl := (rfl)
@[simp] theorem setUpd_bufs (s : State) (u : Upd) : (s.setUpd u).bufs = s.bufs := (rfl)
@[simp] theorem setUpd_vid (s : State) (u : Upd) : (s.setUpd u).vid = s.vid := (rfl)
@[simp] theorem setUpd_vidDrop (s : State) (u : Upd) : (s.setUpd u).vidDrop = s.vidDrop := (rfl)
@[simp] theorem setUpd_layerStore (s : State) (u : Upd) : (s.setUpd u).layerStore = s.layerStore := (rfl)
@[simp] theorem setUpd_lgvPrev (s : State) (u : Upd) : (s.setUpd u).lgvPrev = s.lgvPrev := (rfl)
@[simp] theorem setUpd_lgvD (s : State) (u : Upd) : (s.setUpd u).lgvD = s.lgvD := (rfl)
@[simp] theorem setUpd_tfFrames (s : State) (u : Upd) : (s.setUpd u).tfFrames = s.tfFrames := (rfl)
@[simp] theorem setUpd_tfPair (s : State) (u : Upd) : (s.setUpd u).tfPair = s.tfPair := (rfl)
@[simp] theorem setUpd_tfPairAt (s : State) (u : Upd) : (s.setUpd u).tfPairAt = s.tfPairAt := (rfl)
@[simp] theorem setUpd_outScale (s : State) (u : Upd) : (s.setUpd u).outScale = s.outScale := (rfl)
@[simp] theorem setUpd_slotWrites (s : State) (u : Upd) : (s.setUpd u).slotWrites = s.slotWrites := (rfl)
@[simp] theorem setUpd_copyWrites (s : State) (u : Upd) : (s.setUpd u).copyWrites = s.copyWrites := (rfl)
@[simp] theorem setUpd_gens (s : State) (u : Upd) : (s.setUpd u).gens = s.gens := (rfl)
@[simp] theorem setUpd_fadeFrames (s : State) (u : Upd) : (s.setUpd u).fadeFrames = s.fadeFrames := (rfl)
@[simp] theorem setUpd_layerTs (s : State) (u : Upd) : (s.setUpd u).layerTs = s.layerTs := (rfl)
@[simp] theorem setUpd_tileLanes (s : State) (u : Upd) : (s.setUpd u).tileLanes = s.tileLanes := (rfl)
@[simp] theorem setUpd_spd (s : State) (u : Upd) : (s.setUpd u).spd = s.spd := (rfl)
@[simp] theorem setUpd_spdAnch (s : State) (u : Upd) : (s.setUpd u).spdAnch = s.spdAnch := (rfl)
@[simp] theorem setUpd_spdNew (s : State) (u : Upd) : (s.setUpd u).spdNew = s.spdNew := (rfl)
@[simp] theorem setUpd_spdTick (s : State) (u : Upd) : (s.setUpd u).spdTick = s.spdTick := (rfl)
@[simp] theorem setUpd_spdOut (s : State) (u : Upd) : (s.setUpd u).spdOut = s.spdOut := (rfl)
@[simp] theorem setUpd_snsGood (s : State) (u : Upd) : (s.setUpd u).snsGood = s.snsGood := (rfl)
@[simp] theorem setUpd_snsPair (s : State) (u : Upd) : (s.setUpd u).snsPair = s.snsPair := (rfl)
@[simp] theorem setUpd_dmx (s : State) (u : Upd) : (s.setUpd u).dmx = s.dmx := (rfl)
@[simp] theorem setUpd_macs (s : State) (u : Upd) : (s.setUpd u).macs = s.macs := (rfl)
@[simp] theorem setUpd_fpArmed (s : State) (u : Upd) : (s.setUpd u).fpArmed = s.fpArmed := (rfl)
@[simp] theorem setUpd_unv (s : State) (u : Upd) : (s.setUpd u).unv = s.unv := (rfl)
@[simp] theorem setUpd_tap (s : State) (u : Upd) : (s.setUpd u).tap = s.tap := (rfl)
@[simp] theorem setUpd_lgl (s : State) (u : Upd) : (s.setUpd u).lgl = s.lgl := (rfl)
@[simp] theorem setUpd_keys (s : State) (u : Upd) : (s.setUpd u).keys = s.keys := (rfl)
@[simp] theorem setUpd_pwr (s : State) (u : Upd) : (s.setUpd u).pwr = s.pwr := (rfl)
@[simp] theorem setUpd_nrg (s : State) (u : Upd) : (s.setUpd u).nrg = s.nrg := (rfl)
@[simp] theorem setUpd_calib (s : State) (u : Upd) : (s.setUpd u).calib = s.calib := (rfl)
@[simp] theorem setUpd_chkRun (s : State) (u : Upd) : (s.setUpd u).chkRun = s.chkRun := (rfl)
@[simp] theorem setUpd_chnFwd (s : State) (u : Upd) : (s.setUpd u).chnFwd = s.chnFwd := (rfl)
@[simp] theorem setUpd_chnQ (s : State) (u : Upd) : (s.setUpd u).chnQ = s.chnQ := (rfl)
@[simp] theorem setUpd_chnLine (s : State) (u : Upd) : (s.setUpd u).chnLine = s.chnLine := (rfl)
@[simp] theorem setUpd_chnTill (s : State) (u : Upd) : (s.setUpd u).chnTill = s.chnTill := (rfl)
@[simp] theorem setUpd_chnWin (s : State) (u : Upd) : (s.setUpd u).chnWin = s.chnWin := (rfl)
@[simp] theorem setUpd_chnSlot (s : State) (u : Upd) : (s.setUpd u).chnSlot = s.chnSlot := (rfl)
@[simp] theorem setUpd_chnUsed (s : State) (u : Upd) : (s.setUpd u).chnUsed = s.chnUsed := (rfl)
@[simp] theorem setUpd_pair (s : State) (u : Upd) : (s.setUpd u).pair = s.pair := (rfl)
@[simp] theorem setUpd_spdPair (s : State) (u : Upd) : (s.setUpd u).spdPair = s.spdPair := (rfl)
@[simp] theorem setUpd_committedNs (s : State) (u : Upd) : (s.setUpd u).committedNs = s.committedNs := (rfl)
@[simp] theorem setUpd_failedUnits (s : State) (u : Upd) : (s.setUpd u).failedUnits = s.failedUnits := (rfl)
@[simp] theorem setUpd_lanesOut (s : State) (u : Upd) : (s.setUpd u).lanesOut = s.lanesOut := (rfl)
@[simp] theorem setUpd_swapsDue (s : State) (u : Upd) : (s.setUpd u).swapsDue = s.swapsDue := (rfl)
@[simp] theorem setUpd_nvsWear (s : State) (u : Upd) : (s.setUpd u).nvsWear = s.nvsWear := (rfl)

@[simp] theorem setPwr_pending (s : State) (p : Power) : (s.setPwr p).pending = s.pending := (rfl)
@[simp] theorem setPwr_now (s : State) (p : Power) : (s.setPwr p).now = s.now := (rfl)
@[simp] theorem setPwr_sck (s : State) (p : Power) : (s.setPwr p).sck = s.sck := (rfl)
@[simp] theorem setPwr_fresh (s : State) (p : Power) : (s.setPwr p).fresh = s.fresh := (rfl)
@[simp] theorem setPwr_regs (s : State) (p : Power) : (s.setPwr p).regs = s.regs := (rfl)
@[simp] theorem setPwr_act (s : State) (p : Power) : (s.setPwr p).act = s.act := (rfl)
@[simp] theorem setPwr_taken (s : State) (p : Power) : (s.setPwr p).taken = s.taken := (rfl)
@[simp] theorem setPwr_commits (s : State) (p : Power) : (s.setPwr p).commits = s.commits := (rfl)
@[simp] theorem setPwr_writeNo (s : State) (p : Power) : (s.setPwr p).writeNo = s.writeNo := (rfl)
@[simp] theorem setPwr_shadowNo (s : State) (p : Power) : (s.setPwr p).shadowNo = s.shadowNo := (rfl)
@[simp] theorem setPwr_mem (s : State) (p : Power) : (s.setPwr p).mem = s.mem := (rfl)
@[simp] theorem setPwr_ecc (s : State) (p : Power) : (s.setPwr p).ecc = s.ecc := (rfl)
@[simp] theorem setPwr_tsuAcc (s : State) (p : Power) : (s.setPwr p).tsuAcc = s.tsuAcc := (rfl)
@[simp] theorem setPwr_tsuHi (s : State) (p : Power) : (s.setPwr p).tsuHi = s.tsuHi := (rfl)
@[simp] theorem setPwr_tsuHist (s : State) (p : Power) : (s.setPwr p).tsuHist = s.tsuHist := (rfl)
@[simp] theorem setPwr_vents (s : State) (p : Power) : (s.setPwr p).vents = s.vents := (rfl)
@[simp] theorem setPwr_craters (s : State) (p : Power) : (s.setPwr p).craters = s.craters := (rfl)
@[simp] theorem setPwr_tasks (s : State) (p : Power) : (s.setPwr p).tasks = s.tasks := (rfl)
@[simp] theorem setPwr_seqs (s : State) (p : Power) : (s.setPwr p).seqs = s.seqs := (rfl)
@[simp] theorem setPwr_cals (s : State) (p : Power) : (s.setPwr p).cals = s.cals := (rfl)
@[simp] theorem setPwr_dies (s : State) (p : Power) : (s.setPwr p).dies = s.dies := (rfl)
@[simp] theorem setPwr_gates (s : State) (p : Power) : (s.setPwr p).gates = s.gates := (rfl)
@[simp] theorem setPwr_cores (s : State) (p : Power) : (s.setPwr p).cores = s.cores := (rfl)
@[simp] theorem setPwr_ticketNo (s : State) (p : Power) : (s.setPwr p).ticketNo = s.ticketNo := (rfl)
@[simp] theorem setPwr_outTaken (s : State) (p : Power) : (s.setPwr p).outTaken = s.outTaken := (rfl)
@[simp] theorem setPwr_relTaken (s : State) (p : Power) : (s.setPwr p).relTaken = s.relTaken := (rfl)
@[simp] theorem setPwr_fifos (s : State) (p : Power) : (s.setPwr p).fifos = s.fifos := (rfl)
@[simp] theorem setPwr_chans (s : State) (p : Power) : (s.setPwr p).chans = s.chans := (rfl)
@[simp] theorem setPwr_targets (s : State) (p : Power) : (s.setPwr p).targets = s.targets := (rfl)
@[simp] theorem setPwr_icuPend (s : State) (p : Power) : (s.setPwr p).icuPend = s.icuPend := (rfl)
@[simp] theorem setPwr_icuSvc (s : State) (p : Power) : (s.setPwr p).icuSvc = s.icuSvc := (rfl)
@[simp] theorem setPwr_icuLine (s : State) (p : Power) : (s.setPwr p).icuLine = s.icuLine := (rfl)
@[simp] theorem setPwr_sinter (s : State) (p : Power) : (s.setPwr p).sinter = s.sinter := (rfl)
@[simp] theorem setPwr_springLatch (s : State) (p : Power) : (s.setPwr p).springLatch = s.springLatch := (rfl)
@[simp] theorem setPwr_flt (s : State) (p : Power) : (s.setPwr p).flt = s.flt := (rfl)
@[simp] theorem setPwr_fltNvs (s : State) (p : Power) : (s.setPwr p).fltNvs = s.fltNvs := (rfl)
@[simp] theorem setPwr_host (s : State) (p : Power) : (s.setPwr p).host = s.host := (rfl)
@[simp] theorem setPwr_hwFaults (s : State) (p : Power) : (s.setPwr p).hwFaults = s.hwFaults := (rfl)
@[simp] theorem setPwr_hwchk (s : State) (p : Power) : (s.setPwr p).hwchk = s.hwchk := (rfl)
@[simp] theorem setPwr_dramReqs (s : State) (p : Power) : (s.setPwr p).dramReqs = s.dramReqs := (rfl)
@[simp] theorem setPwr_dramRef (s : State) (p : Power) : (s.setPwr p).dramRef = s.dramRef := (rfl)
@[simp] theorem setPwr_hostRead (s : State) (p : Power) : (s.setPwr p).hostRead = s.hostRead := (rfl)
@[simp] theorem setPwr_bgtOver (s : State) (p : Power) : (s.setPwr p).bgtOver = s.bgtOver := (rfl)
@[simp] theorem setPwr_bgtUnder (s : State) (p : Power) : (s.setPwr p).bgtUnder = s.bgtUnder := (rfl)
@[simp] theorem setPwr_snapReq (s : State) (p : Power) : (s.setPwr p).snapReq = s.snapReq := (rfl)
@[simp] theorem setPwr_capReq (s : State) (p : Power) : (s.setPwr p).capReq = s.capReq := (rfl)
@[simp] theorem setPwr_flkNo (s : State) (p : Power) : (s.setPwr p).flkNo = s.flkNo := (rfl)
@[simp] theorem setPwr_ratePend (s : State) (p : Power) : (s.setPwr p).ratePend = s.ratePend := (rfl)
@[simp] theorem setPwr_fsyncAt (s : State) (p : Power) : (s.setPwr p).fsyncAt = s.fsyncAt := (rfl)
@[simp] theorem setPwr_flkNext (s : State) (p : Power) : (s.setPwr p).flkNext = s.flkNext := (rfl)
@[simp] theorem setPwr_flkFired (s : State) (p : Power) : (s.setPwr p).flkFired = s.flkFired := (rfl)
@[simp] theorem setPwr_flkS (s : State) (p : Power) : (s.setPwr p).flkS = s.flkS := (rfl)
@[simp] theorem setPwr_lateNoted (s : State) (p : Power) : (s.setPwr p).lateNoted = s.lateNoted := (rfl)
@[simp] theorem setPwr_sealed (s : State) (p : Power) : (s.setPwr p).sealed = s.sealed := (rfl)
@[simp] theorem setPwr_sealHold (s : State) (p : Power) : (s.setPwr p).sealHold = s.sealHold := (rfl)
@[simp] theorem setPwr_fadeFc (s : State) (p : Power) : (s.setPwr p).fadeFc = s.fadeFc := (rfl)
@[simp] theorem setPwr_fadeTc (s : State) (p : Power) : (s.setPwr p).fadeTc = s.fadeTc := (rfl)
@[simp] theorem setPwr_notices (s : State) (p : Power) : (s.setPwr p).notices = s.notices := (rfl)
@[simp] theorem setPwr_peers (s : State) (p : Power) : (s.setPwr p).peers = s.peers := (rfl)
@[simp] theorem setPwr_chnOut (s : State) (p : Power) : (s.setPwr p).chnOut = s.chnOut := (rfl)
@[simp] theorem setPwr_chnAlive (s : State) (p : Power) : (s.setPwr p).chnAlive = s.chnAlive := (rfl)
@[simp] theorem setPwr_roleAt (s : State) (p : Power) : (s.setPwr p).roleAt = s.roleAt := (rfl)
@[simp] theorem setPwr_tbl (s : State) (p : Power) : (s.setPwr p).tbl = s.tbl := (rfl)
@[simp] theorem setPwr_bufs (s : State) (p : Power) : (s.setPwr p).bufs = s.bufs := (rfl)
@[simp] theorem setPwr_vid (s : State) (p : Power) : (s.setPwr p).vid = s.vid := (rfl)
@[simp] theorem setPwr_vidDrop (s : State) (p : Power) : (s.setPwr p).vidDrop = s.vidDrop := (rfl)
@[simp] theorem setPwr_layerStore (s : State) (p : Power) : (s.setPwr p).layerStore = s.layerStore := (rfl)
@[simp] theorem setPwr_lgvPrev (s : State) (p : Power) : (s.setPwr p).lgvPrev = s.lgvPrev := (rfl)
@[simp] theorem setPwr_lgvD (s : State) (p : Power) : (s.setPwr p).lgvD = s.lgvD := (rfl)
@[simp] theorem setPwr_tfFrames (s : State) (p : Power) : (s.setPwr p).tfFrames = s.tfFrames := (rfl)
@[simp] theorem setPwr_tfPair (s : State) (p : Power) : (s.setPwr p).tfPair = s.tfPair := (rfl)
@[simp] theorem setPwr_tfPairAt (s : State) (p : Power) : (s.setPwr p).tfPairAt = s.tfPairAt := (rfl)
@[simp] theorem setPwr_outScale (s : State) (p : Power) : (s.setPwr p).outScale = s.outScale := (rfl)
@[simp] theorem setPwr_slotWrites (s : State) (p : Power) : (s.setPwr p).slotWrites = s.slotWrites := (rfl)
@[simp] theorem setPwr_copyWrites (s : State) (p : Power) : (s.setPwr p).copyWrites = s.copyWrites := (rfl)
@[simp] theorem setPwr_gens (s : State) (p : Power) : (s.setPwr p).gens = s.gens := (rfl)
@[simp] theorem setPwr_fadeFrames (s : State) (p : Power) : (s.setPwr p).fadeFrames = s.fadeFrames := (rfl)
@[simp] theorem setPwr_layerTs (s : State) (p : Power) : (s.setPwr p).layerTs = s.layerTs := (rfl)
@[simp] theorem setPwr_tileLanes (s : State) (p : Power) : (s.setPwr p).tileLanes = s.tileLanes := (rfl)
@[simp] theorem setPwr_spd (s : State) (p : Power) : (s.setPwr p).spd = s.spd := (rfl)
@[simp] theorem setPwr_spdAnch (s : State) (p : Power) : (s.setPwr p).spdAnch = s.spdAnch := (rfl)
@[simp] theorem setPwr_spdNew (s : State) (p : Power) : (s.setPwr p).spdNew = s.spdNew := (rfl)
@[simp] theorem setPwr_spdTick (s : State) (p : Power) : (s.setPwr p).spdTick = s.spdTick := (rfl)
@[simp] theorem setPwr_spdOut (s : State) (p : Power) : (s.setPwr p).spdOut = s.spdOut := (rfl)
@[simp] theorem setPwr_snsGood (s : State) (p : Power) : (s.setPwr p).snsGood = s.snsGood := (rfl)
@[simp] theorem setPwr_snsPair (s : State) (p : Power) : (s.setPwr p).snsPair = s.snsPair := (rfl)
@[simp] theorem setPwr_dmx (s : State) (p : Power) : (s.setPwr p).dmx = s.dmx := (rfl)
@[simp] theorem setPwr_macs (s : State) (p : Power) : (s.setPwr p).macs = s.macs := (rfl)
@[simp] theorem setPwr_fpArmed (s : State) (p : Power) : (s.setPwr p).fpArmed = s.fpArmed := (rfl)
@[simp] theorem setPwr_unv (s : State) (p : Power) : (s.setPwr p).unv = s.unv := (rfl)
@[simp] theorem setPwr_tap (s : State) (p : Power) : (s.setPwr p).tap = s.tap := (rfl)
@[simp] theorem setPwr_lgl (s : State) (p : Power) : (s.setPwr p).lgl = s.lgl := (rfl)
@[simp] theorem setPwr_keys (s : State) (p : Power) : (s.setPwr p).keys = s.keys := (rfl)
@[simp] theorem setPwr_upd (s : State) (p : Power) : (s.setPwr p).upd = s.upd := (rfl)
@[simp] theorem setPwr_nrg (s : State) (p : Power) : (s.setPwr p).nrg = s.nrg := (rfl)
@[simp] theorem setPwr_calib (s : State) (p : Power) : (s.setPwr p).calib = s.calib := (rfl)
@[simp] theorem setPwr_chkRun (s : State) (p : Power) : (s.setPwr p).chkRun = s.chkRun := (rfl)
@[simp] theorem setPwr_chnFwd (s : State) (p : Power) : (s.setPwr p).chnFwd = s.chnFwd := (rfl)
@[simp] theorem setPwr_chnQ (s : State) (p : Power) : (s.setPwr p).chnQ = s.chnQ := (rfl)
@[simp] theorem setPwr_chnLine (s : State) (p : Power) : (s.setPwr p).chnLine = s.chnLine := (rfl)
@[simp] theorem setPwr_chnTill (s : State) (p : Power) : (s.setPwr p).chnTill = s.chnTill := (rfl)
@[simp] theorem setPwr_chnWin (s : State) (p : Power) : (s.setPwr p).chnWin = s.chnWin := (rfl)
@[simp] theorem setPwr_chnSlot (s : State) (p : Power) : (s.setPwr p).chnSlot = s.chnSlot := (rfl)
@[simp] theorem setPwr_chnUsed (s : State) (p : Power) : (s.setPwr p).chnUsed = s.chnUsed := (rfl)
@[simp] theorem setPwr_pair (s : State) (p : Power) : (s.setPwr p).pair = s.pair := (rfl)
@[simp] theorem setPwr_spdPair (s : State) (p : Power) : (s.setPwr p).spdPair = s.spdPair := (rfl)
@[simp] theorem setPwr_committedNs (s : State) (p : Power) : (s.setPwr p).committedNs = s.committedNs := (rfl)
@[simp] theorem setPwr_failedUnits (s : State) (p : Power) : (s.setPwr p).failedUnits = s.failedUnits := (rfl)
@[simp] theorem setPwr_lanesOut (s : State) (p : Power) : (s.setPwr p).lanesOut = s.lanesOut := (rfl)
@[simp] theorem setPwr_swapsDue (s : State) (p : Power) : (s.setPwr p).swapsDue = s.swapsDue := (rfl)
@[simp] theorem setPwr_nvsWear (s : State) (p : Power) : (s.setPwr p).nvsWear = s.nvsWear := (rfl)

@[simp] theorem setNrg_pending (s : State) (x : Nrg) : (s.setNrg x).pending = s.pending := (rfl)
@[simp] theorem setNrg_now (s : State) (x : Nrg) : (s.setNrg x).now = s.now := (rfl)
@[simp] theorem setNrg_sck (s : State) (x : Nrg) : (s.setNrg x).sck = s.sck := (rfl)
@[simp] theorem setNrg_fresh (s : State) (x : Nrg) : (s.setNrg x).fresh = s.fresh := (rfl)
@[simp] theorem setNrg_regs (s : State) (x : Nrg) : (s.setNrg x).regs = s.regs := (rfl)
@[simp] theorem setNrg_act (s : State) (x : Nrg) : (s.setNrg x).act = s.act := (rfl)
@[simp] theorem setNrg_taken (s : State) (x : Nrg) : (s.setNrg x).taken = s.taken := (rfl)
@[simp] theorem setNrg_commits (s : State) (x : Nrg) : (s.setNrg x).commits = s.commits := (rfl)
@[simp] theorem setNrg_writeNo (s : State) (x : Nrg) : (s.setNrg x).writeNo = s.writeNo := (rfl)
@[simp] theorem setNrg_shadowNo (s : State) (x : Nrg) : (s.setNrg x).shadowNo = s.shadowNo := (rfl)
@[simp] theorem setNrg_mem (s : State) (x : Nrg) : (s.setNrg x).mem = s.mem := (rfl)
@[simp] theorem setNrg_ecc (s : State) (x : Nrg) : (s.setNrg x).ecc = s.ecc := (rfl)
@[simp] theorem setNrg_tsuAcc (s : State) (x : Nrg) : (s.setNrg x).tsuAcc = s.tsuAcc := (rfl)
@[simp] theorem setNrg_tsuHi (s : State) (x : Nrg) : (s.setNrg x).tsuHi = s.tsuHi := (rfl)
@[simp] theorem setNrg_tsuHist (s : State) (x : Nrg) : (s.setNrg x).tsuHist = s.tsuHist := (rfl)
@[simp] theorem setNrg_vents (s : State) (x : Nrg) : (s.setNrg x).vents = s.vents := (rfl)
@[simp] theorem setNrg_craters (s : State) (x : Nrg) : (s.setNrg x).craters = s.craters := (rfl)
@[simp] theorem setNrg_tasks (s : State) (x : Nrg) : (s.setNrg x).tasks = s.tasks := (rfl)
@[simp] theorem setNrg_seqs (s : State) (x : Nrg) : (s.setNrg x).seqs = s.seqs := (rfl)
@[simp] theorem setNrg_cals (s : State) (x : Nrg) : (s.setNrg x).cals = s.cals := (rfl)
@[simp] theorem setNrg_dies (s : State) (x : Nrg) : (s.setNrg x).dies = s.dies := (rfl)
@[simp] theorem setNrg_gates (s : State) (x : Nrg) : (s.setNrg x).gates = s.gates := (rfl)
@[simp] theorem setNrg_cores (s : State) (x : Nrg) : (s.setNrg x).cores = s.cores := (rfl)
@[simp] theorem setNrg_ticketNo (s : State) (x : Nrg) : (s.setNrg x).ticketNo = s.ticketNo := (rfl)
@[simp] theorem setNrg_outTaken (s : State) (x : Nrg) : (s.setNrg x).outTaken = s.outTaken := (rfl)
@[simp] theorem setNrg_relTaken (s : State) (x : Nrg) : (s.setNrg x).relTaken = s.relTaken := (rfl)
@[simp] theorem setNrg_fifos (s : State) (x : Nrg) : (s.setNrg x).fifos = s.fifos := (rfl)
@[simp] theorem setNrg_chans (s : State) (x : Nrg) : (s.setNrg x).chans = s.chans := (rfl)
@[simp] theorem setNrg_targets (s : State) (x : Nrg) : (s.setNrg x).targets = s.targets := (rfl)
@[simp] theorem setNrg_icuPend (s : State) (x : Nrg) : (s.setNrg x).icuPend = s.icuPend := (rfl)
@[simp] theorem setNrg_icuSvc (s : State) (x : Nrg) : (s.setNrg x).icuSvc = s.icuSvc := (rfl)
@[simp] theorem setNrg_icuLine (s : State) (x : Nrg) : (s.setNrg x).icuLine = s.icuLine := (rfl)
@[simp] theorem setNrg_sinter (s : State) (x : Nrg) : (s.setNrg x).sinter = s.sinter := (rfl)
@[simp] theorem setNrg_springLatch (s : State) (x : Nrg) : (s.setNrg x).springLatch = s.springLatch := (rfl)
@[simp] theorem setNrg_flt (s : State) (x : Nrg) : (s.setNrg x).flt = s.flt := (rfl)
@[simp] theorem setNrg_fltNvs (s : State) (x : Nrg) : (s.setNrg x).fltNvs = s.fltNvs := (rfl)
@[simp] theorem setNrg_host (s : State) (x : Nrg) : (s.setNrg x).host = s.host := (rfl)
@[simp] theorem setNrg_hwFaults (s : State) (x : Nrg) : (s.setNrg x).hwFaults = s.hwFaults := (rfl)
@[simp] theorem setNrg_hwchk (s : State) (x : Nrg) : (s.setNrg x).hwchk = s.hwchk := (rfl)
@[simp] theorem setNrg_dramReqs (s : State) (x : Nrg) : (s.setNrg x).dramReqs = s.dramReqs := (rfl)
@[simp] theorem setNrg_dramRef (s : State) (x : Nrg) : (s.setNrg x).dramRef = s.dramRef := (rfl)
@[simp] theorem setNrg_hostRead (s : State) (x : Nrg) : (s.setNrg x).hostRead = s.hostRead := (rfl)
@[simp] theorem setNrg_bgtOver (s : State) (x : Nrg) : (s.setNrg x).bgtOver = s.bgtOver := (rfl)
@[simp] theorem setNrg_bgtUnder (s : State) (x : Nrg) : (s.setNrg x).bgtUnder = s.bgtUnder := (rfl)
@[simp] theorem setNrg_snapReq (s : State) (x : Nrg) : (s.setNrg x).snapReq = s.snapReq := (rfl)
@[simp] theorem setNrg_capReq (s : State) (x : Nrg) : (s.setNrg x).capReq = s.capReq := (rfl)
@[simp] theorem setNrg_flkNo (s : State) (x : Nrg) : (s.setNrg x).flkNo = s.flkNo := (rfl)
@[simp] theorem setNrg_ratePend (s : State) (x : Nrg) : (s.setNrg x).ratePend = s.ratePend := (rfl)
@[simp] theorem setNrg_fsyncAt (s : State) (x : Nrg) : (s.setNrg x).fsyncAt = s.fsyncAt := (rfl)
@[simp] theorem setNrg_flkNext (s : State) (x : Nrg) : (s.setNrg x).flkNext = s.flkNext := (rfl)
@[simp] theorem setNrg_flkFired (s : State) (x : Nrg) : (s.setNrg x).flkFired = s.flkFired := (rfl)
@[simp] theorem setNrg_flkS (s : State) (x : Nrg) : (s.setNrg x).flkS = s.flkS := (rfl)
@[simp] theorem setNrg_lateNoted (s : State) (x : Nrg) : (s.setNrg x).lateNoted = s.lateNoted := (rfl)
@[simp] theorem setNrg_sealed (s : State) (x : Nrg) : (s.setNrg x).sealed = s.sealed := (rfl)
@[simp] theorem setNrg_sealHold (s : State) (x : Nrg) : (s.setNrg x).sealHold = s.sealHold := (rfl)
@[simp] theorem setNrg_fadeFc (s : State) (x : Nrg) : (s.setNrg x).fadeFc = s.fadeFc := (rfl)
@[simp] theorem setNrg_fadeTc (s : State) (x : Nrg) : (s.setNrg x).fadeTc = s.fadeTc := (rfl)
@[simp] theorem setNrg_notices (s : State) (x : Nrg) : (s.setNrg x).notices = s.notices := (rfl)
@[simp] theorem setNrg_peers (s : State) (x : Nrg) : (s.setNrg x).peers = s.peers := (rfl)
@[simp] theorem setNrg_chnOut (s : State) (x : Nrg) : (s.setNrg x).chnOut = s.chnOut := (rfl)
@[simp] theorem setNrg_chnAlive (s : State) (x : Nrg) : (s.setNrg x).chnAlive = s.chnAlive := (rfl)
@[simp] theorem setNrg_roleAt (s : State) (x : Nrg) : (s.setNrg x).roleAt = s.roleAt := (rfl)
@[simp] theorem setNrg_tbl (s : State) (x : Nrg) : (s.setNrg x).tbl = s.tbl := (rfl)
@[simp] theorem setNrg_bufs (s : State) (x : Nrg) : (s.setNrg x).bufs = s.bufs := (rfl)
@[simp] theorem setNrg_vid (s : State) (x : Nrg) : (s.setNrg x).vid = s.vid := (rfl)
@[simp] theorem setNrg_vidDrop (s : State) (x : Nrg) : (s.setNrg x).vidDrop = s.vidDrop := (rfl)
@[simp] theorem setNrg_layerStore (s : State) (x : Nrg) : (s.setNrg x).layerStore = s.layerStore := (rfl)
@[simp] theorem setNrg_lgvPrev (s : State) (x : Nrg) : (s.setNrg x).lgvPrev = s.lgvPrev := (rfl)
@[simp] theorem setNrg_lgvD (s : State) (x : Nrg) : (s.setNrg x).lgvD = s.lgvD := (rfl)
@[simp] theorem setNrg_tfFrames (s : State) (x : Nrg) : (s.setNrg x).tfFrames = s.tfFrames := (rfl)
@[simp] theorem setNrg_tfPair (s : State) (x : Nrg) : (s.setNrg x).tfPair = s.tfPair := (rfl)
@[simp] theorem setNrg_tfPairAt (s : State) (x : Nrg) : (s.setNrg x).tfPairAt = s.tfPairAt := (rfl)
@[simp] theorem setNrg_outScale (s : State) (x : Nrg) : (s.setNrg x).outScale = s.outScale := (rfl)
@[simp] theorem setNrg_slotWrites (s : State) (x : Nrg) : (s.setNrg x).slotWrites = s.slotWrites := (rfl)
@[simp] theorem setNrg_copyWrites (s : State) (x : Nrg) : (s.setNrg x).copyWrites = s.copyWrites := (rfl)
@[simp] theorem setNrg_gens (s : State) (x : Nrg) : (s.setNrg x).gens = s.gens := (rfl)
@[simp] theorem setNrg_fadeFrames (s : State) (x : Nrg) : (s.setNrg x).fadeFrames = s.fadeFrames := (rfl)
@[simp] theorem setNrg_layerTs (s : State) (x : Nrg) : (s.setNrg x).layerTs = s.layerTs := (rfl)
@[simp] theorem setNrg_tileLanes (s : State) (x : Nrg) : (s.setNrg x).tileLanes = s.tileLanes := (rfl)
@[simp] theorem setNrg_spd (s : State) (x : Nrg) : (s.setNrg x).spd = s.spd := (rfl)
@[simp] theorem setNrg_spdAnch (s : State) (x : Nrg) : (s.setNrg x).spdAnch = s.spdAnch := (rfl)
@[simp] theorem setNrg_spdNew (s : State) (x : Nrg) : (s.setNrg x).spdNew = s.spdNew := (rfl)
@[simp] theorem setNrg_spdTick (s : State) (x : Nrg) : (s.setNrg x).spdTick = s.spdTick := (rfl)
@[simp] theorem setNrg_spdOut (s : State) (x : Nrg) : (s.setNrg x).spdOut = s.spdOut := (rfl)
@[simp] theorem setNrg_snsGood (s : State) (x : Nrg) : (s.setNrg x).snsGood = s.snsGood := (rfl)
@[simp] theorem setNrg_snsPair (s : State) (x : Nrg) : (s.setNrg x).snsPair = s.snsPair := (rfl)
@[simp] theorem setNrg_dmx (s : State) (x : Nrg) : (s.setNrg x).dmx = s.dmx := (rfl)
@[simp] theorem setNrg_macs (s : State) (x : Nrg) : (s.setNrg x).macs = s.macs := (rfl)
@[simp] theorem setNrg_fpArmed (s : State) (x : Nrg) : (s.setNrg x).fpArmed = s.fpArmed := (rfl)
@[simp] theorem setNrg_unv (s : State) (x : Nrg) : (s.setNrg x).unv = s.unv := (rfl)
@[simp] theorem setNrg_tap (s : State) (x : Nrg) : (s.setNrg x).tap = s.tap := (rfl)
@[simp] theorem setNrg_lgl (s : State) (x : Nrg) : (s.setNrg x).lgl = s.lgl := (rfl)
@[simp] theorem setNrg_keys (s : State) (x : Nrg) : (s.setNrg x).keys = s.keys := (rfl)
@[simp] theorem setNrg_upd (s : State) (x : Nrg) : (s.setNrg x).upd = s.upd := (rfl)
@[simp] theorem setNrg_pwr (s : State) (x : Nrg) : (s.setNrg x).pwr = s.pwr := (rfl)
@[simp] theorem setNrg_calib (s : State) (x : Nrg) : (s.setNrg x).calib = s.calib := (rfl)
@[simp] theorem setNrg_chkRun (s : State) (x : Nrg) : (s.setNrg x).chkRun = s.chkRun := (rfl)
@[simp] theorem setNrg_chnFwd (s : State) (x : Nrg) : (s.setNrg x).chnFwd = s.chnFwd := (rfl)
@[simp] theorem setNrg_chnQ (s : State) (x : Nrg) : (s.setNrg x).chnQ = s.chnQ := (rfl)
@[simp] theorem setNrg_chnLine (s : State) (x : Nrg) : (s.setNrg x).chnLine = s.chnLine := (rfl)
@[simp] theorem setNrg_chnTill (s : State) (x : Nrg) : (s.setNrg x).chnTill = s.chnTill := (rfl)
@[simp] theorem setNrg_chnWin (s : State) (x : Nrg) : (s.setNrg x).chnWin = s.chnWin := (rfl)
@[simp] theorem setNrg_chnSlot (s : State) (x : Nrg) : (s.setNrg x).chnSlot = s.chnSlot := (rfl)
@[simp] theorem setNrg_chnUsed (s : State) (x : Nrg) : (s.setNrg x).chnUsed = s.chnUsed := (rfl)
@[simp] theorem setNrg_pair (s : State) (x : Nrg) : (s.setNrg x).pair = s.pair := (rfl)
@[simp] theorem setNrg_spdPair (s : State) (x : Nrg) : (s.setNrg x).spdPair = s.spdPair := (rfl)
@[simp] theorem setNrg_committedNs (s : State) (x : Nrg) : (s.setNrg x).committedNs = s.committedNs := (rfl)
@[simp] theorem setNrg_failedUnits (s : State) (x : Nrg) : (s.setNrg x).failedUnits = s.failedUnits := (rfl)
@[simp] theorem setNrg_lanesOut (s : State) (x : Nrg) : (s.setNrg x).lanesOut = s.lanesOut := (rfl)
@[simp] theorem setNrg_swapsDue (s : State) (x : Nrg) : (s.setNrg x).swapsDue = s.swapsDue := (rfl)
@[simp] theorem setNrg_nvsWear (s : State) (x : Nrg) : (s.setNrg x).nvsWear = s.nvsWear := (rfl)

@[simp] theorem setCalib_pending (s : State) (x : CalEng) : (s.setCalib x).pending = s.pending := (rfl)
@[simp] theorem setCalib_now (s : State) (x : CalEng) : (s.setCalib x).now = s.now := (rfl)
@[simp] theorem setCalib_sck (s : State) (x : CalEng) : (s.setCalib x).sck = s.sck := (rfl)
@[simp] theorem setCalib_fresh (s : State) (x : CalEng) : (s.setCalib x).fresh = s.fresh := (rfl)
@[simp] theorem setCalib_regs (s : State) (x : CalEng) : (s.setCalib x).regs = s.regs := (rfl)
@[simp] theorem setCalib_act (s : State) (x : CalEng) : (s.setCalib x).act = s.act := (rfl)
@[simp] theorem setCalib_taken (s : State) (x : CalEng) : (s.setCalib x).taken = s.taken := (rfl)
@[simp] theorem setCalib_commits (s : State) (x : CalEng) : (s.setCalib x).commits = s.commits := (rfl)
@[simp] theorem setCalib_writeNo (s : State) (x : CalEng) : (s.setCalib x).writeNo = s.writeNo := (rfl)
@[simp] theorem setCalib_shadowNo (s : State) (x : CalEng) : (s.setCalib x).shadowNo = s.shadowNo := (rfl)
@[simp] theorem setCalib_mem (s : State) (x : CalEng) : (s.setCalib x).mem = s.mem := (rfl)
@[simp] theorem setCalib_ecc (s : State) (x : CalEng) : (s.setCalib x).ecc = s.ecc := (rfl)
@[simp] theorem setCalib_tsuAcc (s : State) (x : CalEng) : (s.setCalib x).tsuAcc = s.tsuAcc := (rfl)
@[simp] theorem setCalib_tsuHi (s : State) (x : CalEng) : (s.setCalib x).tsuHi = s.tsuHi := (rfl)
@[simp] theorem setCalib_tsuHist (s : State) (x : CalEng) : (s.setCalib x).tsuHist = s.tsuHist := (rfl)
@[simp] theorem setCalib_vents (s : State) (x : CalEng) : (s.setCalib x).vents = s.vents := (rfl)
@[simp] theorem setCalib_craters (s : State) (x : CalEng) : (s.setCalib x).craters = s.craters := (rfl)
@[simp] theorem setCalib_tasks (s : State) (x : CalEng) : (s.setCalib x).tasks = s.tasks := (rfl)
@[simp] theorem setCalib_seqs (s : State) (x : CalEng) : (s.setCalib x).seqs = s.seqs := (rfl)
@[simp] theorem setCalib_cals (s : State) (x : CalEng) : (s.setCalib x).cals = s.cals := (rfl)
@[simp] theorem setCalib_dies (s : State) (x : CalEng) : (s.setCalib x).dies = s.dies := (rfl)
@[simp] theorem setCalib_gates (s : State) (x : CalEng) : (s.setCalib x).gates = s.gates := (rfl)
@[simp] theorem setCalib_cores (s : State) (x : CalEng) : (s.setCalib x).cores = s.cores := (rfl)
@[simp] theorem setCalib_ticketNo (s : State) (x : CalEng) : (s.setCalib x).ticketNo = s.ticketNo := (rfl)
@[simp] theorem setCalib_outTaken (s : State) (x : CalEng) : (s.setCalib x).outTaken = s.outTaken := (rfl)
@[simp] theorem setCalib_relTaken (s : State) (x : CalEng) : (s.setCalib x).relTaken = s.relTaken := (rfl)
@[simp] theorem setCalib_fifos (s : State) (x : CalEng) : (s.setCalib x).fifos = s.fifos := (rfl)
@[simp] theorem setCalib_chans (s : State) (x : CalEng) : (s.setCalib x).chans = s.chans := (rfl)
@[simp] theorem setCalib_targets (s : State) (x : CalEng) : (s.setCalib x).targets = s.targets := (rfl)
@[simp] theorem setCalib_icuPend (s : State) (x : CalEng) : (s.setCalib x).icuPend = s.icuPend := (rfl)
@[simp] theorem setCalib_icuSvc (s : State) (x : CalEng) : (s.setCalib x).icuSvc = s.icuSvc := (rfl)
@[simp] theorem setCalib_icuLine (s : State) (x : CalEng) : (s.setCalib x).icuLine = s.icuLine := (rfl)
@[simp] theorem setCalib_sinter (s : State) (x : CalEng) : (s.setCalib x).sinter = s.sinter := (rfl)
@[simp] theorem setCalib_springLatch (s : State) (x : CalEng) : (s.setCalib x).springLatch = s.springLatch := (rfl)
@[simp] theorem setCalib_flt (s : State) (x : CalEng) : (s.setCalib x).flt = s.flt := (rfl)
@[simp] theorem setCalib_fltNvs (s : State) (x : CalEng) : (s.setCalib x).fltNvs = s.fltNvs := (rfl)
@[simp] theorem setCalib_host (s : State) (x : CalEng) : (s.setCalib x).host = s.host := (rfl)
@[simp] theorem setCalib_hwFaults (s : State) (x : CalEng) : (s.setCalib x).hwFaults = s.hwFaults := (rfl)
@[simp] theorem setCalib_hwchk (s : State) (x : CalEng) : (s.setCalib x).hwchk = s.hwchk := (rfl)
@[simp] theorem setCalib_dramReqs (s : State) (x : CalEng) : (s.setCalib x).dramReqs = s.dramReqs := (rfl)
@[simp] theorem setCalib_dramRef (s : State) (x : CalEng) : (s.setCalib x).dramRef = s.dramRef := (rfl)
@[simp] theorem setCalib_hostRead (s : State) (x : CalEng) : (s.setCalib x).hostRead = s.hostRead := (rfl)
@[simp] theorem setCalib_bgtOver (s : State) (x : CalEng) : (s.setCalib x).bgtOver = s.bgtOver := (rfl)
@[simp] theorem setCalib_bgtUnder (s : State) (x : CalEng) : (s.setCalib x).bgtUnder = s.bgtUnder := (rfl)
@[simp] theorem setCalib_snapReq (s : State) (x : CalEng) : (s.setCalib x).snapReq = s.snapReq := (rfl)
@[simp] theorem setCalib_capReq (s : State) (x : CalEng) : (s.setCalib x).capReq = s.capReq := (rfl)
@[simp] theorem setCalib_flkNo (s : State) (x : CalEng) : (s.setCalib x).flkNo = s.flkNo := (rfl)
@[simp] theorem setCalib_ratePend (s : State) (x : CalEng) : (s.setCalib x).ratePend = s.ratePend := (rfl)
@[simp] theorem setCalib_fsyncAt (s : State) (x : CalEng) : (s.setCalib x).fsyncAt = s.fsyncAt := (rfl)
@[simp] theorem setCalib_flkNext (s : State) (x : CalEng) : (s.setCalib x).flkNext = s.flkNext := (rfl)
@[simp] theorem setCalib_flkFired (s : State) (x : CalEng) : (s.setCalib x).flkFired = s.flkFired := (rfl)
@[simp] theorem setCalib_flkS (s : State) (x : CalEng) : (s.setCalib x).flkS = s.flkS := (rfl)
@[simp] theorem setCalib_lateNoted (s : State) (x : CalEng) : (s.setCalib x).lateNoted = s.lateNoted := (rfl)
@[simp] theorem setCalib_sealed (s : State) (x : CalEng) : (s.setCalib x).sealed = s.sealed := (rfl)
@[simp] theorem setCalib_sealHold (s : State) (x : CalEng) : (s.setCalib x).sealHold = s.sealHold := (rfl)
@[simp] theorem setCalib_fadeFc (s : State) (x : CalEng) : (s.setCalib x).fadeFc = s.fadeFc := (rfl)
@[simp] theorem setCalib_fadeTc (s : State) (x : CalEng) : (s.setCalib x).fadeTc = s.fadeTc := (rfl)
@[simp] theorem setCalib_notices (s : State) (x : CalEng) : (s.setCalib x).notices = s.notices := (rfl)
@[simp] theorem setCalib_peers (s : State) (x : CalEng) : (s.setCalib x).peers = s.peers := (rfl)
@[simp] theorem setCalib_chnOut (s : State) (x : CalEng) : (s.setCalib x).chnOut = s.chnOut := (rfl)
@[simp] theorem setCalib_chnAlive (s : State) (x : CalEng) : (s.setCalib x).chnAlive = s.chnAlive := (rfl)
@[simp] theorem setCalib_roleAt (s : State) (x : CalEng) : (s.setCalib x).roleAt = s.roleAt := (rfl)
@[simp] theorem setCalib_tbl (s : State) (x : CalEng) : (s.setCalib x).tbl = s.tbl := (rfl)
@[simp] theorem setCalib_bufs (s : State) (x : CalEng) : (s.setCalib x).bufs = s.bufs := (rfl)
@[simp] theorem setCalib_vid (s : State) (x : CalEng) : (s.setCalib x).vid = s.vid := (rfl)
@[simp] theorem setCalib_vidDrop (s : State) (x : CalEng) : (s.setCalib x).vidDrop = s.vidDrop := (rfl)
@[simp] theorem setCalib_layerStore (s : State) (x : CalEng) : (s.setCalib x).layerStore = s.layerStore := (rfl)
@[simp] theorem setCalib_lgvPrev (s : State) (x : CalEng) : (s.setCalib x).lgvPrev = s.lgvPrev := (rfl)
@[simp] theorem setCalib_lgvD (s : State) (x : CalEng) : (s.setCalib x).lgvD = s.lgvD := (rfl)
@[simp] theorem setCalib_tfFrames (s : State) (x : CalEng) : (s.setCalib x).tfFrames = s.tfFrames := (rfl)
@[simp] theorem setCalib_tfPair (s : State) (x : CalEng) : (s.setCalib x).tfPair = s.tfPair := (rfl)
@[simp] theorem setCalib_tfPairAt (s : State) (x : CalEng) : (s.setCalib x).tfPairAt = s.tfPairAt := (rfl)
@[simp] theorem setCalib_outScale (s : State) (x : CalEng) : (s.setCalib x).outScale = s.outScale := (rfl)
@[simp] theorem setCalib_slotWrites (s : State) (x : CalEng) : (s.setCalib x).slotWrites = s.slotWrites := (rfl)
@[simp] theorem setCalib_copyWrites (s : State) (x : CalEng) : (s.setCalib x).copyWrites = s.copyWrites := (rfl)
@[simp] theorem setCalib_gens (s : State) (x : CalEng) : (s.setCalib x).gens = s.gens := (rfl)
@[simp] theorem setCalib_fadeFrames (s : State) (x : CalEng) : (s.setCalib x).fadeFrames = s.fadeFrames := (rfl)
@[simp] theorem setCalib_layerTs (s : State) (x : CalEng) : (s.setCalib x).layerTs = s.layerTs := (rfl)
@[simp] theorem setCalib_tileLanes (s : State) (x : CalEng) : (s.setCalib x).tileLanes = s.tileLanes := (rfl)
@[simp] theorem setCalib_spd (s : State) (x : CalEng) : (s.setCalib x).spd = s.spd := (rfl)
@[simp] theorem setCalib_spdAnch (s : State) (x : CalEng) : (s.setCalib x).spdAnch = s.spdAnch := (rfl)
@[simp] theorem setCalib_spdNew (s : State) (x : CalEng) : (s.setCalib x).spdNew = s.spdNew := (rfl)
@[simp] theorem setCalib_spdTick (s : State) (x : CalEng) : (s.setCalib x).spdTick = s.spdTick := (rfl)
@[simp] theorem setCalib_spdOut (s : State) (x : CalEng) : (s.setCalib x).spdOut = s.spdOut := (rfl)
@[simp] theorem setCalib_snsGood (s : State) (x : CalEng) : (s.setCalib x).snsGood = s.snsGood := (rfl)
@[simp] theorem setCalib_snsPair (s : State) (x : CalEng) : (s.setCalib x).snsPair = s.snsPair := (rfl)
@[simp] theorem setCalib_dmx (s : State) (x : CalEng) : (s.setCalib x).dmx = s.dmx := (rfl)
@[simp] theorem setCalib_macs (s : State) (x : CalEng) : (s.setCalib x).macs = s.macs := (rfl)
@[simp] theorem setCalib_fpArmed (s : State) (x : CalEng) : (s.setCalib x).fpArmed = s.fpArmed := (rfl)
@[simp] theorem setCalib_unv (s : State) (x : CalEng) : (s.setCalib x).unv = s.unv := (rfl)
@[simp] theorem setCalib_tap (s : State) (x : CalEng) : (s.setCalib x).tap = s.tap := (rfl)
@[simp] theorem setCalib_lgl (s : State) (x : CalEng) : (s.setCalib x).lgl = s.lgl := (rfl)
@[simp] theorem setCalib_keys (s : State) (x : CalEng) : (s.setCalib x).keys = s.keys := (rfl)
@[simp] theorem setCalib_upd (s : State) (x : CalEng) : (s.setCalib x).upd = s.upd := (rfl)
@[simp] theorem setCalib_pwr (s : State) (x : CalEng) : (s.setCalib x).pwr = s.pwr := (rfl)
@[simp] theorem setCalib_nrg (s : State) (x : CalEng) : (s.setCalib x).nrg = s.nrg := (rfl)
@[simp] theorem setCalib_chkRun (s : State) (x : CalEng) : (s.setCalib x).chkRun = s.chkRun := (rfl)
@[simp] theorem setCalib_chnFwd (s : State) (x : CalEng) : (s.setCalib x).chnFwd = s.chnFwd := (rfl)
@[simp] theorem setCalib_chnQ (s : State) (x : CalEng) : (s.setCalib x).chnQ = s.chnQ := (rfl)
@[simp] theorem setCalib_chnLine (s : State) (x : CalEng) : (s.setCalib x).chnLine = s.chnLine := (rfl)
@[simp] theorem setCalib_chnTill (s : State) (x : CalEng) : (s.setCalib x).chnTill = s.chnTill := (rfl)
@[simp] theorem setCalib_chnWin (s : State) (x : CalEng) : (s.setCalib x).chnWin = s.chnWin := (rfl)
@[simp] theorem setCalib_chnSlot (s : State) (x : CalEng) : (s.setCalib x).chnSlot = s.chnSlot := (rfl)
@[simp] theorem setCalib_chnUsed (s : State) (x : CalEng) : (s.setCalib x).chnUsed = s.chnUsed := (rfl)
@[simp] theorem setCalib_pair (s : State) (x : CalEng) : (s.setCalib x).pair = s.pair := (rfl)
@[simp] theorem setCalib_spdPair (s : State) (x : CalEng) : (s.setCalib x).spdPair = s.spdPair := (rfl)
@[simp] theorem setCalib_committedNs (s : State) (x : CalEng) : (s.setCalib x).committedNs = s.committedNs := (rfl)
@[simp] theorem setCalib_failedUnits (s : State) (x : CalEng) : (s.setCalib x).failedUnits = s.failedUnits := (rfl)
@[simp] theorem setCalib_lanesOut (s : State) (x : CalEng) : (s.setCalib x).lanesOut = s.lanesOut := (rfl)
@[simp] theorem setCalib_swapsDue (s : State) (x : CalEng) : (s.setCalib x).swapsDue = s.swapsDue := (rfl)
@[simp] theorem setCalib_nvsWear (s : State) (x : CalEng) : (s.setCalib x).nvsWear = s.nvsWear := (rfl)

@[simp] theorem setLgl_pending (s : State) (x : Langal) : (s.setLgl x).pending = s.pending := (rfl)
@[simp] theorem setLgl_now (s : State) (x : Langal) : (s.setLgl x).now = s.now := (rfl)
@[simp] theorem setLgl_sck (s : State) (x : Langal) : (s.setLgl x).sck = s.sck := (rfl)
@[simp] theorem setLgl_fresh (s : State) (x : Langal) : (s.setLgl x).fresh = s.fresh := (rfl)
@[simp] theorem setLgl_regs (s : State) (x : Langal) : (s.setLgl x).regs = s.regs := (rfl)
@[simp] theorem setLgl_act (s : State) (x : Langal) : (s.setLgl x).act = s.act := (rfl)
@[simp] theorem setLgl_taken (s : State) (x : Langal) : (s.setLgl x).taken = s.taken := (rfl)
@[simp] theorem setLgl_commits (s : State) (x : Langal) : (s.setLgl x).commits = s.commits := (rfl)
@[simp] theorem setLgl_writeNo (s : State) (x : Langal) : (s.setLgl x).writeNo = s.writeNo := (rfl)
@[simp] theorem setLgl_shadowNo (s : State) (x : Langal) : (s.setLgl x).shadowNo = s.shadowNo := (rfl)
@[simp] theorem setLgl_mem (s : State) (x : Langal) : (s.setLgl x).mem = s.mem := (rfl)
@[simp] theorem setLgl_ecc (s : State) (x : Langal) : (s.setLgl x).ecc = s.ecc := (rfl)
@[simp] theorem setLgl_tsuAcc (s : State) (x : Langal) : (s.setLgl x).tsuAcc = s.tsuAcc := (rfl)
@[simp] theorem setLgl_tsuHi (s : State) (x : Langal) : (s.setLgl x).tsuHi = s.tsuHi := (rfl)
@[simp] theorem setLgl_tsuHist (s : State) (x : Langal) : (s.setLgl x).tsuHist = s.tsuHist := (rfl)
@[simp] theorem setLgl_vents (s : State) (x : Langal) : (s.setLgl x).vents = s.vents := (rfl)
@[simp] theorem setLgl_craters (s : State) (x : Langal) : (s.setLgl x).craters = s.craters := (rfl)
@[simp] theorem setLgl_tasks (s : State) (x : Langal) : (s.setLgl x).tasks = s.tasks := (rfl)
@[simp] theorem setLgl_seqs (s : State) (x : Langal) : (s.setLgl x).seqs = s.seqs := (rfl)
@[simp] theorem setLgl_cals (s : State) (x : Langal) : (s.setLgl x).cals = s.cals := (rfl)
@[simp] theorem setLgl_dies (s : State) (x : Langal) : (s.setLgl x).dies = s.dies := (rfl)
@[simp] theorem setLgl_gates (s : State) (x : Langal) : (s.setLgl x).gates = s.gates := (rfl)
@[simp] theorem setLgl_cores (s : State) (x : Langal) : (s.setLgl x).cores = s.cores := (rfl)
@[simp] theorem setLgl_ticketNo (s : State) (x : Langal) : (s.setLgl x).ticketNo = s.ticketNo := (rfl)
@[simp] theorem setLgl_outTaken (s : State) (x : Langal) : (s.setLgl x).outTaken = s.outTaken := (rfl)
@[simp] theorem setLgl_relTaken (s : State) (x : Langal) : (s.setLgl x).relTaken = s.relTaken := (rfl)
@[simp] theorem setLgl_fifos (s : State) (x : Langal) : (s.setLgl x).fifos = s.fifos := (rfl)
@[simp] theorem setLgl_chans (s : State) (x : Langal) : (s.setLgl x).chans = s.chans := (rfl)
@[simp] theorem setLgl_targets (s : State) (x : Langal) : (s.setLgl x).targets = s.targets := (rfl)
@[simp] theorem setLgl_icuPend (s : State) (x : Langal) : (s.setLgl x).icuPend = s.icuPend := (rfl)
@[simp] theorem setLgl_icuSvc (s : State) (x : Langal) : (s.setLgl x).icuSvc = s.icuSvc := (rfl)
@[simp] theorem setLgl_icuLine (s : State) (x : Langal) : (s.setLgl x).icuLine = s.icuLine := (rfl)
@[simp] theorem setLgl_sinter (s : State) (x : Langal) : (s.setLgl x).sinter = s.sinter := (rfl)
@[simp] theorem setLgl_springLatch (s : State) (x : Langal) : (s.setLgl x).springLatch = s.springLatch := (rfl)
@[simp] theorem setLgl_flt (s : State) (x : Langal) : (s.setLgl x).flt = s.flt := (rfl)
@[simp] theorem setLgl_fltNvs (s : State) (x : Langal) : (s.setLgl x).fltNvs = s.fltNvs := (rfl)
@[simp] theorem setLgl_host (s : State) (x : Langal) : (s.setLgl x).host = s.host := (rfl)
@[simp] theorem setLgl_hwFaults (s : State) (x : Langal) : (s.setLgl x).hwFaults = s.hwFaults := (rfl)
@[simp] theorem setLgl_hwchk (s : State) (x : Langal) : (s.setLgl x).hwchk = s.hwchk := (rfl)
@[simp] theorem setLgl_dramReqs (s : State) (x : Langal) : (s.setLgl x).dramReqs = s.dramReqs := (rfl)
@[simp] theorem setLgl_dramRef (s : State) (x : Langal) : (s.setLgl x).dramRef = s.dramRef := (rfl)
@[simp] theorem setLgl_hostRead (s : State) (x : Langal) : (s.setLgl x).hostRead = s.hostRead := (rfl)
@[simp] theorem setLgl_bgtOver (s : State) (x : Langal) : (s.setLgl x).bgtOver = s.bgtOver := (rfl)
@[simp] theorem setLgl_bgtUnder (s : State) (x : Langal) : (s.setLgl x).bgtUnder = s.bgtUnder := (rfl)
@[simp] theorem setLgl_snapReq (s : State) (x : Langal) : (s.setLgl x).snapReq = s.snapReq := (rfl)
@[simp] theorem setLgl_capReq (s : State) (x : Langal) : (s.setLgl x).capReq = s.capReq := (rfl)
@[simp] theorem setLgl_flkNo (s : State) (x : Langal) : (s.setLgl x).flkNo = s.flkNo := (rfl)
@[simp] theorem setLgl_ratePend (s : State) (x : Langal) : (s.setLgl x).ratePend = s.ratePend := (rfl)
@[simp] theorem setLgl_fsyncAt (s : State) (x : Langal) : (s.setLgl x).fsyncAt = s.fsyncAt := (rfl)
@[simp] theorem setLgl_flkNext (s : State) (x : Langal) : (s.setLgl x).flkNext = s.flkNext := (rfl)
@[simp] theorem setLgl_flkFired (s : State) (x : Langal) : (s.setLgl x).flkFired = s.flkFired := (rfl)
@[simp] theorem setLgl_flkS (s : State) (x : Langal) : (s.setLgl x).flkS = s.flkS := (rfl)
@[simp] theorem setLgl_lateNoted (s : State) (x : Langal) : (s.setLgl x).lateNoted = s.lateNoted := (rfl)
@[simp] theorem setLgl_sealed (s : State) (x : Langal) : (s.setLgl x).sealed = s.sealed := (rfl)
@[simp] theorem setLgl_sealHold (s : State) (x : Langal) : (s.setLgl x).sealHold = s.sealHold := (rfl)
@[simp] theorem setLgl_fadeFc (s : State) (x : Langal) : (s.setLgl x).fadeFc = s.fadeFc := (rfl)
@[simp] theorem setLgl_fadeTc (s : State) (x : Langal) : (s.setLgl x).fadeTc = s.fadeTc := (rfl)
@[simp] theorem setLgl_notices (s : State) (x : Langal) : (s.setLgl x).notices = s.notices := (rfl)
@[simp] theorem setLgl_peers (s : State) (x : Langal) : (s.setLgl x).peers = s.peers := (rfl)
@[simp] theorem setLgl_chnOut (s : State) (x : Langal) : (s.setLgl x).chnOut = s.chnOut := (rfl)
@[simp] theorem setLgl_chnAlive (s : State) (x : Langal) : (s.setLgl x).chnAlive = s.chnAlive := (rfl)
@[simp] theorem setLgl_roleAt (s : State) (x : Langal) : (s.setLgl x).roleAt = s.roleAt := (rfl)
@[simp] theorem setLgl_tbl (s : State) (x : Langal) : (s.setLgl x).tbl = s.tbl := (rfl)
@[simp] theorem setLgl_bufs (s : State) (x : Langal) : (s.setLgl x).bufs = s.bufs := (rfl)
@[simp] theorem setLgl_vid (s : State) (x : Langal) : (s.setLgl x).vid = s.vid := (rfl)
@[simp] theorem setLgl_vidDrop (s : State) (x : Langal) : (s.setLgl x).vidDrop = s.vidDrop := (rfl)
@[simp] theorem setLgl_layerStore (s : State) (x : Langal) : (s.setLgl x).layerStore = s.layerStore := (rfl)
@[simp] theorem setLgl_lgvPrev (s : State) (x : Langal) : (s.setLgl x).lgvPrev = s.lgvPrev := (rfl)
@[simp] theorem setLgl_lgvD (s : State) (x : Langal) : (s.setLgl x).lgvD = s.lgvD := (rfl)
@[simp] theorem setLgl_tfFrames (s : State) (x : Langal) : (s.setLgl x).tfFrames = s.tfFrames := (rfl)
@[simp] theorem setLgl_tfPair (s : State) (x : Langal) : (s.setLgl x).tfPair = s.tfPair := (rfl)
@[simp] theorem setLgl_tfPairAt (s : State) (x : Langal) : (s.setLgl x).tfPairAt = s.tfPairAt := (rfl)
@[simp] theorem setLgl_outScale (s : State) (x : Langal) : (s.setLgl x).outScale = s.outScale := (rfl)
@[simp] theorem setLgl_slotWrites (s : State) (x : Langal) : (s.setLgl x).slotWrites = s.slotWrites := (rfl)
@[simp] theorem setLgl_copyWrites (s : State) (x : Langal) : (s.setLgl x).copyWrites = s.copyWrites := (rfl)
@[simp] theorem setLgl_gens (s : State) (x : Langal) : (s.setLgl x).gens = s.gens := (rfl)
@[simp] theorem setLgl_fadeFrames (s : State) (x : Langal) : (s.setLgl x).fadeFrames = s.fadeFrames := (rfl)
@[simp] theorem setLgl_layerTs (s : State) (x : Langal) : (s.setLgl x).layerTs = s.layerTs := (rfl)
@[simp] theorem setLgl_tileLanes (s : State) (x : Langal) : (s.setLgl x).tileLanes = s.tileLanes := (rfl)
@[simp] theorem setLgl_spd (s : State) (x : Langal) : (s.setLgl x).spd = s.spd := (rfl)
@[simp] theorem setLgl_spdAnch (s : State) (x : Langal) : (s.setLgl x).spdAnch = s.spdAnch := (rfl)
@[simp] theorem setLgl_spdNew (s : State) (x : Langal) : (s.setLgl x).spdNew = s.spdNew := (rfl)
@[simp] theorem setLgl_spdTick (s : State) (x : Langal) : (s.setLgl x).spdTick = s.spdTick := (rfl)
@[simp] theorem setLgl_spdOut (s : State) (x : Langal) : (s.setLgl x).spdOut = s.spdOut := (rfl)
@[simp] theorem setLgl_snsGood (s : State) (x : Langal) : (s.setLgl x).snsGood = s.snsGood := (rfl)
@[simp] theorem setLgl_snsPair (s : State) (x : Langal) : (s.setLgl x).snsPair = s.snsPair := (rfl)
@[simp] theorem setLgl_dmx (s : State) (x : Langal) : (s.setLgl x).dmx = s.dmx := (rfl)
@[simp] theorem setLgl_macs (s : State) (x : Langal) : (s.setLgl x).macs = s.macs := (rfl)
@[simp] theorem setLgl_fpArmed (s : State) (x : Langal) : (s.setLgl x).fpArmed = s.fpArmed := (rfl)
@[simp] theorem setLgl_unv (s : State) (x : Langal) : (s.setLgl x).unv = s.unv := (rfl)
@[simp] theorem setLgl_tap (s : State) (x : Langal) : (s.setLgl x).tap = s.tap := (rfl)
@[simp] theorem setLgl_keys (s : State) (x : Langal) : (s.setLgl x).keys = s.keys := (rfl)
@[simp] theorem setLgl_upd (s : State) (x : Langal) : (s.setLgl x).upd = s.upd := (rfl)
@[simp] theorem setLgl_pwr (s : State) (x : Langal) : (s.setLgl x).pwr = s.pwr := (rfl)
@[simp] theorem setLgl_nrg (s : State) (x : Langal) : (s.setLgl x).nrg = s.nrg := (rfl)
@[simp] theorem setLgl_calib (s : State) (x : Langal) : (s.setLgl x).calib = s.calib := (rfl)
@[simp] theorem setLgl_chkRun (s : State) (x : Langal) : (s.setLgl x).chkRun = s.chkRun := (rfl)
@[simp] theorem setLgl_chnFwd (s : State) (x : Langal) : (s.setLgl x).chnFwd = s.chnFwd := (rfl)
@[simp] theorem setLgl_chnQ (s : State) (x : Langal) : (s.setLgl x).chnQ = s.chnQ := (rfl)
@[simp] theorem setLgl_chnLine (s : State) (x : Langal) : (s.setLgl x).chnLine = s.chnLine := (rfl)
@[simp] theorem setLgl_chnTill (s : State) (x : Langal) : (s.setLgl x).chnTill = s.chnTill := (rfl)
@[simp] theorem setLgl_chnWin (s : State) (x : Langal) : (s.setLgl x).chnWin = s.chnWin := (rfl)
@[simp] theorem setLgl_chnSlot (s : State) (x : Langal) : (s.setLgl x).chnSlot = s.chnSlot := (rfl)
@[simp] theorem setLgl_chnUsed (s : State) (x : Langal) : (s.setLgl x).chnUsed = s.chnUsed := (rfl)
@[simp] theorem setLgl_pair (s : State) (x : Langal) : (s.setLgl x).pair = s.pair := (rfl)
@[simp] theorem setLgl_spdPair (s : State) (x : Langal) : (s.setLgl x).spdPair = s.spdPair := (rfl)
@[simp] theorem setLgl_committedNs (s : State) (x : Langal) : (s.setLgl x).committedNs = s.committedNs := (rfl)
@[simp] theorem setLgl_failedUnits (s : State) (x : Langal) : (s.setLgl x).failedUnits = s.failedUnits := (rfl)
@[simp] theorem setLgl_lanesOut (s : State) (x : Langal) : (s.setLgl x).lanesOut = s.lanesOut := (rfl)
@[simp] theorem setLgl_swapsDue (s : State) (x : Langal) : (s.setLgl x).swapsDue = s.swapsDue := (rfl)
@[simp] theorem setLgl_nvsWear (s : State) (x : Langal) : (s.setLgl x).nvsWear = s.nvsWear := (rfl)

@[simp] theorem setUnv_pending (s : State) (u : Unv) : (s.setUnv u).pending = s.pending := (rfl)
@[simp] theorem setUnv_now (s : State) (u : Unv) : (s.setUnv u).now = s.now := (rfl)
@[simp] theorem setUnv_sck (s : State) (u : Unv) : (s.setUnv u).sck = s.sck := (rfl)
@[simp] theorem setUnv_fresh (s : State) (u : Unv) : (s.setUnv u).fresh = s.fresh := (rfl)
@[simp] theorem setUnv_regs (s : State) (u : Unv) : (s.setUnv u).regs = s.regs := (rfl)
@[simp] theorem setUnv_act (s : State) (u : Unv) : (s.setUnv u).act = s.act := (rfl)
@[simp] theorem setUnv_taken (s : State) (u : Unv) : (s.setUnv u).taken = s.taken := (rfl)
@[simp] theorem setUnv_commits (s : State) (u : Unv) : (s.setUnv u).commits = s.commits := (rfl)
@[simp] theorem setUnv_writeNo (s : State) (u : Unv) : (s.setUnv u).writeNo = s.writeNo := (rfl)
@[simp] theorem setUnv_shadowNo (s : State) (u : Unv) : (s.setUnv u).shadowNo = s.shadowNo := (rfl)
@[simp] theorem setUnv_mem (s : State) (u : Unv) : (s.setUnv u).mem = s.mem := (rfl)
@[simp] theorem setUnv_ecc (s : State) (u : Unv) : (s.setUnv u).ecc = s.ecc := (rfl)
@[simp] theorem setUnv_tsuAcc (s : State) (u : Unv) : (s.setUnv u).tsuAcc = s.tsuAcc := (rfl)
@[simp] theorem setUnv_tsuHi (s : State) (u : Unv) : (s.setUnv u).tsuHi = s.tsuHi := (rfl)
@[simp] theorem setUnv_tsuHist (s : State) (u : Unv) : (s.setUnv u).tsuHist = s.tsuHist := (rfl)
@[simp] theorem setUnv_vents (s : State) (u : Unv) : (s.setUnv u).vents = s.vents := (rfl)
@[simp] theorem setUnv_craters (s : State) (u : Unv) : (s.setUnv u).craters = s.craters := (rfl)
@[simp] theorem setUnv_tasks (s : State) (u : Unv) : (s.setUnv u).tasks = s.tasks := (rfl)
@[simp] theorem setUnv_seqs (s : State) (u : Unv) : (s.setUnv u).seqs = s.seqs := (rfl)
@[simp] theorem setUnv_cals (s : State) (u : Unv) : (s.setUnv u).cals = s.cals := (rfl)
@[simp] theorem setUnv_dies (s : State) (u : Unv) : (s.setUnv u).dies = s.dies := (rfl)
@[simp] theorem setUnv_gates (s : State) (u : Unv) : (s.setUnv u).gates = s.gates := (rfl)
@[simp] theorem setUnv_cores (s : State) (u : Unv) : (s.setUnv u).cores = s.cores := (rfl)
@[simp] theorem setUnv_ticketNo (s : State) (u : Unv) : (s.setUnv u).ticketNo = s.ticketNo := (rfl)
@[simp] theorem setUnv_outTaken (s : State) (u : Unv) : (s.setUnv u).outTaken = s.outTaken := (rfl)
@[simp] theorem setUnv_relTaken (s : State) (u : Unv) : (s.setUnv u).relTaken = s.relTaken := (rfl)
@[simp] theorem setUnv_fifos (s : State) (u : Unv) : (s.setUnv u).fifos = s.fifos := (rfl)
@[simp] theorem setUnv_chans (s : State) (u : Unv) : (s.setUnv u).chans = s.chans := (rfl)
@[simp] theorem setUnv_targets (s : State) (u : Unv) : (s.setUnv u).targets = s.targets := (rfl)
@[simp] theorem setUnv_icuPend (s : State) (u : Unv) : (s.setUnv u).icuPend = s.icuPend := (rfl)
@[simp] theorem setUnv_icuSvc (s : State) (u : Unv) : (s.setUnv u).icuSvc = s.icuSvc := (rfl)
@[simp] theorem setUnv_icuLine (s : State) (u : Unv) : (s.setUnv u).icuLine = s.icuLine := (rfl)
@[simp] theorem setUnv_sinter (s : State) (u : Unv) : (s.setUnv u).sinter = s.sinter := (rfl)
@[simp] theorem setUnv_springLatch (s : State) (u : Unv) : (s.setUnv u).springLatch = s.springLatch := (rfl)
@[simp] theorem setUnv_flt (s : State) (u : Unv) : (s.setUnv u).flt = s.flt := (rfl)
@[simp] theorem setUnv_fltNvs (s : State) (u : Unv) : (s.setUnv u).fltNvs = s.fltNvs := (rfl)
@[simp] theorem setUnv_host (s : State) (u : Unv) : (s.setUnv u).host = s.host := (rfl)
@[simp] theorem setUnv_hwFaults (s : State) (u : Unv) : (s.setUnv u).hwFaults = s.hwFaults := (rfl)
@[simp] theorem setUnv_hwchk (s : State) (u : Unv) : (s.setUnv u).hwchk = s.hwchk := (rfl)
@[simp] theorem setUnv_dramReqs (s : State) (u : Unv) : (s.setUnv u).dramReqs = s.dramReqs := (rfl)
@[simp] theorem setUnv_dramRef (s : State) (u : Unv) : (s.setUnv u).dramRef = s.dramRef := (rfl)
@[simp] theorem setUnv_hostRead (s : State) (u : Unv) : (s.setUnv u).hostRead = s.hostRead := (rfl)
@[simp] theorem setUnv_bgtOver (s : State) (u : Unv) : (s.setUnv u).bgtOver = s.bgtOver := (rfl)
@[simp] theorem setUnv_bgtUnder (s : State) (u : Unv) : (s.setUnv u).bgtUnder = s.bgtUnder := (rfl)
@[simp] theorem setUnv_snapReq (s : State) (u : Unv) : (s.setUnv u).snapReq = s.snapReq := (rfl)
@[simp] theorem setUnv_capReq (s : State) (u : Unv) : (s.setUnv u).capReq = s.capReq := (rfl)
@[simp] theorem setUnv_flkNo (s : State) (u : Unv) : (s.setUnv u).flkNo = s.flkNo := (rfl)
@[simp] theorem setUnv_ratePend (s : State) (u : Unv) : (s.setUnv u).ratePend = s.ratePend := (rfl)
@[simp] theorem setUnv_fsyncAt (s : State) (u : Unv) : (s.setUnv u).fsyncAt = s.fsyncAt := (rfl)
@[simp] theorem setUnv_flkNext (s : State) (u : Unv) : (s.setUnv u).flkNext = s.flkNext := (rfl)
@[simp] theorem setUnv_flkFired (s : State) (u : Unv) : (s.setUnv u).flkFired = s.flkFired := (rfl)
@[simp] theorem setUnv_flkS (s : State) (u : Unv) : (s.setUnv u).flkS = s.flkS := (rfl)
@[simp] theorem setUnv_lateNoted (s : State) (u : Unv) : (s.setUnv u).lateNoted = s.lateNoted := (rfl)
@[simp] theorem setUnv_sealed (s : State) (u : Unv) : (s.setUnv u).sealed = s.sealed := (rfl)
@[simp] theorem setUnv_sealHold (s : State) (u : Unv) : (s.setUnv u).sealHold = s.sealHold := (rfl)
@[simp] theorem setUnv_fadeFc (s : State) (u : Unv) : (s.setUnv u).fadeFc = s.fadeFc := (rfl)
@[simp] theorem setUnv_fadeTc (s : State) (u : Unv) : (s.setUnv u).fadeTc = s.fadeTc := (rfl)
@[simp] theorem setUnv_notices (s : State) (u : Unv) : (s.setUnv u).notices = s.notices := (rfl)
@[simp] theorem setUnv_peers (s : State) (u : Unv) : (s.setUnv u).peers = s.peers := (rfl)
@[simp] theorem setUnv_chnOut (s : State) (u : Unv) : (s.setUnv u).chnOut = s.chnOut := (rfl)
@[simp] theorem setUnv_chnAlive (s : State) (u : Unv) : (s.setUnv u).chnAlive = s.chnAlive := (rfl)
@[simp] theorem setUnv_roleAt (s : State) (u : Unv) : (s.setUnv u).roleAt = s.roleAt := (rfl)
@[simp] theorem setUnv_tbl (s : State) (u : Unv) : (s.setUnv u).tbl = s.tbl := (rfl)
@[simp] theorem setUnv_bufs (s : State) (u : Unv) : (s.setUnv u).bufs = s.bufs := (rfl)
@[simp] theorem setUnv_vid (s : State) (u : Unv) : (s.setUnv u).vid = s.vid := (rfl)
@[simp] theorem setUnv_vidDrop (s : State) (u : Unv) : (s.setUnv u).vidDrop = s.vidDrop := (rfl)
@[simp] theorem setUnv_layerStore (s : State) (u : Unv) : (s.setUnv u).layerStore = s.layerStore := (rfl)
@[simp] theorem setUnv_lgvPrev (s : State) (u : Unv) : (s.setUnv u).lgvPrev = s.lgvPrev := (rfl)
@[simp] theorem setUnv_lgvD (s : State) (u : Unv) : (s.setUnv u).lgvD = s.lgvD := (rfl)
@[simp] theorem setUnv_tfFrames (s : State) (u : Unv) : (s.setUnv u).tfFrames = s.tfFrames := (rfl)
@[simp] theorem setUnv_tfPair (s : State) (u : Unv) : (s.setUnv u).tfPair = s.tfPair := (rfl)
@[simp] theorem setUnv_tfPairAt (s : State) (u : Unv) : (s.setUnv u).tfPairAt = s.tfPairAt := (rfl)
@[simp] theorem setUnv_outScale (s : State) (u : Unv) : (s.setUnv u).outScale = s.outScale := (rfl)
@[simp] theorem setUnv_slotWrites (s : State) (u : Unv) : (s.setUnv u).slotWrites = s.slotWrites := (rfl)
@[simp] theorem setUnv_copyWrites (s : State) (u : Unv) : (s.setUnv u).copyWrites = s.copyWrites := (rfl)
@[simp] theorem setUnv_gens (s : State) (u : Unv) : (s.setUnv u).gens = s.gens := (rfl)
@[simp] theorem setUnv_fadeFrames (s : State) (u : Unv) : (s.setUnv u).fadeFrames = s.fadeFrames := (rfl)
@[simp] theorem setUnv_layerTs (s : State) (u : Unv) : (s.setUnv u).layerTs = s.layerTs := (rfl)
@[simp] theorem setUnv_tileLanes (s : State) (u : Unv) : (s.setUnv u).tileLanes = s.tileLanes := (rfl)
@[simp] theorem setUnv_spd (s : State) (u : Unv) : (s.setUnv u).spd = s.spd := (rfl)
@[simp] theorem setUnv_spdAnch (s : State) (u : Unv) : (s.setUnv u).spdAnch = s.spdAnch := (rfl)
@[simp] theorem setUnv_spdNew (s : State) (u : Unv) : (s.setUnv u).spdNew = s.spdNew := (rfl)
@[simp] theorem setUnv_spdTick (s : State) (u : Unv) : (s.setUnv u).spdTick = s.spdTick := (rfl)
@[simp] theorem setUnv_spdOut (s : State) (u : Unv) : (s.setUnv u).spdOut = s.spdOut := (rfl)
@[simp] theorem setUnv_snsGood (s : State) (u : Unv) : (s.setUnv u).snsGood = s.snsGood := (rfl)
@[simp] theorem setUnv_snsPair (s : State) (u : Unv) : (s.setUnv u).snsPair = s.snsPair := (rfl)
@[simp] theorem setUnv_dmx (s : State) (u : Unv) : (s.setUnv u).dmx = s.dmx := (rfl)
@[simp] theorem setUnv_macs (s : State) (u : Unv) : (s.setUnv u).macs = s.macs := (rfl)
@[simp] theorem setUnv_fpArmed (s : State) (u : Unv) : (s.setUnv u).fpArmed = s.fpArmed := (rfl)
@[simp] theorem setUnv_tap (s : State) (u : Unv) : (s.setUnv u).tap = s.tap := (rfl)
@[simp] theorem setUnv_lgl (s : State) (u : Unv) : (s.setUnv u).lgl = s.lgl := (rfl)
@[simp] theorem setUnv_keys (s : State) (u : Unv) : (s.setUnv u).keys = s.keys := (rfl)
@[simp] theorem setUnv_upd (s : State) (u : Unv) : (s.setUnv u).upd = s.upd := (rfl)
@[simp] theorem setUnv_pwr (s : State) (u : Unv) : (s.setUnv u).pwr = s.pwr := (rfl)
@[simp] theorem setUnv_nrg (s : State) (u : Unv) : (s.setUnv u).nrg = s.nrg := (rfl)
@[simp] theorem setUnv_calib (s : State) (u : Unv) : (s.setUnv u).calib = s.calib := (rfl)
@[simp] theorem setUnv_chkRun (s : State) (u : Unv) : (s.setUnv u).chkRun = s.chkRun := (rfl)
@[simp] theorem setUnv_chnFwd (s : State) (u : Unv) : (s.setUnv u).chnFwd = s.chnFwd := (rfl)
@[simp] theorem setUnv_chnQ (s : State) (u : Unv) : (s.setUnv u).chnQ = s.chnQ := (rfl)
@[simp] theorem setUnv_chnLine (s : State) (u : Unv) : (s.setUnv u).chnLine = s.chnLine := (rfl)
@[simp] theorem setUnv_chnTill (s : State) (u : Unv) : (s.setUnv u).chnTill = s.chnTill := (rfl)
@[simp] theorem setUnv_chnWin (s : State) (u : Unv) : (s.setUnv u).chnWin = s.chnWin := (rfl)
@[simp] theorem setUnv_chnSlot (s : State) (u : Unv) : (s.setUnv u).chnSlot = s.chnSlot := (rfl)
@[simp] theorem setUnv_chnUsed (s : State) (u : Unv) : (s.setUnv u).chnUsed = s.chnUsed := (rfl)
@[simp] theorem setUnv_pair (s : State) (u : Unv) : (s.setUnv u).pair = s.pair := (rfl)
@[simp] theorem setUnv_spdPair (s : State) (u : Unv) : (s.setUnv u).spdPair = s.spdPair := (rfl)
@[simp] theorem setUnv_committedNs (s : State) (u : Unv) : (s.setUnv u).committedNs = s.committedNs := (rfl)
@[simp] theorem setUnv_failedUnits (s : State) (u : Unv) : (s.setUnv u).failedUnits = s.failedUnits := (rfl)
@[simp] theorem setUnv_lanesOut (s : State) (u : Unv) : (s.setUnv u).lanesOut = s.lanesOut := (rfl)
@[simp] theorem setUnv_swapsDue (s : State) (u : Unv) : (s.setUnv u).swapsDue = s.swapsDue := (rfl)
@[simp] theorem setUnv_nvsWear (s : State) (u : Unv) : (s.setUnv u).nvsWear = s.nvsWear := (rfl)

@[simp] theorem setMac_pending (s : State) (p : Nat) (x : MacPort) : (s.setMac p x).pending = s.pending := (rfl)
@[simp] theorem setMac_now (s : State) (p : Nat) (x : MacPort) : (s.setMac p x).now = s.now := (rfl)
@[simp] theorem setMac_sck (s : State) (p : Nat) (x : MacPort) : (s.setMac p x).sck = s.sck := (rfl)
@[simp] theorem setMac_fresh (s : State) (p : Nat) (x : MacPort) : (s.setMac p x).fresh = s.fresh := (rfl)
@[simp] theorem setMac_regs (s : State) (p : Nat) (x : MacPort) : (s.setMac p x).regs = s.regs := (rfl)
@[simp] theorem setMac_act (s : State) (p : Nat) (x : MacPort) : (s.setMac p x).act = s.act := (rfl)
@[simp] theorem setMac_taken (s : State) (p : Nat) (x : MacPort) : (s.setMac p x).taken = s.taken := (rfl)
@[simp] theorem setMac_commits (s : State) (p : Nat) (x : MacPort) : (s.setMac p x).commits = s.commits := (rfl)
@[simp] theorem setMac_writeNo (s : State) (p : Nat) (x : MacPort) : (s.setMac p x).writeNo = s.writeNo := (rfl)
@[simp] theorem setMac_shadowNo (s : State) (p : Nat) (x : MacPort) : (s.setMac p x).shadowNo = s.shadowNo := (rfl)
@[simp] theorem setMac_mem (s : State) (p : Nat) (x : MacPort) : (s.setMac p x).mem = s.mem := (rfl)
@[simp] theorem setMac_ecc (s : State) (p : Nat) (x : MacPort) : (s.setMac p x).ecc = s.ecc := (rfl)
@[simp] theorem setMac_tsuAcc (s : State) (p : Nat) (x : MacPort) : (s.setMac p x).tsuAcc = s.tsuAcc := (rfl)
@[simp] theorem setMac_tsuHi (s : State) (p : Nat) (x : MacPort) : (s.setMac p x).tsuHi = s.tsuHi := (rfl)
@[simp] theorem setMac_tsuHist (s : State) (p : Nat) (x : MacPort) : (s.setMac p x).tsuHist = s.tsuHist := (rfl)
@[simp] theorem setMac_vents (s : State) (p : Nat) (x : MacPort) : (s.setMac p x).vents = s.vents := (rfl)
@[simp] theorem setMac_craters (s : State) (p : Nat) (x : MacPort) : (s.setMac p x).craters = s.craters := (rfl)
@[simp] theorem setMac_tasks (s : State) (p : Nat) (x : MacPort) : (s.setMac p x).tasks = s.tasks := (rfl)
@[simp] theorem setMac_seqs (s : State) (p : Nat) (x : MacPort) : (s.setMac p x).seqs = s.seqs := (rfl)
@[simp] theorem setMac_cals (s : State) (p : Nat) (x : MacPort) : (s.setMac p x).cals = s.cals := (rfl)
@[simp] theorem setMac_dies (s : State) (p : Nat) (x : MacPort) : (s.setMac p x).dies = s.dies := (rfl)
@[simp] theorem setMac_gates (s : State) (p : Nat) (x : MacPort) : (s.setMac p x).gates = s.gates := (rfl)
@[simp] theorem setMac_cores (s : State) (p : Nat) (x : MacPort) : (s.setMac p x).cores = s.cores := (rfl)
@[simp] theorem setMac_ticketNo (s : State) (p : Nat) (x : MacPort) : (s.setMac p x).ticketNo = s.ticketNo := (rfl)
@[simp] theorem setMac_outTaken (s : State) (p : Nat) (x : MacPort) : (s.setMac p x).outTaken = s.outTaken := (rfl)
@[simp] theorem setMac_relTaken (s : State) (p : Nat) (x : MacPort) : (s.setMac p x).relTaken = s.relTaken := (rfl)
@[simp] theorem setMac_fifos (s : State) (p : Nat) (x : MacPort) : (s.setMac p x).fifos = s.fifos := (rfl)
@[simp] theorem setMac_chans (s : State) (p : Nat) (x : MacPort) : (s.setMac p x).chans = s.chans := (rfl)
@[simp] theorem setMac_targets (s : State) (p : Nat) (x : MacPort) : (s.setMac p x).targets = s.targets := (rfl)
@[simp] theorem setMac_icuPend (s : State) (p : Nat) (x : MacPort) : (s.setMac p x).icuPend = s.icuPend := (rfl)
@[simp] theorem setMac_icuSvc (s : State) (p : Nat) (x : MacPort) : (s.setMac p x).icuSvc = s.icuSvc := (rfl)
@[simp] theorem setMac_icuLine (s : State) (p : Nat) (x : MacPort) : (s.setMac p x).icuLine = s.icuLine := (rfl)
@[simp] theorem setMac_sinter (s : State) (p : Nat) (x : MacPort) : (s.setMac p x).sinter = s.sinter := (rfl)
@[simp] theorem setMac_springLatch (s : State) (p : Nat) (x : MacPort) : (s.setMac p x).springLatch = s.springLatch := (rfl)
@[simp] theorem setMac_flt (s : State) (p : Nat) (x : MacPort) : (s.setMac p x).flt = s.flt := (rfl)
@[simp] theorem setMac_fltNvs (s : State) (p : Nat) (x : MacPort) : (s.setMac p x).fltNvs = s.fltNvs := (rfl)
@[simp] theorem setMac_host (s : State) (p : Nat) (x : MacPort) : (s.setMac p x).host = s.host := (rfl)
@[simp] theorem setMac_hwFaults (s : State) (p : Nat) (x : MacPort) : (s.setMac p x).hwFaults = s.hwFaults := (rfl)
@[simp] theorem setMac_hwchk (s : State) (p : Nat) (x : MacPort) : (s.setMac p x).hwchk = s.hwchk := (rfl)
@[simp] theorem setMac_dramReqs (s : State) (p : Nat) (x : MacPort) : (s.setMac p x).dramReqs = s.dramReqs := (rfl)
@[simp] theorem setMac_dramRef (s : State) (p : Nat) (x : MacPort) : (s.setMac p x).dramRef = s.dramRef := (rfl)
@[simp] theorem setMac_hostRead (s : State) (p : Nat) (x : MacPort) : (s.setMac p x).hostRead = s.hostRead := (rfl)
@[simp] theorem setMac_bgtOver (s : State) (p : Nat) (x : MacPort) : (s.setMac p x).bgtOver = s.bgtOver := (rfl)
@[simp] theorem setMac_bgtUnder (s : State) (p : Nat) (x : MacPort) : (s.setMac p x).bgtUnder = s.bgtUnder := (rfl)
@[simp] theorem setMac_snapReq (s : State) (p : Nat) (x : MacPort) : (s.setMac p x).snapReq = s.snapReq := (rfl)
@[simp] theorem setMac_capReq (s : State) (p : Nat) (x : MacPort) : (s.setMac p x).capReq = s.capReq := (rfl)
@[simp] theorem setMac_flkNo (s : State) (p : Nat) (x : MacPort) : (s.setMac p x).flkNo = s.flkNo := (rfl)
@[simp] theorem setMac_ratePend (s : State) (p : Nat) (x : MacPort) : (s.setMac p x).ratePend = s.ratePend := (rfl)
@[simp] theorem setMac_fsyncAt (s : State) (p : Nat) (x : MacPort) : (s.setMac p x).fsyncAt = s.fsyncAt := (rfl)
@[simp] theorem setMac_flkNext (s : State) (p : Nat) (x : MacPort) : (s.setMac p x).flkNext = s.flkNext := (rfl)
@[simp] theorem setMac_flkFired (s : State) (p : Nat) (x : MacPort) : (s.setMac p x).flkFired = s.flkFired := (rfl)
@[simp] theorem setMac_flkS (s : State) (p : Nat) (x : MacPort) : (s.setMac p x).flkS = s.flkS := (rfl)
@[simp] theorem setMac_lateNoted (s : State) (p : Nat) (x : MacPort) : (s.setMac p x).lateNoted = s.lateNoted := (rfl)
@[simp] theorem setMac_sealed (s : State) (p : Nat) (x : MacPort) : (s.setMac p x).sealed = s.sealed := (rfl)
@[simp] theorem setMac_sealHold (s : State) (p : Nat) (x : MacPort) : (s.setMac p x).sealHold = s.sealHold := (rfl)
@[simp] theorem setMac_fadeFc (s : State) (p : Nat) (x : MacPort) : (s.setMac p x).fadeFc = s.fadeFc := (rfl)
@[simp] theorem setMac_fadeTc (s : State) (p : Nat) (x : MacPort) : (s.setMac p x).fadeTc = s.fadeTc := (rfl)
@[simp] theorem setMac_notices (s : State) (p : Nat) (x : MacPort) : (s.setMac p x).notices = s.notices := (rfl)
@[simp] theorem setMac_peers (s : State) (p : Nat) (x : MacPort) : (s.setMac p x).peers = s.peers := (rfl)
@[simp] theorem setMac_chnOut (s : State) (p : Nat) (x : MacPort) : (s.setMac p x).chnOut = s.chnOut := (rfl)
@[simp] theorem setMac_chnAlive (s : State) (p : Nat) (x : MacPort) : (s.setMac p x).chnAlive = s.chnAlive := (rfl)
@[simp] theorem setMac_roleAt (s : State) (p : Nat) (x : MacPort) : (s.setMac p x).roleAt = s.roleAt := (rfl)
@[simp] theorem setMac_tbl (s : State) (p : Nat) (x : MacPort) : (s.setMac p x).tbl = s.tbl := (rfl)
@[simp] theorem setMac_bufs (s : State) (p : Nat) (x : MacPort) : (s.setMac p x).bufs = s.bufs := (rfl)
@[simp] theorem setMac_vid (s : State) (p : Nat) (x : MacPort) : (s.setMac p x).vid = s.vid := (rfl)
@[simp] theorem setMac_vidDrop (s : State) (p : Nat) (x : MacPort) : (s.setMac p x).vidDrop = s.vidDrop := (rfl)
@[simp] theorem setMac_layerStore (s : State) (p : Nat) (x : MacPort) : (s.setMac p x).layerStore = s.layerStore := (rfl)
@[simp] theorem setMac_lgvPrev (s : State) (p : Nat) (x : MacPort) : (s.setMac p x).lgvPrev = s.lgvPrev := (rfl)
@[simp] theorem setMac_lgvD (s : State) (p : Nat) (x : MacPort) : (s.setMac p x).lgvD = s.lgvD := (rfl)
@[simp] theorem setMac_tfFrames (s : State) (p : Nat) (x : MacPort) : (s.setMac p x).tfFrames = s.tfFrames := (rfl)
@[simp] theorem setMac_tfPair (s : State) (p : Nat) (x : MacPort) : (s.setMac p x).tfPair = s.tfPair := (rfl)
@[simp] theorem setMac_tfPairAt (s : State) (p : Nat) (x : MacPort) : (s.setMac p x).tfPairAt = s.tfPairAt := (rfl)
@[simp] theorem setMac_outScale (s : State) (p : Nat) (x : MacPort) : (s.setMac p x).outScale = s.outScale := (rfl)
@[simp] theorem setMac_slotWrites (s : State) (p : Nat) (x : MacPort) : (s.setMac p x).slotWrites = s.slotWrites := (rfl)
@[simp] theorem setMac_copyWrites (s : State) (p : Nat) (x : MacPort) : (s.setMac p x).copyWrites = s.copyWrites := (rfl)
@[simp] theorem setMac_gens (s : State) (p : Nat) (x : MacPort) : (s.setMac p x).gens = s.gens := (rfl)
@[simp] theorem setMac_fadeFrames (s : State) (p : Nat) (x : MacPort) : (s.setMac p x).fadeFrames = s.fadeFrames := (rfl)
@[simp] theorem setMac_layerTs (s : State) (p : Nat) (x : MacPort) : (s.setMac p x).layerTs = s.layerTs := (rfl)
@[simp] theorem setMac_tileLanes (s : State) (p : Nat) (x : MacPort) : (s.setMac p x).tileLanes = s.tileLanes := (rfl)
@[simp] theorem setMac_spd (s : State) (p : Nat) (x : MacPort) : (s.setMac p x).spd = s.spd := (rfl)
@[simp] theorem setMac_spdAnch (s : State) (p : Nat) (x : MacPort) : (s.setMac p x).spdAnch = s.spdAnch := (rfl)
@[simp] theorem setMac_spdNew (s : State) (p : Nat) (x : MacPort) : (s.setMac p x).spdNew = s.spdNew := (rfl)
@[simp] theorem setMac_spdTick (s : State) (p : Nat) (x : MacPort) : (s.setMac p x).spdTick = s.spdTick := (rfl)
@[simp] theorem setMac_spdOut (s : State) (p : Nat) (x : MacPort) : (s.setMac p x).spdOut = s.spdOut := (rfl)
@[simp] theorem setMac_snsGood (s : State) (p : Nat) (x : MacPort) : (s.setMac p x).snsGood = s.snsGood := (rfl)
@[simp] theorem setMac_snsPair (s : State) (p : Nat) (x : MacPort) : (s.setMac p x).snsPair = s.snsPair := (rfl)
@[simp] theorem setMac_dmx (s : State) (p : Nat) (x : MacPort) : (s.setMac p x).dmx = s.dmx := (rfl)
@[simp] theorem setMac_fpArmed (s : State) (p : Nat) (x : MacPort) : (s.setMac p x).fpArmed = s.fpArmed := (rfl)
@[simp] theorem setMac_unv (s : State) (p : Nat) (x : MacPort) : (s.setMac p x).unv = s.unv := (rfl)
@[simp] theorem setMac_tap (s : State) (p : Nat) (x : MacPort) : (s.setMac p x).tap = s.tap := (rfl)
@[simp] theorem setMac_lgl (s : State) (p : Nat) (x : MacPort) : (s.setMac p x).lgl = s.lgl := (rfl)
@[simp] theorem setMac_keys (s : State) (p : Nat) (x : MacPort) : (s.setMac p x).keys = s.keys := (rfl)
@[simp] theorem setMac_upd (s : State) (p : Nat) (x : MacPort) : (s.setMac p x).upd = s.upd := (rfl)
@[simp] theorem setMac_pwr (s : State) (p : Nat) (x : MacPort) : (s.setMac p x).pwr = s.pwr := (rfl)
@[simp] theorem setMac_nrg (s : State) (p : Nat) (x : MacPort) : (s.setMac p x).nrg = s.nrg := (rfl)
@[simp] theorem setMac_calib (s : State) (p : Nat) (x : MacPort) : (s.setMac p x).calib = s.calib := (rfl)
@[simp] theorem setMac_chkRun (s : State) (p : Nat) (x : MacPort) : (s.setMac p x).chkRun = s.chkRun := (rfl)
@[simp] theorem setMac_chnFwd (s : State) (p : Nat) (x : MacPort) : (s.setMac p x).chnFwd = s.chnFwd := (rfl)
@[simp] theorem setMac_chnQ (s : State) (p : Nat) (x : MacPort) : (s.setMac p x).chnQ = s.chnQ := (rfl)
@[simp] theorem setMac_chnLine (s : State) (p : Nat) (x : MacPort) : (s.setMac p x).chnLine = s.chnLine := (rfl)
@[simp] theorem setMac_chnTill (s : State) (p : Nat) (x : MacPort) : (s.setMac p x).chnTill = s.chnTill := (rfl)
@[simp] theorem setMac_chnWin (s : State) (p : Nat) (x : MacPort) : (s.setMac p x).chnWin = s.chnWin := (rfl)
@[simp] theorem setMac_chnSlot (s : State) (p : Nat) (x : MacPort) : (s.setMac p x).chnSlot = s.chnSlot := (rfl)
@[simp] theorem setMac_chnUsed (s : State) (p : Nat) (x : MacPort) : (s.setMac p x).chnUsed = s.chnUsed := (rfl)
@[simp] theorem setMac_pair (s : State) (p : Nat) (x : MacPort) : (s.setMac p x).pair = s.pair := (rfl)
@[simp] theorem setMac_spdPair (s : State) (p : Nat) (x : MacPort) : (s.setMac p x).spdPair = s.spdPair := (rfl)
@[simp] theorem setMac_committedNs (s : State) (p : Nat) (x : MacPort) : (s.setMac p x).committedNs = s.committedNs := (rfl)
@[simp] theorem setMac_failedUnits (s : State) (p : Nat) (x : MacPort) : (s.setMac p x).failedUnits = s.failedUnits := (rfl)
@[simp] theorem setMac_lanesOut (s : State) (p : Nat) (x : MacPort) : (s.setMac p x).lanesOut = s.lanesOut := (rfl)
@[simp] theorem setMac_swapsDue (s : State) (p : Nat) (x : MacPort) : (s.setMac p x).swapsDue = s.swapsDue := (rfl)
@[simp] theorem setMac_nvsWear (s : State) (p : Nat) (x : MacPort) : (s.setMac p x).nvsWear = s.nvsWear := (rfl)

@[simp] theorem setLane_pending (s : State) (l : Nat) (x : Lane) : (s.setLane l x).pending = s.pending := (rfl)
@[simp] theorem setLane_now (s : State) (l : Nat) (x : Lane) : (s.setLane l x).now = s.now := (rfl)
@[simp] theorem setLane_sck (s : State) (l : Nat) (x : Lane) : (s.setLane l x).sck = s.sck := (rfl)
@[simp] theorem setLane_fresh (s : State) (l : Nat) (x : Lane) : (s.setLane l x).fresh = s.fresh := (rfl)
@[simp] theorem setLane_regs (s : State) (l : Nat) (x : Lane) : (s.setLane l x).regs = s.regs := (rfl)
@[simp] theorem setLane_act (s : State) (l : Nat) (x : Lane) : (s.setLane l x).act = s.act := (rfl)
@[simp] theorem setLane_taken (s : State) (l : Nat) (x : Lane) : (s.setLane l x).taken = s.taken := (rfl)
@[simp] theorem setLane_commits (s : State) (l : Nat) (x : Lane) : (s.setLane l x).commits = s.commits := (rfl)
@[simp] theorem setLane_writeNo (s : State) (l : Nat) (x : Lane) : (s.setLane l x).writeNo = s.writeNo := (rfl)
@[simp] theorem setLane_shadowNo (s : State) (l : Nat) (x : Lane) : (s.setLane l x).shadowNo = s.shadowNo := (rfl)
@[simp] theorem setLane_mem (s : State) (l : Nat) (x : Lane) : (s.setLane l x).mem = s.mem := (rfl)
@[simp] theorem setLane_ecc (s : State) (l : Nat) (x : Lane) : (s.setLane l x).ecc = s.ecc := (rfl)
@[simp] theorem setLane_tsuAcc (s : State) (l : Nat) (x : Lane) : (s.setLane l x).tsuAcc = s.tsuAcc := (rfl)
@[simp] theorem setLane_tsuHi (s : State) (l : Nat) (x : Lane) : (s.setLane l x).tsuHi = s.tsuHi := (rfl)
@[simp] theorem setLane_tsuHist (s : State) (l : Nat) (x : Lane) : (s.setLane l x).tsuHist = s.tsuHist := (rfl)
@[simp] theorem setLane_vents (s : State) (l : Nat) (x : Lane) : (s.setLane l x).vents = s.vents := (rfl)
@[simp] theorem setLane_craters (s : State) (l : Nat) (x : Lane) : (s.setLane l x).craters = s.craters := (rfl)
@[simp] theorem setLane_tasks (s : State) (l : Nat) (x : Lane) : (s.setLane l x).tasks = s.tasks := (rfl)
@[simp] theorem setLane_seqs (s : State) (l : Nat) (x : Lane) : (s.setLane l x).seqs = s.seqs := (rfl)
@[simp] theorem setLane_cals (s : State) (l : Nat) (x : Lane) : (s.setLane l x).cals = s.cals := (rfl)
@[simp] theorem setLane_dies (s : State) (l : Nat) (x : Lane) : (s.setLane l x).dies = s.dies := (rfl)
@[simp] theorem setLane_gates (s : State) (l : Nat) (x : Lane) : (s.setLane l x).gates = s.gates := (rfl)
@[simp] theorem setLane_cores (s : State) (l : Nat) (x : Lane) : (s.setLane l x).cores = s.cores := (rfl)
@[simp] theorem setLane_ticketNo (s : State) (l : Nat) (x : Lane) : (s.setLane l x).ticketNo = s.ticketNo := (rfl)
@[simp] theorem setLane_outTaken (s : State) (l : Nat) (x : Lane) : (s.setLane l x).outTaken = s.outTaken := (rfl)
@[simp] theorem setLane_relTaken (s : State) (l : Nat) (x : Lane) : (s.setLane l x).relTaken = s.relTaken := (rfl)
@[simp] theorem setLane_fifos (s : State) (l : Nat) (x : Lane) : (s.setLane l x).fifos = s.fifos := (rfl)
@[simp] theorem setLane_chans (s : State) (l : Nat) (x : Lane) : (s.setLane l x).chans = s.chans := (rfl)
@[simp] theorem setLane_targets (s : State) (l : Nat) (x : Lane) : (s.setLane l x).targets = s.targets := (rfl)
@[simp] theorem setLane_icuPend (s : State) (l : Nat) (x : Lane) : (s.setLane l x).icuPend = s.icuPend := (rfl)
@[simp] theorem setLane_icuSvc (s : State) (l : Nat) (x : Lane) : (s.setLane l x).icuSvc = s.icuSvc := (rfl)
@[simp] theorem setLane_icuLine (s : State) (l : Nat) (x : Lane) : (s.setLane l x).icuLine = s.icuLine := (rfl)
@[simp] theorem setLane_sinter (s : State) (l : Nat) (x : Lane) : (s.setLane l x).sinter = s.sinter := (rfl)
@[simp] theorem setLane_springLatch (s : State) (l : Nat) (x : Lane) : (s.setLane l x).springLatch = s.springLatch := (rfl)
@[simp] theorem setLane_flt (s : State) (l : Nat) (x : Lane) : (s.setLane l x).flt = s.flt := (rfl)
@[simp] theorem setLane_fltNvs (s : State) (l : Nat) (x : Lane) : (s.setLane l x).fltNvs = s.fltNvs := (rfl)
@[simp] theorem setLane_host (s : State) (l : Nat) (x : Lane) : (s.setLane l x).host = s.host := (rfl)
@[simp] theorem setLane_hwFaults (s : State) (l : Nat) (x : Lane) : (s.setLane l x).hwFaults = s.hwFaults := (rfl)
@[simp] theorem setLane_hwchk (s : State) (l : Nat) (x : Lane) : (s.setLane l x).hwchk = s.hwchk := (rfl)
@[simp] theorem setLane_dramReqs (s : State) (l : Nat) (x : Lane) : (s.setLane l x).dramReqs = s.dramReqs := (rfl)
@[simp] theorem setLane_dramRef (s : State) (l : Nat) (x : Lane) : (s.setLane l x).dramRef = s.dramRef := (rfl)
@[simp] theorem setLane_hostRead (s : State) (l : Nat) (x : Lane) : (s.setLane l x).hostRead = s.hostRead := (rfl)
@[simp] theorem setLane_bgtOver (s : State) (l : Nat) (x : Lane) : (s.setLane l x).bgtOver = s.bgtOver := (rfl)
@[simp] theorem setLane_bgtUnder (s : State) (l : Nat) (x : Lane) : (s.setLane l x).bgtUnder = s.bgtUnder := (rfl)
@[simp] theorem setLane_snapReq (s : State) (l : Nat) (x : Lane) : (s.setLane l x).snapReq = s.snapReq := (rfl)
@[simp] theorem setLane_capReq (s : State) (l : Nat) (x : Lane) : (s.setLane l x).capReq = s.capReq := (rfl)
@[simp] theorem setLane_flkNo (s : State) (l : Nat) (x : Lane) : (s.setLane l x).flkNo = s.flkNo := (rfl)
@[simp] theorem setLane_ratePend (s : State) (l : Nat) (x : Lane) : (s.setLane l x).ratePend = s.ratePend := (rfl)
@[simp] theorem setLane_fsyncAt (s : State) (l : Nat) (x : Lane) : (s.setLane l x).fsyncAt = s.fsyncAt := (rfl)
@[simp] theorem setLane_flkNext (s : State) (l : Nat) (x : Lane) : (s.setLane l x).flkNext = s.flkNext := (rfl)
@[simp] theorem setLane_flkFired (s : State) (l : Nat) (x : Lane) : (s.setLane l x).flkFired = s.flkFired := (rfl)
@[simp] theorem setLane_flkS (s : State) (l : Nat) (x : Lane) : (s.setLane l x).flkS = s.flkS := (rfl)
@[simp] theorem setLane_lateNoted (s : State) (l : Nat) (x : Lane) : (s.setLane l x).lateNoted = s.lateNoted := (rfl)
@[simp] theorem setLane_sealed (s : State) (l : Nat) (x : Lane) : (s.setLane l x).sealed = s.sealed := (rfl)
@[simp] theorem setLane_sealHold (s : State) (l : Nat) (x : Lane) : (s.setLane l x).sealHold = s.sealHold := (rfl)
@[simp] theorem setLane_fadeFc (s : State) (l : Nat) (x : Lane) : (s.setLane l x).fadeFc = s.fadeFc := (rfl)
@[simp] theorem setLane_fadeTc (s : State) (l : Nat) (x : Lane) : (s.setLane l x).fadeTc = s.fadeTc := (rfl)
@[simp] theorem setLane_notices (s : State) (l : Nat) (x : Lane) : (s.setLane l x).notices = s.notices := (rfl)
@[simp] theorem setLane_peers (s : State) (l : Nat) (x : Lane) : (s.setLane l x).peers = s.peers := (rfl)
@[simp] theorem setLane_chnOut (s : State) (l : Nat) (x : Lane) : (s.setLane l x).chnOut = s.chnOut := (rfl)
@[simp] theorem setLane_chnAlive (s : State) (l : Nat) (x : Lane) : (s.setLane l x).chnAlive = s.chnAlive := (rfl)
@[simp] theorem setLane_roleAt (s : State) (l : Nat) (x : Lane) : (s.setLane l x).roleAt = s.roleAt := (rfl)
@[simp] theorem setLane_tbl (s : State) (l : Nat) (x : Lane) : (s.setLane l x).tbl = s.tbl := (rfl)
@[simp] theorem setLane_bufs (s : State) (l : Nat) (x : Lane) : (s.setLane l x).bufs = s.bufs := (rfl)
@[simp] theorem setLane_vid (s : State) (l : Nat) (x : Lane) : (s.setLane l x).vid = s.vid := (rfl)
@[simp] theorem setLane_vidDrop (s : State) (l : Nat) (x : Lane) : (s.setLane l x).vidDrop = s.vidDrop := (rfl)
@[simp] theorem setLane_layerStore (s : State) (l : Nat) (x : Lane) : (s.setLane l x).layerStore = s.layerStore := (rfl)
@[simp] theorem setLane_lgvPrev (s : State) (l : Nat) (x : Lane) : (s.setLane l x).lgvPrev = s.lgvPrev := (rfl)
@[simp] theorem setLane_lgvD (s : State) (l : Nat) (x : Lane) : (s.setLane l x).lgvD = s.lgvD := (rfl)
@[simp] theorem setLane_tfFrames (s : State) (l : Nat) (x : Lane) : (s.setLane l x).tfFrames = s.tfFrames := (rfl)
@[simp] theorem setLane_tfPair (s : State) (l : Nat) (x : Lane) : (s.setLane l x).tfPair = s.tfPair := (rfl)
@[simp] theorem setLane_tfPairAt (s : State) (l : Nat) (x : Lane) : (s.setLane l x).tfPairAt = s.tfPairAt := (rfl)
@[simp] theorem setLane_outScale (s : State) (l : Nat) (x : Lane) : (s.setLane l x).outScale = s.outScale := (rfl)
@[simp] theorem setLane_slotWrites (s : State) (l : Nat) (x : Lane) : (s.setLane l x).slotWrites = s.slotWrites := (rfl)
@[simp] theorem setLane_copyWrites (s : State) (l : Nat) (x : Lane) : (s.setLane l x).copyWrites = s.copyWrites := (rfl)
@[simp] theorem setLane_gens (s : State) (l : Nat) (x : Lane) : (s.setLane l x).gens = s.gens := (rfl)
@[simp] theorem setLane_fadeFrames (s : State) (l : Nat) (x : Lane) : (s.setLane l x).fadeFrames = s.fadeFrames := (rfl)
@[simp] theorem setLane_layerTs (s : State) (l : Nat) (x : Lane) : (s.setLane l x).layerTs = s.layerTs := (rfl)
@[simp] theorem setLane_spd (s : State) (l : Nat) (x : Lane) : (s.setLane l x).spd = s.spd := (rfl)
@[simp] theorem setLane_spdAnch (s : State) (l : Nat) (x : Lane) : (s.setLane l x).spdAnch = s.spdAnch := (rfl)
@[simp] theorem setLane_spdNew (s : State) (l : Nat) (x : Lane) : (s.setLane l x).spdNew = s.spdNew := (rfl)
@[simp] theorem setLane_spdTick (s : State) (l : Nat) (x : Lane) : (s.setLane l x).spdTick = s.spdTick := (rfl)
@[simp] theorem setLane_spdOut (s : State) (l : Nat) (x : Lane) : (s.setLane l x).spdOut = s.spdOut := (rfl)
@[simp] theorem setLane_snsGood (s : State) (l : Nat) (x : Lane) : (s.setLane l x).snsGood = s.snsGood := (rfl)
@[simp] theorem setLane_snsPair (s : State) (l : Nat) (x : Lane) : (s.setLane l x).snsPair = s.snsPair := (rfl)
@[simp] theorem setLane_dmx (s : State) (l : Nat) (x : Lane) : (s.setLane l x).dmx = s.dmx := (rfl)
@[simp] theorem setLane_macs (s : State) (l : Nat) (x : Lane) : (s.setLane l x).macs = s.macs := (rfl)
@[simp] theorem setLane_fpArmed (s : State) (l : Nat) (x : Lane) : (s.setLane l x).fpArmed = s.fpArmed := (rfl)
@[simp] theorem setLane_unv (s : State) (l : Nat) (x : Lane) : (s.setLane l x).unv = s.unv := (rfl)
@[simp] theorem setLane_tap (s : State) (l : Nat) (x : Lane) : (s.setLane l x).tap = s.tap := (rfl)
@[simp] theorem setLane_lgl (s : State) (l : Nat) (x : Lane) : (s.setLane l x).lgl = s.lgl := (rfl)
@[simp] theorem setLane_keys (s : State) (l : Nat) (x : Lane) : (s.setLane l x).keys = s.keys := (rfl)
@[simp] theorem setLane_upd (s : State) (l : Nat) (x : Lane) : (s.setLane l x).upd = s.upd := (rfl)
@[simp] theorem setLane_pwr (s : State) (l : Nat) (x : Lane) : (s.setLane l x).pwr = s.pwr := (rfl)
@[simp] theorem setLane_nrg (s : State) (l : Nat) (x : Lane) : (s.setLane l x).nrg = s.nrg := (rfl)
@[simp] theorem setLane_calib (s : State) (l : Nat) (x : Lane) : (s.setLane l x).calib = s.calib := (rfl)
@[simp] theorem setLane_chkRun (s : State) (l : Nat) (x : Lane) : (s.setLane l x).chkRun = s.chkRun := (rfl)
@[simp] theorem setLane_chnFwd (s : State) (l : Nat) (x : Lane) : (s.setLane l x).chnFwd = s.chnFwd := (rfl)
@[simp] theorem setLane_chnQ (s : State) (l : Nat) (x : Lane) : (s.setLane l x).chnQ = s.chnQ := (rfl)
@[simp] theorem setLane_chnLine (s : State) (l : Nat) (x : Lane) : (s.setLane l x).chnLine = s.chnLine := (rfl)
@[simp] theorem setLane_chnTill (s : State) (l : Nat) (x : Lane) : (s.setLane l x).chnTill = s.chnTill := (rfl)
@[simp] theorem setLane_chnWin (s : State) (l : Nat) (x : Lane) : (s.setLane l x).chnWin = s.chnWin := (rfl)
@[simp] theorem setLane_chnSlot (s : State) (l : Nat) (x : Lane) : (s.setLane l x).chnSlot = s.chnSlot := (rfl)
@[simp] theorem setLane_chnUsed (s : State) (l : Nat) (x : Lane) : (s.setLane l x).chnUsed = s.chnUsed := (rfl)
@[simp] theorem setLane_pair (s : State) (l : Nat) (x : Lane) : (s.setLane l x).pair = s.pair := (rfl)
@[simp] theorem setLane_spdPair (s : State) (l : Nat) (x : Lane) : (s.setLane l x).spdPair = s.spdPair := (rfl)
@[simp] theorem setLane_committedNs (s : State) (l : Nat) (x : Lane) : (s.setLane l x).committedNs = s.committedNs := (rfl)
@[simp] theorem setLane_failedUnits (s : State) (l : Nat) (x : Lane) : (s.setLane l x).failedUnits = s.failedUnits := (rfl)
@[simp] theorem setLane_lanesOut (s : State) (l : Nat) (x : Lane) : (s.setLane l x).lanesOut = s.lanesOut := (rfl)
@[simp] theorem setLane_swapsDue (s : State) (l : Nat) (x : Lane) : (s.setLane l x).swapsDue = s.swapsDue := (rfl)
@[simp] theorem setLane_nvsWear (s : State) (l : Nat) (x : Lane) : (s.setLane l x).nvsWear = s.nvsWear := (rfl)

@[simp] theorem setBuf_pending (s : State) (b : Nat) (x : Buf) : (s.setBuf b x).pending = s.pending := (rfl)
@[simp] theorem setBuf_now (s : State) (b : Nat) (x : Buf) : (s.setBuf b x).now = s.now := (rfl)
@[simp] theorem setBuf_sck (s : State) (b : Nat) (x : Buf) : (s.setBuf b x).sck = s.sck := (rfl)
@[simp] theorem setBuf_fresh (s : State) (b : Nat) (x : Buf) : (s.setBuf b x).fresh = s.fresh := (rfl)
@[simp] theorem setBuf_regs (s : State) (b : Nat) (x : Buf) : (s.setBuf b x).regs = s.regs := (rfl)
@[simp] theorem setBuf_act (s : State) (b : Nat) (x : Buf) : (s.setBuf b x).act = s.act := (rfl)
@[simp] theorem setBuf_taken (s : State) (b : Nat) (x : Buf) : (s.setBuf b x).taken = s.taken := (rfl)
@[simp] theorem setBuf_commits (s : State) (b : Nat) (x : Buf) : (s.setBuf b x).commits = s.commits := (rfl)
@[simp] theorem setBuf_writeNo (s : State) (b : Nat) (x : Buf) : (s.setBuf b x).writeNo = s.writeNo := (rfl)
@[simp] theorem setBuf_shadowNo (s : State) (b : Nat) (x : Buf) : (s.setBuf b x).shadowNo = s.shadowNo := (rfl)
@[simp] theorem setBuf_mem (s : State) (b : Nat) (x : Buf) : (s.setBuf b x).mem = s.mem := (rfl)
@[simp] theorem setBuf_ecc (s : State) (b : Nat) (x : Buf) : (s.setBuf b x).ecc = s.ecc := (rfl)
@[simp] theorem setBuf_tsuAcc (s : State) (b : Nat) (x : Buf) : (s.setBuf b x).tsuAcc = s.tsuAcc := (rfl)
@[simp] theorem setBuf_tsuHi (s : State) (b : Nat) (x : Buf) : (s.setBuf b x).tsuHi = s.tsuHi := (rfl)
@[simp] theorem setBuf_tsuHist (s : State) (b : Nat) (x : Buf) : (s.setBuf b x).tsuHist = s.tsuHist := (rfl)
@[simp] theorem setBuf_vents (s : State) (b : Nat) (x : Buf) : (s.setBuf b x).vents = s.vents := (rfl)
@[simp] theorem setBuf_craters (s : State) (b : Nat) (x : Buf) : (s.setBuf b x).craters = s.craters := (rfl)
@[simp] theorem setBuf_tasks (s : State) (b : Nat) (x : Buf) : (s.setBuf b x).tasks = s.tasks := (rfl)
@[simp] theorem setBuf_seqs (s : State) (b : Nat) (x : Buf) : (s.setBuf b x).seqs = s.seqs := (rfl)
@[simp] theorem setBuf_cals (s : State) (b : Nat) (x : Buf) : (s.setBuf b x).cals = s.cals := (rfl)
@[simp] theorem setBuf_dies (s : State) (b : Nat) (x : Buf) : (s.setBuf b x).dies = s.dies := (rfl)
@[simp] theorem setBuf_gates (s : State) (b : Nat) (x : Buf) : (s.setBuf b x).gates = s.gates := (rfl)
@[simp] theorem setBuf_cores (s : State) (b : Nat) (x : Buf) : (s.setBuf b x).cores = s.cores := (rfl)
@[simp] theorem setBuf_ticketNo (s : State) (b : Nat) (x : Buf) : (s.setBuf b x).ticketNo = s.ticketNo := (rfl)
@[simp] theorem setBuf_outTaken (s : State) (b : Nat) (x : Buf) : (s.setBuf b x).outTaken = s.outTaken := (rfl)
@[simp] theorem setBuf_relTaken (s : State) (b : Nat) (x : Buf) : (s.setBuf b x).relTaken = s.relTaken := (rfl)
@[simp] theorem setBuf_fifos (s : State) (b : Nat) (x : Buf) : (s.setBuf b x).fifos = s.fifos := (rfl)
@[simp] theorem setBuf_chans (s : State) (b : Nat) (x : Buf) : (s.setBuf b x).chans = s.chans := (rfl)
@[simp] theorem setBuf_targets (s : State) (b : Nat) (x : Buf) : (s.setBuf b x).targets = s.targets := (rfl)
@[simp] theorem setBuf_icuPend (s : State) (b : Nat) (x : Buf) : (s.setBuf b x).icuPend = s.icuPend := (rfl)
@[simp] theorem setBuf_icuSvc (s : State) (b : Nat) (x : Buf) : (s.setBuf b x).icuSvc = s.icuSvc := (rfl)
@[simp] theorem setBuf_icuLine (s : State) (b : Nat) (x : Buf) : (s.setBuf b x).icuLine = s.icuLine := (rfl)
@[simp] theorem setBuf_sinter (s : State) (b : Nat) (x : Buf) : (s.setBuf b x).sinter = s.sinter := (rfl)
@[simp] theorem setBuf_springLatch (s : State) (b : Nat) (x : Buf) : (s.setBuf b x).springLatch = s.springLatch := (rfl)
@[simp] theorem setBuf_flt (s : State) (b : Nat) (x : Buf) : (s.setBuf b x).flt = s.flt := (rfl)
@[simp] theorem setBuf_fltNvs (s : State) (b : Nat) (x : Buf) : (s.setBuf b x).fltNvs = s.fltNvs := (rfl)
@[simp] theorem setBuf_host (s : State) (b : Nat) (x : Buf) : (s.setBuf b x).host = s.host := (rfl)
@[simp] theorem setBuf_hwFaults (s : State) (b : Nat) (x : Buf) : (s.setBuf b x).hwFaults = s.hwFaults := (rfl)
@[simp] theorem setBuf_hwchk (s : State) (b : Nat) (x : Buf) : (s.setBuf b x).hwchk = s.hwchk := (rfl)
@[simp] theorem setBuf_dramReqs (s : State) (b : Nat) (x : Buf) : (s.setBuf b x).dramReqs = s.dramReqs := (rfl)
@[simp] theorem setBuf_dramRef (s : State) (b : Nat) (x : Buf) : (s.setBuf b x).dramRef = s.dramRef := (rfl)
@[simp] theorem setBuf_hostRead (s : State) (b : Nat) (x : Buf) : (s.setBuf b x).hostRead = s.hostRead := (rfl)
@[simp] theorem setBuf_bgtOver (s : State) (b : Nat) (x : Buf) : (s.setBuf b x).bgtOver = s.bgtOver := (rfl)
@[simp] theorem setBuf_bgtUnder (s : State) (b : Nat) (x : Buf) : (s.setBuf b x).bgtUnder = s.bgtUnder := (rfl)
@[simp] theorem setBuf_snapReq (s : State) (b : Nat) (x : Buf) : (s.setBuf b x).snapReq = s.snapReq := (rfl)
@[simp] theorem setBuf_capReq (s : State) (b : Nat) (x : Buf) : (s.setBuf b x).capReq = s.capReq := (rfl)
@[simp] theorem setBuf_flkNo (s : State) (b : Nat) (x : Buf) : (s.setBuf b x).flkNo = s.flkNo := (rfl)
@[simp] theorem setBuf_ratePend (s : State) (b : Nat) (x : Buf) : (s.setBuf b x).ratePend = s.ratePend := (rfl)
@[simp] theorem setBuf_fsyncAt (s : State) (b : Nat) (x : Buf) : (s.setBuf b x).fsyncAt = s.fsyncAt := (rfl)
@[simp] theorem setBuf_flkNext (s : State) (b : Nat) (x : Buf) : (s.setBuf b x).flkNext = s.flkNext := (rfl)
@[simp] theorem setBuf_flkFired (s : State) (b : Nat) (x : Buf) : (s.setBuf b x).flkFired = s.flkFired := (rfl)
@[simp] theorem setBuf_flkS (s : State) (b : Nat) (x : Buf) : (s.setBuf b x).flkS = s.flkS := (rfl)
@[simp] theorem setBuf_lateNoted (s : State) (b : Nat) (x : Buf) : (s.setBuf b x).lateNoted = s.lateNoted := (rfl)
@[simp] theorem setBuf_sealed (s : State) (b : Nat) (x : Buf) : (s.setBuf b x).sealed = s.sealed := (rfl)
@[simp] theorem setBuf_sealHold (s : State) (b : Nat) (x : Buf) : (s.setBuf b x).sealHold = s.sealHold := (rfl)
@[simp] theorem setBuf_fadeFc (s : State) (b : Nat) (x : Buf) : (s.setBuf b x).fadeFc = s.fadeFc := (rfl)
@[simp] theorem setBuf_fadeTc (s : State) (b : Nat) (x : Buf) : (s.setBuf b x).fadeTc = s.fadeTc := (rfl)
@[simp] theorem setBuf_notices (s : State) (b : Nat) (x : Buf) : (s.setBuf b x).notices = s.notices := (rfl)
@[simp] theorem setBuf_peers (s : State) (b : Nat) (x : Buf) : (s.setBuf b x).peers = s.peers := (rfl)
@[simp] theorem setBuf_chnOut (s : State) (b : Nat) (x : Buf) : (s.setBuf b x).chnOut = s.chnOut := (rfl)
@[simp] theorem setBuf_chnAlive (s : State) (b : Nat) (x : Buf) : (s.setBuf b x).chnAlive = s.chnAlive := (rfl)
@[simp] theorem setBuf_roleAt (s : State) (b : Nat) (x : Buf) : (s.setBuf b x).roleAt = s.roleAt := (rfl)
@[simp] theorem setBuf_tbl (s : State) (b : Nat) (x : Buf) : (s.setBuf b x).tbl = s.tbl := (rfl)
@[simp] theorem setBuf_vid (s : State) (b : Nat) (x : Buf) : (s.setBuf b x).vid = s.vid := (rfl)
@[simp] theorem setBuf_vidDrop (s : State) (b : Nat) (x : Buf) : (s.setBuf b x).vidDrop = s.vidDrop := (rfl)
@[simp] theorem setBuf_layerStore (s : State) (b : Nat) (x : Buf) : (s.setBuf b x).layerStore = s.layerStore := (rfl)
@[simp] theorem setBuf_lgvPrev (s : State) (b : Nat) (x : Buf) : (s.setBuf b x).lgvPrev = s.lgvPrev := (rfl)
@[simp] theorem setBuf_lgvD (s : State) (b : Nat) (x : Buf) : (s.setBuf b x).lgvD = s.lgvD := (rfl)
@[simp] theorem setBuf_tfFrames (s : State) (b : Nat) (x : Buf) : (s.setBuf b x).tfFrames = s.tfFrames := (rfl)
@[simp] theorem setBuf_tfPair (s : State) (b : Nat) (x : Buf) : (s.setBuf b x).tfPair = s.tfPair := (rfl)
@[simp] theorem setBuf_tfPairAt (s : State) (b : Nat) (x : Buf) : (s.setBuf b x).tfPairAt = s.tfPairAt := (rfl)
@[simp] theorem setBuf_outScale (s : State) (b : Nat) (x : Buf) : (s.setBuf b x).outScale = s.outScale := (rfl)
@[simp] theorem setBuf_slotWrites (s : State) (b : Nat) (x : Buf) : (s.setBuf b x).slotWrites = s.slotWrites := (rfl)
@[simp] theorem setBuf_copyWrites (s : State) (b : Nat) (x : Buf) : (s.setBuf b x).copyWrites = s.copyWrites := (rfl)
@[simp] theorem setBuf_gens (s : State) (b : Nat) (x : Buf) : (s.setBuf b x).gens = s.gens := (rfl)
@[simp] theorem setBuf_fadeFrames (s : State) (b : Nat) (x : Buf) : (s.setBuf b x).fadeFrames = s.fadeFrames := (rfl)
@[simp] theorem setBuf_layerTs (s : State) (b : Nat) (x : Buf) : (s.setBuf b x).layerTs = s.layerTs := (rfl)
@[simp] theorem setBuf_tileLanes (s : State) (b : Nat) (x : Buf) : (s.setBuf b x).tileLanes = s.tileLanes := (rfl)
@[simp] theorem setBuf_spd (s : State) (b : Nat) (x : Buf) : (s.setBuf b x).spd = s.spd := (rfl)
@[simp] theorem setBuf_spdAnch (s : State) (b : Nat) (x : Buf) : (s.setBuf b x).spdAnch = s.spdAnch := (rfl)
@[simp] theorem setBuf_spdNew (s : State) (b : Nat) (x : Buf) : (s.setBuf b x).spdNew = s.spdNew := (rfl)
@[simp] theorem setBuf_spdTick (s : State) (b : Nat) (x : Buf) : (s.setBuf b x).spdTick = s.spdTick := (rfl)
@[simp] theorem setBuf_spdOut (s : State) (b : Nat) (x : Buf) : (s.setBuf b x).spdOut = s.spdOut := (rfl)
@[simp] theorem setBuf_snsGood (s : State) (b : Nat) (x : Buf) : (s.setBuf b x).snsGood = s.snsGood := (rfl)
@[simp] theorem setBuf_snsPair (s : State) (b : Nat) (x : Buf) : (s.setBuf b x).snsPair = s.snsPair := (rfl)
@[simp] theorem setBuf_dmx (s : State) (b : Nat) (x : Buf) : (s.setBuf b x).dmx = s.dmx := (rfl)
@[simp] theorem setBuf_macs (s : State) (b : Nat) (x : Buf) : (s.setBuf b x).macs = s.macs := (rfl)
@[simp] theorem setBuf_fpArmed (s : State) (b : Nat) (x : Buf) : (s.setBuf b x).fpArmed = s.fpArmed := (rfl)
@[simp] theorem setBuf_unv (s : State) (b : Nat) (x : Buf) : (s.setBuf b x).unv = s.unv := (rfl)
@[simp] theorem setBuf_tap (s : State) (b : Nat) (x : Buf) : (s.setBuf b x).tap = s.tap := (rfl)
@[simp] theorem setBuf_lgl (s : State) (b : Nat) (x : Buf) : (s.setBuf b x).lgl = s.lgl := (rfl)
@[simp] theorem setBuf_keys (s : State) (b : Nat) (x : Buf) : (s.setBuf b x).keys = s.keys := (rfl)
@[simp] theorem setBuf_upd (s : State) (b : Nat) (x : Buf) : (s.setBuf b x).upd = s.upd := (rfl)
@[simp] theorem setBuf_pwr (s : State) (b : Nat) (x : Buf) : (s.setBuf b x).pwr = s.pwr := (rfl)
@[simp] theorem setBuf_nrg (s : State) (b : Nat) (x : Buf) : (s.setBuf b x).nrg = s.nrg := (rfl)
@[simp] theorem setBuf_calib (s : State) (b : Nat) (x : Buf) : (s.setBuf b x).calib = s.calib := (rfl)
@[simp] theorem setBuf_chkRun (s : State) (b : Nat) (x : Buf) : (s.setBuf b x).chkRun = s.chkRun := (rfl)
@[simp] theorem setBuf_chnFwd (s : State) (b : Nat) (x : Buf) : (s.setBuf b x).chnFwd = s.chnFwd := (rfl)
@[simp] theorem setBuf_chnQ (s : State) (b : Nat) (x : Buf) : (s.setBuf b x).chnQ = s.chnQ := (rfl)
@[simp] theorem setBuf_chnLine (s : State) (b : Nat) (x : Buf) : (s.setBuf b x).chnLine = s.chnLine := (rfl)
@[simp] theorem setBuf_chnTill (s : State) (b : Nat) (x : Buf) : (s.setBuf b x).chnTill = s.chnTill := (rfl)
@[simp] theorem setBuf_chnWin (s : State) (b : Nat) (x : Buf) : (s.setBuf b x).chnWin = s.chnWin := (rfl)
@[simp] theorem setBuf_chnSlot (s : State) (b : Nat) (x : Buf) : (s.setBuf b x).chnSlot = s.chnSlot := (rfl)
@[simp] theorem setBuf_chnUsed (s : State) (b : Nat) (x : Buf) : (s.setBuf b x).chnUsed = s.chnUsed := (rfl)
@[simp] theorem setBuf_pair (s : State) (b : Nat) (x : Buf) : (s.setBuf b x).pair = s.pair := (rfl)
@[simp] theorem setBuf_spdPair (s : State) (b : Nat) (x : Buf) : (s.setBuf b x).spdPair = s.spdPair := (rfl)
@[simp] theorem setBuf_committedNs (s : State) (b : Nat) (x : Buf) : (s.setBuf b x).committedNs = s.committedNs := (rfl)
@[simp] theorem setBuf_failedUnits (s : State) (b : Nat) (x : Buf) : (s.setBuf b x).failedUnits = s.failedUnits := (rfl)
@[simp] theorem setBuf_lanesOut (s : State) (b : Nat) (x : Buf) : (s.setBuf b x).lanesOut = s.lanesOut := (rfl)
@[simp] theorem setBuf_swapsDue (s : State) (b : Nat) (x : Buf) : (s.setBuf b x).swapsDue = s.swapsDue := (rfl)
@[simp] theorem setBuf_nvsWear (s : State) (b : Nat) (x : Buf) : (s.setBuf b x).nvsWear = s.nvsWear := (rfl)

@[simp] theorem setVst_pending (s : State) (v i : Nat) (x : VStore) : (s.setVst v i x).pending = s.pending := (rfl)
@[simp] theorem setVst_now (s : State) (v i : Nat) (x : VStore) : (s.setVst v i x).now = s.now := (rfl)
@[simp] theorem setVst_sck (s : State) (v i : Nat) (x : VStore) : (s.setVst v i x).sck = s.sck := (rfl)
@[simp] theorem setVst_fresh (s : State) (v i : Nat) (x : VStore) : (s.setVst v i x).fresh = s.fresh := (rfl)
@[simp] theorem setVst_regs (s : State) (v i : Nat) (x : VStore) : (s.setVst v i x).regs = s.regs := (rfl)
@[simp] theorem setVst_act (s : State) (v i : Nat) (x : VStore) : (s.setVst v i x).act = s.act := (rfl)
@[simp] theorem setVst_taken (s : State) (v i : Nat) (x : VStore) : (s.setVst v i x).taken = s.taken := (rfl)
@[simp] theorem setVst_commits (s : State) (v i : Nat) (x : VStore) : (s.setVst v i x).commits = s.commits := (rfl)
@[simp] theorem setVst_writeNo (s : State) (v i : Nat) (x : VStore) : (s.setVst v i x).writeNo = s.writeNo := (rfl)
@[simp] theorem setVst_shadowNo (s : State) (v i : Nat) (x : VStore) : (s.setVst v i x).shadowNo = s.shadowNo := (rfl)
@[simp] theorem setVst_mem (s : State) (v i : Nat) (x : VStore) : (s.setVst v i x).mem = s.mem := (rfl)
@[simp] theorem setVst_ecc (s : State) (v i : Nat) (x : VStore) : (s.setVst v i x).ecc = s.ecc := (rfl)
@[simp] theorem setVst_tsuAcc (s : State) (v i : Nat) (x : VStore) : (s.setVst v i x).tsuAcc = s.tsuAcc := (rfl)
@[simp] theorem setVst_tsuHi (s : State) (v i : Nat) (x : VStore) : (s.setVst v i x).tsuHi = s.tsuHi := (rfl)
@[simp] theorem setVst_tsuHist (s : State) (v i : Nat) (x : VStore) : (s.setVst v i x).tsuHist = s.tsuHist := (rfl)
@[simp] theorem setVst_vents (s : State) (v i : Nat) (x : VStore) : (s.setVst v i x).vents = s.vents := (rfl)
@[simp] theorem setVst_craters (s : State) (v i : Nat) (x : VStore) : (s.setVst v i x).craters = s.craters := (rfl)
@[simp] theorem setVst_tasks (s : State) (v i : Nat) (x : VStore) : (s.setVst v i x).tasks = s.tasks := (rfl)
@[simp] theorem setVst_seqs (s : State) (v i : Nat) (x : VStore) : (s.setVst v i x).seqs = s.seqs := (rfl)
@[simp] theorem setVst_cals (s : State) (v i : Nat) (x : VStore) : (s.setVst v i x).cals = s.cals := (rfl)
@[simp] theorem setVst_dies (s : State) (v i : Nat) (x : VStore) : (s.setVst v i x).dies = s.dies := (rfl)
@[simp] theorem setVst_gates (s : State) (v i : Nat) (x : VStore) : (s.setVst v i x).gates = s.gates := (rfl)
@[simp] theorem setVst_cores (s : State) (v i : Nat) (x : VStore) : (s.setVst v i x).cores = s.cores := (rfl)
@[simp] theorem setVst_ticketNo (s : State) (v i : Nat) (x : VStore) : (s.setVst v i x).ticketNo = s.ticketNo := (rfl)
@[simp] theorem setVst_outTaken (s : State) (v i : Nat) (x : VStore) : (s.setVst v i x).outTaken = s.outTaken := (rfl)
@[simp] theorem setVst_relTaken (s : State) (v i : Nat) (x : VStore) : (s.setVst v i x).relTaken = s.relTaken := (rfl)
@[simp] theorem setVst_fifos (s : State) (v i : Nat) (x : VStore) : (s.setVst v i x).fifos = s.fifos := (rfl)
@[simp] theorem setVst_chans (s : State) (v i : Nat) (x : VStore) : (s.setVst v i x).chans = s.chans := (rfl)
@[simp] theorem setVst_targets (s : State) (v i : Nat) (x : VStore) : (s.setVst v i x).targets = s.targets := (rfl)
@[simp] theorem setVst_icuPend (s : State) (v i : Nat) (x : VStore) : (s.setVst v i x).icuPend = s.icuPend := (rfl)
@[simp] theorem setVst_icuSvc (s : State) (v i : Nat) (x : VStore) : (s.setVst v i x).icuSvc = s.icuSvc := (rfl)
@[simp] theorem setVst_icuLine (s : State) (v i : Nat) (x : VStore) : (s.setVst v i x).icuLine = s.icuLine := (rfl)
@[simp] theorem setVst_sinter (s : State) (v i : Nat) (x : VStore) : (s.setVst v i x).sinter = s.sinter := (rfl)
@[simp] theorem setVst_springLatch (s : State) (v i : Nat) (x : VStore) : (s.setVst v i x).springLatch = s.springLatch := (rfl)
@[simp] theorem setVst_flt (s : State) (v i : Nat) (x : VStore) : (s.setVst v i x).flt = s.flt := (rfl)
@[simp] theorem setVst_fltNvs (s : State) (v i : Nat) (x : VStore) : (s.setVst v i x).fltNvs = s.fltNvs := (rfl)
@[simp] theorem setVst_host (s : State) (v i : Nat) (x : VStore) : (s.setVst v i x).host = s.host := (rfl)
@[simp] theorem setVst_hwFaults (s : State) (v i : Nat) (x : VStore) : (s.setVst v i x).hwFaults = s.hwFaults := (rfl)
@[simp] theorem setVst_hwchk (s : State) (v i : Nat) (x : VStore) : (s.setVst v i x).hwchk = s.hwchk := (rfl)
@[simp] theorem setVst_dramReqs (s : State) (v i : Nat) (x : VStore) : (s.setVst v i x).dramReqs = s.dramReqs := (rfl)
@[simp] theorem setVst_dramRef (s : State) (v i : Nat) (x : VStore) : (s.setVst v i x).dramRef = s.dramRef := (rfl)
@[simp] theorem setVst_hostRead (s : State) (v i : Nat) (x : VStore) : (s.setVst v i x).hostRead = s.hostRead := (rfl)
@[simp] theorem setVst_bgtOver (s : State) (v i : Nat) (x : VStore) : (s.setVst v i x).bgtOver = s.bgtOver := (rfl)
@[simp] theorem setVst_bgtUnder (s : State) (v i : Nat) (x : VStore) : (s.setVst v i x).bgtUnder = s.bgtUnder := (rfl)
@[simp] theorem setVst_snapReq (s : State) (v i : Nat) (x : VStore) : (s.setVst v i x).snapReq = s.snapReq := (rfl)
@[simp] theorem setVst_capReq (s : State) (v i : Nat) (x : VStore) : (s.setVst v i x).capReq = s.capReq := (rfl)
@[simp] theorem setVst_flkNo (s : State) (v i : Nat) (x : VStore) : (s.setVst v i x).flkNo = s.flkNo := (rfl)
@[simp] theorem setVst_ratePend (s : State) (v i : Nat) (x : VStore) : (s.setVst v i x).ratePend = s.ratePend := (rfl)
@[simp] theorem setVst_fsyncAt (s : State) (v i : Nat) (x : VStore) : (s.setVst v i x).fsyncAt = s.fsyncAt := (rfl)
@[simp] theorem setVst_flkNext (s : State) (v i : Nat) (x : VStore) : (s.setVst v i x).flkNext = s.flkNext := (rfl)
@[simp] theorem setVst_flkFired (s : State) (v i : Nat) (x : VStore) : (s.setVst v i x).flkFired = s.flkFired := (rfl)
@[simp] theorem setVst_flkS (s : State) (v i : Nat) (x : VStore) : (s.setVst v i x).flkS = s.flkS := (rfl)
@[simp] theorem setVst_lateNoted (s : State) (v i : Nat) (x : VStore) : (s.setVst v i x).lateNoted = s.lateNoted := (rfl)
@[simp] theorem setVst_sealed (s : State) (v i : Nat) (x : VStore) : (s.setVst v i x).sealed = s.sealed := (rfl)
@[simp] theorem setVst_sealHold (s : State) (v i : Nat) (x : VStore) : (s.setVst v i x).sealHold = s.sealHold := (rfl)
@[simp] theorem setVst_fadeFc (s : State) (v i : Nat) (x : VStore) : (s.setVst v i x).fadeFc = s.fadeFc := (rfl)
@[simp] theorem setVst_fadeTc (s : State) (v i : Nat) (x : VStore) : (s.setVst v i x).fadeTc = s.fadeTc := (rfl)
@[simp] theorem setVst_notices (s : State) (v i : Nat) (x : VStore) : (s.setVst v i x).notices = s.notices := (rfl)
@[simp] theorem setVst_peers (s : State) (v i : Nat) (x : VStore) : (s.setVst v i x).peers = s.peers := (rfl)
@[simp] theorem setVst_chnOut (s : State) (v i : Nat) (x : VStore) : (s.setVst v i x).chnOut = s.chnOut := (rfl)
@[simp] theorem setVst_chnAlive (s : State) (v i : Nat) (x : VStore) : (s.setVst v i x).chnAlive = s.chnAlive := (rfl)
@[simp] theorem setVst_roleAt (s : State) (v i : Nat) (x : VStore) : (s.setVst v i x).roleAt = s.roleAt := (rfl)
@[simp] theorem setVst_tbl (s : State) (v i : Nat) (x : VStore) : (s.setVst v i x).tbl = s.tbl := (rfl)
@[simp] theorem setVst_bufs (s : State) (v i : Nat) (x : VStore) : (s.setVst v i x).bufs = s.bufs := (rfl)
@[simp] theorem setVst_vidDrop (s : State) (v i : Nat) (x : VStore) : (s.setVst v i x).vidDrop = s.vidDrop := (rfl)
@[simp] theorem setVst_layerStore (s : State) (v i : Nat) (x : VStore) : (s.setVst v i x).layerStore = s.layerStore := (rfl)
@[simp] theorem setVst_lgvPrev (s : State) (v i : Nat) (x : VStore) : (s.setVst v i x).lgvPrev = s.lgvPrev := (rfl)
@[simp] theorem setVst_lgvD (s : State) (v i : Nat) (x : VStore) : (s.setVst v i x).lgvD = s.lgvD := (rfl)
@[simp] theorem setVst_tfFrames (s : State) (v i : Nat) (x : VStore) : (s.setVst v i x).tfFrames = s.tfFrames := (rfl)
@[simp] theorem setVst_tfPair (s : State) (v i : Nat) (x : VStore) : (s.setVst v i x).tfPair = s.tfPair := (rfl)
@[simp] theorem setVst_tfPairAt (s : State) (v i : Nat) (x : VStore) : (s.setVst v i x).tfPairAt = s.tfPairAt := (rfl)
@[simp] theorem setVst_outScale (s : State) (v i : Nat) (x : VStore) : (s.setVst v i x).outScale = s.outScale := (rfl)
@[simp] theorem setVst_slotWrites (s : State) (v i : Nat) (x : VStore) : (s.setVst v i x).slotWrites = s.slotWrites := (rfl)
@[simp] theorem setVst_copyWrites (s : State) (v i : Nat) (x : VStore) : (s.setVst v i x).copyWrites = s.copyWrites := (rfl)
@[simp] theorem setVst_gens (s : State) (v i : Nat) (x : VStore) : (s.setVst v i x).gens = s.gens := (rfl)
@[simp] theorem setVst_fadeFrames (s : State) (v i : Nat) (x : VStore) : (s.setVst v i x).fadeFrames = s.fadeFrames := (rfl)
@[simp] theorem setVst_layerTs (s : State) (v i : Nat) (x : VStore) : (s.setVst v i x).layerTs = s.layerTs := (rfl)
@[simp] theorem setVst_tileLanes (s : State) (v i : Nat) (x : VStore) : (s.setVst v i x).tileLanes = s.tileLanes := (rfl)
@[simp] theorem setVst_spd (s : State) (v i : Nat) (x : VStore) : (s.setVst v i x).spd = s.spd := (rfl)
@[simp] theorem setVst_spdAnch (s : State) (v i : Nat) (x : VStore) : (s.setVst v i x).spdAnch = s.spdAnch := (rfl)
@[simp] theorem setVst_spdNew (s : State) (v i : Nat) (x : VStore) : (s.setVst v i x).spdNew = s.spdNew := (rfl)
@[simp] theorem setVst_spdTick (s : State) (v i : Nat) (x : VStore) : (s.setVst v i x).spdTick = s.spdTick := (rfl)
@[simp] theorem setVst_spdOut (s : State) (v i : Nat) (x : VStore) : (s.setVst v i x).spdOut = s.spdOut := (rfl)
@[simp] theorem setVst_snsGood (s : State) (v i : Nat) (x : VStore) : (s.setVst v i x).snsGood = s.snsGood := (rfl)
@[simp] theorem setVst_snsPair (s : State) (v i : Nat) (x : VStore) : (s.setVst v i x).snsPair = s.snsPair := (rfl)
@[simp] theorem setVst_dmx (s : State) (v i : Nat) (x : VStore) : (s.setVst v i x).dmx = s.dmx := (rfl)
@[simp] theorem setVst_macs (s : State) (v i : Nat) (x : VStore) : (s.setVst v i x).macs = s.macs := (rfl)
@[simp] theorem setVst_fpArmed (s : State) (v i : Nat) (x : VStore) : (s.setVst v i x).fpArmed = s.fpArmed := (rfl)
@[simp] theorem setVst_unv (s : State) (v i : Nat) (x : VStore) : (s.setVst v i x).unv = s.unv := (rfl)
@[simp] theorem setVst_tap (s : State) (v i : Nat) (x : VStore) : (s.setVst v i x).tap = s.tap := (rfl)
@[simp] theorem setVst_lgl (s : State) (v i : Nat) (x : VStore) : (s.setVst v i x).lgl = s.lgl := (rfl)
@[simp] theorem setVst_keys (s : State) (v i : Nat) (x : VStore) : (s.setVst v i x).keys = s.keys := (rfl)
@[simp] theorem setVst_upd (s : State) (v i : Nat) (x : VStore) : (s.setVst v i x).upd = s.upd := (rfl)
@[simp] theorem setVst_pwr (s : State) (v i : Nat) (x : VStore) : (s.setVst v i x).pwr = s.pwr := (rfl)
@[simp] theorem setVst_nrg (s : State) (v i : Nat) (x : VStore) : (s.setVst v i x).nrg = s.nrg := (rfl)
@[simp] theorem setVst_calib (s : State) (v i : Nat) (x : VStore) : (s.setVst v i x).calib = s.calib := (rfl)
@[simp] theorem setVst_chkRun (s : State) (v i : Nat) (x : VStore) : (s.setVst v i x).chkRun = s.chkRun := (rfl)
@[simp] theorem setVst_chnFwd (s : State) (v i : Nat) (x : VStore) : (s.setVst v i x).chnFwd = s.chnFwd := (rfl)
@[simp] theorem setVst_chnQ (s : State) (v i : Nat) (x : VStore) : (s.setVst v i x).chnQ = s.chnQ := (rfl)
@[simp] theorem setVst_chnLine (s : State) (v i : Nat) (x : VStore) : (s.setVst v i x).chnLine = s.chnLine := (rfl)
@[simp] theorem setVst_chnTill (s : State) (v i : Nat) (x : VStore) : (s.setVst v i x).chnTill = s.chnTill := (rfl)
@[simp] theorem setVst_chnWin (s : State) (v i : Nat) (x : VStore) : (s.setVst v i x).chnWin = s.chnWin := (rfl)
@[simp] theorem setVst_chnSlot (s : State) (v i : Nat) (x : VStore) : (s.setVst v i x).chnSlot = s.chnSlot := (rfl)
@[simp] theorem setVst_chnUsed (s : State) (v i : Nat) (x : VStore) : (s.setVst v i x).chnUsed = s.chnUsed := (rfl)
@[simp] theorem setVst_pair (s : State) (v i : Nat) (x : VStore) : (s.setVst v i x).pair = s.pair := (rfl)
@[simp] theorem setVst_spdPair (s : State) (v i : Nat) (x : VStore) : (s.setVst v i x).spdPair = s.spdPair := (rfl)
@[simp] theorem setVst_committedNs (s : State) (v i : Nat) (x : VStore) : (s.setVst v i x).committedNs = s.committedNs := (rfl)
@[simp] theorem setVst_failedUnits (s : State) (v i : Nat) (x : VStore) : (s.setVst v i x).failedUnits = s.failedUnits := (rfl)
@[simp] theorem setVst_lanesOut (s : State) (v i : Nat) (x : VStore) : (s.setVst v i x).lanesOut = s.lanesOut := (rfl)
@[simp] theorem setVst_swapsDue (s : State) (v i : Nat) (x : VStore) : (s.setVst v i x).swapsDue = s.swapsDue := (rfl)
@[simp] theorem setVst_nvsWear (s : State) (v i : Nat) (x : VStore) : (s.setVst v i x).nvsWear = s.nvsWear := (rfl)

@[simp] theorem setSvc_pending (s : State) (n : Nat) (b : Bool) : (s.setSvc n b).pending = s.pending := (rfl)
@[simp] theorem setSvc_now (s : State) (n : Nat) (b : Bool) : (s.setSvc n b).now = s.now := (rfl)
@[simp] theorem setSvc_sck (s : State) (n : Nat) (b : Bool) : (s.setSvc n b).sck = s.sck := (rfl)
@[simp] theorem setSvc_fresh (s : State) (n : Nat) (b : Bool) : (s.setSvc n b).fresh = s.fresh := (rfl)
@[simp] theorem setSvc_regs (s : State) (n : Nat) (b : Bool) : (s.setSvc n b).regs = s.regs := (rfl)
@[simp] theorem setSvc_act (s : State) (n : Nat) (b : Bool) : (s.setSvc n b).act = s.act := (rfl)
@[simp] theorem setSvc_taken (s : State) (n : Nat) (b : Bool) : (s.setSvc n b).taken = s.taken := (rfl)
@[simp] theorem setSvc_commits (s : State) (n : Nat) (b : Bool) : (s.setSvc n b).commits = s.commits := (rfl)
@[simp] theorem setSvc_writeNo (s : State) (n : Nat) (b : Bool) : (s.setSvc n b).writeNo = s.writeNo := (rfl)
@[simp] theorem setSvc_shadowNo (s : State) (n : Nat) (b : Bool) : (s.setSvc n b).shadowNo = s.shadowNo := (rfl)
@[simp] theorem setSvc_mem (s : State) (n : Nat) (b : Bool) : (s.setSvc n b).mem = s.mem := (rfl)
@[simp] theorem setSvc_ecc (s : State) (n : Nat) (b : Bool) : (s.setSvc n b).ecc = s.ecc := (rfl)
@[simp] theorem setSvc_tsuAcc (s : State) (n : Nat) (b : Bool) : (s.setSvc n b).tsuAcc = s.tsuAcc := (rfl)
@[simp] theorem setSvc_tsuHi (s : State) (n : Nat) (b : Bool) : (s.setSvc n b).tsuHi = s.tsuHi := (rfl)
@[simp] theorem setSvc_tsuHist (s : State) (n : Nat) (b : Bool) : (s.setSvc n b).tsuHist = s.tsuHist := (rfl)
@[simp] theorem setSvc_vents (s : State) (n : Nat) (b : Bool) : (s.setSvc n b).vents = s.vents := (rfl)
@[simp] theorem setSvc_craters (s : State) (n : Nat) (b : Bool) : (s.setSvc n b).craters = s.craters := (rfl)
@[simp] theorem setSvc_tasks (s : State) (n : Nat) (b : Bool) : (s.setSvc n b).tasks = s.tasks := (rfl)
@[simp] theorem setSvc_seqs (s : State) (n : Nat) (b : Bool) : (s.setSvc n b).seqs = s.seqs := (rfl)
@[simp] theorem setSvc_cals (s : State) (n : Nat) (b : Bool) : (s.setSvc n b).cals = s.cals := (rfl)
@[simp] theorem setSvc_dies (s : State) (n : Nat) (b : Bool) : (s.setSvc n b).dies = s.dies := (rfl)
@[simp] theorem setSvc_gates (s : State) (n : Nat) (b : Bool) : (s.setSvc n b).gates = s.gates := (rfl)
@[simp] theorem setSvc_cores (s : State) (n : Nat) (b : Bool) : (s.setSvc n b).cores = s.cores := (rfl)
@[simp] theorem setSvc_ticketNo (s : State) (n : Nat) (b : Bool) : (s.setSvc n b).ticketNo = s.ticketNo := (rfl)
@[simp] theorem setSvc_outTaken (s : State) (n : Nat) (b : Bool) : (s.setSvc n b).outTaken = s.outTaken := (rfl)
@[simp] theorem setSvc_relTaken (s : State) (n : Nat) (b : Bool) : (s.setSvc n b).relTaken = s.relTaken := (rfl)
@[simp] theorem setSvc_fifos (s : State) (n : Nat) (b : Bool) : (s.setSvc n b).fifos = s.fifos := (rfl)
@[simp] theorem setSvc_chans (s : State) (n : Nat) (b : Bool) : (s.setSvc n b).chans = s.chans := (rfl)
@[simp] theorem setSvc_targets (s : State) (n : Nat) (b : Bool) : (s.setSvc n b).targets = s.targets := (rfl)
@[simp] theorem setSvc_icuPend (s : State) (n : Nat) (b : Bool) : (s.setSvc n b).icuPend = s.icuPend := (rfl)
@[simp] theorem setSvc_icuLine (s : State) (n : Nat) (b : Bool) : (s.setSvc n b).icuLine = s.icuLine := (rfl)
@[simp] theorem setSvc_sinter (s : State) (n : Nat) (b : Bool) : (s.setSvc n b).sinter = s.sinter := (rfl)
@[simp] theorem setSvc_springLatch (s : State) (n : Nat) (b : Bool) : (s.setSvc n b).springLatch = s.springLatch := (rfl)
@[simp] theorem setSvc_flt (s : State) (n : Nat) (b : Bool) : (s.setSvc n b).flt = s.flt := (rfl)
@[simp] theorem setSvc_fltNvs (s : State) (n : Nat) (b : Bool) : (s.setSvc n b).fltNvs = s.fltNvs := (rfl)
@[simp] theorem setSvc_host (s : State) (n : Nat) (b : Bool) : (s.setSvc n b).host = s.host := (rfl)
@[simp] theorem setSvc_hwFaults (s : State) (n : Nat) (b : Bool) : (s.setSvc n b).hwFaults = s.hwFaults := (rfl)
@[simp] theorem setSvc_hwchk (s : State) (n : Nat) (b : Bool) : (s.setSvc n b).hwchk = s.hwchk := (rfl)
@[simp] theorem setSvc_dramReqs (s : State) (n : Nat) (b : Bool) : (s.setSvc n b).dramReqs = s.dramReqs := (rfl)
@[simp] theorem setSvc_dramRef (s : State) (n : Nat) (b : Bool) : (s.setSvc n b).dramRef = s.dramRef := (rfl)
@[simp] theorem setSvc_hostRead (s : State) (n : Nat) (b : Bool) : (s.setSvc n b).hostRead = s.hostRead := (rfl)
@[simp] theorem setSvc_bgtOver (s : State) (n : Nat) (b : Bool) : (s.setSvc n b).bgtOver = s.bgtOver := (rfl)
@[simp] theorem setSvc_bgtUnder (s : State) (n : Nat) (b : Bool) : (s.setSvc n b).bgtUnder = s.bgtUnder := (rfl)
@[simp] theorem setSvc_snapReq (s : State) (n : Nat) (b : Bool) : (s.setSvc n b).snapReq = s.snapReq := (rfl)
@[simp] theorem setSvc_capReq (s : State) (n : Nat) (b : Bool) : (s.setSvc n b).capReq = s.capReq := (rfl)
@[simp] theorem setSvc_flkNo (s : State) (n : Nat) (b : Bool) : (s.setSvc n b).flkNo = s.flkNo := (rfl)
@[simp] theorem setSvc_ratePend (s : State) (n : Nat) (b : Bool) : (s.setSvc n b).ratePend = s.ratePend := (rfl)
@[simp] theorem setSvc_fsyncAt (s : State) (n : Nat) (b : Bool) : (s.setSvc n b).fsyncAt = s.fsyncAt := (rfl)
@[simp] theorem setSvc_flkNext (s : State) (n : Nat) (b : Bool) : (s.setSvc n b).flkNext = s.flkNext := (rfl)
@[simp] theorem setSvc_flkFired (s : State) (n : Nat) (b : Bool) : (s.setSvc n b).flkFired = s.flkFired := (rfl)
@[simp] theorem setSvc_flkS (s : State) (n : Nat) (b : Bool) : (s.setSvc n b).flkS = s.flkS := (rfl)
@[simp] theorem setSvc_lateNoted (s : State) (n : Nat) (b : Bool) : (s.setSvc n b).lateNoted = s.lateNoted := (rfl)
@[simp] theorem setSvc_sealed (s : State) (n : Nat) (b : Bool) : (s.setSvc n b).sealed = s.sealed := (rfl)
@[simp] theorem setSvc_sealHold (s : State) (n : Nat) (b : Bool) : (s.setSvc n b).sealHold = s.sealHold := (rfl)
@[simp] theorem setSvc_fadeFc (s : State) (n : Nat) (b : Bool) : (s.setSvc n b).fadeFc = s.fadeFc := (rfl)
@[simp] theorem setSvc_fadeTc (s : State) (n : Nat) (b : Bool) : (s.setSvc n b).fadeTc = s.fadeTc := (rfl)
@[simp] theorem setSvc_notices (s : State) (n : Nat) (b : Bool) : (s.setSvc n b).notices = s.notices := (rfl)
@[simp] theorem setSvc_peers (s : State) (n : Nat) (b : Bool) : (s.setSvc n b).peers = s.peers := (rfl)
@[simp] theorem setSvc_chnOut (s : State) (n : Nat) (b : Bool) : (s.setSvc n b).chnOut = s.chnOut := (rfl)
@[simp] theorem setSvc_chnAlive (s : State) (n : Nat) (b : Bool) : (s.setSvc n b).chnAlive = s.chnAlive := (rfl)
@[simp] theorem setSvc_roleAt (s : State) (n : Nat) (b : Bool) : (s.setSvc n b).roleAt = s.roleAt := (rfl)
@[simp] theorem setSvc_tbl (s : State) (n : Nat) (b : Bool) : (s.setSvc n b).tbl = s.tbl := (rfl)
@[simp] theorem setSvc_bufs (s : State) (n : Nat) (b : Bool) : (s.setSvc n b).bufs = s.bufs := (rfl)
@[simp] theorem setSvc_vid (s : State) (n : Nat) (b : Bool) : (s.setSvc n b).vid = s.vid := (rfl)
@[simp] theorem setSvc_vidDrop (s : State) (n : Nat) (b : Bool) : (s.setSvc n b).vidDrop = s.vidDrop := (rfl)
@[simp] theorem setSvc_layerStore (s : State) (n : Nat) (b : Bool) : (s.setSvc n b).layerStore = s.layerStore := (rfl)
@[simp] theorem setSvc_lgvPrev (s : State) (n : Nat) (b : Bool) : (s.setSvc n b).lgvPrev = s.lgvPrev := (rfl)
@[simp] theorem setSvc_lgvD (s : State) (n : Nat) (b : Bool) : (s.setSvc n b).lgvD = s.lgvD := (rfl)
@[simp] theorem setSvc_tfFrames (s : State) (n : Nat) (b : Bool) : (s.setSvc n b).tfFrames = s.tfFrames := (rfl)
@[simp] theorem setSvc_tfPair (s : State) (n : Nat) (b : Bool) : (s.setSvc n b).tfPair = s.tfPair := (rfl)
@[simp] theorem setSvc_tfPairAt (s : State) (n : Nat) (b : Bool) : (s.setSvc n b).tfPairAt = s.tfPairAt := (rfl)
@[simp] theorem setSvc_outScale (s : State) (n : Nat) (b : Bool) : (s.setSvc n b).outScale = s.outScale := (rfl)
@[simp] theorem setSvc_slotWrites (s : State) (n : Nat) (b : Bool) : (s.setSvc n b).slotWrites = s.slotWrites := (rfl)
@[simp] theorem setSvc_copyWrites (s : State) (n : Nat) (b : Bool) : (s.setSvc n b).copyWrites = s.copyWrites := (rfl)
@[simp] theorem setSvc_gens (s : State) (n : Nat) (b : Bool) : (s.setSvc n b).gens = s.gens := (rfl)
@[simp] theorem setSvc_fadeFrames (s : State) (n : Nat) (b : Bool) : (s.setSvc n b).fadeFrames = s.fadeFrames := (rfl)
@[simp] theorem setSvc_layerTs (s : State) (n : Nat) (b : Bool) : (s.setSvc n b).layerTs = s.layerTs := (rfl)
@[simp] theorem setSvc_tileLanes (s : State) (n : Nat) (b : Bool) : (s.setSvc n b).tileLanes = s.tileLanes := (rfl)
@[simp] theorem setSvc_spd (s : State) (n : Nat) (b : Bool) : (s.setSvc n b).spd = s.spd := (rfl)
@[simp] theorem setSvc_spdAnch (s : State) (n : Nat) (b : Bool) : (s.setSvc n b).spdAnch = s.spdAnch := (rfl)
@[simp] theorem setSvc_spdNew (s : State) (n : Nat) (b : Bool) : (s.setSvc n b).spdNew = s.spdNew := (rfl)
@[simp] theorem setSvc_spdTick (s : State) (n : Nat) (b : Bool) : (s.setSvc n b).spdTick = s.spdTick := (rfl)
@[simp] theorem setSvc_spdOut (s : State) (n : Nat) (b : Bool) : (s.setSvc n b).spdOut = s.spdOut := (rfl)
@[simp] theorem setSvc_snsGood (s : State) (n : Nat) (b : Bool) : (s.setSvc n b).snsGood = s.snsGood := (rfl)
@[simp] theorem setSvc_snsPair (s : State) (n : Nat) (b : Bool) : (s.setSvc n b).snsPair = s.snsPair := (rfl)
@[simp] theorem setSvc_dmx (s : State) (n : Nat) (b : Bool) : (s.setSvc n b).dmx = s.dmx := (rfl)
@[simp] theorem setSvc_macs (s : State) (n : Nat) (b : Bool) : (s.setSvc n b).macs = s.macs := (rfl)
@[simp] theorem setSvc_fpArmed (s : State) (n : Nat) (b : Bool) : (s.setSvc n b).fpArmed = s.fpArmed := (rfl)
@[simp] theorem setSvc_unv (s : State) (n : Nat) (b : Bool) : (s.setSvc n b).unv = s.unv := (rfl)
@[simp] theorem setSvc_tap (s : State) (n : Nat) (b : Bool) : (s.setSvc n b).tap = s.tap := (rfl)
@[simp] theorem setSvc_lgl (s : State) (n : Nat) (b : Bool) : (s.setSvc n b).lgl = s.lgl := (rfl)
@[simp] theorem setSvc_keys (s : State) (n : Nat) (b : Bool) : (s.setSvc n b).keys = s.keys := (rfl)
@[simp] theorem setSvc_upd (s : State) (n : Nat) (b : Bool) : (s.setSvc n b).upd = s.upd := (rfl)
@[simp] theorem setSvc_pwr (s : State) (n : Nat) (b : Bool) : (s.setSvc n b).pwr = s.pwr := (rfl)
@[simp] theorem setSvc_nrg (s : State) (n : Nat) (b : Bool) : (s.setSvc n b).nrg = s.nrg := (rfl)
@[simp] theorem setSvc_calib (s : State) (n : Nat) (b : Bool) : (s.setSvc n b).calib = s.calib := (rfl)
@[simp] theorem setSvc_chkRun (s : State) (n : Nat) (b : Bool) : (s.setSvc n b).chkRun = s.chkRun := (rfl)
@[simp] theorem setSvc_chnFwd (s : State) (n : Nat) (b : Bool) : (s.setSvc n b).chnFwd = s.chnFwd := (rfl)
@[simp] theorem setSvc_chnQ (s : State) (n : Nat) (b : Bool) : (s.setSvc n b).chnQ = s.chnQ := (rfl)
@[simp] theorem setSvc_chnLine (s : State) (n : Nat) (b : Bool) : (s.setSvc n b).chnLine = s.chnLine := (rfl)
@[simp] theorem setSvc_chnTill (s : State) (n : Nat) (b : Bool) : (s.setSvc n b).chnTill = s.chnTill := (rfl)
@[simp] theorem setSvc_chnWin (s : State) (n : Nat) (b : Bool) : (s.setSvc n b).chnWin = s.chnWin := (rfl)
@[simp] theorem setSvc_chnSlot (s : State) (n : Nat) (b : Bool) : (s.setSvc n b).chnSlot = s.chnSlot := (rfl)
@[simp] theorem setSvc_chnUsed (s : State) (n : Nat) (b : Bool) : (s.setSvc n b).chnUsed = s.chnUsed := (rfl)
@[simp] theorem setSvc_pair (s : State) (n : Nat) (b : Bool) : (s.setSvc n b).pair = s.pair := (rfl)
@[simp] theorem setSvc_spdPair (s : State) (n : Nat) (b : Bool) : (s.setSvc n b).spdPair = s.spdPair := (rfl)
@[simp] theorem setSvc_committedNs (s : State) (n : Nat) (b : Bool) : (s.setSvc n b).committedNs = s.committedNs := (rfl)
@[simp] theorem setSvc_failedUnits (s : State) (n : Nat) (b : Bool) : (s.setSvc n b).failedUnits = s.failedUnits := (rfl)
@[simp] theorem setSvc_lanesOut (s : State) (n : Nat) (b : Bool) : (s.setSvc n b).lanesOut = s.lanesOut := (rfl)
@[simp] theorem setSvc_swapsDue (s : State) (n : Nat) (b : Bool) : (s.setSvc n b).swapsDue = s.swapsDue := (rfl)
@[simp] theorem setSvc_nvsWear (s : State) (n : Nat) (b : Bool) : (s.setSvc n b).nvsWear = s.nvsWear := (rfl)

@[simp] theorem setDp_pending (s : State) (p : Nat) (x : DmxPort) : (s.setDp p x).pending = s.pending := (rfl)
@[simp] theorem setDp_now (s : State) (p : Nat) (x : DmxPort) : (s.setDp p x).now = s.now := (rfl)
@[simp] theorem setDp_sck (s : State) (p : Nat) (x : DmxPort) : (s.setDp p x).sck = s.sck := (rfl)
@[simp] theorem setDp_fresh (s : State) (p : Nat) (x : DmxPort) : (s.setDp p x).fresh = s.fresh := (rfl)
@[simp] theorem setDp_regs (s : State) (p : Nat) (x : DmxPort) : (s.setDp p x).regs = s.regs := (rfl)
@[simp] theorem setDp_act (s : State) (p : Nat) (x : DmxPort) : (s.setDp p x).act = s.act := (rfl)
@[simp] theorem setDp_taken (s : State) (p : Nat) (x : DmxPort) : (s.setDp p x).taken = s.taken := (rfl)
@[simp] theorem setDp_commits (s : State) (p : Nat) (x : DmxPort) : (s.setDp p x).commits = s.commits := (rfl)
@[simp] theorem setDp_writeNo (s : State) (p : Nat) (x : DmxPort) : (s.setDp p x).writeNo = s.writeNo := (rfl)
@[simp] theorem setDp_shadowNo (s : State) (p : Nat) (x : DmxPort) : (s.setDp p x).shadowNo = s.shadowNo := (rfl)
@[simp] theorem setDp_mem (s : State) (p : Nat) (x : DmxPort) : (s.setDp p x).mem = s.mem := (rfl)
@[simp] theorem setDp_ecc (s : State) (p : Nat) (x : DmxPort) : (s.setDp p x).ecc = s.ecc := (rfl)
@[simp] theorem setDp_tsuAcc (s : State) (p : Nat) (x : DmxPort) : (s.setDp p x).tsuAcc = s.tsuAcc := (rfl)
@[simp] theorem setDp_tsuHi (s : State) (p : Nat) (x : DmxPort) : (s.setDp p x).tsuHi = s.tsuHi := (rfl)
@[simp] theorem setDp_tsuHist (s : State) (p : Nat) (x : DmxPort) : (s.setDp p x).tsuHist = s.tsuHist := (rfl)
@[simp] theorem setDp_vents (s : State) (p : Nat) (x : DmxPort) : (s.setDp p x).vents = s.vents := (rfl)
@[simp] theorem setDp_craters (s : State) (p : Nat) (x : DmxPort) : (s.setDp p x).craters = s.craters := (rfl)
@[simp] theorem setDp_tasks (s : State) (p : Nat) (x : DmxPort) : (s.setDp p x).tasks = s.tasks := (rfl)
@[simp] theorem setDp_seqs (s : State) (p : Nat) (x : DmxPort) : (s.setDp p x).seqs = s.seqs := (rfl)
@[simp] theorem setDp_cals (s : State) (p : Nat) (x : DmxPort) : (s.setDp p x).cals = s.cals := (rfl)
@[simp] theorem setDp_dies (s : State) (p : Nat) (x : DmxPort) : (s.setDp p x).dies = s.dies := (rfl)
@[simp] theorem setDp_gates (s : State) (p : Nat) (x : DmxPort) : (s.setDp p x).gates = s.gates := (rfl)
@[simp] theorem setDp_cores (s : State) (p : Nat) (x : DmxPort) : (s.setDp p x).cores = s.cores := (rfl)
@[simp] theorem setDp_ticketNo (s : State) (p : Nat) (x : DmxPort) : (s.setDp p x).ticketNo = s.ticketNo := (rfl)
@[simp] theorem setDp_outTaken (s : State) (p : Nat) (x : DmxPort) : (s.setDp p x).outTaken = s.outTaken := (rfl)
@[simp] theorem setDp_relTaken (s : State) (p : Nat) (x : DmxPort) : (s.setDp p x).relTaken = s.relTaken := (rfl)
@[simp] theorem setDp_fifos (s : State) (p : Nat) (x : DmxPort) : (s.setDp p x).fifos = s.fifos := (rfl)
@[simp] theorem setDp_chans (s : State) (p : Nat) (x : DmxPort) : (s.setDp p x).chans = s.chans := (rfl)
@[simp] theorem setDp_targets (s : State) (p : Nat) (x : DmxPort) : (s.setDp p x).targets = s.targets := (rfl)
@[simp] theorem setDp_icuPend (s : State) (p : Nat) (x : DmxPort) : (s.setDp p x).icuPend = s.icuPend := (rfl)
@[simp] theorem setDp_icuSvc (s : State) (p : Nat) (x : DmxPort) : (s.setDp p x).icuSvc = s.icuSvc := (rfl)
@[simp] theorem setDp_icuLine (s : State) (p : Nat) (x : DmxPort) : (s.setDp p x).icuLine = s.icuLine := (rfl)
@[simp] theorem setDp_sinter (s : State) (p : Nat) (x : DmxPort) : (s.setDp p x).sinter = s.sinter := (rfl)
@[simp] theorem setDp_springLatch (s : State) (p : Nat) (x : DmxPort) : (s.setDp p x).springLatch = s.springLatch := (rfl)
@[simp] theorem setDp_flt (s : State) (p : Nat) (x : DmxPort) : (s.setDp p x).flt = s.flt := (rfl)
@[simp] theorem setDp_fltNvs (s : State) (p : Nat) (x : DmxPort) : (s.setDp p x).fltNvs = s.fltNvs := (rfl)
@[simp] theorem setDp_host (s : State) (p : Nat) (x : DmxPort) : (s.setDp p x).host = s.host := (rfl)
@[simp] theorem setDp_hwFaults (s : State) (p : Nat) (x : DmxPort) : (s.setDp p x).hwFaults = s.hwFaults := (rfl)
@[simp] theorem setDp_hwchk (s : State) (p : Nat) (x : DmxPort) : (s.setDp p x).hwchk = s.hwchk := (rfl)
@[simp] theorem setDp_dramReqs (s : State) (p : Nat) (x : DmxPort) : (s.setDp p x).dramReqs = s.dramReqs := (rfl)
@[simp] theorem setDp_dramRef (s : State) (p : Nat) (x : DmxPort) : (s.setDp p x).dramRef = s.dramRef := (rfl)
@[simp] theorem setDp_hostRead (s : State) (p : Nat) (x : DmxPort) : (s.setDp p x).hostRead = s.hostRead := (rfl)
@[simp] theorem setDp_bgtOver (s : State) (p : Nat) (x : DmxPort) : (s.setDp p x).bgtOver = s.bgtOver := (rfl)
@[simp] theorem setDp_bgtUnder (s : State) (p : Nat) (x : DmxPort) : (s.setDp p x).bgtUnder = s.bgtUnder := (rfl)
@[simp] theorem setDp_snapReq (s : State) (p : Nat) (x : DmxPort) : (s.setDp p x).snapReq = s.snapReq := (rfl)
@[simp] theorem setDp_capReq (s : State) (p : Nat) (x : DmxPort) : (s.setDp p x).capReq = s.capReq := (rfl)
@[simp] theorem setDp_flkNo (s : State) (p : Nat) (x : DmxPort) : (s.setDp p x).flkNo = s.flkNo := (rfl)
@[simp] theorem setDp_ratePend (s : State) (p : Nat) (x : DmxPort) : (s.setDp p x).ratePend = s.ratePend := (rfl)
@[simp] theorem setDp_fsyncAt (s : State) (p : Nat) (x : DmxPort) : (s.setDp p x).fsyncAt = s.fsyncAt := (rfl)
@[simp] theorem setDp_flkNext (s : State) (p : Nat) (x : DmxPort) : (s.setDp p x).flkNext = s.flkNext := (rfl)
@[simp] theorem setDp_flkFired (s : State) (p : Nat) (x : DmxPort) : (s.setDp p x).flkFired = s.flkFired := (rfl)
@[simp] theorem setDp_flkS (s : State) (p : Nat) (x : DmxPort) : (s.setDp p x).flkS = s.flkS := (rfl)
@[simp] theorem setDp_lateNoted (s : State) (p : Nat) (x : DmxPort) : (s.setDp p x).lateNoted = s.lateNoted := (rfl)
@[simp] theorem setDp_sealed (s : State) (p : Nat) (x : DmxPort) : (s.setDp p x).sealed = s.sealed := (rfl)
@[simp] theorem setDp_sealHold (s : State) (p : Nat) (x : DmxPort) : (s.setDp p x).sealHold = s.sealHold := (rfl)
@[simp] theorem setDp_fadeFc (s : State) (p : Nat) (x : DmxPort) : (s.setDp p x).fadeFc = s.fadeFc := (rfl)
@[simp] theorem setDp_fadeTc (s : State) (p : Nat) (x : DmxPort) : (s.setDp p x).fadeTc = s.fadeTc := (rfl)
@[simp] theorem setDp_notices (s : State) (p : Nat) (x : DmxPort) : (s.setDp p x).notices = s.notices := (rfl)
@[simp] theorem setDp_peers (s : State) (p : Nat) (x : DmxPort) : (s.setDp p x).peers = s.peers := (rfl)
@[simp] theorem setDp_chnOut (s : State) (p : Nat) (x : DmxPort) : (s.setDp p x).chnOut = s.chnOut := (rfl)
@[simp] theorem setDp_chnAlive (s : State) (p : Nat) (x : DmxPort) : (s.setDp p x).chnAlive = s.chnAlive := (rfl)
@[simp] theorem setDp_roleAt (s : State) (p : Nat) (x : DmxPort) : (s.setDp p x).roleAt = s.roleAt := (rfl)
@[simp] theorem setDp_tbl (s : State) (p : Nat) (x : DmxPort) : (s.setDp p x).tbl = s.tbl := (rfl)
@[simp] theorem setDp_bufs (s : State) (p : Nat) (x : DmxPort) : (s.setDp p x).bufs = s.bufs := (rfl)
@[simp] theorem setDp_vid (s : State) (p : Nat) (x : DmxPort) : (s.setDp p x).vid = s.vid := (rfl)
@[simp] theorem setDp_vidDrop (s : State) (p : Nat) (x : DmxPort) : (s.setDp p x).vidDrop = s.vidDrop := (rfl)
@[simp] theorem setDp_layerStore (s : State) (p : Nat) (x : DmxPort) : (s.setDp p x).layerStore = s.layerStore := (rfl)
@[simp] theorem setDp_lgvPrev (s : State) (p : Nat) (x : DmxPort) : (s.setDp p x).lgvPrev = s.lgvPrev := (rfl)
@[simp] theorem setDp_lgvD (s : State) (p : Nat) (x : DmxPort) : (s.setDp p x).lgvD = s.lgvD := (rfl)
@[simp] theorem setDp_tfFrames (s : State) (p : Nat) (x : DmxPort) : (s.setDp p x).tfFrames = s.tfFrames := (rfl)
@[simp] theorem setDp_tfPair (s : State) (p : Nat) (x : DmxPort) : (s.setDp p x).tfPair = s.tfPair := (rfl)
@[simp] theorem setDp_tfPairAt (s : State) (p : Nat) (x : DmxPort) : (s.setDp p x).tfPairAt = s.tfPairAt := (rfl)
@[simp] theorem setDp_outScale (s : State) (p : Nat) (x : DmxPort) : (s.setDp p x).outScale = s.outScale := (rfl)
@[simp] theorem setDp_slotWrites (s : State) (p : Nat) (x : DmxPort) : (s.setDp p x).slotWrites = s.slotWrites := (rfl)
@[simp] theorem setDp_copyWrites (s : State) (p : Nat) (x : DmxPort) : (s.setDp p x).copyWrites = s.copyWrites := (rfl)
@[simp] theorem setDp_gens (s : State) (p : Nat) (x : DmxPort) : (s.setDp p x).gens = s.gens := (rfl)
@[simp] theorem setDp_fadeFrames (s : State) (p : Nat) (x : DmxPort) : (s.setDp p x).fadeFrames = s.fadeFrames := (rfl)
@[simp] theorem setDp_layerTs (s : State) (p : Nat) (x : DmxPort) : (s.setDp p x).layerTs = s.layerTs := (rfl)
@[simp] theorem setDp_tileLanes (s : State) (p : Nat) (x : DmxPort) : (s.setDp p x).tileLanes = s.tileLanes := (rfl)
@[simp] theorem setDp_spd (s : State) (p : Nat) (x : DmxPort) : (s.setDp p x).spd = s.spd := (rfl)
@[simp] theorem setDp_spdAnch (s : State) (p : Nat) (x : DmxPort) : (s.setDp p x).spdAnch = s.spdAnch := (rfl)
@[simp] theorem setDp_spdNew (s : State) (p : Nat) (x : DmxPort) : (s.setDp p x).spdNew = s.spdNew := (rfl)
@[simp] theorem setDp_spdTick (s : State) (p : Nat) (x : DmxPort) : (s.setDp p x).spdTick = s.spdTick := (rfl)
@[simp] theorem setDp_spdOut (s : State) (p : Nat) (x : DmxPort) : (s.setDp p x).spdOut = s.spdOut := (rfl)
@[simp] theorem setDp_snsGood (s : State) (p : Nat) (x : DmxPort) : (s.setDp p x).snsGood = s.snsGood := (rfl)
@[simp] theorem setDp_snsPair (s : State) (p : Nat) (x : DmxPort) : (s.setDp p x).snsPair = s.snsPair := (rfl)
@[simp] theorem setDp_macs (s : State) (p : Nat) (x : DmxPort) : (s.setDp p x).macs = s.macs := (rfl)
@[simp] theorem setDp_fpArmed (s : State) (p : Nat) (x : DmxPort) : (s.setDp p x).fpArmed = s.fpArmed := (rfl)
@[simp] theorem setDp_unv (s : State) (p : Nat) (x : DmxPort) : (s.setDp p x).unv = s.unv := (rfl)
@[simp] theorem setDp_tap (s : State) (p : Nat) (x : DmxPort) : (s.setDp p x).tap = s.tap := (rfl)
@[simp] theorem setDp_lgl (s : State) (p : Nat) (x : DmxPort) : (s.setDp p x).lgl = s.lgl := (rfl)
@[simp] theorem setDp_keys (s : State) (p : Nat) (x : DmxPort) : (s.setDp p x).keys = s.keys := (rfl)
@[simp] theorem setDp_upd (s : State) (p : Nat) (x : DmxPort) : (s.setDp p x).upd = s.upd := (rfl)
@[simp] theorem setDp_pwr (s : State) (p : Nat) (x : DmxPort) : (s.setDp p x).pwr = s.pwr := (rfl)
@[simp] theorem setDp_nrg (s : State) (p : Nat) (x : DmxPort) : (s.setDp p x).nrg = s.nrg := (rfl)
@[simp] theorem setDp_calib (s : State) (p : Nat) (x : DmxPort) : (s.setDp p x).calib = s.calib := (rfl)
@[simp] theorem setDp_chkRun (s : State) (p : Nat) (x : DmxPort) : (s.setDp p x).chkRun = s.chkRun := (rfl)
@[simp] theorem setDp_chnFwd (s : State) (p : Nat) (x : DmxPort) : (s.setDp p x).chnFwd = s.chnFwd := (rfl)
@[simp] theorem setDp_chnQ (s : State) (p : Nat) (x : DmxPort) : (s.setDp p x).chnQ = s.chnQ := (rfl)
@[simp] theorem setDp_chnLine (s : State) (p : Nat) (x : DmxPort) : (s.setDp p x).chnLine = s.chnLine := (rfl)
@[simp] theorem setDp_chnTill (s : State) (p : Nat) (x : DmxPort) : (s.setDp p x).chnTill = s.chnTill := (rfl)
@[simp] theorem setDp_chnWin (s : State) (p : Nat) (x : DmxPort) : (s.setDp p x).chnWin = s.chnWin := (rfl)
@[simp] theorem setDp_chnSlot (s : State) (p : Nat) (x : DmxPort) : (s.setDp p x).chnSlot = s.chnSlot := (rfl)
@[simp] theorem setDp_chnUsed (s : State) (p : Nat) (x : DmxPort) : (s.setDp p x).chnUsed = s.chnUsed := (rfl)
@[simp] theorem setDp_pair (s : State) (p : Nat) (x : DmxPort) : (s.setDp p x).pair = s.pair := (rfl)
@[simp] theorem setDp_spdPair (s : State) (p : Nat) (x : DmxPort) : (s.setDp p x).spdPair = s.spdPair := (rfl)
@[simp] theorem setDp_committedNs (s : State) (p : Nat) (x : DmxPort) : (s.setDp p x).committedNs = s.committedNs := (rfl)
@[simp] theorem setDp_failedUnits (s : State) (p : Nat) (x : DmxPort) : (s.setDp p x).failedUnits = s.failedUnits := (rfl)
@[simp] theorem setDp_lanesOut (s : State) (p : Nat) (x : DmxPort) : (s.setDp p x).lanesOut = s.lanesOut := (rfl)
@[simp] theorem setDp_swapsDue (s : State) (p : Nat) (x : DmxPort) : (s.setDp p x).swapsDue = s.swapsDue := (rfl)
@[simp] theorem setDp_nvsWear (s : State) (p : Nat) (x : DmxPort) : (s.setDp p x).nvsWear = s.nvsWear := (rfl)

@[simp] theorem setSch_pending (s : State) (n : Nat) (x : SpdCh) : (s.setSch n x).pending = s.pending := (rfl)
@[simp] theorem setSch_now (s : State) (n : Nat) (x : SpdCh) : (s.setSch n x).now = s.now := (rfl)
@[simp] theorem setSch_sck (s : State) (n : Nat) (x : SpdCh) : (s.setSch n x).sck = s.sck := (rfl)
@[simp] theorem setSch_fresh (s : State) (n : Nat) (x : SpdCh) : (s.setSch n x).fresh = s.fresh := (rfl)
@[simp] theorem setSch_regs (s : State) (n : Nat) (x : SpdCh) : (s.setSch n x).regs = s.regs := (rfl)
@[simp] theorem setSch_act (s : State) (n : Nat) (x : SpdCh) : (s.setSch n x).act = s.act := (rfl)
@[simp] theorem setSch_taken (s : State) (n : Nat) (x : SpdCh) : (s.setSch n x).taken = s.taken := (rfl)
@[simp] theorem setSch_commits (s : State) (n : Nat) (x : SpdCh) : (s.setSch n x).commits = s.commits := (rfl)
@[simp] theorem setSch_writeNo (s : State) (n : Nat) (x : SpdCh) : (s.setSch n x).writeNo = s.writeNo := (rfl)
@[simp] theorem setSch_shadowNo (s : State) (n : Nat) (x : SpdCh) : (s.setSch n x).shadowNo = s.shadowNo := (rfl)
@[simp] theorem setSch_mem (s : State) (n : Nat) (x : SpdCh) : (s.setSch n x).mem = s.mem := (rfl)
@[simp] theorem setSch_ecc (s : State) (n : Nat) (x : SpdCh) : (s.setSch n x).ecc = s.ecc := (rfl)
@[simp] theorem setSch_tsuAcc (s : State) (n : Nat) (x : SpdCh) : (s.setSch n x).tsuAcc = s.tsuAcc := (rfl)
@[simp] theorem setSch_tsuHi (s : State) (n : Nat) (x : SpdCh) : (s.setSch n x).tsuHi = s.tsuHi := (rfl)
@[simp] theorem setSch_tsuHist (s : State) (n : Nat) (x : SpdCh) : (s.setSch n x).tsuHist = s.tsuHist := (rfl)
@[simp] theorem setSch_vents (s : State) (n : Nat) (x : SpdCh) : (s.setSch n x).vents = s.vents := (rfl)
@[simp] theorem setSch_craters (s : State) (n : Nat) (x : SpdCh) : (s.setSch n x).craters = s.craters := (rfl)
@[simp] theorem setSch_tasks (s : State) (n : Nat) (x : SpdCh) : (s.setSch n x).tasks = s.tasks := (rfl)
@[simp] theorem setSch_seqs (s : State) (n : Nat) (x : SpdCh) : (s.setSch n x).seqs = s.seqs := (rfl)
@[simp] theorem setSch_cals (s : State) (n : Nat) (x : SpdCh) : (s.setSch n x).cals = s.cals := (rfl)
@[simp] theorem setSch_dies (s : State) (n : Nat) (x : SpdCh) : (s.setSch n x).dies = s.dies := (rfl)
@[simp] theorem setSch_gates (s : State) (n : Nat) (x : SpdCh) : (s.setSch n x).gates = s.gates := (rfl)
@[simp] theorem setSch_cores (s : State) (n : Nat) (x : SpdCh) : (s.setSch n x).cores = s.cores := (rfl)
@[simp] theorem setSch_ticketNo (s : State) (n : Nat) (x : SpdCh) : (s.setSch n x).ticketNo = s.ticketNo := (rfl)
@[simp] theorem setSch_outTaken (s : State) (n : Nat) (x : SpdCh) : (s.setSch n x).outTaken = s.outTaken := (rfl)
@[simp] theorem setSch_relTaken (s : State) (n : Nat) (x : SpdCh) : (s.setSch n x).relTaken = s.relTaken := (rfl)
@[simp] theorem setSch_fifos (s : State) (n : Nat) (x : SpdCh) : (s.setSch n x).fifos = s.fifos := (rfl)
@[simp] theorem setSch_chans (s : State) (n : Nat) (x : SpdCh) : (s.setSch n x).chans = s.chans := (rfl)
@[simp] theorem setSch_targets (s : State) (n : Nat) (x : SpdCh) : (s.setSch n x).targets = s.targets := (rfl)
@[simp] theorem setSch_icuPend (s : State) (n : Nat) (x : SpdCh) : (s.setSch n x).icuPend = s.icuPend := (rfl)
@[simp] theorem setSch_icuSvc (s : State) (n : Nat) (x : SpdCh) : (s.setSch n x).icuSvc = s.icuSvc := (rfl)
@[simp] theorem setSch_icuLine (s : State) (n : Nat) (x : SpdCh) : (s.setSch n x).icuLine = s.icuLine := (rfl)
@[simp] theorem setSch_sinter (s : State) (n : Nat) (x : SpdCh) : (s.setSch n x).sinter = s.sinter := (rfl)
@[simp] theorem setSch_springLatch (s : State) (n : Nat) (x : SpdCh) : (s.setSch n x).springLatch = s.springLatch := (rfl)
@[simp] theorem setSch_flt (s : State) (n : Nat) (x : SpdCh) : (s.setSch n x).flt = s.flt := (rfl)
@[simp] theorem setSch_fltNvs (s : State) (n : Nat) (x : SpdCh) : (s.setSch n x).fltNvs = s.fltNvs := (rfl)
@[simp] theorem setSch_host (s : State) (n : Nat) (x : SpdCh) : (s.setSch n x).host = s.host := (rfl)
@[simp] theorem setSch_hwFaults (s : State) (n : Nat) (x : SpdCh) : (s.setSch n x).hwFaults = s.hwFaults := (rfl)
@[simp] theorem setSch_hwchk (s : State) (n : Nat) (x : SpdCh) : (s.setSch n x).hwchk = s.hwchk := (rfl)
@[simp] theorem setSch_dramReqs (s : State) (n : Nat) (x : SpdCh) : (s.setSch n x).dramReqs = s.dramReqs := (rfl)
@[simp] theorem setSch_dramRef (s : State) (n : Nat) (x : SpdCh) : (s.setSch n x).dramRef = s.dramRef := (rfl)
@[simp] theorem setSch_hostRead (s : State) (n : Nat) (x : SpdCh) : (s.setSch n x).hostRead = s.hostRead := (rfl)
@[simp] theorem setSch_bgtOver (s : State) (n : Nat) (x : SpdCh) : (s.setSch n x).bgtOver = s.bgtOver := (rfl)
@[simp] theorem setSch_bgtUnder (s : State) (n : Nat) (x : SpdCh) : (s.setSch n x).bgtUnder = s.bgtUnder := (rfl)
@[simp] theorem setSch_snapReq (s : State) (n : Nat) (x : SpdCh) : (s.setSch n x).snapReq = s.snapReq := (rfl)
@[simp] theorem setSch_capReq (s : State) (n : Nat) (x : SpdCh) : (s.setSch n x).capReq = s.capReq := (rfl)
@[simp] theorem setSch_flkNo (s : State) (n : Nat) (x : SpdCh) : (s.setSch n x).flkNo = s.flkNo := (rfl)
@[simp] theorem setSch_ratePend (s : State) (n : Nat) (x : SpdCh) : (s.setSch n x).ratePend = s.ratePend := (rfl)
@[simp] theorem setSch_fsyncAt (s : State) (n : Nat) (x : SpdCh) : (s.setSch n x).fsyncAt = s.fsyncAt := (rfl)
@[simp] theorem setSch_flkNext (s : State) (n : Nat) (x : SpdCh) : (s.setSch n x).flkNext = s.flkNext := (rfl)
@[simp] theorem setSch_flkFired (s : State) (n : Nat) (x : SpdCh) : (s.setSch n x).flkFired = s.flkFired := (rfl)
@[simp] theorem setSch_flkS (s : State) (n : Nat) (x : SpdCh) : (s.setSch n x).flkS = s.flkS := (rfl)
@[simp] theorem setSch_lateNoted (s : State) (n : Nat) (x : SpdCh) : (s.setSch n x).lateNoted = s.lateNoted := (rfl)
@[simp] theorem setSch_sealed (s : State) (n : Nat) (x : SpdCh) : (s.setSch n x).sealed = s.sealed := (rfl)
@[simp] theorem setSch_sealHold (s : State) (n : Nat) (x : SpdCh) : (s.setSch n x).sealHold = s.sealHold := (rfl)
@[simp] theorem setSch_fadeFc (s : State) (n : Nat) (x : SpdCh) : (s.setSch n x).fadeFc = s.fadeFc := (rfl)
@[simp] theorem setSch_fadeTc (s : State) (n : Nat) (x : SpdCh) : (s.setSch n x).fadeTc = s.fadeTc := (rfl)
@[simp] theorem setSch_notices (s : State) (n : Nat) (x : SpdCh) : (s.setSch n x).notices = s.notices := (rfl)
@[simp] theorem setSch_peers (s : State) (n : Nat) (x : SpdCh) : (s.setSch n x).peers = s.peers := (rfl)
@[simp] theorem setSch_chnOut (s : State) (n : Nat) (x : SpdCh) : (s.setSch n x).chnOut = s.chnOut := (rfl)
@[simp] theorem setSch_chnAlive (s : State) (n : Nat) (x : SpdCh) : (s.setSch n x).chnAlive = s.chnAlive := (rfl)
@[simp] theorem setSch_roleAt (s : State) (n : Nat) (x : SpdCh) : (s.setSch n x).roleAt = s.roleAt := (rfl)
@[simp] theorem setSch_tbl (s : State) (n : Nat) (x : SpdCh) : (s.setSch n x).tbl = s.tbl := (rfl)
@[simp] theorem setSch_bufs (s : State) (n : Nat) (x : SpdCh) : (s.setSch n x).bufs = s.bufs := (rfl)
@[simp] theorem setSch_vid (s : State) (n : Nat) (x : SpdCh) : (s.setSch n x).vid = s.vid := (rfl)
@[simp] theorem setSch_vidDrop (s : State) (n : Nat) (x : SpdCh) : (s.setSch n x).vidDrop = s.vidDrop := (rfl)
@[simp] theorem setSch_layerStore (s : State) (n : Nat) (x : SpdCh) : (s.setSch n x).layerStore = s.layerStore := (rfl)
@[simp] theorem setSch_lgvPrev (s : State) (n : Nat) (x : SpdCh) : (s.setSch n x).lgvPrev = s.lgvPrev := (rfl)
@[simp] theorem setSch_lgvD (s : State) (n : Nat) (x : SpdCh) : (s.setSch n x).lgvD = s.lgvD := (rfl)
@[simp] theorem setSch_tfFrames (s : State) (n : Nat) (x : SpdCh) : (s.setSch n x).tfFrames = s.tfFrames := (rfl)
@[simp] theorem setSch_tfPair (s : State) (n : Nat) (x : SpdCh) : (s.setSch n x).tfPair = s.tfPair := (rfl)
@[simp] theorem setSch_tfPairAt (s : State) (n : Nat) (x : SpdCh) : (s.setSch n x).tfPairAt = s.tfPairAt := (rfl)
@[simp] theorem setSch_outScale (s : State) (n : Nat) (x : SpdCh) : (s.setSch n x).outScale = s.outScale := (rfl)
@[simp] theorem setSch_slotWrites (s : State) (n : Nat) (x : SpdCh) : (s.setSch n x).slotWrites = s.slotWrites := (rfl)
@[simp] theorem setSch_copyWrites (s : State) (n : Nat) (x : SpdCh) : (s.setSch n x).copyWrites = s.copyWrites := (rfl)
@[simp] theorem setSch_gens (s : State) (n : Nat) (x : SpdCh) : (s.setSch n x).gens = s.gens := (rfl)
@[simp] theorem setSch_fadeFrames (s : State) (n : Nat) (x : SpdCh) : (s.setSch n x).fadeFrames = s.fadeFrames := (rfl)
@[simp] theorem setSch_layerTs (s : State) (n : Nat) (x : SpdCh) : (s.setSch n x).layerTs = s.layerTs := (rfl)
@[simp] theorem setSch_tileLanes (s : State) (n : Nat) (x : SpdCh) : (s.setSch n x).tileLanes = s.tileLanes := (rfl)
@[simp] theorem setSch_spdAnch (s : State) (n : Nat) (x : SpdCh) : (s.setSch n x).spdAnch = s.spdAnch := (rfl)
@[simp] theorem setSch_spdNew (s : State) (n : Nat) (x : SpdCh) : (s.setSch n x).spdNew = s.spdNew := (rfl)
@[simp] theorem setSch_spdTick (s : State) (n : Nat) (x : SpdCh) : (s.setSch n x).spdTick = s.spdTick := (rfl)
@[simp] theorem setSch_spdOut (s : State) (n : Nat) (x : SpdCh) : (s.setSch n x).spdOut = s.spdOut := (rfl)
@[simp] theorem setSch_snsGood (s : State) (n : Nat) (x : SpdCh) : (s.setSch n x).snsGood = s.snsGood := (rfl)
@[simp] theorem setSch_snsPair (s : State) (n : Nat) (x : SpdCh) : (s.setSch n x).snsPair = s.snsPair := (rfl)
@[simp] theorem setSch_dmx (s : State) (n : Nat) (x : SpdCh) : (s.setSch n x).dmx = s.dmx := (rfl)
@[simp] theorem setSch_macs (s : State) (n : Nat) (x : SpdCh) : (s.setSch n x).macs = s.macs := (rfl)
@[simp] theorem setSch_fpArmed (s : State) (n : Nat) (x : SpdCh) : (s.setSch n x).fpArmed = s.fpArmed := (rfl)
@[simp] theorem setSch_unv (s : State) (n : Nat) (x : SpdCh) : (s.setSch n x).unv = s.unv := (rfl)
@[simp] theorem setSch_tap (s : State) (n : Nat) (x : SpdCh) : (s.setSch n x).tap = s.tap := (rfl)
@[simp] theorem setSch_lgl (s : State) (n : Nat) (x : SpdCh) : (s.setSch n x).lgl = s.lgl := (rfl)
@[simp] theorem setSch_keys (s : State) (n : Nat) (x : SpdCh) : (s.setSch n x).keys = s.keys := (rfl)
@[simp] theorem setSch_upd (s : State) (n : Nat) (x : SpdCh) : (s.setSch n x).upd = s.upd := (rfl)
@[simp] theorem setSch_pwr (s : State) (n : Nat) (x : SpdCh) : (s.setSch n x).pwr = s.pwr := (rfl)
@[simp] theorem setSch_nrg (s : State) (n : Nat) (x : SpdCh) : (s.setSch n x).nrg = s.nrg := (rfl)
@[simp] theorem setSch_calib (s : State) (n : Nat) (x : SpdCh) : (s.setSch n x).calib = s.calib := (rfl)
@[simp] theorem setSch_chkRun (s : State) (n : Nat) (x : SpdCh) : (s.setSch n x).chkRun = s.chkRun := (rfl)
@[simp] theorem setSch_chnFwd (s : State) (n : Nat) (x : SpdCh) : (s.setSch n x).chnFwd = s.chnFwd := (rfl)
@[simp] theorem setSch_chnQ (s : State) (n : Nat) (x : SpdCh) : (s.setSch n x).chnQ = s.chnQ := (rfl)
@[simp] theorem setSch_chnLine (s : State) (n : Nat) (x : SpdCh) : (s.setSch n x).chnLine = s.chnLine := (rfl)
@[simp] theorem setSch_chnTill (s : State) (n : Nat) (x : SpdCh) : (s.setSch n x).chnTill = s.chnTill := (rfl)
@[simp] theorem setSch_chnWin (s : State) (n : Nat) (x : SpdCh) : (s.setSch n x).chnWin = s.chnWin := (rfl)
@[simp] theorem setSch_chnSlot (s : State) (n : Nat) (x : SpdCh) : (s.setSch n x).chnSlot = s.chnSlot := (rfl)
@[simp] theorem setSch_chnUsed (s : State) (n : Nat) (x : SpdCh) : (s.setSch n x).chnUsed = s.chnUsed := (rfl)
@[simp] theorem setSch_pair (s : State) (n : Nat) (x : SpdCh) : (s.setSch n x).pair = s.pair := (rfl)
@[simp] theorem setSch_spdPair (s : State) (n : Nat) (x : SpdCh) : (s.setSch n x).spdPair = s.spdPair := (rfl)
@[simp] theorem setSch_committedNs (s : State) (n : Nat) (x : SpdCh) : (s.setSch n x).committedNs = s.committedNs := (rfl)
@[simp] theorem setSch_failedUnits (s : State) (n : Nat) (x : SpdCh) : (s.setSch n x).failedUnits = s.failedUnits := (rfl)
@[simp] theorem setSch_lanesOut (s : State) (n : Nat) (x : SpdCh) : (s.setSch n x).lanesOut = s.lanesOut := (rfl)
@[simp] theorem setSch_swapsDue (s : State) (n : Nat) (x : SpdCh) : (s.setSch n x).swapsDue = s.swapsDue := (rfl)
@[simp] theorem setSch_nvsWear (s : State) (n : Nat) (x : SpdCh) : (s.setSch n x).nvsWear = s.nvsWear := (rfl)

end Sys2Proof.Machine
end

