-- ==== Sys2Proof/Laws/Memory.lean ====
section
/-!
SUPPORT. Memory and the register file: what a read gives after a store, that every store keeps the canonical form, and
what the fields and bits of a register are after one field is set.
-/
namespace Sys2Proof.Machine
open Sys2Proof

/-! ### Bytes -/

/-- What a byte reads as after a byte is stored. -/
theorem rdB_wrB (s : State) (a c : Nat) (b : Byte) : (s.wrB a b).rdB c = if c = a then b else s.rdB c :=
  mget_mset memReset s.mem a c b

/-- What memory reads as after bytes are stored at `a`, `a + 1`, … -/
theorem mget_memWrite (l : List Byte) (m : List Host.Cell) (a c : Nat) :
    mget memReset (memWrite m a l) c = if a ≤ c ∧ c < a + l.length then l.getD (c - a) 0 else mget memReset m c := by
  induction l generalizing m a with
  | nil => simp [memWrite] <;> omega
  | cons b t ih =>
    rw [memWrite, ih, mget_mset]
    by_cases h : c = a
    · subst h
      rw [if_neg (by omega), if_pos rfl, if_pos (by simp), Nat.sub_self]; rfl
    · by_cases h2 : a + 1 ≤ c ∧ c < a + 1 + t.length
      · rw [if_pos h2, if_pos (by rw [List.length_cons]; omega)]
        rw [show c - a = (c - (a + 1)) + 1 by omega]; rfl
      · rw [if_neg h2, if_neg h, if_neg (by rw [List.length_cons]; omega)]

theorem rdB_wrBytes (s : State) (a c : Nat) (l : List Byte) :
    (s.wrBytes a l).rdB c = if a ≤ c ∧ c < a + l.length then l.getD (c - a) 0 else s.rdB c :=
  mget_memWrite l s.mem a c

/-- What memory reads as after a hub block stores bytes: those outside its reach are discarded (R40). -/
theorem mget_memWriteIn (ok : Nat → Bool) (l : List Byte) (m : List Host.Cell) (a c : Nat) :
    mget memReset (memWriteIn ok m a l) c =
      if a ≤ c ∧ c < a + l.length ∧ ok c = true then l.getD (c - a) 0 else mget memReset m c := by
  induction l generalizing m a with
  | nil => simp [memWriteIn]; omega
  | cons b t ih =>
    rw [memWriteIn, ih]
    by_cases h2 : a + 1 ≤ c ∧ c < a + 1 + t.length ∧ ok c = true
    · rw [if_pos h2, if_pos (by rw [List.length_cons]; exact ⟨by omega, by omega, h2.2.2⟩)]
      rw [show c - a = (c - (a + 1)) + 1 by omega]; rfl
    · rw [if_neg h2]
      by_cases h : c = a
      · subst h
        by_cases ho : ok c = true
        · simp [ho]
        · simp [ho]
      · have hn : ¬(a ≤ c ∧ c < a + (b :: t).length ∧ ok c = true) := fun e =>
          h2 ⟨by omega, by have := e.2.1; rw [List.length_cons] at this; omega, e.2.2⟩
        simp only [if_neg hn]
        split
        · exact mget_mset_ne memReset m b h
        · rfl

/-- A byte of a read of several. -/
theorem getD_rdBytes (s : State) (n a i : Nat) : (s.rdBytes a n).getD i 0 = if i < n then s.rdB (a + i) else 0 := by
  induction n generalizing a i with
  | zero => simp [State.rdBytes]
  | succ n ih =>
    cases i with
    | zero => simp [State.rdBytes]
    | succ i =>
      rw [State.rdBytes, List.getD_cons_succ, ih, show a + 1 + i = a + (i + 1) by omega]
      simp

@[simp] theorem length_rdBytes (s : State) (a n : Nat) : (s.rdBytes a n).length = n := by
  induction n generalizing a with
  | zero => rfl
  | succ n ih => simp [State.rdBytes, ih]

@[simp] theorem length_leBytes (n v : Nat) : (leBytes n v).length = n := by
  induction n generalizing v with
  | zero => rfl
  | succ n ih => simp [leBytes, ih]

/-- Little-endian bytes hold the number they were made of, modulo their size (R8). -/
theorem leNat_leBytes (n v : Nat) : leNat (leBytes n v) = v % 256 ^ n := by
  induction n generalizing v with
  | zero => simp [leBytes, leNat, Nat.mod_one]
  | succ n ih =>
    have e : (BitVec.ofNat 8 v).toNat = v % 256 := by rw [BitVec.toNat_ofNat]
    rw [leBytes, leNat, ih, e, Nat.pow_succ', Nat.mod_mul]

/-! ### The canonical form -/

theorem memWrite_wf (l : List Byte) {m : List Host.Cell} (a : Nat) (h : Memory.wf m) : Memory.wf (memWrite m a l) := by
  induction l generalizing m a with
  | nil => exact h
  | cons b t ih => exact ih (a + 1) (mwf_mset memReset a b h)

theorem memWriteIn_wf (ok : Nat → Bool) (l : List Byte) {m : List Host.Cell} (a : Nat) (h : Memory.wf m) :
    Memory.wf (memWriteIn ok m a l) := by
  induction l generalizing m a with
  | nil => exact h
  | cons b t ih =>
    refine ih (a + 1) ?_
    split
    · exact mwf_mset memReset a b h
    · exact h

theorem wrB_wf {s : State} (a : Nat) (b : Byte) (h : Memory.wf s.mem) : Memory.wf (s.wrB a b).mem :=
  mwf_mset memReset a b h
theorem wrBytes_wf {s : State} (a : Nat) (l : List Byte) (h : Memory.wf s.mem) : Memory.wf (s.wrBytes a l).mem :=
  memWrite_wf l a h
theorem wr_regs_wf {s : State} (a : Nat) (v : Word) (h : Regs.wf s.regs) : Regs.wf (s.wr a v).regs :=
  mwf_mset regReset a v h
theorem reset_mem_wf : Memory.wf State.reset.mem := rfl
theorem reset_regs_wf : Regs.wf State.reset.regs := rfl

/-! ### Registers and their fields -/

/-- What a register reads as after one is written. -/
theorem rd_wr (s : State) (a c : Nat) (v : Word) : (s.wr a v).rd c = if c = a then v else s.rd c :=
  mget_mset regReset s.regs a c v
@[simp] theorem rd_wr_self (s : State) (a : Nat) (v : Word) : (s.wr a v).rd a = v := by simp [rd_wr]
theorem rd_wr_ne (s : State) {a c : Nat} (v : Word) (h : c ≠ a) : (s.wr a v).rd c = s.rd c := by simp [rd_wr, h]
theorem aRd_aWr (s : State) (a c : Nat) (v : Word) : (s.aWr a v).aRd c = if c = a then v else s.aRd c :=
  mget_mset regReset s.act a c v

/-- The bits of a number put together from three fields. -/
theorem testBit_fields (q f r lo k i : Nat) (hr : r < 2 ^ lo) (hf : f < 2 ^ k) :
    (2 ^ (lo + k) * q + (2 ^ lo * f + r)).testBit i =
      if i < lo then r.testBit i else if i < lo + k then f.testBit (i - lo) else q.testBit (i - (lo + k)) := by
  have lt : 2 ^ lo * f + r < 2 ^ (lo + k) := by
    calc 2 ^ lo * f + r < 2 ^ lo * f + 2 ^ lo := Nat.add_lt_add_left hr _
      _ = 2 ^ lo * (f + 1) := by rw [Nat.mul_add, Nat.mul_one]
      _ ≤ 2 ^ lo * 2 ^ k := Nat.mul_le_mul_left _ hf
      _ = 2 ^ (lo + k) := by rw [Nat.pow_add]
  rw [Nat.testBit_two_pow_mul_add _ lt, Nat.testBit_two_pow_mul_add _ hr]
  by_cases c1 : i < lo
  · rw [if_pos (by omega), if_pos c1, if_pos c1]
  · by_cases c2 : i < lo + k
    · rw [if_pos c2, if_neg c1, if_neg c1, if_pos c2]
    · rw [if_neg c2, if_neg c1, if_neg c2]

/-- A number is put together from its three fields. -/
theorem fields_eq (n lo k : Nat) : 2 ^ (lo + k) * (n / 2 ^ (lo + k)) + (2 ^ lo * (n / 2 ^ lo % 2 ^ k) + n % 2 ^ lo) = n := by
  have a1 := Nat.div_add_mod n (2 ^ lo)
  have a2 := Nat.div_add_mod (n / 2 ^ lo) (2 ^ k)
  rw [Nat.div_div_eq_div_mul, ← Nat.pow_add] at a2
  rw [← Nat.add_assoc, Nat.pow_add, Nat.mul_assoc, ← Nat.mul_add, ← Nat.pow_add, a2, a1]

/-- The bits of a word after one field is set: the field's are the number's, every other bit stays. -/
theorem bitOf_setFld (w : Word) (hi lo v i : Nat) (h : lo ≤ hi) (hh : hi < 32) :
    bitOf (setFld w hi lo v) i = if lo ≤ i ∧ i ≤ hi then v.testBit (i - lo) else bitOf w i := by
  obtain ⟨k, hk⟩ : ∃ k, hi - lo + 1 = k := ⟨_, rfl⟩
  have hw := fields_eq w.toNat lo k
  have lr : w.toNat % 2 ^ lo < 2 ^ lo := Nat.mod_lt _ (Nat.two_pow_pos _)
  have tw := testBit_fields (w.toNat / 2 ^ (lo + k)) (w.toNat / 2 ^ lo % 2 ^ k) (w.toNat % 2 ^ lo) lo k i lr
    (Nat.mod_lt _ (Nat.two_pow_pos _))
  have tv := testBit_fields (w.toNat / 2 ^ (lo + k)) (v % 2 ^ k) (w.toNat % 2 ^ lo) lo k i lr (Nat.mod_lt _ (Nat.two_pow_pos _))
  rw [hw] at tw
  have hs : w.toNat - fldOf w hi lo * 2 ^ lo + v % 2 ^ (hi - lo + 1) * 2 ^ lo =
      2 ^ (lo + k) * (w.toNat / 2 ^ (lo + k)) + (2 ^ lo * (v % 2 ^ k) + w.toNat % 2 ^ lo) := by
    unfold fldOf
    rw [hk, Nat.mul_comm _ (2 ^ lo), Nat.mul_comm _ (2 ^ lo)]
    omega
  have es : bitOf (setFld w hi lo v) i = (decide (i < 32) && (w.toNat - fldOf w hi lo * 2 ^ lo
      + v % 2 ^ (hi - lo + 1) * 2 ^ lo).testBit i) := by
    simp [setFld, bitOf, Word.ofNat, BitVec.getLsbD_ofNat]
  rw [es, hs, tv, show bitOf w i = w.toNat.testBit i from rfl, tw]
  by_cases c1 : i < lo
  · rw [if_pos c1, if_pos c1, if_neg (by omega), decide_eq_true (by omega : i < 32), Bool.true_and]
  · by_cases c2 : i < lo + k
    · rw [if_neg c1, if_pos c2, if_pos (by omega), decide_eq_true (by omega : i < 32), Bool.true_and, Nat.testBit_mod_two_pow,
        decide_eq_true (by omega : i - lo < k), Bool.true_and]
    · rw [if_neg c1, if_neg c2, if_neg c1, if_neg c2, if_neg (by omega)]
      by_cases c3 : i < 32
      · rw [decide_eq_true c3, Bool.true_and]
      · rw [if_neg c1, if_neg c2] at tw
        rw [decide_eq_false c3, Bool.false_and, ← tw]
        exact (Nat.testBit_lt_two_pow (Nat.lt_of_lt_of_le w.isLt (Nat.pow_le_pow_right (by omega) (by omega)))).symm

/-- A field that has been set reads as the number, modulo its size. -/
theorem fldOf_setFld (w : Word) (hi lo v : Nat) (h : lo ≤ hi) (hh : hi < 32) :
    fldOf (setFld w hi lo v) hi lo = v % 2 ^ (hi - lo + 1) := by
  apply Nat.eq_of_testBit_eq
  intro j
  unfold fldOf
  rw [Nat.testBit_mod_two_pow, Nat.testBit_mod_two_pow, Nat.testBit_div_two_pow]
  by_cases c : j < hi - lo + 1
  · have := bitOf_setFld w hi lo v (j + lo) h hh
    rw [if_pos (by omega), Nat.add_sub_cancel] at this
    rw [decide_eq_true c, Bool.true_and, Bool.true_and]
    exact this
  · rw [decide_eq_false c, Bool.false_and, Bool.false_and]

/-- A field stays when another that shares no bit with it is set. -/
theorem fldOf_setFld_ne (w : Word) (hi lo v hi' lo' : Nat) (h : lo ≤ hi) (hh : hi < 32) (h' : lo' ≤ hi')
    (hd : hi' < lo ∨ hi < lo') : fldOf (setFld w hi lo v) hi' lo' = fldOf w hi' lo' := by
  apply Nat.eq_of_testBit_eq
  intro j
  unfold fldOf
  rw [Nat.testBit_mod_two_pow, Nat.testBit_mod_two_pow, Nat.testBit_div_two_pow, Nat.testBit_div_two_pow]
  by_cases c : j < hi' - lo' + 1
  · have := bitOf_setFld w hi lo v (j + lo') h hh
    rw [if_neg (by omega)] at this
    rw [decide_eq_true c, Bool.true_and, Bool.true_and]
    exact this
  · rw [decide_eq_false c, Bool.false_and, Bool.false_and]

theorem rd_setF (s : State) (a c hi lo v : Nat) :
    (s.setF a hi lo v).rd c = if c = a then setFld (s.rd a) hi lo v else s.rd c := rd_wr ..
theorem fld_setF_self (s : State) (a hi lo v : Nat) (h : lo ≤ hi) (hh : hi < 32) :
    (s.setF a hi lo v).fld a hi lo = v % 2 ^ (hi - lo + 1) := by
  unfold State.fld; rw [rd_setF, if_pos rfl, fldOf_setFld _ _ _ _ h hh]
theorem fld_setF_ne (s : State) {a c : Nat} (hi lo v hi' lo' : Nat) (h : c ≠ a) :
    (s.setF a hi lo v).fld c hi' lo' = s.fld c hi' lo' := by
  unfold State.fld; rw [rd_setF, if_neg h]
theorem bit_setF (s : State) (a c hi lo v i : Nat) (h : lo ≤ hi) (hh : hi < 32) :
    (s.setF a hi lo v).bit c i = if c = a ∧ lo ≤ i ∧ i ≤ hi then v.testBit (i - lo) else s.bit c i := by
  unfold State.bit; rw [rd_setF]
  by_cases e : c = a
  · subst e; rw [if_pos rfl, bitOf_setFld _ _ _ _ _ h hh]; simp
  · rw [if_neg e, if_neg (by simp [e])]

end Sys2Proof.Machine
end

