-- ==== Sys2Proof/Laws/Ops.lean ====
section
/-!
SUPPORT. The shared operations that record, signal and answer: what they leave alone, what a record holds, and what a
host command comes to once its request has been found.
-/
namespace Sys2Proof.Machine
open Sys2Proof

/-! ### What signals and records leave alone -/

@[simp] theorem hostEvent_mem (s : State) (code : Nat) (fr d : Word) : (s.hostEvent code fr d).mem = s.mem := (rfl)
@[simp] theorem hostEvent_pending (s : State) (code : Nat) (fr d : Word) : (s.hostEvent code fr d).pending = s.pending := (rfl)
@[simp] theorem hostEvent_vents (s : State) (code : Nat) (fr d : Word) : (s.hostEvent code fr d).vents = s.vents := (rfl)
@[simp] theorem hostEvent_craters (s : State) (code : Nat) (fr d : Word) : (s.hostEvent code fr d).craters = s.craters := (rfl)
@[simp] theorem hostEvent_cores (s : State) (code : Nat) (fr d : Word) : (s.hostEvent code fr d).cores = s.cores := (rfl)
@[simp] theorem hostEvent_tasks (s : State) (code : Nat) (fr d : Word) : (s.hostEvent code fr d).tasks = s.tasks := (rfl)
@[simp] theorem hostEvent_cals (s : State) (code : Nat) (fr d : Word) : (s.hostEvent code fr d).cals = s.cals := (rfl)
@[simp] theorem hostEvent_dies (s : State) (code : Nat) (fr d : Word) : (s.hostEvent code fr d).dies = s.dies := (rfl)
@[simp] theorem hostEvent_fifos (s : State) (code : Nat) (fr d : Word) : (s.hostEvent code fr d).fifos = s.fifos := (rfl)
@[simp] theorem hostEvent_chans (s : State) (code : Nat) (fr d : Word) : (s.hostEvent code fr d).chans = s.chans := (rfl)
@[simp] theorem hostEvent_targets (s : State) (code : Nat) (fr d : Word) : (s.hostEvent code fr d).targets = s.targets := (rfl)
@[simp] theorem hostEvent_tileLanes (s : State) (code : Nat) (fr d : Word) : (s.hostEvent code fr d).tileLanes = s.tileLanes := (rfl)
@[simp] theorem hostEvent_macs (s : State) (code : Nat) (fr d : Word) : (s.hostEvent code fr d).macs = s.macs := (rfl)
@[simp] theorem hostEvent_unv (s : State) (code : Nat) (fr d : Word) : (s.hostEvent code fr d).unv = s.unv := (rfl)
@[simp] theorem hostEvent_lgl (s : State) (code : Nat) (fr d : Word) : (s.hostEvent code fr d).lgl = s.lgl := (rfl)
@[simp] theorem hostEvent_keys (s : State) (code : Nat) (fr d : Word) : (s.hostEvent code fr d).keys = s.keys := (rfl)
@[simp] theorem hostEvent_upd (s : State) (code : Nat) (fr d : Word) : (s.hostEvent code fr d).upd = s.upd := (rfl)
@[simp] theorem hostEvent_pwr (s : State) (code : Nat) (fr d : Word) : (s.hostEvent code fr d).pwr = s.pwr := (rfl)
@[simp] theorem hostEvent_nrg (s : State) (code : Nat) (fr d : Word) : (s.hostEvent code fr d).nrg = s.nrg := (rfl)
@[simp] theorem hostEvent_calib (s : State) (code : Nat) (fr d : Word) : (s.hostEvent code fr d).calib = s.calib := (rfl)
@[simp] theorem hostEvent_tbl (s : State) (code : Nat) (fr d : Word) : (s.hostEvent code fr d).tbl = s.tbl := (rfl)

@[simp] theorem setShow_mem (s : State) (st : Nat) (fr : Word) : (s.setShow st fr).mem = s.mem := (rfl)
@[simp] theorem setShow_pending (s : State) (st : Nat) (fr : Word) : (s.setShow st fr).pending = s.pending := (rfl)
@[simp] theorem setShow_vents (s : State) (st : Nat) (fr : Word) : (s.setShow st fr).vents = s.vents := (rfl)
@[simp] theorem setShow_craters (s : State) (st : Nat) (fr : Word) : (s.setShow st fr).craters = s.craters := (rfl)
@[simp] theorem setShow_cores (s : State) (st : Nat) (fr : Word) : (s.setShow st fr).cores = s.cores := (rfl)
@[simp] theorem setShow_tasks (s : State) (st : Nat) (fr : Word) : (s.setShow st fr).tasks = s.tasks := (rfl)
@[simp] theorem setShow_cals (s : State) (st : Nat) (fr : Word) : (s.setShow st fr).cals = s.cals := (rfl)
@[simp] theorem setShow_dies (s : State) (st : Nat) (fr : Word) : (s.setShow st fr).dies = s.dies := (rfl)
@[simp] theorem setShow_fifos (s : State) (st : Nat) (fr : Word) : (s.setShow st fr).fifos = s.fifos := (rfl)
@[simp] theorem setShow_chans (s : State) (st : Nat) (fr : Word) : (s.setShow st fr).chans = s.chans := (rfl)
@[simp] theorem setShow_targets (s : State) (st : Nat) (fr : Word) : (s.setShow st fr).targets = s.targets := (rfl)
@[simp] theorem setShow_tileLanes (s : State) (st : Nat) (fr : Word) : (s.setShow st fr).tileLanes = s.tileLanes := (rfl)
@[simp] theorem setShow_macs (s : State) (st : Nat) (fr : Word) : (s.setShow st fr).macs = s.macs := (rfl)
@[simp] theorem setShow_unv (s : State) (st : Nat) (fr : Word) : (s.setShow st fr).unv = s.unv := (rfl)
@[simp] theorem setShow_lgl (s : State) (st : Nat) (fr : Word) : (s.setShow st fr).lgl = s.lgl := (rfl)
@[simp] theorem setShow_keys (s : State) (st : Nat) (fr : Word) : (s.setShow st fr).keys = s.keys := (rfl)
@[simp] theorem setShow_upd (s : State) (st : Nat) (fr : Word) : (s.setShow st fr).upd = s.upd := (rfl)
@[simp] theorem setShow_pwr (s : State) (st : Nat) (fr : Word) : (s.setShow st fr).pwr = s.pwr := (rfl)
@[simp] theorem setShow_nrg (s : State) (st : Nat) (fr : Word) : (s.setShow st fr).nrg = s.nrg := (rfl)
@[simp] theorem setShow_calib (s : State) (st : Nat) (fr : Word) : (s.setShow st fr).calib = s.calib := (rfl)
@[simp] theorem setShow_tbl (s : State) (st : Nat) (fr : Word) : (s.setShow st fr).tbl = s.tbl := (rfl)

@[simp] theorem chnSend_mem (s : State) (typ dst : Nat) (fr : Word) (l : List Byte) : (s.chnSend typ dst fr l).mem = s.mem := by
  unfold State.chnSend; dsimp only; split <;> simp
@[simp] theorem chnSend_pending (s : State) (typ dst : Nat) (fr : Word) (l : List Byte) : (s.chnSend typ dst fr l).pending = s.pending := by
  unfold State.chnSend; dsimp only; split <;> simp
@[simp] theorem chnSend_vents (s : State) (typ dst : Nat) (fr : Word) (l : List Byte) : (s.chnSend typ dst fr l).vents = s.vents := by
  unfold State.chnSend; dsimp only; split <;> simp
@[simp] theorem chnSend_craters (s : State) (typ dst : Nat) (fr : Word) (l : List Byte) : (s.chnSend typ dst fr l).craters = s.craters := by
  unfold State.chnSend; dsimp only; split <;> simp
@[simp] theorem chnSend_cores (s : State) (typ dst : Nat) (fr : Word) (l : List Byte) : (s.chnSend typ dst fr l).cores = s.cores := by
  unfold State.chnSend; dsimp only; split <;> simp
@[simp] theorem chnSend_tasks (s : State) (typ dst : Nat) (fr : Word) (l : List Byte) : (s.chnSend typ dst fr l).tasks = s.tasks := by
  unfold State.chnSend; dsimp only; split <;> simp
@[simp] theorem chnSend_cals (s : State) (typ dst : Nat) (fr : Word) (l : List Byte) : (s.chnSend typ dst fr l).cals = s.cals := by
  unfold State.chnSend; dsimp only; split <;> simp
@[simp] theorem chnSend_dies (s : State) (typ dst : Nat) (fr : Word) (l : List Byte) : (s.chnSend typ dst fr l).dies = s.dies := by
  unfold State.chnSend; dsimp only; split <;> simp
@[simp] theorem chnSend_fifos (s : State) (typ dst : Nat) (fr : Word) (l : List Byte) : (s.chnSend typ dst fr l).fifos = s.fifos := by
  unfold State.chnSend; dsimp only; split <;> simp
@[simp] theorem chnSend_chans (s : State) (typ dst : Nat) (fr : Word) (l : List Byte) : (s.chnSend typ dst fr l).chans = s.chans := by
  unfold State.chnSend; dsimp only; split <;> simp
@[simp] theorem chnSend_targets (s : State) (typ dst : Nat) (fr : Word) (l : List Byte) : (s.chnSend typ dst fr l).targets = s.targets := by
  unfold State.chnSend; dsimp only; split <;> simp
@[simp] theorem chnSend_tileLanes (s : State) (typ dst : Nat) (fr : Word) (l : List Byte) : (s.chnSend typ dst fr l).tileLanes = s.tileLanes := by
  unfold State.chnSend; dsimp only; split <;> simp
@[simp] theorem chnSend_macs (s : State) (typ dst : Nat) (fr : Word) (l : List Byte) : (s.chnSend typ dst fr l).macs = s.macs := by
  unfold State.chnSend; dsimp only; split <;> simp
@[simp] theorem chnSend_unv (s : State) (typ dst : Nat) (fr : Word) (l : List Byte) : (s.chnSend typ dst fr l).unv = s.unv := by
  unfold State.chnSend; dsimp only; split <;> simp
@[simp] theorem chnSend_lgl (s : State) (typ dst : Nat) (fr : Word) (l : List Byte) : (s.chnSend typ dst fr l).lgl = s.lgl := by
  unfold State.chnSend; dsimp only; split <;> simp
@[simp] theorem chnSend_keys (s : State) (typ dst : Nat) (fr : Word) (l : List Byte) : (s.chnSend typ dst fr l).keys = s.keys := by
  unfold State.chnSend; dsimp only; split <;> simp
@[simp] theorem chnSend_upd (s : State) (typ dst : Nat) (fr : Word) (l : List Byte) : (s.chnSend typ dst fr l).upd = s.upd := by
  unfold State.chnSend; dsimp only; split <;> simp
@[simp] theorem chnSend_pwr (s : State) (typ dst : Nat) (fr : Word) (l : List Byte) : (s.chnSend typ dst fr l).pwr = s.pwr := by
  unfold State.chnSend; dsimp only; split <;> simp
@[simp] theorem chnSend_nrg (s : State) (typ dst : Nat) (fr : Word) (l : List Byte) : (s.chnSend typ dst fr l).nrg = s.nrg := by
  unfold State.chnSend; dsimp only; split <;> simp
@[simp] theorem chnSend_calib (s : State) (typ dst : Nat) (fr : Word) (l : List Byte) : (s.chnSend typ dst fr l).calib = s.calib := by
  unfold State.chnSend; dsimp only; split <;> simp
@[simp] theorem chnSend_tbl (s : State) (typ dst : Nat) (fr : Word) (l : List Byte) : (s.chnSend typ dst fr l).tbl = s.tbl := by
  unfold State.chnSend; dsimp only; split <;> simp

@[simp] theorem sendRole_mem (s : State) (op : Nat) (w : Word) : (s.sendRole op w).mem = s.mem := by
  unfold State.sendRole; split <;> simp
@[simp] theorem sendRole_pending (s : State) (op : Nat) (w : Word) : (s.sendRole op w).pending = s.pending := by
  unfold State.sendRole; split <;> simp
@[simp] theorem sendRole_vents (s : State) (op : Nat) (w : Word) : (s.sendRole op w).vents = s.vents := by
  unfold State.sendRole; split <;> simp
@[simp] theorem sendRole_craters (s : State) (op : Nat) (w : Word) : (s.sendRole op w).craters = s.craters := by
  unfold State.sendRole; split <;> simp
@[simp] theorem sendRole_cores (s : State) (op : Nat) (w : Word) : (s.sendRole op w).cores = s.cores := by
  unfold State.sendRole; split <;> simp
@[simp] theorem sendRole_tasks (s : State) (op : Nat) (w : Word) : (s.sendRole op w).tasks = s.tasks := by
  unfold State.sendRole; split <;> simp
@[simp] theorem sendRole_cals (s : State) (op : Nat) (w : Word) : (s.sendRole op w).cals = s.cals := by
  unfold State.sendRole; split <;> simp
@[simp] theorem sendRole_dies (s : State) (op : Nat) (w : Word) : (s.sendRole op w).dies = s.dies := by
  unfold State.sendRole; split <;> simp
@[simp] theorem sendRole_fifos (s : State) (op : Nat) (w : Word) : (s.sendRole op w).fifos = s.fifos := by
  unfold State.sendRole; split <;> simp
@[simp] theorem sendRole_chans (s : State) (op : Nat) (w : Word) : (s.sendRole op w).chans = s.chans := by
  unfold State.sendRole; split <;> simp
@[simp] theorem sendRole_targets (s : State) (op : Nat) (w : Word) : (s.sendRole op w).targets = s.targets := by
  unfold State.sendRole; split <;> simp
@[simp] theorem sendRole_tileLanes (s : State) (op : Nat) (w : Word) : (s.sendRole op w).tileLanes = s.tileLanes := by
  unfold State.sendRole; split <;> simp
@[simp] theorem sendRole_macs (s : State) (op : Nat) (w : Word) : (s.sendRole op w).macs = s.macs := by
  unfold State.sendRole; split <;> simp
@[simp] theorem sendRole_unv (s : State) (op : Nat) (w : Word) : (s.sendRole op w).unv = s.unv := by
  unfold State.sendRole; split <;> simp
@[simp] theorem sendRole_lgl (s : State) (op : Nat) (w : Word) : (s.sendRole op w).lgl = s.lgl := by
  unfold State.sendRole; split <;> simp
@[simp] theorem sendRole_keys (s : State) (op : Nat) (w : Word) : (s.sendRole op w).keys = s.keys := by
  unfold State.sendRole; split <;> simp
@[simp] theorem sendRole_upd (s : State) (op : Nat) (w : Word) : (s.sendRole op w).upd = s.upd := by
  unfold State.sendRole; split <;> simp
@[simp] theorem sendRole_pwr (s : State) (op : Nat) (w : Word) : (s.sendRole op w).pwr = s.pwr := by
  unfold State.sendRole; split <;> simp
@[simp] theorem sendRole_nrg (s : State) (op : Nat) (w : Word) : (s.sendRole op w).nrg = s.nrg := by
  unfold State.sendRole; split <;> simp
@[simp] theorem sendRole_calib (s : State) (op : Nat) (w : Word) : (s.sendRole op w).calib = s.calib := by
  unfold State.sendRole; split <;> simp
@[simp] theorem sendRole_tbl (s : State) (op : Nat) (w : Word) : (s.sendRole op w).tbl = s.tbl := by
  unfold State.sendRole; split <;> simp

@[simp] theorem backAt_mem (s : State) (w : Word) : (s.backAt w).mem = s.mem := (rfl)
@[simp] theorem backAt_pending (s : State) (w : Word) : (s.backAt w).pending = s.pending := (rfl)
@[simp] theorem backAt_vents (s : State) (w : Word) : (s.backAt w).vents = s.vents := (rfl)
@[simp] theorem backAt_craters (s : State) (w : Word) : (s.backAt w).craters = s.craters := (rfl)
@[simp] theorem backAt_cores (s : State) (w : Word) : (s.backAt w).cores = s.cores := (rfl)
@[simp] theorem backAt_tasks (s : State) (w : Word) : (s.backAt w).tasks = s.tasks := (rfl)
@[simp] theorem backAt_cals (s : State) (w : Word) : (s.backAt w).cals = s.cals := (rfl)
@[simp] theorem backAt_dies (s : State) (w : Word) : (s.backAt w).dies = s.dies := (rfl)
@[simp] theorem backAt_fifos (s : State) (w : Word) : (s.backAt w).fifos = s.fifos := (rfl)
@[simp] theorem backAt_chans (s : State) (w : Word) : (s.backAt w).chans = s.chans := (rfl)
@[simp] theorem backAt_targets (s : State) (w : Word) : (s.backAt w).targets = s.targets := (rfl)
@[simp] theorem backAt_tileLanes (s : State) (w : Word) : (s.backAt w).tileLanes = s.tileLanes := (rfl)
@[simp] theorem backAt_macs (s : State) (w : Word) : (s.backAt w).macs = s.macs := (rfl)
@[simp] theorem backAt_unv (s : State) (w : Word) : (s.backAt w).unv = s.unv := (rfl)
@[simp] theorem backAt_lgl (s : State) (w : Word) : (s.backAt w).lgl = s.lgl := (rfl)
@[simp] theorem backAt_keys (s : State) (w : Word) : (s.backAt w).keys = s.keys := (rfl)
@[simp] theorem backAt_upd (s : State) (w : Word) : (s.backAt w).upd = s.upd := (rfl)
@[simp] theorem backAt_pwr (s : State) (w : Word) : (s.backAt w).pwr = s.pwr := (rfl)
@[simp] theorem backAt_nrg (s : State) (w : Word) : (s.backAt w).nrg = s.nrg := (rfl)
@[simp] theorem backAt_calib (s : State) (w : Word) : (s.backAt w).calib = s.calib := (rfl)
@[simp] theorem backAt_tbl (s : State) (w : Word) : (s.backAt w).tbl = s.tbl := (rfl)

@[simp] theorem swapBack_mem (s : State) : s.swapBack.mem = s.mem := by simp [State.swapBack]
@[simp] theorem swapBack_pending (s : State) : s.swapBack.pending = s.pending := by simp [State.swapBack]
@[simp] theorem swapBack_vents (s : State) : s.swapBack.vents = s.vents := by simp [State.swapBack]
@[simp] theorem swapBack_craters (s : State) : s.swapBack.craters = s.craters := by simp [State.swapBack]
@[simp] theorem swapBack_cores (s : State) : s.swapBack.cores = s.cores := by simp [State.swapBack]
@[simp] theorem swapBack_tasks (s : State) : s.swapBack.tasks = s.tasks := by simp [State.swapBack]
@[simp] theorem swapBack_cals (s : State) : s.swapBack.cals = s.cals := by simp [State.swapBack]
@[simp] theorem swapBack_dies (s : State) : s.swapBack.dies = s.dies := by simp [State.swapBack]
@[simp] theorem swapBack_fifos (s : State) : s.swapBack.fifos = s.fifos := by simp [State.swapBack]
@[simp] theorem swapBack_chans (s : State) : s.swapBack.chans = s.chans := by simp [State.swapBack]
@[simp] theorem swapBack_targets (s : State) : s.swapBack.targets = s.targets := by simp [State.swapBack]
@[simp] theorem swapBack_tileLanes (s : State) : s.swapBack.tileLanes = s.tileLanes := by simp [State.swapBack]
@[simp] theorem swapBack_macs (s : State) : s.swapBack.macs = s.macs := by simp [State.swapBack]
@[simp] theorem swapBack_unv (s : State) : s.swapBack.unv = s.unv := by simp [State.swapBack]
@[simp] theorem swapBack_lgl (s : State) : s.swapBack.lgl = s.lgl := by simp [State.swapBack]
@[simp] theorem swapBack_keys (s : State) : s.swapBack.keys = s.keys := by simp [State.swapBack]
@[simp] theorem swapBack_upd (s : State) : s.swapBack.upd = s.upd := by simp [State.swapBack]
@[simp] theorem swapBack_pwr (s : State) : s.swapBack.pwr = s.pwr := by simp [State.swapBack]
@[simp] theorem swapBack_nrg (s : State) : s.swapBack.nrg = s.nrg := by simp [State.swapBack]
@[simp] theorem swapBack_calib (s : State) : s.swapBack.calib = s.calib := by simp [State.swapBack]
@[simp] theorem swapBack_tbl (s : State) : s.swapBack.tbl = s.tbl := by simp [State.swapBack]

@[simp] theorem checkFault_mem (s : State) (sev : Nat) : (s.checkFault sev).mem = s.mem := by
  unfold State.checkFault; split <;> simp
@[simp] theorem checkFault_pending (s : State) (sev : Nat) : (s.checkFault sev).pending = s.pending := by
  unfold State.checkFault; split <;> simp
@[simp] theorem checkFault_vents (s : State) (sev : Nat) : (s.checkFault sev).vents = s.vents := by
  unfold State.checkFault; split <;> simp
@[simp] theorem checkFault_craters (s : State) (sev : Nat) : (s.checkFault sev).craters = s.craters := by
  unfold State.checkFault; split <;> simp
@[simp] theorem checkFault_cores (s : State) (sev : Nat) : (s.checkFault sev).cores = s.cores := by
  unfold State.checkFault; split <;> simp
@[simp] theorem checkFault_tasks (s : State) (sev : Nat) : (s.checkFault sev).tasks = s.tasks := by
  unfold State.checkFault; split <;> simp
@[simp] theorem checkFault_cals (s : State) (sev : Nat) : (s.checkFault sev).cals = s.cals := by
  unfold State.checkFault; split <;> simp
@[simp] theorem checkFault_dies (s : State) (sev : Nat) : (s.checkFault sev).dies = s.dies := by
  unfold State.checkFault; split <;> simp
@[simp] theorem checkFault_fifos (s : State) (sev : Nat) : (s.checkFault sev).fifos = s.fifos := by
  unfold State.checkFault; split <;> simp
@[simp] theorem checkFault_chans (s : State) (sev : Nat) : (s.checkFault sev).chans = s.chans := by
  unfold State.checkFault; split <;> simp
@[simp] theorem checkFault_targets (s : State) (sev : Nat) : (s.checkFault sev).targets = s.targets := by
  unfold State.checkFault; split <;> simp
@[simp] theorem checkFault_tileLanes (s : State) (sev : Nat) : (s.checkFault sev).tileLanes = s.tileLanes := by
  unfold State.checkFault; split <;> simp
@[simp] theorem checkFault_macs (s : State) (sev : Nat) : (s.checkFault sev).macs = s.macs := by
  unfold State.checkFault; split <;> simp
@[simp] theorem checkFault_unv (s : State) (sev : Nat) : (s.checkFault sev).unv = s.unv := by
  unfold State.checkFault; split <;> simp
@[simp] theorem checkFault_lgl (s : State) (sev : Nat) : (s.checkFault sev).lgl = s.lgl := by
  unfold State.checkFault; split <;> simp
@[simp] theorem checkFault_keys (s : State) (sev : Nat) : (s.checkFault sev).keys = s.keys := by
  unfold State.checkFault; split <;> simp
@[simp] theorem checkFault_upd (s : State) (sev : Nat) : (s.checkFault sev).upd = s.upd := by
  unfold State.checkFault; split <;> simp
@[simp] theorem checkFault_pwr (s : State) (sev : Nat) : (s.checkFault sev).pwr = s.pwr := by
  unfold State.checkFault; split <;> simp
@[simp] theorem checkFault_nrg (s : State) (sev : Nat) : (s.checkFault sev).nrg = s.nrg := by
  unfold State.checkFault; split <;> simp
@[simp] theorem checkFault_calib (s : State) (sev : Nat) : (s.checkFault sev).calib = s.calib := by
  unfold State.checkFault; split <;> simp
@[simp] theorem checkFault_tbl (s : State) (sev : Nat) : (s.checkFault sev).tbl = s.tbl := by
  unfold State.checkFault; split <;> simp

@[simp] theorem showFatal_mem (s : State) : s.showFatal.mem = s.mem := by
  unfold State.showFatal; split <;> simp
@[simp] theorem showFatal_pending (s : State) : s.showFatal.pending = s.pending := by
  unfold State.showFatal; split <;> simp
@[simp] theorem showFatal_vents (s : State) : s.showFatal.vents = s.vents := by
  unfold State.showFatal; split <;> simp
@[simp] theorem showFatal_craters (s : State) : s.showFatal.craters = s.craters := by
  unfold State.showFatal; split <;> simp
@[simp] theorem showFatal_cores (s : State) : s.showFatal.cores = s.cores := by
  unfold State.showFatal; split <;> simp
@[simp] theorem showFatal_tasks (s : State) : s.showFatal.tasks = s.tasks := by
  unfold State.showFatal; split <;> simp
@[simp] theorem showFatal_cals (s : State) : s.showFatal.cals = s.cals := by
  unfold State.showFatal; split <;> simp
@[simp] theorem showFatal_dies (s : State) : s.showFatal.dies = s.dies := by
  unfold State.showFatal; split <;> simp
@[simp] theorem showFatal_fifos (s : State) : s.showFatal.fifos = s.fifos := by
  unfold State.showFatal; split <;> simp
@[simp] theorem showFatal_chans (s : State) : s.showFatal.chans = s.chans := by
  unfold State.showFatal; split <;> simp
@[simp] theorem showFatal_targets (s : State) : s.showFatal.targets = s.targets := by
  unfold State.showFatal; split <;> simp
@[simp] theorem showFatal_tileLanes (s : State) : s.showFatal.tileLanes = s.tileLanes := by
  unfold State.showFatal; split <;> simp
@[simp] theorem showFatal_macs (s : State) : s.showFatal.macs = s.macs := by
  unfold State.showFatal; split <;> simp
@[simp] theorem showFatal_unv (s : State) : s.showFatal.unv = s.unv := by
  unfold State.showFatal; split <;> simp
@[simp] theorem showFatal_lgl (s : State) : s.showFatal.lgl = s.lgl := by
  unfold State.showFatal; split <;> simp
@[simp] theorem showFatal_keys (s : State) : s.showFatal.keys = s.keys := by
  unfold State.showFatal; split <;> simp
@[simp] theorem showFatal_upd (s : State) : s.showFatal.upd = s.upd := by
  unfold State.showFatal; split <;> simp
@[simp] theorem showFatal_pwr (s : State) : s.showFatal.pwr = s.pwr := by
  unfold State.showFatal; split <;> simp
@[simp] theorem showFatal_nrg (s : State) : s.showFatal.nrg = s.nrg := by
  unfold State.showFatal; split <;> simp
@[simp] theorem showFatal_calib (s : State) : s.showFatal.calib = s.calib := by
  unfold State.showFatal; split <;> simp
@[simp] theorem showFatal_tbl (s : State) : s.showFatal.tbl = s.tbl := by
  unfold State.showFatal; split <;> simp

@[simp] theorem keepRecord_mem (s : State) (r : FaultRec) : (s.keepRecord r).mem = s.mem := (rfl)
@[simp] theorem keepRecord_pending (s : State) (r : FaultRec) : (s.keepRecord r).pending = s.pending := (rfl)
@[simp] theorem keepRecord_vents (s : State) (r : FaultRec) : (s.keepRecord r).vents = s.vents := (rfl)
@[simp] theorem keepRecord_craters (s : State) (r : FaultRec) : (s.keepRecord r).craters = s.craters := (rfl)
@[simp] theorem keepRecord_cores (s : State) (r : FaultRec) : (s.keepRecord r).cores = s.cores := (rfl)
@[simp] theorem keepRecord_tasks (s : State) (r : FaultRec) : (s.keepRecord r).tasks = s.tasks := (rfl)
@[simp] theorem keepRecord_cals (s : State) (r : FaultRec) : (s.keepRecord r).cals = s.cals := (rfl)
@[simp] theorem keepRecord_dies (s : State) (r : FaultRec) : (s.keepRecord r).dies = s.dies := (rfl)
@[simp] theorem keepRecord_fifos (s : State) (r : FaultRec) : (s.keepRecord r).fifos = s.fifos := (rfl)
@[simp] theorem keepRecord_chans (s : State) (r : FaultRec) : (s.keepRecord r).chans = s.chans := (rfl)
@[simp] theorem keepRecord_targets (s : State) (r : FaultRec) : (s.keepRecord r).targets = s.targets := (rfl)
@[simp] theorem keepRecord_tileLanes (s : State) (r : FaultRec) : (s.keepRecord r).tileLanes = s.tileLanes := (rfl)
@[simp] theorem keepRecord_macs (s : State) (r : FaultRec) : (s.keepRecord r).macs = s.macs := (rfl)
@[simp] theorem keepRecord_unv (s : State) (r : FaultRec) : (s.keepRecord r).unv = s.unv := (rfl)
@[simp] theorem keepRecord_lgl (s : State) (r : FaultRec) : (s.keepRecord r).lgl = s.lgl := (rfl)
@[simp] theorem keepRecord_keys (s : State) (r : FaultRec) : (s.keepRecord r).keys = s.keys := (rfl)
@[simp] theorem keepRecord_upd (s : State) (r : FaultRec) : (s.keepRecord r).upd = s.upd := (rfl)
@[simp] theorem keepRecord_pwr (s : State) (r : FaultRec) : (s.keepRecord r).pwr = s.pwr := (rfl)
@[simp] theorem keepRecord_nrg (s : State) (r : FaultRec) : (s.keepRecord r).nrg = s.nrg := (rfl)
@[simp] theorem keepRecord_calib (s : State) (r : FaultRec) : (s.keepRecord r).calib = s.calib := (rfl)
@[simp] theorem keepRecord_tbl (s : State) (r : FaultRec) : (s.keepRecord r).tbl = s.tbl := (rfl)

@[simp] theorem countRecord_mem (s : State) (code sev : Nat) : (s.countRecord code sev).mem = s.mem := by
  unfold State.countRecord; dsimp only; split <;> simp
@[simp] theorem countRecord_pending (s : State) (code sev : Nat) : (s.countRecord code sev).pending = s.pending := by
  unfold State.countRecord; dsimp only; split <;> simp
@[simp] theorem countRecord_vents (s : State) (code sev : Nat) : (s.countRecord code sev).vents = s.vents := by
  unfold State.countRecord; dsimp only; split <;> simp
@[simp] theorem countRecord_craters (s : State) (code sev : Nat) : (s.countRecord code sev).craters = s.craters := by
  unfold State.countRecord; dsimp only; split <;> simp
@[simp] theorem countRecord_cores (s : State) (code sev : Nat) : (s.countRecord code sev).cores = s.cores := by
  unfold State.countRecord; dsimp only; split <;> simp
@[simp] theorem countRecord_tasks (s : State) (code sev : Nat) : (s.countRecord code sev).tasks = s.tasks := by
  unfold State.countRecord; dsimp only; split <;> simp
@[simp] theorem countRecord_cals (s : State) (code sev : Nat) : (s.countRecord code sev).cals = s.cals := by
  unfold State.countRecord; dsimp only; split <;> simp
@[simp] theorem countRecord_dies (s : State) (code sev : Nat) : (s.countRecord code sev).dies = s.dies := by
  unfold State.countRecord; dsimp only; split <;> simp
@[simp] theorem countRecord_fifos (s : State) (code sev : Nat) : (s.countRecord code sev).fifos = s.fifos := by
  unfold State.countRecord; dsimp only; split <;> simp
@[simp] theorem countRecord_chans (s : State) (code sev : Nat) : (s.countRecord code sev).chans = s.chans := by
  unfold State.countRecord; dsimp only; split <;> simp
@[simp] theorem countRecord_targets (s : State) (code sev : Nat) : (s.countRecord code sev).targets = s.targets := by
  unfold State.countRecord; dsimp only; split <;> simp
@[simp] theorem countRecord_tileLanes (s : State) (code sev : Nat) : (s.countRecord code sev).tileLanes = s.tileLanes := by
  unfold State.countRecord; dsimp only; split <;> simp
@[simp] theorem countRecord_macs (s : State) (code sev : Nat) : (s.countRecord code sev).macs = s.macs := by
  unfold State.countRecord; dsimp only; split <;> simp
@[simp] theorem countRecord_unv (s : State) (code sev : Nat) : (s.countRecord code sev).unv = s.unv := by
  unfold State.countRecord; dsimp only; split <;> simp
@[simp] theorem countRecord_lgl (s : State) (code sev : Nat) : (s.countRecord code sev).lgl = s.lgl := by
  unfold State.countRecord; dsimp only; split <;> simp
@[simp] theorem countRecord_keys (s : State) (code sev : Nat) : (s.countRecord code sev).keys = s.keys := by
  unfold State.countRecord; dsimp only; split <;> simp
@[simp] theorem countRecord_upd (s : State) (code sev : Nat) : (s.countRecord code sev).upd = s.upd := by
  unfold State.countRecord; dsimp only; split <;> simp
@[simp] theorem countRecord_pwr (s : State) (code sev : Nat) : (s.countRecord code sev).pwr = s.pwr := by
  unfold State.countRecord; dsimp only; split <;> simp
@[simp] theorem countRecord_nrg (s : State) (code sev : Nat) : (s.countRecord code sev).nrg = s.nrg := by
  unfold State.countRecord; dsimp only; split <;> simp
@[simp] theorem countRecord_calib (s : State) (code sev : Nat) : (s.countRecord code sev).calib = s.calib := by
  unfold State.countRecord; dsimp only; split <;> simp
@[simp] theorem countRecord_tbl (s : State) (code sev : Nat) : (s.countRecord code sev).tbl = s.tbl := by
  unfold State.countRecord; dsimp only; split <;> simp

@[simp] theorem newFault_mem (s : State) (code sev : Nat) (a b c d : Word) : (s.newFault code sev a b c d).mem = s.mem := by
  unfold State.newFault; dsimp only; split <;> simp
@[simp] theorem newFault_pending (s : State) (code sev : Nat) (a b c d : Word) : (s.newFault code sev a b c d).pending = s.pending := by
  unfold State.newFault; dsimp only; split <;> simp
@[simp] theorem newFault_vents (s : State) (code sev : Nat) (a b c d : Word) : (s.newFault code sev a b c d).vents = s.vents := by
  unfold State.newFault; dsimp only; split <;> simp
@[simp] theorem newFault_craters (s : State) (code sev : Nat) (a b c d : Word) : (s.newFault code sev a b c d).craters = s.craters := by
  unfold State.newFault; dsimp only; split <;> simp
@[simp] theorem newFault_cores (s : State) (code sev : Nat) (a b c d : Word) : (s.newFault code sev a b c d).cores = s.cores := by
  unfold State.newFault; dsimp only; split <;> simp
@[simp] theorem newFault_tasks (s : State) (code sev : Nat) (a b c d : Word) : (s.newFault code sev a b c d).tasks = s.tasks := by
  unfold State.newFault; dsimp only; split <;> simp
@[simp] theorem newFault_cals (s : State) (code sev : Nat) (a b c d : Word) : (s.newFault code sev a b c d).cals = s.cals := by
  unfold State.newFault; dsimp only; split <;> simp
@[simp] theorem newFault_dies (s : State) (code sev : Nat) (a b c d : Word) : (s.newFault code sev a b c d).dies = s.dies := by
  unfold State.newFault; dsimp only; split <;> simp
@[simp] theorem newFault_fifos (s : State) (code sev : Nat) (a b c d : Word) : (s.newFault code sev a b c d).fifos = s.fifos := by
  unfold State.newFault; dsimp only; split <;> simp
@[simp] theorem newFault_chans (s : State) (code sev : Nat) (a b c d : Word) : (s.newFault code sev a b c d).chans = s.chans := by
  unfold State.newFault; dsimp only; split <;> simp
@[simp] theorem newFault_targets (s : State) (code sev : Nat) (a b c d : Word) : (s.newFault code sev a b c d).targets = s.targets := by
  unfold State.newFault; dsimp only; split <;> simp
@[simp] theorem newFault_tileLanes (s : State) (code sev : Nat) (a b c d : Word) : (s.newFault code sev a b c d).tileLanes = s.tileLanes := by
  unfold State.newFault; dsimp only; split <;> simp
@[simp] theorem newFault_macs (s : State) (code sev : Nat) (a b c d : Word) : (s.newFault code sev a b c d).macs = s.macs := by
  unfold State.newFault; dsimp only; split <;> simp
@[simp] theorem newFault_unv (s : State) (code sev : Nat) (a b c d : Word) : (s.newFault code sev a b c d).unv = s.unv := by
  unfold State.newFault; dsimp only; split <;> simp
@[simp] theorem newFault_lgl (s : State) (code sev : Nat) (a b c d : Word) : (s.newFault code sev a b c d).lgl = s.lgl := by
  unfold State.newFault; dsimp only; split <;> simp
@[simp] theorem newFault_keys (s : State) (code sev : Nat) (a b c d : Word) : (s.newFault code sev a b c d).keys = s.keys := by
  unfold State.newFault; dsimp only; split <;> simp
@[simp] theorem newFault_upd (s : State) (code sev : Nat) (a b c d : Word) : (s.newFault code sev a b c d).upd = s.upd := by
  unfold State.newFault; dsimp only; split <;> simp
@[simp] theorem newFault_pwr (s : State) (code sev : Nat) (a b c d : Word) : (s.newFault code sev a b c d).pwr = s.pwr := by
  unfold State.newFault; dsimp only; split <;> simp
@[simp] theorem newFault_nrg (s : State) (code sev : Nat) (a b c d : Word) : (s.newFault code sev a b c d).nrg = s.nrg := by
  unfold State.newFault; dsimp only; split <;> simp
@[simp] theorem newFault_calib (s : State) (code sev : Nat) (a b c d : Word) : (s.newFault code sev a b c d).calib = s.calib := by
  unfold State.newFault; dsimp only; split <;> simp
@[simp] theorem newFault_tbl (s : State) (code sev : Nat) (a b c d : Word) : (s.newFault code sev a b c d).tbl = s.tbl := by
  unfold State.newFault; dsimp only; split <;> simp

@[simp] theorem log_mem (s : State) (code sev a b c d : Nat) : (s.log code sev a b c d).mem = s.mem := by
  unfold State.log; dsimp only; split
  · split <;> simp
  · simp
@[simp] theorem log_pending (s : State) (code sev a b c d : Nat) : (s.log code sev a b c d).pending = s.pending := by
  unfold State.log; dsimp only; split
  · split <;> simp
  · simp
@[simp] theorem log_vents (s : State) (code sev a b c d : Nat) : (s.log code sev a b c d).vents = s.vents := by
  unfold State.log; dsimp only; split
  · split <;> simp
  · simp
@[simp] theorem log_craters (s : State) (code sev a b c d : Nat) : (s.log code sev a b c d).craters = s.craters := by
  unfold State.log; dsimp only; split
  · split <;> simp
  · simp
@[simp] theorem log_cores (s : State) (code sev a b c d : Nat) : (s.log code sev a b c d).cores = s.cores := by
  unfold State.log; dsimp only; split
  · split <;> simp
  · simp
@[simp] theorem log_tasks (s : State) (code sev a b c d : Nat) : (s.log code sev a b c d).tasks = s.tasks := by
  unfold State.log; dsimp only; split
  · split <;> simp
  · simp
@[simp] theorem log_cals (s : State) (code sev a b c d : Nat) : (s.log code sev a b c d).cals = s.cals := by
  unfold State.log; dsimp only; split
  · split <;> simp
  · simp
@[simp] theorem log_dies (s : State) (code sev a b c d : Nat) : (s.log code sev a b c d).dies = s.dies := by
  unfold State.log; dsimp only; split
  · split <;> simp
  · simp
@[simp] theorem log_fifos (s : State) (code sev a b c d : Nat) : (s.log code sev a b c d).fifos = s.fifos := by
  unfold State.log; dsimp only; split
  · split <;> simp
  · simp
@[simp] theorem log_chans (s : State) (code sev a b c d : Nat) : (s.log code sev a b c d).chans = s.chans := by
  unfold State.log; dsimp only; split
  · split <;> simp
  · simp
@[simp] theorem log_targets (s : State) (code sev a b c d : Nat) : (s.log code sev a b c d).targets = s.targets := by
  unfold State.log; dsimp only; split
  · split <;> simp
  · simp
@[simp] theorem log_tileLanes (s : State) (code sev a b c d : Nat) : (s.log code sev a b c d).tileLanes = s.tileLanes := by
  unfold State.log; dsimp only; split
  · split <;> simp
  · simp
@[simp] theorem log_macs (s : State) (code sev a b c d : Nat) : (s.log code sev a b c d).macs = s.macs := by
  unfold State.log; dsimp only; split
  · split <;> simp
  · simp
@[simp] theorem log_unv (s : State) (code sev a b c d : Nat) : (s.log code sev a b c d).unv = s.unv := by
  unfold State.log; dsimp only; split
  · split <;> simp
  · simp
@[simp] theorem log_lgl (s : State) (code sev a b c d : Nat) : (s.log code sev a b c d).lgl = s.lgl := by
  unfold State.log; dsimp only; split
  · split <;> simp
  · simp
@[simp] theorem log_keys (s : State) (code sev a b c d : Nat) : (s.log code sev a b c d).keys = s.keys := by
  unfold State.log; dsimp only; split
  · split <;> simp
  · simp
@[simp] theorem log_upd (s : State) (code sev a b c d : Nat) : (s.log code sev a b c d).upd = s.upd := by
  unfold State.log; dsimp only; split
  · split <;> simp
  · simp
@[simp] theorem log_pwr (s : State) (code sev a b c d : Nat) : (s.log code sev a b c d).pwr = s.pwr := by
  unfold State.log; dsimp only; split
  · split <;> simp
  · simp
@[simp] theorem log_nrg (s : State) (code sev a b c d : Nat) : (s.log code sev a b c d).nrg = s.nrg := by
  unfold State.log; dsimp only; split
  · split <;> simp
  · simp
@[simp] theorem log_calib (s : State) (code sev a b c d : Nat) : (s.log code sev a b c d).calib = s.calib := by
  unfold State.log; dsimp only; split
  · split <;> simp
  · simp
@[simp] theorem log_tbl (s : State) (code sev a b c d : Nat) : (s.log code sev a b c d).tbl = s.tbl := by
  unfold State.log; dsimp only; split
  · split <;> simp
  · simp

@[simp] theorem busRange_mem (s : State) (a k m u : Nat) : (s.busRange a k m u).mem = s.mem := by simp [State.busRange]
@[simp] theorem busRange_pending (s : State) (a k m u : Nat) : (s.busRange a k m u).pending = s.pending := by simp [State.busRange]
@[simp] theorem busRange_vents (s : State) (a k m u : Nat) : (s.busRange a k m u).vents = s.vents := by simp [State.busRange]
@[simp] theorem busRange_craters (s : State) (a k m u : Nat) : (s.busRange a k m u).craters = s.craters := by simp [State.busRange]
@[simp] theorem busRange_cores (s : State) (a k m u : Nat) : (s.busRange a k m u).cores = s.cores := by simp [State.busRange]
@[simp] theorem busRange_tasks (s : State) (a k m u : Nat) : (s.busRange a k m u).tasks = s.tasks := by simp [State.busRange]
@[simp] theorem busRange_cals (s : State) (a k m u : Nat) : (s.busRange a k m u).cals = s.cals := by simp [State.busRange]
@[simp] theorem busRange_dies (s : State) (a k m u : Nat) : (s.busRange a k m u).dies = s.dies := by simp [State.busRange]
@[simp] theorem busRange_fifos (s : State) (a k m u : Nat) : (s.busRange a k m u).fifos = s.fifos := by simp [State.busRange]
@[simp] theorem busRange_chans (s : State) (a k m u : Nat) : (s.busRange a k m u).chans = s.chans := by simp [State.busRange]
@[simp] theorem busRange_targets (s : State) (a k m u : Nat) : (s.busRange a k m u).targets = s.targets := by simp [State.busRange]
@[simp] theorem busRange_tileLanes (s : State) (a k m u : Nat) : (s.busRange a k m u).tileLanes = s.tileLanes := by simp [State.busRange]
@[simp] theorem busRange_macs (s : State) (a k m u : Nat) : (s.busRange a k m u).macs = s.macs := by simp [State.busRange]
@[simp] theorem busRange_unv (s : State) (a k m u : Nat) : (s.busRange a k m u).unv = s.unv := by simp [State.busRange]
@[simp] theorem busRange_lgl (s : State) (a k m u : Nat) : (s.busRange a k m u).lgl = s.lgl := by simp [State.busRange]
@[simp] theorem busRange_keys (s : State) (a k m u : Nat) : (s.busRange a k m u).keys = s.keys := by simp [State.busRange]
@[simp] theorem busRange_upd (s : State) (a k m u : Nat) : (s.busRange a k m u).upd = s.upd := by simp [State.busRange]
@[simp] theorem busRange_pwr (s : State) (a k m u : Nat) : (s.busRange a k m u).pwr = s.pwr := by simp [State.busRange]
@[simp] theorem busRange_nrg (s : State) (a k m u : Nat) : (s.busRange a k m u).nrg = s.nrg := by simp [State.busRange]
@[simp] theorem busRange_calib (s : State) (a k m u : Nat) : (s.busRange a k m u).calib = s.calib := by simp [State.busRange]
@[simp] theorem busRange_tbl (s : State) (a k m u : Nat) : (s.busRange a k m u).tbl = s.tbl := by simp [State.busRange]

@[simp] theorem busRangeRaw_mem (s : State) (a k m u : Nat) : (s.busRangeRaw a k m u).mem = s.mem := by simp [State.busRangeRaw]
@[simp] theorem busRangeRaw_pending (s : State) (a k m u : Nat) : (s.busRangeRaw a k m u).pending = s.pending := by simp [State.busRangeRaw]
@[simp] theorem busRangeRaw_vents (s : State) (a k m u : Nat) : (s.busRangeRaw a k m u).vents = s.vents := by simp [State.busRangeRaw]
@[simp] theorem busRangeRaw_craters (s : State) (a k m u : Nat) : (s.busRangeRaw a k m u).craters = s.craters := by simp [State.busRangeRaw]
@[simp] theorem busRangeRaw_cores (s : State) (a k m u : Nat) : (s.busRangeRaw a k m u).cores = s.cores := by simp [State.busRangeRaw]
@[simp] theorem busRangeRaw_tasks (s : State) (a k m u : Nat) : (s.busRangeRaw a k m u).tasks = s.tasks := by simp [State.busRangeRaw]
@[simp] theorem busRangeRaw_cals (s : State) (a k m u : Nat) : (s.busRangeRaw a k m u).cals = s.cals := by simp [State.busRangeRaw]
@[simp] theorem busRangeRaw_dies (s : State) (a k m u : Nat) : (s.busRangeRaw a k m u).dies = s.dies := by simp [State.busRangeRaw]
@[simp] theorem busRangeRaw_fifos (s : State) (a k m u : Nat) : (s.busRangeRaw a k m u).fifos = s.fifos := by simp [State.busRangeRaw]
@[simp] theorem busRangeRaw_chans (s : State) (a k m u : Nat) : (s.busRangeRaw a k m u).chans = s.chans := by simp [State.busRangeRaw]
@[simp] theorem busRangeRaw_targets (s : State) (a k m u : Nat) : (s.busRangeRaw a k m u).targets = s.targets := by simp [State.busRangeRaw]
@[simp] theorem busRangeRaw_tileLanes (s : State) (a k m u : Nat) : (s.busRangeRaw a k m u).tileLanes = s.tileLanes := by simp [State.busRangeRaw]
@[simp] theorem busRangeRaw_macs (s : State) (a k m u : Nat) : (s.busRangeRaw a k m u).macs = s.macs := by simp [State.busRangeRaw]
@[simp] theorem busRangeRaw_unv (s : State) (a k m u : Nat) : (s.busRangeRaw a k m u).unv = s.unv := by simp [State.busRangeRaw]
@[simp] theorem busRangeRaw_lgl (s : State) (a k m u : Nat) : (s.busRangeRaw a k m u).lgl = s.lgl := by simp [State.busRangeRaw]
@[simp] theorem busRangeRaw_keys (s : State) (a k m u : Nat) : (s.busRangeRaw a k m u).keys = s.keys := by simp [State.busRangeRaw]
@[simp] theorem busRangeRaw_upd (s : State) (a k m u : Nat) : (s.busRangeRaw a k m u).upd = s.upd := by simp [State.busRangeRaw]
@[simp] theorem busRangeRaw_pwr (s : State) (a k m u : Nat) : (s.busRangeRaw a k m u).pwr = s.pwr := by simp [State.busRangeRaw]
@[simp] theorem busRangeRaw_nrg (s : State) (a k m u : Nat) : (s.busRangeRaw a k m u).nrg = s.nrg := by simp [State.busRangeRaw]
@[simp] theorem busRangeRaw_calib (s : State) (a k m u : Nat) : (s.busRangeRaw a k m u).calib = s.calib := by simp [State.busRangeRaw]
@[simp] theorem busRangeRaw_tbl (s : State) (a k m u : Nat) : (s.busRangeRaw a k m u).tbl = s.tbl := by simp [State.busRangeRaw]

@[simp] theorem hubNote_mem (s : State) (ok : Nat → Bool) (k m u : Nat) (rs : List (Nat × Nat)) : (s.hubNote ok k m u rs).mem = s.mem := by
  unfold State.hubNote; split <;> simp
@[simp] theorem hubNote_pending (s : State) (ok : Nat → Bool) (k m u : Nat) (rs : List (Nat × Nat)) : (s.hubNote ok k m u rs).pending = s.pending := by
  unfold State.hubNote; split <;> simp
@[simp] theorem hubNote_vents (s : State) (ok : Nat → Bool) (k m u : Nat) (rs : List (Nat × Nat)) : (s.hubNote ok k m u rs).vents = s.vents := by
  unfold State.hubNote; split <;> simp
@[simp] theorem hubNote_craters (s : State) (ok : Nat → Bool) (k m u : Nat) (rs : List (Nat × Nat)) : (s.hubNote ok k m u rs).craters = s.craters := by
  unfold State.hubNote; split <;> simp
@[simp] theorem hubNote_cores (s : State) (ok : Nat → Bool) (k m u : Nat) (rs : List (Nat × Nat)) : (s.hubNote ok k m u rs).cores = s.cores := by
  unfold State.hubNote; split <;> simp
@[simp] theorem hubNote_tasks (s : State) (ok : Nat → Bool) (k m u : Nat) (rs : List (Nat × Nat)) : (s.hubNote ok k m u rs).tasks = s.tasks := by
  unfold State.hubNote; split <;> simp
@[simp] theorem hubNote_cals (s : State) (ok : Nat → Bool) (k m u : Nat) (rs : List (Nat × Nat)) : (s.hubNote ok k m u rs).cals = s.cals := by
  unfold State.hubNote; split <;> simp
@[simp] theorem hubNote_dies (s : State) (ok : Nat → Bool) (k m u : Nat) (rs : List (Nat × Nat)) : (s.hubNote ok k m u rs).dies = s.dies := by
  unfold State.hubNote; split <;> simp
@[simp] theorem hubNote_fifos (s : State) (ok : Nat → Bool) (k m u : Nat) (rs : List (Nat × Nat)) : (s.hubNote ok k m u rs).fifos = s.fifos := by
  unfold State.hubNote; split <;> simp
@[simp] theorem hubNote_chans (s : State) (ok : Nat → Bool) (k m u : Nat) (rs : List (Nat × Nat)) : (s.hubNote ok k m u rs).chans = s.chans := by
  unfold State.hubNote; split <;> simp
@[simp] theorem hubNote_targets (s : State) (ok : Nat → Bool) (k m u : Nat) (rs : List (Nat × Nat)) : (s.hubNote ok k m u rs).targets = s.targets := by
  unfold State.hubNote; split <;> simp
@[simp] theorem hubNote_tileLanes (s : State) (ok : Nat → Bool) (k m u : Nat) (rs : List (Nat × Nat)) : (s.hubNote ok k m u rs).tileLanes = s.tileLanes := by
  unfold State.hubNote; split <;> simp
@[simp] theorem hubNote_macs (s : State) (ok : Nat → Bool) (k m u : Nat) (rs : List (Nat × Nat)) : (s.hubNote ok k m u rs).macs = s.macs := by
  unfold State.hubNote; split <;> simp
@[simp] theorem hubNote_unv (s : State) (ok : Nat → Bool) (k m u : Nat) (rs : List (Nat × Nat)) : (s.hubNote ok k m u rs).unv = s.unv := by
  unfold State.hubNote; split <;> simp
@[simp] theorem hubNote_lgl (s : State) (ok : Nat → Bool) (k m u : Nat) (rs : List (Nat × Nat)) : (s.hubNote ok k m u rs).lgl = s.lgl := by
  unfold State.hubNote; split <;> simp
@[simp] theorem hubNote_keys (s : State) (ok : Nat → Bool) (k m u : Nat) (rs : List (Nat × Nat)) : (s.hubNote ok k m u rs).keys = s.keys := by
  unfold State.hubNote; split <;> simp
@[simp] theorem hubNote_upd (s : State) (ok : Nat → Bool) (k m u : Nat) (rs : List (Nat × Nat)) : (s.hubNote ok k m u rs).upd = s.upd := by
  unfold State.hubNote; split <;> simp
@[simp] theorem hubNote_pwr (s : State) (ok : Nat → Bool) (k m u : Nat) (rs : List (Nat × Nat)) : (s.hubNote ok k m u rs).pwr = s.pwr := by
  unfold State.hubNote; split <;> simp
@[simp] theorem hubNote_nrg (s : State) (ok : Nat → Bool) (k m u : Nat) (rs : List (Nat × Nat)) : (s.hubNote ok k m u rs).nrg = s.nrg := by
  unfold State.hubNote; split <;> simp
@[simp] theorem hubNote_calib (s : State) (ok : Nat → Bool) (k m u : Nat) (rs : List (Nat × Nat)) : (s.hubNote ok k m u rs).calib = s.calib := by
  unfold State.hubNote; split <;> simp
@[simp] theorem hubNote_tbl (s : State) (ok : Nat → Bool) (k m u : Nat) (rs : List (Nat × Nat)) : (s.hubNote ok k m u rs).tbl = s.tbl := by
  unfold State.hubNote; split <;> simp

/-- A record leaves every byte of memory as it was. -/
theorem log_sameMem (s : State) (code sev a b c d : Nat) : SameMem s (s.log code sev a b c d) := fun x => by
  unfold State.rdB; rw [log_mem]

/-- What memory reads as after a hub block stores bytes. -/
theorem rdB_hubWr (s : State) (ok : Nat → Bool) (m u a c : Nat) (l : List Byte) :
    (s.hubWr ok m u a l).rdB c = if a ≤ c ∧ c < a + l.length ∧ ok c = true then l.getD (c - a) 0 else s.rdB c := by
  unfold State.hubWr State.rdB; rw [hubNote_mem]; exact mget_memWriteIn ok l s.mem a c
theorem hubWr_wf {s : State} (ok : Nat → Bool) (m u a : Nat) (l : List Byte) (h : Memory.wf s.mem) :
    Memory.wf (s.hubWr ok m u a l).mem := by
  unfold State.hubWr; rw [hubNote_mem]; exact memWriteIn_wf ok l a h

/-! ### The fault log (R495, R496) -/

theorem find_bumpNewest {code : Nat} {l : List FaultRec} {x : FaultRec} (h : l.find? (fun r => r.code = code) = some x) :
    (bumpNewest code l).find? (fun r => r.code = code) = some { x with count := min 255 (x.count + 1) } := by
  induction l with
  | nil => simp at h
  | cons r t ih =>
    by_cases hc : r.code = code
    · simp [hc] at h; subst h; simp [bumpNewest, hc]
    · simp [hc] at h; simp [bumpNewest, hc, ih h]

@[simp] theorem hostEvent_flt (s : State) (code : Nat) (fr d : Word) : (s.hostEvent code fr d).flt = s.flt := (rfl)
@[simp] theorem setShow_flt (s : State) (st : Nat) (fr : Word) : (s.setShow st fr).flt = s.flt := (rfl)
@[simp] theorem chnSend_flt (s : State) (typ dst : Nat) (fr : Word) (l : List Byte) : (s.chnSend typ dst fr l).flt = s.flt := by
  unfold State.chnSend; dsimp only; split <;> rfl
@[simp] theorem checkFault_flt (s : State) (sev : Nat) : (s.checkFault sev).flt = s.flt := by
  unfold State.checkFault State.swapBack State.sendRole State.backAt; dsimp only; split
  · split <;> simp
  · rfl
@[simp] theorem showFatal_flt (s : State) : s.showFatal.flt = s.flt := by
  unfold State.showFatal; split <;> simp

@[simp] theorem countRecord_flt (s : State) (code sev : Nat) : (s.countRecord code sev).flt = s.flt := by
  unfold State.countRecord; dsimp only; split <;> simp

/-- A new record is the newest of the log, with the next sequence number. -/
theorem newFault_flt (s : State) (code sev : Nat) (a b c d : Word) : (s.newFault code sev a b c d).flt =
    ((⟨(s.rd R.FLT_NEXT).toNat, s.tsuNs, s.fnow, code, sev, 0, a, b, c, d⟩ : FaultRec) :: s.flt).take 1024 := by
  unfold State.newFault; dsimp only; split <;> simp only [showFatal_flt, setF_flt, checkFault_flt, hostEvent_flt, countRecord_flt] <;> rfl

/-- Once a fault is recorded, the newest record of its code has its detail, whether it was made or merged. -/
theorem log_recorded (s : State) (code sev a b c d : Nat) : ∃ x, (s.log code sev a b c d).flt.find? (fun r => r.code = code) = some x ∧
    x.d0 = Word.ofNat a ∧ x.d1 = Word.ofNat b ∧ x.d2 = Word.ofNat c ∧ x.d3 = Word.ofNat d := by
  unfold State.log; dsimp only
  split
  · rename_i r hr
    split
    · rename_i hm
      refine ⟨_, find_bumpNewest hr, ?_⟩
      simp only [FaultRec.merges, Bool.and_eq_true, decide_eq_true_eq] at hm
      exact ⟨hm.1.1.1.1, hm.1.1.1.2, hm.1.1.2, hm.1.2⟩
    · exact ⟨_, by rw [newFault_flt]; simp; rfl, rfl, rfl, rfl, rfl⟩
  · exact ⟨_, by rw [newFault_flt]; simp; rfl, rfl, rfl, rfl, rfl⟩

/-! ### Host commands (R385) -/

/-- The command that the oldest request of a path asks for is carried out. -/
theorem hostCmd_asks {s : State} {net : Bool} {code : Nat} {r : Request} {rest : List Request} {sub : List Byte → Bool}
    (h : s.Asks net code r rest) (hs : sub r.payload = true) (f : State → Request → State × Nat × List Byte) :
    s.hostCmd net code sub f =
      (((f { s with host := { s.host with reqs := rest } } r).1.inlogCmd r (f { s with host := { s.host with reqs := rest } } r).2.1).respond
        (r.afterRun s (f { s with host := { s.host with reqs := rest } } r).1) (f { s with host := { s.host with reqs := rest } } r).2.1
        (f { s with host := { s.host with reqs := rest } } r).2.2) := by
  obtain ⟨h1, h2, h3, h4⟩ := h
  unfold State.hostCmd State.takeCmd
  simp only [h1]
  rw [if_pos ⟨h2, hs⟩, if_pos h4]
  rfl

/-- A refused command has no effect but its response. -/
theorem hostDo_refused {s : State} {net : Bool} {code : Nat} {r : Request} {rest : List Request} {sub : List Byte → Bool}
    (h : s.Asks net code r rest) (hs : sub r.payload = true) {chk : State → Request → Nat} {f : State → Request → State} {st : Nat}
    (hc : chk { s with host := { s.host with reqs := rest } } r = st) (hn : st ≠ OK) :
    s.hostDo net code sub chk f = s.refusedReq r rest st := by
  unfold State.hostDo
  rw [hostCmd_asks h hs]
  subst hc
  have hd := h.2.2.1
  simp only [hn, if_false, State.inlogCmd, State.respond, Request.afterRun, State.session?, State.setHost]
  simp only [false_and, if_false, hd, Bool.false_or]
  have : (Option.any (fun x => x.isOpen) (s.host.sessions.find? fun x => x.id = r.sid) &&
      (s.host.sessions.find? fun x => x.id = r.sid).isNone) = false := by
    cases s.host.sessions.find? fun x => x.id = r.sid <;> simp
  simp only [this]
  unfold State.refusedReq
  cases r
  simp_all

end Sys2Proof.Machine
end

