-- ==== Sys2Proof/Laws/Procs.lean ====
section
/-!
SUPPORT. What the shared operations of the processors do, said once: issue, the registers' reads after their writes, a
scalar result, a vector result and a predicate result.
-/
namespace Sys2Proof.Machine
open Sys2Proof

/-! ### Vents and cores as maps -/

theorem vent_setVent (s : State) (n m : Nat) (x : Vent) :
    (s.setVent n x).vent m = if m = n then x else s.vent m := by
  simp [State.vent, State.setVent, mget_mset]
@[simp] theorem vent_setVent_self (s : State) (n : Nat) (x : Vent) : (s.setVent n x).vent n = x := by
  simp [vent_setVent]
theorem core_setCore (s : State) (n m : Nat) (x : Core) :
    (s.setCore n x).core m = if m = n then x else s.core m := by
  simp [State.core, State.setCore, mget_mset]
@[simp] theorem core_setCore_self (s : State) (n : Nat) (x : Core) : (s.setCore n x).core n = x := by
  simp [core_setCore]
@[simp] theorem core_setVent (s : State) (n m : Nat) (x : Vent) : (s.setVent n x).core m = s.core m := rfl
@[simp] theorem vent_setCore (s : State) (n m : Nat) (x : Core) : (s.setCore n x).vent m = s.vent m := rfl

/-- The second of two writes of one vent is the one that stays. -/
@[simp] theorem setVent_setVent (s : State) (n : Nat) (x y : Vent) : (s.setVent n x).setVent n y = s.setVent n y := by
  simp [State.setVent, mset_mset]
/-- The second of two writes of one core is the one that stays. -/
@[simp] theorem setCore_setCore (s : State) (n : Nat) (x y : Core) : (s.setCore n x).setCore n y = s.setCore n y := by
  simp [State.setCore, mset_mset]

/-! ### Issue -/

/-- An instruction that issues has its effect on the state as it is. -/
theorem issue_of_issues {s : State} {p : Proc} (h : s.Issues p) (f : State → State) : s.issue p f = f s := by
  obtain ⟨h1, h2⟩ := h
  cases p with
  | vent n =>
    obtain ⟨ha, hb, hc, hw⟩ := h2
    have hm : ventMap n.toNat (s.pcOf (.vent n)).toNat =
        .scratch (scratchAddr (n.toNat / 16) ((s.vent n.toNat).pc.toNat - 0x100000)) := by
      show ventMap n.toNat (s.vent n.toNat).pc.toNat = _
      unfold ventMap
      rw [if_neg (by omega), if_pos ⟨ha, by omega⟩]
    simp only [State.issue, h1, if_true, hw, hm, State.eccCheck, hc]
    simp
  | svc n => simp [State.issue, h1, h2]
  | mgmt => simp [State.issue, h1, h2]

/-- The next pc of a vent that issues is a fetch address: going there only moves the pc. -/
theorem goto_vent_inside {s : State} (n : VentNo) {w : Word} (h1 : 0x100000 ≤ w.toNat) (h2 : w.toNat < 0x200000) :
    s.goto (.vent n) w = s.setVent n.toNat { s.vent n.toNat with pc := w } := by
  have hw : w ≠ 0xFFFFFFFC := by intro h; rw [h] at h2; exact absurd h2 (by decide)
  simp only [State.goto, State.setPcRaw]
  rw [if_neg hw, if_pos ⟨h1, h2⟩]

/-- A core that completes an instruction only moves its pc. -/
theorem retire_core (s : State) (p : Proc) (h : ∀ n, p ≠ .vent n) :
    s.retire p = s.setCore (coreNo p) { s.core (coreNo p) with pc := (s.core (coreNo p)).pc + 4 } := by
  cases p with
  | vent n => exact absurd rfl (h n)
  | svc n => rfl
  | mgmt => rfl

/-- The pc after an instruction that issued. -/
theorem next_pc {pc : Word} (h1 : 0x100000 ≤ pc.toNat) (h2 : pc.toNat + 4 < 0x200000) :
    0x100000 ≤ (pc + 4).toNat ∧ (pc + 4).toNat < 0x200000 := by
  have : (pc + 4).toNat = pc.toNat + 4 := by
    rw [BitVec.toNat_add]; exact Nat.mod_eq_of_lt (by simp; omega)
  omega

/-- A vent completes an instruction at a fetch address by moving its pc. -/
theorem retire_vent {s : State} (n : VentNo) {pc : Word} (hp : (s.vent n.toNat).pc = pc) (h1 : 0x100000 ≤ pc.toNat)
    (h2 : pc.toNat + 4 < 0x200000) :
    s.retire (.vent n) = s.setVent n.toNat { s.vent n.toNat with pc := pc + 4 } := by
  obtain ⟨a, b⟩ := next_pc h1 h2
  unfold State.retire
  rw [show s.pcOf (.vent n) = pc from hp]
  exact goto_vent_inside n a b

/-! ### Scalar results -/

/-- What a scalar result leaves on a vent. -/
theorem result_vent {s : State} (n : VentNo) (d : GReg) (r : ResF) (h : s.Issues (.vent n)) :
    s.result (.vent n) d r = s.setVent n.toNat { s.vent n.toNat with
      g := if d.toNat = 0 then (s.vent n.toNat).g else lset 0 (s.vent n.toNat).g d.toNat r.1,
      flags := (s.vent n.toNat).flags ||| r.2, pc := (s.vent n.toNat).pc + 4 } := by
  obtain ⟨-, ha, hb, -⟩ := h
  have hg : s.setG (.vent n) d.toNat r.1 = s.setVent n.toNat { s.vent n.toNat with
      g := if d.toNat = 0 then (s.vent n.toNat).g else lset 0 (s.vent n.toNat).g d.toNat r.1 } ∨
      (d.toNat = 0 ∧ s.setG (.vent n) d.toNat r.1 = s) := by
    by_cases hd : d.toNat = 0
    · right; exact ⟨hd, by simp [State.setG, State.setGv, hd]⟩
    · left; simp [State.setG, State.setGv, hd]
  unfold State.result
  rcases hg with hg | ⟨hd, hg⟩
  · rw [hg, retire_vent n (pc := (s.vent n.toNat).pc)
      (by simp [State.orFlags, State.setFlags, State.flagsOf]) ha hb]
    simp [State.orFlags, State.setFlags, State.flagsOf]
  · rw [hg, retire_vent n (pc := (s.vent n.toNat).pc)
      (by simp [State.orFlags, State.setFlags, State.flagsOf]) ha hb]
    simp [State.orFlags, State.setFlags, State.flagsOf, hd]

/-- What a scalar result leaves on a core. -/
theorem result_core {s : State} (p : Proc) (hp : ∀ n, p ≠ .vent n) (d : GReg) (r : ResF) :
    s.result p d r = s.setCore (coreNo p) { s.core (coreNo p) with
      g := if d.toNat = 0 then (s.core (coreNo p)).g else lset 0 (s.core (coreNo p)).g d.toNat r.1,
      flags := (s.core (coreNo p)).flags ||| r.2, pc := (s.core (coreNo p)).pc + 4 } := by
  unfold State.result
  rw [retire_core _ p hp]
  cases p with
  | vent n => exact absurd rfl (hp n)
  | svc n =>
    by_cases hd : d.toNat = 0 <;>
      simp [State.setG, State.setGc, State.orFlags, State.setFlags, State.flagsOf, hd]
  | mgmt =>
    by_cases hd : d.toNat = 0 <;>
      simp [State.setG, State.setGc, State.orFlags, State.setFlags, State.flagsOf, hd]

/-- A scalar register after a write of g(d). -/
theorem gread_lset (l : List Word) (d r : GReg) (w : Word) :
    (if r.toNat = 0 then (0 : Word) else (if d.toNat = 0 then l else lset 0 l d.toNat w).getD r.toNat 0) =
      if r = d ∧ r ≠ 0 then w else if r.toNat = 0 then 0 else l.getD r.toNat 0 := by
  by_cases hr : r.toNat = 0
  · have : r = 0 := by apply BitVec.eq_of_toNat_eq; simpa using hr
    simp [this]
  · have hr' : r ≠ 0 := by intro h; exact hr (by simp [h])
    simp only [hr, if_false, hr', ne_eq, not_false_eq_true, and_true]
    by_cases hd : d.toNat = 0
    · have : r ≠ d := by intro h; exact hr (by rw [h]; exact hd)
      simp [hd, this]
    · rw [if_neg hd, getD_lset]
      by_cases h : r = d
      · simp [h]
      · have : r.toNat ≠ d.toNat := fun e => h (BitVec.eq_of_toNat_eq e)
        simp [h, this]

/-- A scalar result of an instruction that issued is what ScalarDone says. -/
theorem result_done {s : State} {p : Proc} (h : s.Issues p) (d : GReg) (r : ResF) :
    ScalarDone s p d r.1 r.2 (s.result p d r) := by
  cases p with
  | vent n =>
    rw [result_vent n d r h]
    refine ⟨fun x => ?_, ?_, ?_, ⟨fun x => ?_, fun x => ?_⟩, ?_⟩
    · simp only [State.g, State.gv, vent_setVent_self]; exact gread_lset _ d x r.1
    · simp [State.flagsOf]
    · simp [State.pcOf]
    · simp [State.vreg]
    · simp [State.preg]
    · simp [OnlyProc]
  | svc n =>
    rw [result_core (.svc n) (by simp) d r]
    refine ⟨fun x => ?_, ?_, ?_, trivial, ?_⟩
    · simp only [State.g, State.gc, core_setCore_self]; exact gread_lset _ d x r.1
    · simp [State.flagsOf]
    · simp [State.pcOf]
    · simp [OnlyProc]
  | mgmt =>
    rw [result_core .mgmt (by simp) d r]
    refine ⟨fun x => ?_, ?_, ?_, trivial, ?_⟩
    · simp only [State.g, State.gc, core_setCore_self]; exact gread_lset _ d x r.1
    · simp [State.flagsOf]
    · simp [State.pcOf]
    · simp [OnlyProc]

/-- An instruction that only completes changes the pc alone. -/
theorem retire_done {s : State} {p : Proc} (h : s.Issues p) : ScalarDone s p 0 0 0 (s.retire p) := by
  have := result_done h 0 ((0, 0) : ResF)
  have e : s.result p 0 ((0, 0) : ResF) = s.retire p := by
    cases p with
    | vent n => rw [result_vent n _ _ h, retire_vent n rfl h.2.1 h.2.2.1]; simp
    | svc n => rw [result_core _ (by simp), retire_core _ _ (by simp)]; simp
    | mgmt => rw [result_core _ (by simp), retire_core _ _ (by simp)]; simp
  rw [e] at this; exact this

/-! ### Vector results -/

/-- A register of eight lanes reads back lane by lane. -/
theorem lane_padWords (l : List Word) (h : l.length = 8) (i : Nat) (hi : i < 8) : lane (padWords 8 l) i = lane l i := by
  simp [lane, padWords, List.getD_eq_getElem?_getD, hi, h]

/-- What a write of v(d) leaves of the lanes. -/
theorem vread_lset (L : List (List Word)) (d r : VReg) (l : List Word) (h : l.length = 8) (i : Nat) (hi : i < 8) :
    lane (padWords 8 ((lset [] L d.toNat l).getD r.toNat [])) i =
      if r = d then lane l i else lane (padWords 8 (L.getD r.toNat [])) i := by
  rw [getD_lset]
  by_cases e : r = d
  · simp [e, lane_padWords l h i hi]
  · have : r.toNat ≠ d.toNat := fun x => e (BitVec.eq_of_toNat_eq x)
    simp [e, this]

/-- The bits of flags gathered from lanes. -/
theorem bitOf_flags (act : Nat → Bool) (f : Nat → Word) (k : Nat) (l : List Nat) (w : Word) :
    bitOf (l.foldl (fun w i => if act i then w ||| f i else w) w) k =
      (bitOf w k || l.any fun i => act i && bitOf (f i) k) := by
  induction l generalizing w with
  | nil => simp
  | cons i t ih =>
    rw [List.foldl_cons, ih]
    by_cases h : act i = true
    · simp [h, bitOf, BitVec.getLsbD_or, Bool.or_assoc]
    · simp [h]

/-- What a vector result leaves on a vent. -/
theorem laneResult_vent {s : State} (n : VentNo) (vd : VReg) (pm : PReg) (f : Nat → ResF) (h : s.Issues (.vent n)) :
    s.laneResult n vd pm f = s.setVent n.toNat { s.vent n.toNat with
      v := lset [] (s.vent n.toNat).v vd.toNat (lanes.map fun i =>
        if s.active n.toNat pm i then (f i).1 else lane (s.vreg n.toNat vd.toNat) i),
      flags := (s.vent n.toNat).flags ||| lanes.foldl (fun w i => if s.active n.toNat pm i then w ||| (f i).2 else w) 0,
      pc := (s.vent n.toNat).pc + 4 } := by
  obtain ⟨-, ha, hb, -⟩ := h
  unfold State.laneResult
  rw [retire_vent n (pc := (s.vent n.toNat).pc)
      (by simp [State.orFlags, State.setFlags, State.flagsOf, State.setV]) ha hb]
  simp [State.orFlags, State.setFlags, State.flagsOf, State.setV]

/-- The lanes of a list made lane by lane. -/
theorem lane_map (f : Nat → Word) (i : Nat) (hi : i < 8) : lane (lanes.map f) i = f i := by
  have : i = 0 ∨ i = 1 ∨ i = 2 ∨ i = 3 ∨ i = 4 ∨ i = 5 ∨ i = 6 ∨ i = 7 := by omega
  rcases this with rfl | rfl | rfl | rfl | rfl | rfl | rfl | rfl <;> rfl

/-- A vector result of an instruction that issued is what LanesDone says. -/
theorem laneResult_done {s : State} (n : VentNo) (vd : VReg) (pm : PReg) (f : Nat → ResF) (h : s.Issues (.vent n)) :
    LanesDone s n vd pm f (s.laneResult n vd pm f) := by
  rw [laneResult_vent n vd pm f h]
  refine ⟨fun r i hi => ?_, fun k => ?_, fun r => ?_, fun r => ?_, ?_, ?_⟩
  · simp only [State.vreg, vent_setVent_self]
    rw [vread_lset _ _ _ _ (by simp) i hi, lane_map _ i hi]
    by_cases e : r = vd
    · subst e; simp
    · simp [e]
  · simp only [vent_setVent_self]
    rw [show bitOf ((s.vent n.toNat).flags ||| _) k = (bitOf (s.vent n.toNat).flags k || bitOf _ k) from
      BitVec.getLsbD_or, bitOf_flags (fun i => s.active n.toNat pm i) (fun i => (f i).2) k lanes 0]
    simp [bitOf]
  · simp [State.gv]
  · simp [State.preg]
  · simp
  · simp [OnlyProc]

/-! ### Predicate results -/

/-- A predicate register after a write of p(d). -/
theorem pread_lset (l : List Byte) (d r : PReg) (b : Byte) :
    (if r.toNat = 0 then (0xFF : Byte) else (if d.toNat = 0 then l else lset 0 l d.toNat b).getD r.toNat 0) =
      if r = d ∧ r ≠ 0 then b else if r.toNat = 0 then 0xFF else l.getD r.toNat 0 := by
  by_cases hr : r.toNat = 0
  · have : r = 0 := by apply BitVec.eq_of_toNat_eq; simpa using hr
    simp [this]
  · have hr' : r ≠ 0 := by intro h; exact hr (by simp [h])
    simp only [hr, if_false, hr', ne_eq, not_false_eq_true, and_true]
    by_cases hd : d.toNat = 0
    · have : r ≠ d := by intro h; exact hr (by rw [h]; exact hd)
      simp [hd, this]
    · rw [if_neg hd, getD_lset]
      by_cases h : r = d
      · simp [h]
      · have : r.toNat ≠ d.toNat := fun e => h (BitVec.eq_of_toNat_eq e)
        simp [h, this]

/-- What a predicate result with flags leaves on a vent. -/
theorem predResult_vent {s : State} (n : VentNo) (pd : PReg) (b : Byte) (fl : Word) (h : s.Issues (.vent n)) :
    ((s.setP n.toNat pd.toNat b).orFlags (.vent n) fl).retire (.vent n) = s.setVent n.toNat { s.vent n.toNat with
      p := if pd.toNat = 0 then (s.vent n.toNat).p else lset 0 (s.vent n.toNat).p pd.toNat b,
      flags := (s.vent n.toNat).flags ||| fl, pc := (s.vent n.toNat).pc + 4 } := by
  obtain ⟨-, ha, hb, -⟩ := h
  have hp : (s.setP n.toNat pd.toNat b).vent n.toNat = { s.vent n.toNat with
      p := if pd.toNat = 0 then (s.vent n.toNat).p else lset 0 (s.vent n.toNat).p pd.toNat b } := by
    by_cases hd : pd.toNat = 0 <;> simp [State.setP, hd]
  rw [retire_vent n (pc := (s.vent n.toNat).pc) (by simp [State.orFlags, State.setFlags, hp]) ha hb]
  by_cases hd : pd.toNat = 0 <;> simp [State.orFlags, State.setFlags, State.flagsOf, State.setP, hd]

/-- A predicate result of an instruction that issued is what PredDone says. -/
theorem predResult_done {s : State} (n : VentNo) (pd : PReg) (b : Byte) (fl : Word) (h : s.Issues (.vent n)) :
    PredDone s n pd (fun i => b.getLsbD i) (fun k => bitOf fl k)
      (((s.setP n.toNat pd.toNat b).orFlags (.vent n) fl).retire (.vent n)) := by
  rw [predResult_vent n pd b fl h]
  refine ⟨fun r i hi => ?_, fun k => ?_, fun r => ?_, fun r => ?_, ?_, ?_⟩
  · simp only [State.preg, vent_setVent_self]
    rw [pread_lset]
    exact apply_ite (fun x : Byte => x.getLsbD i) _ _ _
  · simp [bitOf, BitVec.getLsbD_or]
  · simp [State.gv]
  · simp [State.vreg]
  · simp
  · simp [OnlyProc]

end Sys2Proof.Machine
end

