-- ==== Sys2Proof/Laws/Swaps.lean ====
section
/-!
SUPPORT. What the swaps at a frame boundary leave alone, said once: memory, the tasks, the vents, the outputs' frame and
every register of FLK.
-/
namespace Sys2Proof.Machine
open Sys2Proof

/-- t keeps what a frame start is about: memory, the commands, the tasks, the vents, the frame counters and FLK. -/
structure KeepsFrame (s t : State) : Prop where
  mem : t.mem = s.mem
  pending : t.pending = s.pending
  tasks : t.tasks = s.tasks
  vents : t.vents = s.vents
  fired : t.flkFired = s.flkFired
  start : t.flkS = s.flkS
  outTaken : t.outTaken = s.outTaken
  flk : ∀ a, a / 0x10000 = 0x30000c → t.rd a = s.rd a

theorem KeepsFrame.refl (s : State) : KeepsFrame s s := by constructor <;> (intros; rfl)
theorem KeepsFrame.trans {s t u : State} (a : KeepsFrame s t) (b : KeepsFrame t u) : KeepsFrame s u :=
  ⟨b.mem.trans a.mem, b.pending.trans a.pending, b.tasks.trans a.tasks, b.vents.trans a.vents, b.fired.trans a.fired,
    b.start.trans a.start, b.outTaken.trans a.outTaken, fun x h => (b.flk x h).trans (a.flk x h)⟩
theorem KeepsFrame.ite {s : State} {c : Prop} [Decidable c] {t u : State} (a : KeepsFrame s t) (b : KeepsFrame s u) :
    KeepsFrame s (if c then t else u) := by split <;> assumption

/-- A change of other fields only. -/
theorem keeps_of {s t : State} (mem : t.mem = s.mem := by rfl) (pending : t.pending = s.pending := by rfl)
    (tasks : t.tasks = s.tasks := by rfl) (vents : t.vents = s.vents := by rfl)
    (fired : t.flkFired = s.flkFired := by rfl) (start : t.flkS = s.flkS := by rfl)
    (outTaken : t.outTaken = s.outTaken := by rfl) (regs : t.regs = s.regs := by rfl) : KeepsFrame s t :=
  { mem, pending, tasks, vents, fired, start, outTaken, flk := fun x _ => by unfold State.rd; rw [regs] }

theorem keeps_wr (s : State) (a : Nat) (v : Word) (h : a / 0x10000 ≠ 0x30000c) : KeepsFrame s (s.wr a v) :=
  { keeps_of (s := s) (t := { s with regs := s.regs }) with flk := fun x hx => by rw [rd_wr_ne]; rintro rfl; exact h hx }
theorem keeps_setF (s : State) (a hi lo v : Nat) (h : a / 0x10000 ≠ 0x30000c) : KeepsFrame s (s.setF a hi lo v) := keeps_wr _ _ _ h
theorem keeps_bump (s : State) (a hi lo : Nat) (h : a / 0x10000 ≠ 0x30000c) : KeepsFrame s (s.bump a hi lo) := keeps_wr _ _ _ h
theorem keeps_irq (s : State) (n : Nat) : KeepsFrame s (s.irq n) := keeps_of
theorem keeps_hostEvent (s : State) (code : Nat) (f d : Word) : KeepsFrame s (s.hostEvent code f d) :=
  keeps_of

/-! ### A fault record -/

theorem keeps_chnSend (s : State) (typ dst : Nat) (f : Word) (l : List Byte) : KeepsFrame s (s.chnSend typ dst f l) := by
  unfold State.chnSend; dsimp only
  split
  · exact .refl s
  · exact .trans keeps_of (keeps_bump _ (R.CHN_CNT 6) 31 0 (by decide))
theorem keeps_swapBack (s : State) : KeepsFrame s s.swapBack := by
  have h : ∀ (u : State) (w : Word), KeepsFrame u (u.backAt w) := fun u w =>
    (keeps_setF u R.PAIR_STAT 6 6 0 (by decide)).trans keeps_of
  unfold State.swapBack State.sendRole
  exact .trans (.ite (keeps_chnSend ..) (.refl s)) (h _ _)
theorem keeps_newFault (s : State) (code sev : Nat) (a b c d : Word) : KeepsFrame s (s.newFault code sev a b c d) := by
  have hk : ∀ (u : State) r, KeepsFrame u (u.keepRecord r) := fun u r => keeps_of
  have hc : ∀ u : State, KeepsFrame u (u.countRecord code sev) := fun u => by
    unfold State.countRecord
    exact .trans (.trans (.ite (.trans (keeps_wr _ _ _ (by decide)) (keeps_bump _ _ _ _ (by decide))) (.refl u))
      (keeps_wr _ _ _ (by decide))) (keeps_wr _ _ _ (by decide))
  have hf : ∀ u : State, KeepsFrame u (u.checkFault sev) := fun u => by
    unfold State.checkFault; exact .ite (keeps_swapBack u) (.refl u)
  have hs : ∀ u : State, KeepsFrame u u.showFatal := fun u => by
    unfold State.showFatal State.setShow
    exact .ite (.trans (keeps_setF _ _ _ _ _ (by decide)) (keeps_hostEvent ..)) (.refl u)
  have h : ∀ u : State, KeepsFrame u ((u.hostEvent 0x8003 0xFFFFFFFF (s.rd R.FLT_NEXT)).checkFault sev) := fun u =>
    (keeps_hostEvent u ..).trans (hf _)
  unfold State.newFault
  exact .trans (.trans (.trans (hk _ _) (hc _)) (h _)) (.ite (.trans (keeps_setF _ _ _ _ _ (by decide)) (hs _)) (.refl _))
/-- A fault record leaves memory, the tasks, the vents, the frame counters and FLK alone. -/
theorem keeps_log (s : State) (code sev a b c d : Nat) : KeepsFrame s (s.log code sev a b c d) := by
  unfold State.log; dsimp only
  split
  · exact .ite keeps_of (keeps_newFault ..)
  · exact keeps_newFault ..

/-! ### Swaps -/

theorem keeps_spareDone (s : State) (k unit spare l : Nat) : KeepsFrame s (s.spareDone k unit spare l) := by
  refine .trans (.trans (keeps_bump _ _ _ _ ?_) (keeps_log ..)) (keeps_irq ..)
  unfold R.SPA_KIND; omega
theorem keeps_setCrater (s : State) (c : Nat) (x : Crater) : KeepsFrame s (s.setCrater c x) :=
  keeps_of
theorem keeps_setLane (s : State) (l : Nat) (x : Lane) : KeepsFrame s (s.setLane l x) := keeps_of
theorem keeps_swapSerializer (s : State) (l : Nat) : KeepsFrame s (s.swapSerializer l) := by
  unfold State.swapSerializer
  exact .ite (.refl s) (.ite (keeps_setLane ..) (keeps_setLane ..))
theorem keeps_laneDown (s : State) (l : Nat) : KeepsFrame s (s.laneDown l) := by
  have h : KeepsFrame s (s.dropReqs l) := keeps_of
  have hl : ∀ u : State, KeepsFrame u (u.setLnState l LN_DOWN) := fun u =>
    keeps_setF _ _ _ _ _ (by unfold lnReg R.SCN_L_STAT; omega)
  exact (h.trans (keeps_setLane ..)).trans (hl _)
theorem keeps_takeSpare (s : State) (k unit : Nat) : KeepsFrame s (s.takeSpare k unit).2 := by
  unfold State.takeSpare
  split
  · exact keeps_spareDone ..
  · exact keeps_log ..
theorem keeps_unfreeze (s : State) (n : Nat) : KeepsFrame s (s.unfreeze n) := by
  have h : ∀ (l : List (Nat × Nat)) (u : State),
      KeepsFrame u (l.foldl (fun (s : State) (e : Nat × Nat) => (s.setSvc e.1 false).irqClear e.1) u) := by
    intro l
    induction l with
    | nil => exact fun u => .refl u
    | cons e l ih =>
      intro u
      have h1 : KeepsFrame u ((u.setSvc e.1 false).irqClear e.1) := keeps_of
      exact h1.trans (ih _)
  have h1 : KeepsFrame s (s.setTarget n { s.target n with stack := [], frozen := false }) :=
    keeps_of
  exact h1.trans (h _ _)
theorem keeps_resetCore (s : State) (n : Nat) : KeepsFrame s (s.resetCore n) := by
  have h1 : KeepsFrame s ((s.dropCoreWaits n).setCore n { start := s.sck }) :=
    keeps_of
  have h2 : ∀ u : State, KeepsFrame u (u.setTarget n {}) := fun u => keeps_of
  exact (h1.trans (keeps_unfreeze _ n)).trans (h2 _)
theorem keeps_epochBump (s : State) (p : Nat) (h : p < 32) : KeepsFrame s (s.epochBump p) := by
  have h1 : KeepsFrame s (s.setF (R.MBX_EPOCH p) 3 0 (s.fld (R.MBX_EPOCH p) 3 0 + 1)) :=
    keeps_setF _ _ _ _ _ (by unfold R.MBX_EPOCH; omega)
  exact h1.trans keeps_of
theorem coreParty_lt (n : Nat) : coreParty n < 32 := by
  unfold coreParty coreOfTarget
  split
  · decide
  · unfold partyOf; dsimp only; have := (BitVec.ofNat 3 (n - 1)).isLt; omega
theorem keeps_swapUnit (s : State) (k unit : Nat) : KeepsFrame s (s.swapUnit k unit) := by
  have h0 : KeepsFrame s { s with failedUnits := s.failedUnits.filter (· ≠ (k, unit)) } :=
    keeps_of
  have hc : ∀ (u : State) (i hi lo v : Nat), KeepsFrame u (u.setF (R.SPA_CR i) hi lo v) := fun u i hi lo v =>
    keeps_setF _ _ _ _ _ (by unfold R.SPA_CR; omega)
  unfold State.swapUnit
  refine h0.trans ?_
  split
  · unfold State.swapVent; dsimp only
    split
    · exact .refl _
    · exact .trans (.trans (.trans (keeps_setCrater ..) (hc ..)) (hc ..)) (keeps_spareDone ..)
  · have h1 : ∀ (u : State) (m : Map Nat) (c : Nat) (x : Crater), KeepsFrame u ({ u with ecc := m }.setCrater c x) :=
      fun _ _ _ _ => keeps_of
    exact (h1 _ _ _ _).trans (keeps_spareDone ..)
  · exact (keeps_swapSerializer ..).trans (keeps_takeSpare ..)
  · exact .trans (.trans (keeps_resetCore ..) (keeps_epochBump _ _ (coreParty_lt _))) (keeps_takeSpare ..)
  · exact keeps_takeSpare ..
theorem keeps_unitOut (s : State) (k unit : Nat) : KeepsFrame s (s.unitOut k unit) := by
  have h0 : KeepsFrame s ({ s with failedUnits := s.failedUnits.filter (· ≠ (k, unit)) }.spareNone k unit) :=
    have h1 : KeepsFrame s { s with failedUnits := s.failedUnits.filter (· ≠ (k, unit)) } :=
      keeps_of
    h1.trans (keeps_log ..)
  have hl : ∀ u : State, KeepsFrame u { u.laneDown unit with lanesOut := unit :: u.lanesOut.filter (· ≠ unit) } := fun u =>
    (keeps_laneDown u unit).trans keeps_of
  unfold State.unitOut
  refine h0.trans ?_
  split
  · dsimp only
    refine .trans (keeps_setF _ (R.SPA_CR (unit / 17)) (unit % 17) (unit % 17) 1 (by unfold R.SPA_CR; omega)) ?_
    split
    · exact keeps_setCrater ..
    · exact .refl _
  · exact hl _
  · exact hl _
  · exact .refl _
theorem keeps_swapAnswer (s : State) (d : SwapDue) (st : Nat) : KeepsFrame s (s.swapAnswer d st) := by
  have h : KeepsFrame s (if d.reg then s.wr R.SPA_SWAPRES (Word.ofNat (2 ^ 31 + st)) else s) :=
    .ite (keeps_wr _ _ _ (by decide)) (.refl s)
  unfold State.swapAnswer; dsimp only
  split
  · refine h.trans (.ite ?_ (.refl _))
    unfold State.respond
    exact .ite (.refl _) keeps_of
  · exact h
theorem keeps_swapTurn (s : State) (d : SwapDue) : KeepsFrame s (s.swapTurn d) := by
  unfold State.swapTurn
  exact .ite (keeps_swapAnswer ..) (.ite keeps_of
    (.ite (.trans (keeps_swapUnit ..) (keeps_swapAnswer ..)) (.ite (keeps_unitOut ..) (keeps_swapAnswer ..))))
/-- The swaps at a frame boundary leave memory, the tasks, the vents, the frame counters and FLK alone. -/
theorem keeps_frameSwaps (s : State) : KeepsFrame s s.frameSwaps := by
  have h : ∀ (l : List SwapDue) (u : State), KeepsFrame u (l.foldl (fun (s : State) d => s.swapTurn d) u) := by
    intro l
    induction l with
    | nil => exact fun u => .refl u
    | cons d l ih => exact fun u => .trans (keeps_swapTurn u d) (ih _)
  have h1 : KeepsFrame s { s with swapsDue := [] } := keeps_of
  exact h1.trans (h s.swapsDue _)
/-- With no swap waiting a frame boundary changes nothing. -/
theorem frameSwaps_none {s : State} (h : s.swapsDue = []) : s.frameSwaps = s := by
  unfold State.frameSwaps
  rw [h]
  show { s with swapsDue := [] } = s
  rw [← h]

end Sys2Proof.Machine
end

