-- ==== Sys2Proof/Tests/Slice0.lean ====
section
/-!
SUPPORT. This package's own tests: an ill-formed command for each check of WellFormed, single steps with the values of
the spec's worked examples, and for each statement a state and operands that meet its hypotheses.
-/
namespace Sys2Proof.Tests
open Sys2Proof Sys2Proof.Machine
set_option Elab.async false

/-! ### Small states -/

/-- The command gives a next state with a property. -/
def ok (c : Instr) (s : State) (f : State → Bool) : Bool :=
  match exec c s with
  | .next t => f t
  | _ => false

/-- The reset state with registers set. -/
def regs (l : List (Nat × Nat)) : State :=
  l.foldl (fun (s : State) e => s.wr e.1 (BitVec.ofNat 32 e.2)) State.reset

/-- Vent 0 runs task 0 at the foot of its scratch, with its scalar registers and some device memory. -/
def vent0 (g : List Word) (mem : List Host.Cell) : State :=
  { State.reset with
    mem := mem, vents := [(0, { task := some 0, pc := 0x100000, g := g, p := List.replicate 8 0xFF })],
    tasks := [(0, { desc := { tag := 0xFFFFFFFF, doneKind := 0 }, st := .running 0 })] }

/-- The management core runs in DRAM. -/
def mgmt (g : List Word) (mem : List Host.Cell) : State :=
  { State.reset with mem := mem, cores := [(0, { run := .running, pc := 0x40000000, g := g })] }

/-- A host-port session of slot 0 with a role, and a request from it. -/
def session (role : Nat) : Session := { id := 0x00000001, role := role, isOpen := true }
def asking (code : Nat) (frame : Nat) (payload : List Nat) (s : State) : State :=
  { s with host := { s.host with
      sessions := [session 4],
      reqs := [{ code := code, sid := 0x00000001, frame := BitVec.ofNat 32 frame, payload := payload.map (BitVec.ofNat 8) }] } }

/-- What `asking` asks is the oldest accepted request of the host port, where the show's state admits its command; each
command of R393 is admitted in some state. -/
theorem asked (code frame : Nat) (l : List Nat) (s : State) (h : (asking code frame l s).cmdOpen code = true) :
    (asking code frame l s).Asks false code
      { code := code, sid := 1, frame := BitVec.ofNat 32 frame, payload := l.map (BitVec.ofNat 8) } [] := ⟨rfl, rfl, rfl, h⟩
theorem witness_asked : (cmdTable.all fun e => (List.range 6).any fun k =>
    (asking e.1 0 [] (regs [(R.HST_STATE, k)])).cmdOpen e.1) = true := by decide +kernel

/-! ### Well-formedness: each check refuses an ill-formed command -/

theorem test_wf_registerWrite_host : (Instr.registerWrite .host (2 ^ 26) (.write 4 0)).wf = false := by decide
theorem test_wf_registerWrite_core : (Instr.registerWrite (.mgmt true) (2 ^ 40) (.write 4 0)).wf = false := by decide
theorem test_wf_dmaTransferEnd : (Instr.dmaTransferEnd 0 64).wf = false := by decide
theorem test_wf_taskCompletionPost : (Instr.taskCompletionPost 65536).wf = false := by decide
theorem test_wf_budgetRefill : (Instr.budgetRefill []).wf = false := by decide
theorem test_wf_costLearn : (Instr.costLearn [] []).wf = false := by decide
theorem test_wf_dvfsEvaluate : (Instr.dvfsEvaluate [0, 0, 0]).wf = false := by decide
theorem test_wf_schPorts : (Instr.schPortSubmit 10 .host 0).wf = false ∧ (Instr.schPortCancel 15 .host 0).wf = false := by decide
theorem test_wf_spread : (Instr.spdFadeGo 96).wf = false ∧ (Instr.spdRelease 96).wf = false ∧
    (Instr.spdLevelWrite 127 0).wf = false := by decide
theorem test_wf_sensorPublish : (Instr.sensorPublish (List.replicate 8 (List.replicate 16 4096))).wf = false ∧
    (Instr.sensorPublish []).wf = false := by decide
theorem test_wf_rxFrame : (Instr.rxFrame 10 [0] true).wf = false ∧ (Instr.rxFrame 0 [] true).wf = false := by decide
theorem test_wf_macPorts : (Instr.pauseExpiry 10).wf = false ∧ (Instr.txFrameSelect 10).wf = false ∧
    (Instr.txFrameDone 10).wf = false ∧ (Instr.ringTailWrite 10 0 0).wf = false ∧ (Instr.pauseSend 10).wf = false ∧
    (Instr.pauseRefresh 10).wf = false ∧ (Instr.linkChange 10 true false).wf = false ∧ (Instr.macCommit 10).wf = false ∧
    (Instr.macCommitApply 10).wf = false := by decide
theorem test_wf_sacnSourceTimeout : (Instr.sacnSourceTimeout 0 []).wf = false := by decide
theorem test_wf_dmxInputPacket : (Instr.dmxInputPacket 0 0 (List.replicate 513 0) false).wf = false := by decide +kernel
theorem test_wf_icuTargets : (Instr.icuClaim 11).wf = false ∧ (Instr.icuEoi 10 .host 0).wf = false ∧
    (Instr.icuUnfreeze 10).wf = false := by decide
theorem test_wf_dramAperture : (Instr.dramApertureAccess (2 ^ 32) none 4).wf = false ∧
    (Instr.dramApertureAccess 0 (some []) 0).wf = false ∧ (Instr.dramApertureAccess 0 none 4097).wf = false := by decide
theorem test_wf_bshWindow : (Instr.bshWindowAccess 0 (2 ^ 16) none 4).wf = false ∧
    (Instr.bshWindowAccess 0 0 none 0).wf = false := by decide
theorem test_wf_calRunDone : (Instr.calRunDone [[4096]] []).wf = false ∧ (Instr.calRunDone [] [[4096]]).wf = false := by decide
theorem test_wf_tamperTrip : (Instr.tamperTrip 7).wf = false := by decide
theorem test_wf_nrgLoRead : (Instr.nrgLoRead 0x3000140000).wf = false ∧ (Instr.nrgLoRead 0x3000130001).wf = false := by decide
theorem test_wf_spares : (Instr.spareSwapAuto 9 0).wf = false ∧ (Instr.spaSelftest [(9, 0)]).wf = false := by decide
theorem test_wf_drmUe : (Instr.drmUe (2 ^ 35)).wf = false := by decide
theorem test_wf_accepts : (Instr.registerWrite .host 0 (.write 4 0)).wf = true ∧ (Instr.spdFadeGo 95).wf = true ∧
    (Instr.icuClaim 10).wf = true := by decide

/-! ### Numbers (02, 04) -/

/-- 02, R54: 200.0 × 200.0 in fx16 saturates. -/
theorem test_mulx_saturates : aluMulx 0x00C80000 0x00C80000 = (0x7FFFFFFF, FL_SAT) := by decide +kernel
/-- 02, R54: 1.5 × −2.25 = −3.375. -/
theorem test_mulx_exact : aluMulx 0x00018000 0xFFFDC000 = (0xFFFCA000, 0) := by decide +kernel
/-- 02, R55: the worked example of MULL. -/
theorem test_mull : aluMull 0x80000 0xCCCCD = (0x66667, 0) := by decide +kernel
theorem test_mull_clamps : aluMull 0x100000 0xFFFFF = (0xFFFFF, FL_SAT) := by decide +kernel
theorem test_divs_overflow : aluDivs 0x80000000 0xFFFFFFFF = (0x80000000, FL_OV) := by decide +kernel
theorem test_rems_sign : aluRems 0xFFFFFFF9 2 = (0xFFFFFFFF, 0) := by decide +kernel
/-- R53: MULHS of −1 and 1 is the top of −1. -/
theorem test_mulhs : aluMulhs 0xFFFFFFFF 1 = (0xFFFFFFFF, 0) := by decide +kernel
/-- R56: 1.0 + 2⁻²⁴ lies halfway and rounds to even; a signalling NaN gives the canonical NaN and nv. -/
theorem test_fadd_ties : fAdd 0x3F800000 0x33800000 = (0x3F800000, 0) := by decide +kernel
theorem test_fadd_snan : fAdd 0x7F800001 0 = (0x7FC00000, FL_NV) := by decide +kernel
theorem test_fdiv_by_zero : fDiv 0xBF800000 0 = (0xFF800000, FL_DZ) := by decide +kernel
theorem test_fsqrt : fSqrt 0x40800000 = (0x40000000, 0) := by decide +kernel
/-- 07: lum20 0x8_0000 in fp32 rounds to 0x3F00_0008. -/
theorem test_fcvtSL : (fcvtSL 0x80000).1 = 0x3F000008 := by decide +kernel
/-- R58: the composited value 0.4375 in lum20 (08). -/
theorem test_fcvtLS : (fcvtLS 0x3EE00000).1 = 458752 := by decide +kernel
/-- 04, R142: the published check value of CRC-32C. -/
theorem test_crc32c : crc32c [0x31, 0x32, 0x33, 0x34, 0x35, 0x36, 0x37, 0x38, 0x39] = 0xE3069283 := by decide +kernel

/-! ### Instructions of a processor -/

theorem test_add_wraps : ok (.add (.vent 0) 3 1 2) (vent0 [0, 0xFFFFFFFF, 2] []) fun t =>
    t.gv 0 3 == 1 && (t.vent 0).pc == 0x100004 && (t.vent 0).flags == 0 := by decide +kernel
theorem test_add_g0 : ok (.add (.vent 0) 0 1 2) (vent0 [0, 5, 2] []) fun t => t.gv 0 0 == 0 := by decide +kernel
theorem test_sra : ok (.sra .mgmt 3 1 2) (mgmt [0, 0x80000000, 33] []) fun t => t.gc 0 3 == 0xC0000000 := by decide +kernel
theorem test_addi_signs : ok (.addi .mgmt 1 1 0xFFFF) (mgmt [0, 0] []) fun t => t.gc 0 1 == 0xFFFFFFFF := by decide +kernel
theorem test_ori_zero_extends : ok (.ori .mgmt 1 0 0x8000) (mgmt [0, 0] []) fun t => t.gc 0 1 == 0x8000 := by decide +kernel
theorem test_lui : ok (.lui .mgmt 1 0x1234) (mgmt [] []) fun t => t.gc 0 1 == 0x12340000 := by decide +kernel
/-- R8: little-endian; R92: LH extends the sign. -/
theorem test_lw : ok (.lw .mgmt 2 1 4) (mgmt [0, 0x40000000] [(4, 0x78), (5, 0x56), (6, 0x34), (7, 0x12)]) fun t =>
    t.gc 0 2 == 0x12345678 := by decide +kernel
theorem test_lh : ok (.lh .mgmt 2 1 0) (mgmt [0, 0x40000000] [(1, 0x80)]) fun t => t.gc 0 2 == 0xFFFF8000 := by decide +kernel
theorem test_sh : ok (.sh .mgmt 2 1 2) (mgmt [0, 0x40000000, 0xAABBCCDD] [(4, 1)]) fun t =>
    t.mem == [(2, 0xDD), (3, 0xCC), (4, 1)] := by decide +kernel
theorem test_store_zero_is_canonical : ok (.sb .mgmt 0 1 0) (mgmt [0, 0x40000000] [(0, 9)]) fun t => t.mem == [] := by decide +kernel
/-- R57: fp16 1.0 is 0x3C00. -/
theorem test_lhf : ok (.lhf .mgmt 2 1 0) (mgmt [0, 0x40000000] [(1, 0x3C)]) fun t => t.gc 0 2 == 0x3F800000 := by decide +kernel
/-- A vent store goes to its crater's scratch (R20, R35); a misaligned one ends the run with ALIGN (R71). -/
theorem test_vent_store : ok (.sw (.vent 17) 2 1 0) { vent0 [] [] with
    vents := [(17, { task := some 0, pc := 0x100000, g := [0, 0x100010, 7] })] } fun t =>
      t.rdB 0x2000100010 == 7 := by decide +kernel
theorem test_vent_align : ok (.lw (.vent 0) 2 1 1) (vent0 [0, 0x100000] []) fun t =>
    (t.vent 0).task == none && (t.task? 0) == none := by decide +kernel
theorem test_bal : ok (.bal .mgmt 0x1FFFFF) (mgmt [] []) fun t =>
    (t.core 0).pc == 0x3FFFFFFC && t.gc 0 31 == 0x40000004 := by decide +kernel
/-- R78: SCALL saves the next pc, enters the secure world and vectors by cause × 64. -/
theorem test_scall : ok (.scall .mgmt) { mgmt [] [] with
    cores := [(0, {
      run := .running, pc := 0x40000000, secure := false, svbase := 0x50000000, status := 1, pr := [⟨0, 0xFFFFFFFF, 0x2F⟩] })] }
    fun t => (t.core 0).epc == 0x40000004 && (t.core 0).secure && (t.core 0).status == 2 &&
      (t.core 0).pc == 0x50000000 + BitVec.ofNat 32 (C_SCALL * 64) := by decide +kernel
theorem test_eret : ok (.eret .mgmt) { mgmt [] [] with
    cores := [(0, { run := .running, pc := 0x40000000, epc := 0x40000100, status := 2 })] }
    fun t => (t.core 0).pc == 0x40000100 && (t.core 0).status == 3 && !(t.core 0).secure := by decide +kernel
/-- R143: alive counter 4 bits wide, last 15, received 1, allowed gap 2: one lost. -/
theorem test_alive_gap : ok (.alive .mgmt 3 1 2) (mgmt [0, 0x0023000F, 1] []) fun t =>
    t.gc 0 3 == 0x00010002 && t.gc 0 1 == 0x00230001 := by decide +kernel
/-- R50: an inactive lane keeps its value. -/
theorem test_vadd_mask : ok (.vadd 0 1 2 2 1) { vent0 [] [] with
    vents := [(0, { task := some 0, pc := 0x100000, v := [[], [], [1, 2, 3]], p := [0xFF, 0x05] })] } fun t =>
      (lanes.map fun i => lane (t.vreg 0 1) i) == [2, 0, 6, 0, 0, 0, 0, 0] := by decide +kernel
theorem test_vrot : ok (.vrot 0 1 2 3 0) { vent0 [] [] with
    vents := [(0, { task := some 0, pc := 0x100000, v := [[], [], [0, 1, 2, 3, 4, 5, 6, 7]], p := [0xFF] })] } fun t =>
      (lanes.map fun i => lane (t.vreg 0 1) i) == [3, 4, 5, 6, 7, 0, 1, 2] := by decide +kernel
/-- R50, R97: a comparison clears the bits of inactive lanes. -/
theorem test_vcltu : ok (.vcltu 0 2 1 2 1) { vent0 [] [] with
    vents := [(0, { task := some 0, pc := 0x100000, v := [[], [0xFFFFFFFF, 1, 1], [5, 5, 5]], p := [0xFF, 0x03, 0xFF] })] } fun t =>
      t.preg 0 2 == 0x02 := by decide +kernel
/-- R145: the last arrival at a gate reads 1 and frees it. -/
theorem test_join_last : ok (.join 0 2 1) { vent0 [0, 7] [] with gates := [(7, ⟨true, 2, 1⟩)] } fun t =>
    t.gv 0 3 == 1 && t.gates == [] := by decide +kernel
/-- R144: CADD answers the old value and adds. -/
theorem test_cadd : ok (.cadd 0 3 1 2) { vent0 [0, 65, 0xFFFFFFFF] [] with craters := [(0, { counters := [(1, 5)] })] } fun t =>
    t.gv 0 3 == 5 && mget (fun _ => 0) (t.crater 0).counters 1 == (4 : Word) := by decide +kernel
/-- R71: BRK on a vent is a fault of the task. -/
theorem test_vent_brk : ok (.brk (.vent 0)) (vent0 [] []) fun t => t.task? 0 == none := by decide +kernel
/-- R97 of 03: word 0 is not an instruction of either processor where the table leaves it out. -/
theorem test_illegal : ok (.illegalInstruction .mgmt 0xFFFFFFFF) (mgmt [] []) fun t =>
    (t.core 0).cause == BitVec.ofNat 32 C_ILLEGAL && (t.core 0).tval == 0xFFFFFFFF := by decide +kernel

/-! ### Light, fades and governors (04, 07, 08, 09) -/

/-- 07: fixture 4,117 halfway from full to dark, and fixture 4,118 halfway to 0xC_0000. -/
theorem test_fade_down : fadeMix (leBytes 4 0xFFFFF ++ leBytes 4 0) 0x80000 = 0x7FFFF := by decide +kernel
theorem test_fade_up : fadeMix (leBytes 4 0 ++ leBytes 4 0xC0000) 0x80000 = 0x60000 := by decide +kernel
/-- 07: 1.5 s into a LINEAR fade of 3 s; 09: period 15,000 of 30,769. -/
theorem test_fade_pos : fadePos (List.replicate 8 0 ++ leBytes 4 705032704 ++ leBytes 4 3000000) 706532704 = 0x80000 := by decide +kernel
theorem test_fade_pos_periods : fadePos (List.replicate 8 0 ++ leBytes 4 0 ++ leBytes 4 30769) 15000 = 511184 := by decide +kernel
/-- 07: square-law table entries; 04, R121. -/
theorem test_curve : (curveLane 12 (fun j => (gammaEntry 0 j, 0)) 0x60000).1 = 0x24000 := by decide +kernel
/-- 07: group 12 limits to 54,510, and to 54,325 behind its feed. -/
theorem test_gov_scale : govScale 96000000 0xE0 0x10000 0x10000 6000000 103600000 0x10000 = (54510, false) := by decide +kernel
/-- 09: the house lights' on-time with its carry, and the first and fourth of 16 segments. -/
theorem test_on_time : onTime 5 447286 104000 5 60000 = (44363, 50795) ∧ segOn 4 44363 0 = 2773 ∧ segOn 4 44363 3 = 2772 := by
  decide +kernel
/-- 09: code 532 against 77.0 °C and 69.0 °C is 75.75 °C. -/
theorem test_sensor : (State.reset.wr (R.SNS_LIN 0 4) 0x4D00 |>.wr (R.SNS_LIN 0 5) 0x4500).snsTemp 0 532 = 0x4BC0 := by decide +kernel
/-- 16: the zone factor of the example. -/
theorem test_zone_factor : zoneFactor (fun i => if i = 4 then 0xF600 else if i = 5 then 0xF400 else 0) 20 5 10624 = 0xF567 := by
  decide +kernel

/-! ### Witnesses: processors -/

/-- A decidable form of State.Issues. -/
def issues (s : State) (p : Proc) : Bool :=
  s.canIssue p && match p with
    | .vent n => decide (0x100000 ≤ (s.vent n.toNat).pc.toNat) && decide ((s.vent n.toNat).pc.toNat + 4 < 0x200000) &&
        decide (s.eccAt (scratchAddr (n.toNat / 16) ((s.vent n.toNat).pc.toNat - 0x100000)) = 0) &&
        !s.hwchk.contains (s.phys n.toNat)
    | p => decide ((s.core (coreNo p)).check ((s.core (coreNo p)).map (s.core (coreNo p)).pc) 2 = .ok) &&
        coreReach (coreNo p) (s.core (coreNo p)).secure ((s.core (coreNo p)).map (s.core (coreNo p)).pc) 2 &&
        coreFetch ((s.core (coreNo p)).map (s.core (coreNo p)).pc)

theorem issues_of (s : State) (p : Proc) (h : issues s p = true) : s.Issues p := by
  cases p <;> simp [issues] at h <;> simp [State.Issues, h]

theorem witness_StepRunsTheFrontCommand :
    { State.reset with pending := [.tsuCommit, .warmReset] }.pending = [.tsuCommit, .warmReset] ∧ State.reset.pending = [] :=
  ⟨rfl, rfl⟩

/-- Each processor issues: a vent at the last word but one of its scratch, the management core and service core 7. -/
theorem witness_ScalarIntegerResults :
    { vent0 [] [] with vents := [(0, { task := some 0, pc := 0x1FFFF8 })] }.Issues (.vent 0) ∧ (mgmt [] []).Issues .mgmt ∧
    { State.reset with cores := [(8, { run := .running, pc := 0x40000000 })] }.Issues (.svc 7) :=
  ⟨issues_of _ _ (by decide +kernel), issues_of _ _ (by decide +kernel), issues_of _ _ (by decide +kernel)⟩

/-- A product halfway between two fx16 numbers, a zero divisor and one that is not. -/
theorem witness_MultiplyDivideResults :
    let s := mgmt [0, 0x8000, 3, 0] []
    s.Issues .mgmt ∧ RoundsToEven ((s.g .mgmt 1).toInt * (s.g .mgmt 2).toInt) 65536 2 ∧ s.g .mgmt 3 = 0 ∧ s.g .mgmt 2 ≠ 0 :=
  ⟨issues_of _ _ (by decide +kernel), by unfold RoundsToEven; decide +kernel, by decide +kernel, by decide +kernel⟩

theorem witness_ImmediateResults : (mgmt [0, 0x80000000] []).Issues .mgmt ∧ (vent0 [] []).Issues (.vent 0) :=
  ⟨issues_of _ _ (by decide +kernel), issues_of _ _ (by decide +kernel)⟩

theorem witness_ScalarFloatResults : (mgmt [0, 0x7FC00000, 0x00000001] []).Issues .mgmt ∧ (vent0 [] []).Issues (.vent 0) :=
  ⟨issues_of _ _ (by decide +kernel), issues_of _ _ (by decide +kernel)⟩

/-- 1.0 ÷ 0, the largest subnormal ÷ 0, a quiet and a signalling NaN, and a negative root. -/
theorem witness_FloatRules :
    (0x3F800000 : Word) &&& 0x7F800000 ≠ 0 ∧ (0x007FFFFF : Word) &&& 0x7F800000 = 0 ∧
    0x7F800000 < ((0x7FC00000 : Word) &&& 0x7FFFFFFF).toNat ∧ 0x7F800000 < ((0xFF800001 : Word) &&& 0x7FFFFFFF).toNat ∧
    bitOf (0xFF800001 : Word) 22 = false ∧ bitOf (0xBF800000 : Word) 31 = true := by decide +kernel

theorem witness_VectorIntegerResults : { vent0 [] [] with
    vents := [(0, { task := some 0, pc := 0x100000, v := [[1, 2], [3]], p := [0xFF, 0x01] })] }.Issues (.vent 0) :=
  issues_of _ _ (by decide +kernel)

theorem witness_VectorFloatAndCompareResults : { vent0 [] [] with
    vents := [(1023, { task := some 0, pc := 0x100000, v := [[0x7F800001]], p := [0xFF] })] }.Issues (.vent 1023) :=
  issues_of _ _ (by decide +kernel)

theorem witness_PredicateAndLaneMoves : (vent0 [0, 0xFFFFFFFF] []).Issues (.vent 0) := issues_of _ _ (by decide +kernel)

/-- No lane active, and some. -/
theorem witness_ReductionResults :
    let s := { vent0 [] [] with vents := [(0, { task := some 0, pc := 0x100000, v := [[5, 6]], p := [0xFF, 0x00] })] }
    s.Issues (.vent 0) ∧ (lanes.filter fun i => s.active 0 1 i) = [] ∧ (lanes.filter fun i => s.active 0 0 i) ≠ [] :=
  ⟨issues_of _ _ (by decide +kernel), by decide +kernel, by decide +kernel⟩

/-- A core at the first word of DRAM, the last byte of it, and a vent at the last word of its scratch. -/
theorem witness_ScalarLoadResults :
    (mgmt [] []).Issues .mgmt ∧ (mgmt [] []).LoadOk .mgmt 0x40000000 4 ∧ (mgmt [] []).LoadOk .mgmt 0x7FFFFFFF 1 ∧
    (mgmt [] []).LoadOk .mgmt 0x7FFFFFFE 2 ∧ (vent0 [] []).LoadOk (.vent 0) 0x1FFFFC 4 ∧ (vent0 [] []).LoadOk (.vent 0) 0x3FFF 1 := by
  and_intros <;> first | decide +kernel | trivial

theorem witness_ScalarStoreResults :
    (mgmt [] []).Issues .mgmt ∧ (mgmt [] []).StoreOk .mgmt 0x40000000 4 ∧ (mgmt [] []).StoreOk .mgmt 0x7FFFFFFF 1 ∧
    (vent0 [] []).StoreOk (.vent 0) 0x1FFFFE 2 ∧ (vent0 [] []).StoreOk (.vent 0) 0x3FFF 1 := by
  and_intros <;> first | decide +kernel | trivial

/-- Every active lane of a load and of a gather reaches, up to the last word of the scratch; with no lane active a base
may be anything. -/
theorem witness_VectorMemoryResults :
    let s := { vent0 [] [] with vents := [(0, {
      task := some 0, pc := 0x100000, g := [0, 0x1FFFE0], v := [[0x1FFFFC, 0]], p := [0xFF, 0x03, 0x00] })] }
    s.Issues (.vent 0) ∧
    (∀ i, i < 8 → s.active 0 0 i = true → let a := (s.gv 0 1).toNat + 4 * i
      a % 4 = 0 ∧ ventReach a 4 = true ∧ ∀ w, w ∈ ventWords 0 a 4 → s.eccAt w = 0) ∧
    (∀ i, i < 8 → s.active 0 1 i = true → let a := (lane (s.vreg 0 0) i).toNat
      a % 4 = 0 ∧ ventReach a 4 = true ∧ ∀ w, w ∈ ventPartial 0 a 4 → s.eccAt w = 0) ∧
    ∀ i, i < 8 → s.active 0 2 i = false :=
  ⟨issues_of _ _ (by decide +kernel), by decide +kernel, by decide +kernel, by decide +kernel⟩

/-- A target inside, a misaligned register and the end address. -/
theorem witness_BranchAndJumpResults :
    let s := vent0 [0, 0x1FFFFC, 0x100002, 0xFFFFFFFC] []
    s.Issues (.vent 0) ∧ Reachable (.vent 0) (s.pcOf (.vent 0)) ∧ (s.g (.vent 0) 1).toNat % 4 = 0 ∧ Reachable (.vent 0) (s.g (.vent 0) 1) ∧
    (s.g (.vent 0) 2).toNat % 4 ≠ 0 ∧ s.g (.vent 0) 3 = 0xFFFFFFFC ∧ (mgmt [] []).Issues .mgmt ∧ Reachable .mgmt 0 := by
  and_intros <;> first | decide +kernel | trivial

/-- A vent with its task, and the management core in each world. -/
theorem witness_SpecialRegisterReads :
    (∃ tk, (vent0 [] []).Runs 0 0 tk) ∧ (vent0 [] []).Issues (.vent 0) ∧ ((mgmt [] []).core 0).secure = true ∧ (mgmt [] []).Issues .mgmt ∧
    { State.reset with cores := [(0, { run := .running, pc := 0x40000000, secure := false, pr := [⟨0, 0xFFFFFFFF, 0x2F⟩] })] }.Issues .mgmt :=
  ⟨⟨_, rfl, rfl, rfl, rfl⟩, issues_of _ _ (by decide +kernel), by decide +kernel, issues_of _ _ (by decide +kernel),
   issues_of _ _ (by decide +kernel)⟩

theorem witness_SpecialRegisterWrites :
    (vent0 [] []).Issues (.vent 0) ∧ ((mgmt [] []).core 0).secure = true ∧ (mgmt [] []).Issues .mgmt ∧
    { State.reset with cores := [(1, { run := .running, pc := 0x40000000, secure := false, pr := [⟨0, 0xFFFFFFFF, 0x2F⟩] })] }.Issues (.svc 0) :=
  ⟨issues_of _ _ (by decide +kernel), by decide +kernel, issues_of _ _ (by decide +kernel), issues_of _ _ (by decide +kernel)⟩

/-- Words that are no instruction of a vent and of a core, a core that may return and one that may not, and no
interrupt. -/
theorem witness_SystemInstructionResults :
    (vent0 [] []).Issues (.vent 0) ∧ legalWord false 0xFFFFFFFF = false ∧ legalWord true 0xFFFFFFFF = false ∧ (mgmt [] []).Issues .mgmt ∧
    ((mgmt [] []).target 0).dlv = none ∧ (mgmt [] []).icuLevel 0 = false ∧
    (let s := { State.reset with cores := [(0, { run := .running, pc := 0x40000000, secure := false, status := 4,
                                                 pr := [⟨0, 0xFFFFFFFF, 0x2F⟩] })] }
     s.Issues .mgmt ∧ bitOf (s.core 0).status 2 = true) := by
  and_intros <;> first | decide +kernel | trivial

/-- A misaligned address, one that no region allows, one outside every range, and a SCALL and an ERET that change the
world. -/
theorem witness_ProtectionRules :
    (let s := { State.reset with cores := [(0, { run := .running, pc := 0x40000000, pr := [⟨0, 0xFFFF, 0x19⟩, ⟨0x4000000, 0xFFFFFFFF, 0x1F⟩] })] }
     s.Issues .mgmt ∧ (s.core 0).check ((s.core 0).map 0x40000000) 0 ≠ .ok ∧ (s.core 0).check ((s.core 0).map 0x40000000) 1 ≠ .ok ∧
     (s.core 0).check ((s.core 0).map 0xC0400000) 0 = .ok ∧ coreReach 0 true ((s.core 0).map 0xC0400000) 0 = false ∧
     (s.core 0).check ((s.core 0).map 0xC0400000) 1 = .ok ∧ coreReach 0 true ((s.core 0).map 0xC0400000) 1 = false ∧
     (0x40000001 : Word).toNat % 4 ≠ 0) ∧
    (let s := { State.reset with cores := [(0, { run := .running, pc := 0x40000000, secure := false, pr := [⟨0, 0xFFFFFFFF, 0x2F⟩] })] }
     s.Issues .mgmt ∧ ok (.scall .mgmt) s fun t => (t.core 0).secure) ∧
    ((mgmt [] []).Issues .mgmt ∧ ok (.eret .mgmt) (mgmt [] []) fun t => !(t.core 0).secure) := by
  and_intros <;> first | decide +kernel | trivial

/-- A table, matrix or fade block at the last place of the scratch that holds it. -/
theorem witness_LightInstructionResults :
    let s := vent0 [0, 0x1FFF80] []
    s.Issues (.vent 0) ∧ (s.gv 0 1).toNat % 4 = 0 ∧ ventReach (s.gv 0 1).toNat 128 = true ∧
    (∀ w, w ∈ ventWords 0 (s.gv 0 1).toNat 128 → s.eccAt w = 0) ∧ (4 : BitVec 3).toNat % 2 = 0 :=
  ⟨issues_of _ _ (by decide +kernel), by decide +kernel, by decide +kernel, by decide +kernel, by decide +kernel⟩

/-- Full scale, entry numbers at both ends, and a fade before its start, inside it and past its end. -/
theorem witness_LightArithmeticBounds :
    (0xFFFFF : Nat) ≤ 0xFFFFF ∧ (4 : Nat) ≤ 4 ∧ (12 : Nat) ≤ 12 ∧ (∀ j : Nat, ((fun _ => (0xFFFFF, 0) : Nat → Nat × Word) j).1 ≤ 0xFFFFF) ∧
    ((0 : Word) - BitVec.ofNat 32 (leAt (leBytes 12 (2 ^ 64)) 8 4)).toInt < 0 ∧
    ((min (leAt (List.replicate 12 0 ++ leBytes 4 100) 12 4) 0x7FFFFFFF : Nat) : Int) ≤ (100 : Word).toInt :=
  ⟨by decide, by decide, by decide, fun _ => Nat.le_refl _, by decide +kernel, by decide +kernel⟩

/-- A descriptor that fills one row of one byte. -/
def fillDesc (dst : Nat) : List Byte := leBytes 8 0 ++ leBytes 8 dst ++ leBytes 4 1 ++ leBytes 2 1 ++ leBytes 2 1 ++ leBytes 8 0
def place (a : Nat) (l : List Byte) : List Host.Cell :=
  ((List.range l.length).map fun i => (a + i, l.getD i 0)).filter fun e => e.2 ≠ 0

/-- A good and a refused descriptor, a ticket of this run, one that is not, an admission and a queued transfer. -/
theorem witness_CraterDmaInstructionResults :
    (let s := vent0 [0, 0x100020, 0] (place 0x2000000020 (fillDesc 5))
     s.Issues (.vent 0) ∧ ventReach 0x100020 32 = true ∧ (∀ w, w ∈ ventWords 0 0x100020 32 → s.eccAt w = 0) ∧
     dmaOk (s.vrdBytes 0 0x100020 32) = true ∧ dmaOk (s.vrdBytes 0 0x100040 32) = false ∧ ((s.vent 0).slot 0).busy = false ∧
     (s.crater 0).dmaq.length < 64 ∧ (s.crater 0).dmaStall = [] ∧ (s.vent 0).ticket 9 = none) ∧
    (let s := { vent0 [] [] with vents := [(0, { task := some 0, pc := 0x100000, dmaCount := 1, slots := [{ used := true }] })] }
     s.Issues (.vent 0) ∧ ∃ sl, (s.vent 0).ticket 0 = some sl ∧ sl.busy = false) ∧
    (let s := { vent0 [] [] with craters := [(0, { dmaStall := [0] })], vents := [(0, {
       task := some 0, pc := 0x100000, stall := some (.dmaGo 3 (fillDesc 5) true) })] }
     (s.crater 0).dmaStall = [0] ∧ (s.crater 0).dmaq.length < 64 ∧ (s.vent 0).stall = some (.dmaGo 3 (fillDesc 5) true) ∧
     dmaOk (fillDesc 5) = true ∧ ((s.vent 0).slot 0).busy = false) ∧
    (let s := { vent0 [] [] with craters := [(0, { dmaq := [(0, 0)] })] }
     (s.crater 0).dmaq[0]? = some (0, 0) ∧ (s.vent 0).stall = none) :=
  ⟨⟨issues_of _ _ (by decide +kernel), by decide +kernel, by decide +kernel, by decide +kernel, by decide +kernel, by decide +kernel,
    by decide +kernel, by decide +kernel, by decide +kernel⟩, ⟨issues_of _ _ (by decide +kernel), _, rfl, rfl⟩,
   by decide +kernel, by decide +kernel⟩

/-- One byte at the last address of DRAM, filled and copied. -/
theorem witness_CraterDmaMovesItsBytes :
    let copy := leBytes 8 0 ++ leBytes 8 0x7FFFFFFFF ++ leBytes 4 1 ++ leBytes 2 1 ++ leBytes 2 0 ++ leBytes 8 0
    dmaOk (fillDesc 0x7FFFFFFFF) = true ∧ dmaRows (fillDesc 5) = 1 ∧ leAt (fillDesc 0x7FFFFFFFF) 13 1 = 0 ∧ inDram 0x7FFFFFFFF = true ∧
    inHubSram 0x40003FFFFF = true ∧ dmaOk copy = true ∧ dmaFill copy = false ∧ leAt copy 5 1 = 0 ∧ leAt copy 0 5 + 1 ≤ leAt copy 8 5 := by
  decide +kernel

/-! ### Witnesses: tasks, queues, resets, time, dispatch, interrupts -/

/-- The state with active copies and with taken values of registers. -/
def act (l : List (Nat × Nat)) (s : State) : State := l.foldl (fun (s : State) e => s.aWr e.1 (BitVec.ofNat 32 e.2)) s
def also (l : List (Nat × Nat)) (s : State) : State :=
  l.foldl (fun (s : State) e => s.wr e.1 (BitVec.ofNat 32 e.2)) s
/-- The state with one commit of a register waiting, accepted or not yet checked, which took values of registers. -/
def took (c : Nat) (rs : List (Nat × Nat)) (fine : Bool) (l : List (Nat × Nat)) (s : State) : State :=
  { s.wr c 0x40000000 with commits := [⟨c, 1, 0, fine, rs, (regs l).regs⟩] }

/-- A good and a refused descriptor, a task that is not cancelled and one that is, gates free, armed and one arrival short of
opening, and the highest and lowest software events. -/
theorem witness_TaskInstructionResults :
    let d := place 0x2000000020 (List.replicate 12 0 ++ [0xFF, 0xFF, 0xFF, 0xFF])
    let s := { vent0 [0, 0x100020, 0x7FF, 0x400, 1023, 65535] d with gates := [(1023, ⟨true, 3, 1⟩), (5, ⟨true, 2, 1⟩)] }
    let l := s.vrdBytes 0 0x100020 32
    s.Issues (.vent 0) ∧ (∃ tk, s.Runs 0 0 tk ∧ tk.cancel = false) ∧ pairOk 2 = true ∧ ventReach 0x100020 32 = true ∧
    (∀ w, w ∈ ventWords 0 0x100020 32 → s.eccAt w = 0) ∧ s.submitStatus l false = OK ∧
    s.admitNow (spawnTarget 0 (parseDesc l)) (parseDesc l).prio = true ∧ s.submitStatus (List.replicate 32 1) false ≠ OK ∧
    eventOk 0x7FF = true ∧ s.levelHolds 0x7FF 0 = false ∧ s.byHandle 0x00010000 = none ∧ (s.byHandle 0).isSome = true ∧
    (mget (fun _ => ({} : Gate)) s.gates 1023).count + 1 ≠ 3 ∧ (mget (fun _ => ({} : Gate)) s.gates 5).count + 1 = 2 ∧
    (mget (fun _ => ({} : Gate)) s.gates 0).armed = false ∧
    { s with tasks := [(0, { desc := { doneKind := 0 }, st := .running 0, cancel := true })] }.Runs 0 0
      { desc := { doneKind := 0 }, st := .running 0, cancel := true } :=
  ⟨issues_of _ _ (by decide +kernel), ⟨_, ⟨rfl, rfl, rfl, rfl⟩, rfl⟩, by and_intros <;> decide +kernel⟩

/-- FIFO 255 of two one-word entries that vents may push and pop, with one entry in it, and a duplex mailbox between
caldera 0 and the management core. -/
def queues : State :=
  { also [(R.QUE_Q_CFG 255, 0x80000002), (R.QUE_Q_ACL 255, 0xFFFF), (R.MBX_C_CFG 511, 0x80000210)] (vent0 [0, 255, 511, 0x100020, 0x300] []) with
    fifos := [(255, { w := 1, w2 := 1 })], chans := [(511, { rev := [⟨7, 1⟩] })] }
theorem witness_QueueAndMailboxInstructionResults :
    let s := queues
    let f := s.fifo 255
    s.Issues (.vent 0) ∧ s.mbxPostDir 511 16 = some true ∧ s.mbxRecvDir 511 16 = some false ∧ ((s.chan 511).words true).length < 8 ∧
    (s.chan 511).waiting true = [] ∧ (s.chan 511).words false = [⟨7, 1⟩] ∧ s.mbxPostDir 510 16 = none ∧ f.broken = false ∧
    s.bit (R.QUE_Q_CFG 255) 31 = true ∧ s.bit (R.QUE_Q_ACL 255) (8 + procGroup (.vent 0)) = true ∧ f.used < s.fld (R.QUE_Q_CFG 255) 15 0 ∧
    s.OperandOk (.vent 0) 0x100020 4 0 ∧ s.OperandOk (.vent 0) 0x100020 4 1 ∧ f.r < f.w ∧ s.bit (R.QUE_Q_CFG 255) 30 = false ∧
    s.bit (R.QUE_Q_CFG 254) 31 = false ∧ pairOk 14 = true := by
  and_intros <;> first | decide +kernel | trivial

/-- The parameter block of CRC-32C at 0x4000_0020, and blocks of width 1 and 64. -/
def crcBlock (w : Nat) : List Byte :=
  leBytes 8 0x1EDC6F41 ++ leBytes 8 0xFFFFFFFF ++ leBytes 8 0xFFFFFFFF ++ leBytes 1 w ++ leBytes 1 3 ++ leBytes 6 0
theorem witness_CheckValueResults :
    let s := mgmt [0, 0x40000020] (place 0x20 (crcBlock 32))
    s.Issues .mgmt ∧ pairOk 4 = true ∧ s.OperandOk .mgmt 0x40000020 32 0 ∧ (leAt (s.operandBytes .mgmt 0x40000020 32) 24 1) = 32 ∧
    leAt (crcBlock 1) 24 1 = 1 ∧ leAt (crcBlock 64) 24 1 = 64 :=
  by and_intros <;> first | decide +kernel | trivial
/-- 04: CRCF gives the published value from 0x1CF9_6D7C. -/
theorem test_crcf : ok (.crcf .mgmt 2 1) (mgmt [0, 0x40000020, 0x1CF96D7C, 0] (place 0x20 (crcBlock 32))) fun t =>
    t.gc 0 2 == 0xE3069283 && t.gc 0 3 == 0 := by decide +kernel

/-- Differences 0, 1, at the allowed gap and past it. -/
theorem witness_AliveCheck : (mgmt [0, 0x0023000F, 1] []).Issues .mgmt ∧
    (∀ e, e ∈ [(15, 0), (16, 1), (17, 2), (18, 3)] → (((e.1 : Int) % 16 - 15).emod 16).toNat = e.2) ∧ (3 : SReg) ≠ 1 :=
  ⟨issues_of _ _ (by decide +kernel), by decide +kernel, by decide⟩

/-- No reset state is needed; a RESET_WARM request waits, and a watchdog has run out. -/
theorem witness_PowerOnAndWarmResets :
    State.reset.pwr.hib = false ∧ State.reset.pwr.off = false ∧ Memory.wf State.reset.mem ∧ bitOf (1 : Word) 0 = true ∧
    (asking 0x0082 0 [] State.reset).Asks false 0x0082 { code := 0x0082, sid := 1 } [] ∧
    (let s := { regs [(R.PWC_WDOG, 0x80000001)] with now := 400000 }
     s.bit R.PWC_WDOG 31 = true ∧ s.fld R.PWC_STATE 2 0 < 3 ∧ s.pwr.wdStart + s.fld R.PWC_WDOG 15 0 * 400000 ≤ s.now) :=
  by and_intros <;> decide +kernel

/-- A C-die reset refused while frames run, and one that ends a task of the die and leaves another die's. -/
theorem witness_DomainAndSpringResets :
    (regs [(R.FLK_CTRL, 1)]).bit R.FLK_CTRL 0 = true ∧
    (let s := { State.reset with tasks := [(0, { desc := { doneKind := 1 } }), (16384, { at_ := 4 })] }
     s.bit R.FLK_CTRL 0 = false ∧ s.flkEn = false ∧ (s.tasks.map (·.1)).Nodup ∧ (s.task? 0).isSome = true ∧ (s.task? 16384).isSome = true) := by
  decide +kernel

def waiting3 : State := { regs [(R.PWC_STATE, 3), (R.PWC_WFCFG, 0x800288B5)] with pwr := { wakeAt := some 0 } }
/-- Each outcome of a request, an entry to each state under way, an abort, both wakes, and the requests of the host. -/
theorem witness_PowerStateRequestsAndWakes :
    (State.reset.bit R.FLK_CTRL 0 = false ∧ State.reset.flkEn = false ∧ State.reset.poolsBusy = false ∧ (vent0 [] []).poolsBusy = true) ∧
    (asking 0x0080 0 [4] State.reset).Asks false 0x0080 { code := 0x0080, sid := 1, payload := [4] } [] ∧
    (let s := { regs [(R.SPR_WAKE_EN, 1)] with pwr := { entry := some ⟨4, 0⟩ } }
     s.pwr.entry = some ⟨4, 0⟩ ∧ s.wakeCode (wakeSource 1) = some (1, true)) ∧
    { State.reset with pwr := { exit := some 0 } }.pwr.exit = some 0 ∧ waiting3.pwr.wakeAt = some 0 ∧ waiting3.fld R.PWC_STATE 2 0 = 3 ∧
    (waiting3.bit R.PWC_WFCFG 31 = true ∧ waiting3.bit R.PWC_WFCFG 17 = true) :=
  by and_intros <;> decide +kernel

theorem witness_SpringDomainResults :
    (let s := regs [(R.SPR_RTC_SEC, 9), (R.SPR_ALM_SEC, 10)]
     (10 : Word) = s.rd R.SPR_ALM_SEC ∧ s.rd R.SPR_RTC_SEC ≠ 10 ∧ s.rd R.SPR_RTC_SEC < s.rd R.SPR_ALM_SEC ∧ s.rd R.SPR_ALM_SEC < 11) ∧
    { State.reset with pwr := { almDue := true } }.pwr.almDue = true ∧
    (let s := { State.reset with pwr := { sub20 := 2 ^ 20, sprQ := [(R.SPR_WAKE_EN, 1)] } }
     2 ^ 20 ≤ s.pwr.sub20 ∧ s.pwr.skip = 0 ∧ s.pwr.sprQ = [(R.SPR_WAKE_EN, 1)] ∧ s.pwr.sprStall = [] ∧ (regDesc R.SPR_WAKE_EN).isSome = true) ∧
    (asking 0x0081 0 (List.replicate 64 0) State.reset).Asks false 0x0081
      { code := 0x0081, sid := 1, payload := List.replicate 64 0 } [] ∧
    State.reset.bit R.PWC_WDOG 31 = false ∧ (regs [(R.PWC_WDOG, 0x80000001)]).bit R.PWC_WDOG 31 = true :=
  by and_intros <;> decide +kernel

/-- A commit in flight with frames on and a step, one with frames off, and a capture asked for. -/
theorem witness_TimeBaseResults :
    let s := took R.TSU_COMMIT [] false [(R.TSU_STEP, 5)] State.reset
    (s.unchecked R.TSU_COMMIT).map (·.rd R.TSU_STEP) = some 5 ∧ s.aBit R.FLK_CTRL 0 = false ∧
    (act [(R.FLK_CTRL, 1)] s).aBit R.FLK_CTRL 0 = true ∧ { s with capReq := true }.capReq = true := by decide +kernel
/-- 06: an increment 10 ppm slow is within the clamp and taken as written. -/
theorem test_tsu_increment : ok .tsuCommitApply
    (took R.TSU_COMMIT [] false [(R.TSU_INC_FR, 0x7FFE5C92)] State.reset)
    fun t => t.tsuInc == 0x27FFE5C92 && t.fld R.TSU_COMMIT 15 8 == OK := by decide +kernel

/-- A commit with a good rate, one with D = 0, a running clock, and the two host requests. -/
theorem witness_FrameClockCommits :
    let rate (n d : Nat) := 1 ≤ n ∧ 1 ≤ d ∧ d * 4166666 ≤ 1000 * n ∧ 1000 * n ≤ d * 41708334
    let s := took R.FLK_COMMIT flkRanges false [] State.reset
    (s.unchecked R.FLK_COMMIT).map (fun x => (x.fld R.FLK_RATE_N 23 0, x.fld R.FLK_RATE_D 7 0, x.vals)) = some (50000, 3, []) ∧
    rate 50000 3 ∧ ¬rate 50000 0 ∧ s.flkEn = false ∧ s.waiting R.FLK_COMMIT = [] ∧ (act [(R.FLK_CTRL, 1)] s).flkEn = true ∧
    s.clocksRun = true ∧ s.sealHold = none ∧
    (let q := asking 0x002A 2 ((leBytes 4 50000 ++ leBytes 4 3).map (·.toNat)) State.reset
     q.host.reqs.length = 1 ∧ ((2 : Word) - q.fnow).toInt = 2 ∧ q.tbl.pixelsOk 2 50000 3 = true ∧ q.packetsOk q.tbl 2 50000 3 = true) := by
  decide +kernel

/-- 06: frames run at 60 frames/s from frame 1,000 at 0 ns; frame 1,001 is announced for 16,666,666 ns. -/
def frames (ns : Nat) : State :=
  { act [(R.FLK_CTRL, 1), (R.FLK_ANCH_FRAME, 1000)] (also [(R.FLK_FRAME, 1000), (R.FLK_COMMITTED, 999)] State.reset) with
    flkFired := true, sealed := some 1000, tsuAcc := ns * 2 ^ 32 }
theorem witness_FrameStartAndCommitRules :
    let s := frames 16666666
    s.flkEn = true ∧ s.isMaster = true ∧ s.flkFired = true ∧ s.bit R.PAIR_STAT 7 = false ∧ s.flkNext = none ∧
    { s with flkNext := some (1001, 16666666, 0, false) }.flkNext = some (1001, 16666666, 0, false) ∧
    0 ≤ (s.tsuNs - 16666666).toInt ∧ ((frames 16666665).tsuNs - 16666666).toInt < 0 ∧
    (s.committed + 1 - s.fnow).toInt ≤ 0 ∧ s.frameBusy 1000 = false ∧ s.allNoticed s.fnow = false ∧ s.lateNoted ≠ some s.fnow ∧
    0 ≤ (s.tsuNs - (s.sigma - BitVec.ofNat 32 s.leadNs)).toInt ∧
    ((s.lagMax * s.pInt : Nat) : Int) < ((frames 66666665).tsuNs - (frames 66666665).nominal 1001).toInt ∧
    s.bit R.FLK_STATUS 1 = false ∧ (also [(R.PAIR_CFG, 0x80000000), (R.CHN_CFG, 1), (R.CHN_STAT, 0)] s).isMaster = true := by
  decide +kernel
/-- 06: frame 1,001 fires 33,333,334 ns late; frame 1,002 is nominally 33,333,333 ns after frame 1,000. -/
theorem test_frame_start : ok .frameStart { frames 50000000 with committedNs := 0, flkNext := some (1001, 50000000, 0, false) } fun t =>
    t.fnow == 1001 && t.phase == 33333334 && t.nominal 1002 == 33333333 && t.cMax == 1041666 := by decide +kernel
theorem test_frame_commit : ok .frameCommit (frames 100) fun t => t.committed == 1000 && t.committedNs == 100 := by decide +kernel

/-- A task waits at level 31 of caldera 0 with its budget at the cap; a guard due and not due; a run over its quantum and over
its limit; a run that ended; an idle and an opening crater; and a request that has waited 4 µs. -/
theorem witness_DispatchResults :
    let tk : Task := { desc := { prio := 31, tag := 0xFFFFFFFF } }
    let s := { act [(R.CAL_CTRL 0, 1)] State.reset with
      tasks := [(0, tk)], dies := [(0, { on := true })], now := 200000,
      cals := [(0, { ready := [(31, [0])], starve := [(31, (0, 0))] })] }
    s.bit R.SCH_CTRL 0 = false ∧ (also [(R.SCH_CTRL, 3)] s).bit R.SCH_CTRL 0 = true ∧ s.aBit (R.CAL_CTRL 0) 0 = true ∧ s.dieRuns 0 = true ∧
    s.head 0 31 = some (0, tk) ∧ s.pickVent 0 tk = some 0 ∧ ((s.aFld (R.CAL_BCAP 0) 16 0 * 1024 : Nat) : Int) ≤ s.budget 0 ∧
    (s.cal 0).cycle.tick ≠ s.now ∧ s.readyQ 0 31 = [0] ∧ s.fld R.SCH_STARVE 15 0 * 400 ≤ s.now ∧
    (let r := { vent0 [] [] with vents := [(0, { task := some 0, qUs := 16 })], now := 1600000 }
     (r.vent 0).task = some 0 ∧ (r.vent 0).qUs * 400 ≤ r.now ∧ (r.task? 0).isSome = true ∧ r.fld R.SCH_RUNLIMIT 15 0 ≠ 0 ∧
     r.fld R.SCH_RUNLIMIT 15 0 * 400 ≤ r.now ∧ { r.vent 0 with ended := some .done }.draining = false) ∧
    (let c := { State.reset with craters := [(63, { isOpen := true })], now := 4000, dramReqs := [⟨0, 0, 0, 0, 2400⟩] }
     (c.crater 63).isOpen = true ∧ c.craterIdle 63 = true ∧ 4000 ≤ c.now - (c.crater 63).idleSince ∧ c.dramReqs[0]? = some ⟨0, 0, 0, 0, 2400⟩ ∧
     1600 ≤ c.now - 2400) := by decide +kernel
theorem test_dispatch : ok (.dispatch 0) { act [(R.CAL_CTRL 0, 1)] (also [(R.SCH_CTRL, 1)] State.reset) with
      tasks := [(0, { desc := { prio := 31, arg := 9 } })], dies := [(0, { on := true })], cals := [(0, { ready := [(31, [0])] })] } fun t =>
    (t.vent 0).task == some 0 && t.gv 0 1 == 9 && t.gv 0 31 == 0xFFFFFFFC && t.readyQ 0 31 == [] := by decide +kernel

/-- An ended task with a completion FIFO that admits it, one whose target does not, a stalled submission, port owners, a
descriptor that fits, and commits of a caldera. -/
theorem witness_SubmissionResults :
    let s := { also [(R.QUE_Q_CFG 3, 0x83000002), (R.QUE_Q_ACL 3, 0x1000), (R.CAL_COMMIT 0, 0x80000000)] (act [(R.CAL_CTRL 15, 1)] State.reset) with
      tasks := [(0, { desc := { doneKind := 1, doneTarget := 3 }, st := .ended 1 8 })], dies := [(0, { on := true })], snapReq := true, now := 7,
      commits := [⟨R.CAL_COMMIT 0, 1, 0, false, calRanges 0, []⟩],
      cals := [(0, { stalled := [⟨.port 9, 0, {}⟩] })] }
    (s.task? 0).isSome = true ∧ s.bit (R.QUE_Q_CFG 3) 31 = true ∧ s.bit (R.QUE_Q_ACL 3) 12 = true ∧
    16 ≤ (s.fld (R.QUE_Q_CFG 3) 29 24 + 1) * 4 ∧ (s.fifo 3).broken = false ∧ (s.fifo 3).used < s.fld (R.QUE_Q_CFG 3) 15 0 ∧
    s.bit (R.QUE_Q_CFG 4) 31 = false ∧ (s.cal 0).stalled = [⟨.port 9, 0, {}⟩] ∧ s.room 0 0 = true ∧ portOwner (.svc 7 true) = 9 ∧ portOwner .host = 0 ∧
    (let l := leBytes 10 0 ++ leBytes 2 0x4000 ++ List.replicate 4 (0xFF : Byte) ++ leBytes 16 0
     s.submitStatus l false = OK ∧ (parseDesc l).affKind ≠ 0 ∧ s.admitNow 0 (parseDesc l).prio = false ∧ s.admitNow 1 0 = true) ∧
    s.submitStatus (List.replicate 32 1) false ≠ OK ∧ (s.commits.filter fun y => y.reg == R.CAL_COMMIT 0) = [⟨R.CAL_COMMIT 0, 1, 0, false, calRanges 0, []⟩] ∧ (s.cal 0).stallCyc.1 ≠ s.now ∧
    s.bit (R.CAL_COMMIT 0) 31 = true ∧ s.dieRuns 0 = true ∧
    s.byHandle 0xFFFF0000 = none ∧ s.snapReq = true := by decide +kernel

/-- 05: hot and cool calderas at both ends of the slope, a point change, a NAK, a package over its limit, and a roaming task on the
hottest caldera. -/
theorem witness_GovernorResults :
    let s := { also [(R.SCH_CTRL, 2), (R.BGT_ROT, 0x01060064)] (act [(R.CAL_CTRL 0, 3), (R.CAL_CTRL 11, 3)] State.reset) with
      dies := [(0, { on := true, target := some 2 }), (2, { on := true, naks := 2, fallOld := some 1 })],
      tasks := [(45056, { at_ := 11, desc := { roam := true } })],
      cals := [(0, { temp := 76 }), (11, { temp := 93, ready := [(0, [45056])] })] }
    s.bit R.BGT_CTRL 1 = true ∧ s.bit R.BGT_CTRL 2 = true ∧ s.dieRuns 0 = true ∧ s.dieRuns 1 = false ∧ (s.die 0).target = some 2 ∧
    (s.die 1).target = none ∧ 2 ≤ (s.die 2).naks ∧ (s.die 2).fallOld = some 1 ∧ s.fld R.BGT_LIMIT 7 0 * 1000 < 180001 ∧
    s.bit R.SCH_CTRL 1 = true ∧ s.fld R.BGT_ROT 31 24 = 1 ∧ s.aBit (R.CAL_CTRL 11) 0 = true ∧
    (s.fld R.BGT_ROT 23 16 : Int) ≤ (s.cal 11).temp - (s.cal 0).temp ∧
    (∀ j, j < 16 → s.aBit (R.CAL_CTRL j) 0 = true → (s.cal 0).temp ≤ (s.cal j).temp ∨ True) ∧
    (s.roamCandidate 11 32).isSome = true ∧ (s.roamTarget 11 0).isSome = true := by decide +kernel
/-- 05: the refill of the example, 6,504 bu/µs for a cool caldera and 1,956 for caldera 11. -/
theorem test_budget_refill : ok (.budgetRefill [80, 80, 80, 80, 80, 80, 80, 80, 88, 89, 91, 93, 80, 80, 80, 80])
    { act ((List.range 16).map fun k => (R.CAL_CTRL k, 1)) State.reset with
      regs := minsert (regs [(R.BGT_LIMIT, 120), (R.BGT_FIXED, 30000)]).regs R.BGT_THERM 0x00205F55, dies := [(0, { on := true }), (1, { on := true }), (2, { on := true }), (3, { on := true })] } fun t =>
      t.rd (R.CAL_REFILL 0) == 6504 && t.rd (R.CAL_REFILL 11) == 1956 && t.fld (R.CAL_THERM 9) 8 0 == 167 &&
      t.rd R.BGT_POOL == 92160 := by decide +kernel

/-- FIFO 255 disabled and enabled, one word short of an entry, full, empty and marked; a lock; and mailbox parties. -/
theorem witness_QueueRegisterResults :
    let s := { also [(R.QUE_Q_CFG 255, 0x81000002), (R.QUE_Q_ACL 255, 0x0101), (R.QUE_Q_WM 0, 0x00020001), (R.MBX_C_CFG 0, 0x0201)] State.reset with
      fifos := [(255, { w := 2, w2 := 2, stage := [5], popIdx := 1, marked := true })],
      chans := [(0, { stF := [⟨.host, 3⟩], fwd := [] })] }
    s.bit (R.QUE_Q_CFG 0) 31 = false ∧ s.bit (R.QUE_Q_CFG 255) 31 = true ∧ s.bit (R.QUE_Q_ACL 255) 8 = true ∧ s.bit (R.QUE_Q_ACL 255) 0 = true ∧
    (s.fifo 255).broken = false ∧ ((s.fifo 255).stage.length + 1) * 4 = (s.fld (R.QUE_Q_CFG 255) 29 24 + 1) * 4 ∧
    s.fld (R.QUE_Q_CFG 255) 15 0 ≤ (s.fifo 255).used ∧ (s.fifo 255).r < (s.fifo 255).w ∧ (s.fifo 255).marked = true ∧
    (∀ p, p < 10 → (s.mac p).rxq = []) ∧ s.mbxPostDir 0 1 = some true ∧ (s.chan 0).stF = [⟨.host, 3⟩] ∧ (s.chan 0).stR = [] ∧
    (let w : Word := 0x80000002
     fldOf w 15 0 = 2 ∧ s.fld (R.QUE_Q_WM 0) 31 16 = 2 ∧ s.fld (R.QUE_Q_WM 0) 15 0 = 1 ∧ s.fld (R.QUE_Q_FLOW 0) 19 16 ≤ 9) := by decide +kernel
/-- 13: the example's levels: FIFO 40 enables with 256 entries of 256 bytes. -/
theorem test_que_enable : ok (.queEnable 40 0xBF000100) (also [(R.QUE_Q_WM 40, 192 * 65536 + 64), (R.QUE_Q_BASE 40, 0x10000)] State.reset) fun t =>
    t.rd (R.QUE_Q_OPRES 40) == 0x80000000 && t.bit (R.QUE_Q_CFG 40) 31 && t.fld (R.QUE_Q_CFG 40) 29 24 == 63 := by decide +kernel

/-- 13: source 0x228 for service cores 2 and 3 is ready and goes to core 2 (target 3), which may claim it; EOIs that match and
that do not; software sources. -/
def irq : State :=
  { also [(R.ICU_SRC 0x228, 0x81800018), (R.ICU_SRC 0x300, 0x81800018), (R.ICU_T_CTRL 3, 2), (R.ICU_T_CTRL 4, 2), (R.QUE_Q_CFG 40, 0xBF000100),
      (R.ICU_SRC 0x00D, 0x80000001)] State.reset with
    icuPend := [(0x300, true)], targets := [(4, { stack := [(0x07B, 9)] }), (5, { dlv := some 0x301 })],
    cores := [(3, { run := .running, status := 1, secure := false }), (4, { run := .running }), (5, { run := .running, status := 1, secure := false })] }
theorem witness_InterruptControllerResults :
    let s := irq
    icuSrcExists 0x300 = true ∧ s.srcPending 0x300 = true ∧ s.inSvc 0x300 = false ∧ s.delivered 0x300 = false ∧ s.srcEn 0x300 = true ∧
    srcClassE 0x300 = false ∧ srcClassE 0x00D = true ∧ srcClassL 0x00D = true ∧ bitOf (s.srcTargets 0x300) 3 = true ∧ s.awake 3 = true ∧ s.awake 4 = true ∧
    s.runPrio 3 < s.runPrio 4 ∧ s.runPrio 3 < s.srcPrio 0x300 + 1 ∧ (s.target 3).dlv = none ∧ (s.target 5).dlv = some 0x301 ∧
    s.canTake 5 0x301 = true ∧ (s.target 4).stack = [(0x07B, 9)] ∧ (s.target 4).frozen = false ∧ targetOwner (.svc 3 false) = 4 ∧
    srcMaskOk 0x300 0x400 = true ∧ srcMaskOk 0x300 0x401 = false ∧ waiting3.fld R.PWC_STATE 2 0 = 3 ∧ icuSrcExists 0x3FF = true := by decide +kernel
theorem test_icu_deliver : ok (.icuDeliver 0x300) irq fun t => (t.target 3).dlv == some 0x300 && (t.target 4).dlv == none := by decide +kernel
theorem test_icu_eoi : ok (.icuEoi 4 (.svc 3 false) 0x07B) irq fun t => (t.target 4).stack == [] && !(t.target 4).frozen := by decide +kernel

/-! ### Witnesses: show tables, light, scan-out, spread, network, DMX, Langal, host -/

def zeros (n : Nat) : List Byte := List.replicate n 0
def bytes (l : List Byte) : List Nat := l.map (·.toNat)

/-- A personality of one 8-bit parameter, a fixture record in slot 512 of buffer 1, and a canvas of one pixel. -/
def pers1 : List Byte := leBytes 2 1 ++ leBytes 1 1 ++ zeros 61 ++ leBytes 2 0x200 ++ zeros 958
def fix1 : List Byte := leBytes 2 0 ++ leBytes 1 0 ++ leBytes 1 0 ++ leBytes 2 1 ++ leBytes 2 512 ++ zeros 248
theorem witness_ShowTableResults :
    let s := asking 0x0022 2 (bytes (leBytes 4 0 ++ leBytes 4 131071 ++ fix1)) { regs [(R.HST_STATE, 1)] with
      tbl := { pers := [(0, { cur := pers1 })] }, bufs := [(7, { st := .draining, last := some 0xFFFFFFFE })] }
    ((⟨[], [(5, [1]), (9, [2])]⟩ : TblSlot).edits.map fun e => (e.1 - (2 : Word)).toNat) = [3, 7] ∧ s.host.reqs.length = 1 ∧
    s.Asks false 0x0022 { code := 0x0022, sid := 1, frame := 2, payload := leBytes 4 0 ++ leBytes 4 131071 ++ fix1 } [] ∧
    persBad pers1 = false ∧ fixBad fix1 = false ∧ ¬((2 : Word) - s.fnow).toInt < 2 ∧ ((1 : Word) - s.fnow).toInt < 2 ∧
    s.persAt (fixPers fix1) 2 = pers1 ∧ fixSlot fix1 + persFoot pers1 - 1 = 512 ∧ s.fixClash 131071 fix1 1 2 = false ∧
    (s.buf 7).st = .draining ∧ (s.buf 8).st = .free ∧ 2 ≤ (s.fnow - 0xFFFFFFFE).toInt ∧ persBad (zeros 1024) = true ∧
    fixBad (zeros 256) = true ∧ cueEntryOk (zeros 1024) 63 = true ∧ canvasBad (zeros 64) = true ∧ layerBad (zeros 127) = true :=
  by and_intros <;> decide +kernel
/-- R202: a fixture is patched for frame 2 and its slot map bytes are written when the outputs take it. -/
theorem test_patch : ok (.patch false) (asking 0x0022 2 (bytes (leBytes 4 0 ++ leBytes 4 3 ++ fix1)) { regs [(R.HST_STATE, 1)] with
      tbl := { pers := [(0, { cur := pers1 })] } }) fun t =>
    (t.host.resps.map (·.status)) == [OK] && (slotOf t.tbl.fix 3).at 2 == fix1 && (slotOf t.tbl.fix 3).at 1 == [] &&
      t.slotWrites.map (·.1) == [3] := by decide +kernel

/-- A cap below, at and above the idle power, a commit, a GOV_SET, and a frame to compute. -/
theorem witness_LightGovernorResults :
    let s := asking 0x0028 2 (bytes (leBytes 4 0x200 ++ leBytes 4 1)) (frames 0)
    Regs.wf s.regs ∧ s.host.reqs.length = 1 ∧ ¬((2002 : Word) - s.fnow).toInt < 2 ∧ s.flkFired = true ∧ s.rd R.LGV_FRAME ≠ s.committed ∧
    (s.rd R.LGV_APPLY - s.committed).toInt ≤ 0 ∧ (0 : Nat) ≤ 0x10000 := by decide +kernel

/-- The reset segments pass; lane 5 with a commit that is due, a frame to scan, a scan short of its first line, a scan that has
ended, a slot of spread-plane mode that ends a period, a fill, training and enumeration; a return packet in its code groups; and
a command for a lane whose gap holds it. -/
def lane5 (x : Lane) (stat : Nat) : State :=
  { frames 50000 with tileLanes := [(5, { x with act := [(R.SCN_CTRL 1, 2)] })], regs := (regs [(R.SCN_L_STAT 1 1, stat)]).regs }
def commit5 (due : Nat) : State :=
  { lane5 { pend := [(3, due)] } 2 with commits := [⟨R.SCN_COMMIT 1, 3, 0, true, scnRanges 1, []⟩] }
def slots5 (x : Lane) (slot : Nat) : State :=
  { State.reset with tileLanes := [(5, { x with act := [(R.SCN_L_CFG 1 1, 0x101)], slotOn := true, slot := slot })],
                     regs := (regs [(R.SCN_L_STAT 1 1, 2)]).regs, tsuAcc := 260417 * 2 ^ 32 }
def ident5 : List Byte :=
  let p : List Byte := [0x82, 0, 4, 0, 1, 2, 3, 4]
  p ++ leBytes 4 (crc32c p).toNat
def cmdq (ty : Nat) : State :=
  { also [(R.SCN_CMDQ 1, 0x1FF), (R.QUE_Q_CFG 255, 0x83000002), (R.QUE_Q_ACL 255, 0x0010), (R.QUE_Q_BASE 255, 0)] (lane5 {} 2) with
    fifos := [(255, { w := 1 })], mem := place SRAM_BASE [1, 0, BitVec.ofNat 8 ty, 0] }
theorem witness_ScanHeadResults :
    ((∀ j, j < 40 → 1 ≤ State.reset.fld (R.SCN_SEG 7 j) 12 0 ∧ State.reset.fld (R.SCN_SEG 7 j) 12 0 ≤ 4096) ∧
    (∀ b, b < 16 → (((List.range 40).filter fun j => State.reset.fld (R.SCN_SEG 7 j) 19 16 = b).map
      fun j => State.reset.fld (R.SCN_SEG 7 j) 12 0).sum = 2 ^ b) ∧
    (∀ i, i < 4 → 1 ≤ (regs [(R.SCN_L_CFG 7 0, 0x100), (R.SCN_L_CFG 7 1, 0x100), (R.SCN_L_CFG 7 2, 0x100), (R.SCN_L_CFG 7 3, 0x4000)]).fld
      (R.SCN_L_CFG 7 i) 14 8) ∧ (regs [(R.SCN_SEG 0 0, 0)]).fld (R.SCN_SEG 0 0) 12 0 = 0) ∧
    (let c := commit5 0
     c.lckRuns = true ∧ (c.lane 5).scanning = false ∧ c.waiting (R.SCN_COMMIT 1) = [⟨R.SCN_COMMIT 1, 3, 0, true, scnRanges 1, []⟩] ∧
     (3, 0) ∈ (c.lane 5).pend ∧ (3, 1) ∈ ((commit5 1).lane 5).pend ∧ (commit5 1).fld (R.SCN_L_STAT 1 1) 1 0 ≠ 0 ∧
     ((State.reset.setF R.PWC_STATE 2 0 2).lckRuns = false)) ∧
    (let u := (lane5 { newFrame := true } 2).laneApplyDue 5
     u.fld (R.SCN_L_STAT 1 1) 1 0 = 2 ∧ u.lnSpread 5 = false ∧ (u.lane 5).scanning = false ∧ (u.lane 5).newFrame = true ∧ u.blanked 5 = true) ∧
    (let y := (lane5 { scanning := true, plan := [(0, 0, [], true)] } 2).lane 5
     y.scanning = true ∧ y.cur.length < y.count ∧ (∀ e, e ∈ y.data → e.1 ≠ y.cur.length)) ∧
    (let z := { lane5 { scanned := true } 2 with now := 16000000 }
     z.lnFld 5 (R.SCN_L_BLANK 1 1) 31 16 * 1000 * 2 ≤ (z.now - (z.lane 5).endTick) * 5 ∧ z.lnFld 5 (R.SCN_L_BLANK 1 1) 31 16 ≠ 0) ∧
    (let z := slots5 { filled := true } 38
     z.lnSpread 5 = true ∧ z.fld (R.SCN_L_STAT 1 1) 1 0 = 2 ∧ (z.lane 5).switched = false ∧ z.slotStart 5 39 ≤ z.tsuLong ∧ 39 % 40 = 39 ∧
     (z.lane 5).filled = true ∧ (z.lane 5).showFrom ≤ 39 / 40 + 1 ∧ z.lnRd 5 (R.SCN_RANCH_NS 1) = z.slotRd 5 (R.SCN_RANCH_NS 1) ∧
     z.tsuLong < (slots5 {} 39).slotStart 5 41) ∧
    (let w := { State.reset with tileLanes := [(5, { act := [(R.SCN_L_CFG 1 1, 0x101)], trained := true })] }
     w.lnSpread 5 = true ∧ (w.lane 5).slotOn = false ∧ w.slotNow 5 % 40 = 0 ∧ w.slotStart 5 (w.slotNow 5) ≤ w.tsuLong) ∧
    ((lane5 { filling := true } 2).lane 5).filling = true ∧ ((lane5 { enumOpen := true } 2).lane 5).enumOpen = true ∧
    (lane5 {} 1).fld (R.SCN_L_STAT 1 1) 1 0 = 1 ∧ State.reset.strict = false ∧ ((lane5 {} 1).lane 5).trained = false ∧
    (let pkt := (unframe10 (frame10 1 ident5)).getD []
     pkt.length = 8 + leAt pkt 2 2 ∧ (crc32c (pkt.take 8)).toNat = leAt pkt 8 4 ∧ leAt pkt 0 1 = 0x82) ∧
    (let q := also [(R.SCN_RETQ 1, 0x1FF), (R.QUE_Q_CFG 255, 0x87000002), (R.QUE_Q_ACL 255, 0x1000)] State.reset
     q.bit (R.SCN_RETQ 1) 8 = true ∧ q.bit (R.QUE_Q_CFG 255) 31 = true ∧ q.bit (R.QUE_Q_ACL 255) 12 = true ∧
     q.fld (R.QUE_Q_CFG 255) 29 24 = 7 ∧ (q.fifo 255).stalled = [] ∧ (q.fifo 255).used < q.fld (R.QUE_Q_CFG 255) 15 0) := by
  and_intros <;> decide +kernel
theorem witness_TileCmd : (let s := cmdq 0x11
     s.bit (R.SCN_CMDQ 1) 8 = true ∧ s.bit (R.QUE_Q_CFG 255) 31 = true ∧ s.bit (R.QUE_Q_ACL 255) 4 = true ∧ (s.fifo 255).r < (s.fifo 255).w ∧
     leAt (s.rdBytes SRAM_BASE 16) 0 1 = 1 ∧ leAt (s.rdBytes SRAM_BASE 16) 2 1 = 0x11 ∧ s.lnState 5 = 2 ∧ s.gapFits 5 4 = true ∧
     (lane5 { scanning := true } 2).gapFits 5 4 = false) := by and_intros <;> decide +kernel
/-- R264: the command leaves in the gap, and the FIFO is empty. -/
theorem test_tile_cmd : ok (.tileCmdSend 1) (cmdq 0x11) fun t => (t.lane 5).sent.length == 1 && (t.fifo 255).r == 1 := by decide +kernel
/-- R261: IDENT of a tile in the window of ENUM is counted; a packet that breaks the code is discarded. -/
theorem test_return : ok (.returnPacket 5 (frame10 1 ident5)) (lane5 { enumOpen := true } 2) (fun t => (t.lane 5).idents == 1) = true ∧
    ok (.returnPacket 5 (0 :: frame10 1 ident5)) (lane5 { enumOpen := true } 2) (fun t =>
      (t.lane 5).idents == 0 && t.fld (R.SCN_L_RCNT 1 1) 31 16 == 1) = true := by decide +kernel
/-- R492: a swap of the serializer takes the place of one PLANE packet. -/
theorem test_dark_slot : ok (.slotLatch 5) (slots5 { dark := true } 38) (fun t => (t.lane 5).sent.length == 1 && !(t.lane 5).dark) = true ∧
    ok (.slotLatch 5) (slots5 {} 38) (fun t => (t.lane 5).sent.length == 2) = true := by decide +kernel
/-- 08: lane 5 of 38 tiles of 48 × 54 pixels scans for 422,580 ns. -/
theorem test_scan_blocks : ((6 + 2052 * (1 + (12 + 6 * 48 + 7) / 8)) * 528 + 50) / 100 = 422580 := by decide
/-- 08: a full-scale channel shows full scale less what 16 steps of 65,535 leave; R250. -/
theorem test_dither : ((List.range 16).map fun k => codeOf 447286 (dither 1 1 k)).sum = 447286 := by decide +kernel

/-- A commit of the reset values, one whose period is odd, a period whose commit is due, a fade that waits, a row of a trigger,
and a sensor with samples. -/
def spread : State :=
  { act [(R.SPD_CH_CFG 95, 8), (R.SPD_TRIG 7, 0x80000000), (R.SPD_SNAP 7 95, 0x80012345)] (also [(R.SPD_CH_STAT 95, 0x80000000),
      (R.SNS_CTRL, 0x80)] State.reset) with
    tsuAcc := 2 ^ 62, now := 9, commits := [⟨R.SPD_COMMIT, 1, 1, true, spdRanges, [(R.SPD_CH_CFG 95, 8)]⟩],
    spd := [(95, { go := some ⟨0, 1, some 1, 0, false⟩ })] }
theorem witness_SpreadDriveResults :
    (let s := State.reset
     Regs.wf s.regs ∧ 4000 ≤ s.fld R.SPD_PERIOD 21 0 ∧ s.fld R.SPD_PERIOD 21 0 % 2 ^ s.fld R.SPD_PERIOD 26 24 = 0 ∧
     (regs [(R.SPD_PERIOD, 0x04000FA1)]).fld R.SPD_PERIOD 21 0 % 16 ≠ 0) ∧
    (let s := spread
     s.aBit (R.SPD_CH_CFG 95) 3 = true ∧ 0 ≤ (s.tsuNs - s.periodTime (s.rd R.SPD_PIDX + 1)).toInt ∧ s.clocksRun = true ∧
     s.spdTick = none ∧ s.spdNew = none ∧ (s.commits.filter fun y => y.reg == R.SPD_COMMIT) = [⟨R.SPD_COMMIT, 1, 1, true, spdRanges, [(R.SPD_CH_CFG 95, 8)]⟩] ∧
     8 ≤ s.now - 1 ∧ Regs.wf ([(R.SPD_CH_CFG 95, 8)] : Map Word) ∧ (∀ w, w ∈ { s with commits := [] }.waiting R.SPD_COMMIT → s.now - w.at_ < 8) ∧
     (s.sch 95).go = some ⟨0, 1, some 1, 0, false⟩ ∧ (0 : Int) ≤ (s.rd R.SPD_PIDX + 1 - (1 : Word)).toInt ∧ (s.sch 95).rel = false ∧
     s.aBit (R.SPD_TRIG 7) 31 = true ∧ bitOf (s.aRd (R.SPD_SNAP 7 95)) 31 = true ∧ fldOf (s.aRd (R.SPD_SNAP 7 95)) 29 28 = 0 ∧
     s.bit R.SNS_CTRL 7 = true ∧ s.bit R.SNS_CTRL 0 = false ∧ waiting3.clocksRun = false) := by and_intros <;> decide +kernel
/-- R269: at the boundary the waiting fade begins from the level that stands, and the commit applies. -/
theorem test_period : ok .spdPeriodStart spread fun t => (t.sch 95).go == none && (t.sch 95).start == 1 && !t.bit R.SPD_COMMIT 30 &&
    t.commits == [] := by decide +kernel
theorem test_trigger : ok (.triggerEdge 7) (act [(R.SPD_CH_CFG 95, 8), (R.SPD_TRIG 7, 0x80000000), (R.SPD_SNAP 7 95, 0x800FFFFF)] State.reset)
    fun t => (t.sch 95).level == 0xFFFFF && t.fld (R.SPD_CH_STAT 95) 31 30 == 2 && (t.sch 94).level == 0 := by decide +kernel

/-- ETH1 is up with reset frame sizes; frames short, whole and long, PAUSE, one for a disabled ring, a ring that can take one;
a queue of each source; and fast-path entries armed and not. -/
def eth : State := { act [(R.MAC_P_CFG 1, 0x850005F2)] (also [(R.MAC_P_STAT 1, 1), (R.MAC_P_R_CFG 1 0, 0x81000800), (R.MAC_P_R_TAIL 1 0, 1),
    (R.MAC_FP_CFG 31, 0x0800003C)] State.reset) with
    commits := [⟨R.MAC_P_COMMIT 1, 1, 0, true, [(R.MAC_P_CFG 1, R.MAC_P_COMMIT 1), (R.MAC_P_ADDR_LO 1, R.MAC_P_STAT 1)], []⟩], fpArmed := [(30, zeros 60)], macs := [(2, { tx := some (.pause, .pause 0) })] }
theorem witness_EthernetPortResults :
    let s := eth
    s.aBit (R.MAC_P_CFG 1) 31 = true ∧ s.bit (R.MAC_P_STAT 1) 0 = true ∧ (zeros 63).length < 64 ∧ (zeros 64).length ≤ s.aFld (R.MAC_P_CFG 1) 13 0 ∧
    s.aFld (R.MAC_P_CFG 1) 13 0 = 1522 ∧ s.aBit (R.MAC_P_CFG 1) 24 = true ∧ frEt (zeros 64) ≠ 0x8808 ∧
    frEt (zeros 12 ++ [0x88, 0x08, 0, 1] ++ zeros 48) = 0x8808 ∧ (s.mac 1).rxq = [] ∧ s.macStalled 1 = false ∧
    (∀ j, j < 128 → s.ruleMatches 1 (zeros 64) j = false) ∧ s.ringOwned 1 0 ≠ 0 ∧ s.ringOwned 1 1 = 0 ∧ 64 ≤ s.fld (R.MAC_P_R_CFG 1 0) 15 0 ∧
    (s.mac 1).tx = none ∧ (s.mac 2).tx = some (.pause, .pause 0) ∧ Regs.wf s.regs ∧ (s.fpPacket 30).isSome = true ∧ (s.fpPacket 31).isSome = false ∧
    (s.commits.map fun y => (y.reg, y.ok)) = [(R.MAC_P_COMMIT 1, true)] ∧ Regs.wf ([] : Map Word) ∧ (∀ y, y ∈ s.commits → y.reg ≠ R.MAC_RCOMMIT) ∧
    s.strict = false ∧ s.macEn 1 = true ∧
    fldOf (s.rd (R.MAC_FP_CFG 31)) 10 0 = 60 ∧ s.fpUsed 1 + 60 ≤ 8192 ∧ s.linkUp 1 = true ∧ s.linkUp 0 = false := by decide +kernel
/-- R281: a frame of 64 bytes with a bad FCS is counted; R282: a PAUSE of 0xFFFF quanta stops transmission. -/
theorem test_rx_bad_fcs : ok (.rxFrame 1 (zeros 64) false) eth fun t => t.rd (R.MAC_P_CNT 1 3) == 1 && t.rd (R.MAC_P_CNT 1 0) == 0 := by decide +kernel
theorem test_rx_pause : ok (.rxFrame 1 (zeros 12 ++ [0x88, 0x08, 0, 1, 0xFF, 0xFF] ++ zeros 46) true) eth fun t =>
    t.bit (R.MAC_P_STAT 1) 1 && t.rd (R.MAC_P_CNT 1 10) == 1 := by decide +kernel

/-- 10: universe 1,021 with sync address 63,001 and 512 slots in frame 300,180; an entry that is refused; a live repeat; two sources
of one priority. -/
def ue1021 : List Byte := leBytes 2 0x0205 ++ leBytes 2 1021 ++ leBytes 1 100 ++ leBytes 1 1 ++ leBytes 2 512 ++ leBytes 2 63001 ++ zeros 22
theorem witness_UniverseEngineResults :
    let s := { act [(R.UNV_CTRL, 1)] (asking 0x0029 2 (bytes (leBytes 4 65535 ++ ue1021)) (regs [(R.HST_STATE, 1)])) with
      unv := { began := true, frame := 300180, built := [(9, .data, .raw [])] } }
    ue1021.length = 32 ∧ s.unv.name.length = 64 ∧ (zeros 512).length ≤ 512 ∧ ueBad ue1021 = false ∧ ueBad (zeros 32) = true ∧
    ([⟨[], 100, 0, zeros 512, none, 0, 0, true⟩, ⟨[1], 100, 0, zeros 512, none, 0, 1, true⟩] : List SacnSrc) ≠ [] ∧ eth.linkUp 1 = true ∧
    eth.unvSilent = false ∧ Regs.wf s.regs ∧ s.aBit R.UNV_CTRL 0 = true ∧ s.unv.began = true ∧ (∀ x, x ∈ s.unv.built → x.1 < 10) ∧
    112 ≤ (zeros 638).length ∧ s.cmdOpen 0x0029 = true ∧ ¬((2 : Word) - s.fnow).toInt < 2 ∧ s.packetsFit s.tbl 2 = true ∧
    s.tbl.syncCount 2 ≤ 64 ∧ (s.tbl.univFrames 2).all (fun f => !ueClashAt s.tbl 65535 f) = true ∧ s.streamBad (zeros 64) = true := by
  and_intros <;> decide +kernel
theorem test_sacn_lengths : let d := State.reset.sacnData ue1021 (zeros 512) 300180 false
    d.length = 638 ∧ beNat ((d.drop 16).take 2) = 0x726E ∧ beNat ((d.drop 38).take 2) = 0x7258 ∧ beNat ((d.drop 115).take 2) = 0x720B ∧
    beNat ((d.drop 109).take 2) = 0xF619 ∧ leAt d 111 1 = 0x94 ∧ beNat ((d.drop 113).take 2) = 1021 ∧ beNat ((d.drop 123).take 2) = 0x0201 := by
  decide +kernel

/-- 11: port 0, 360 slots and frame-locked, has a packet due 88 µs after its frame start; a free-running port; an input; and a port
that may send RDM. -/
def dmxPort (cfg : Nat) (x : DmxPort) (stat : Nat) (now : Nat) : State :=
  { act [(R.DMX_P_CFG 0, cfg)] (regs [(R.DMX_P_STAT 0, stat)]) with dmx := [(0, x)], now := now }
def dmxTook (v : Nat) (s : State) : State :=
  { s with commits := [⟨R.DMX_P_COMMIT 0, 1, 0, true, dmxRanges 0, [(R.DMX_P_CFG 0, BitVec.ofNat 32 v)]⟩] }
theorem witness_DmxPortResults :
    (let s := dmxPort 0xA168 { due := some (5, 0) } 0 35200
     s.langalOwns = false ∧ s.dmxOut 0 = true ∧ s.dmxLocked 0 = true ∧ s.fld (R.DMX_P_STAT 0) 1 0 = 0 ∧ (s.dmxAtBreak 0).dmxOut 0 = true ∧
     Regs.wf s.regs ∧ ((dmxTook 0xE168 s).dmxAtBreak 0).dmxOut 0 = false ∧ State.reset.fld (R.DMX_P_TIME 0) 31 22 = 176) ∧
    (let s := dmxPort 0x8168 { taken := some 5 } 0 0
     s.dmxOut 0 = true ∧ s.dmxLocked 0 = false ∧ ((s.dmxAtBreak 0).dp 0).taken = some 5 ∧ (s.dmxAtBreak 0).dmxLocked 0 = false) ∧
    (let s := dmxTook 0xA168 (dmxPort 0xA168 { sentAny := true } 0 67)
     s.clocksRun = true ∧ (s.waiting (R.DMX_P_COMMIT 0)).length = 1 ∧ (s.dp 0).sentAny = true ∧ (s.dmxAtBreak 0).dmxOut 0 = true ∧
     (s.dmxAtBreak 0).dmxLocked 0 = true) ∧
    (let s := dmxTook 0x8168 (dmxPort 0xA168 { sentAny := true } 0 67)
     (s.dmxAtBreak 0).dmxLocked 0 = false) ∧
    (let s := dmxPort 0xC168 {} 0 0
     s.dmxEn 0 = true ∧ s.dmxIn 0 = true) ∧
    (let s := dmxPort 0xB168 { sentAny := true } 0 0
     s.dmxMayDrive 0 = true ∧ s.aBit (R.DMX_P_CFG 0) 12 = true ∧ (s.dp 0).rdm = false ∧ (s.dp 0).due = none ∧
     ((s.tsuNs + BitVec.ofNat 32 (s.aFld (R.DMX_P_RDMCFG 0) 31 16 * 1000)) - s.nominal (s.fnow + 1)).toInt ≤ 0) ∧
    (let s := dmxPort 0xB168 { rdmSent := zeros 20 ++ [0x10, 0, 1] } 3 0
     s.fld (R.DMX_P_STAT 0) 1 0 = 3 ∧ rdmDisc (s.dp 0).rdmSent = true ∧ s.dmxTurns 0 (s.dmxDue 0) = false) ∧
    (regs [(R.SYS_STRAP, 0x10)]).langalOwns = true := by and_intros <;> decide +kernel
/-- 11: with 88 µs gone the break shortens to 92 µs and the mark to 12 µs. -/
theorem test_dmx_shortened : (dmxPort 0xA168 {} 0 35200).dmxTimes 0 35200 = (92 * 400, 12 * 400) := by decide +kernel
/-- R316: from the break of a repeat on, a commit of at least 8 DCK cycles applies; one that disables the port stops it. -/
theorem test_dmx_repeat : ok (.dmxRepeat 0) (dmxTook 0x2168 (dmxPort 0xA168 { sentAny := true } 0 67)) fun t =>
    !t.dmxOut 0 && t.commits == [] && t.dmxState 0 == 0 := by decide +kernel

/-- 12: Langal-plus, the engine at FADE a1, a2, a3 (0xE123); a session of the LHB; a store whose sum is 0x36FD. -/
def fadeProg : Map (BitVec 16) := [(0, 0x1200), (1, 0x13FF), (2, 0x1E00), (3, 0x1400), (4, 0x2406), (5, 0x1533), (6, 0x2503),
  (7, 0xE123), (8, 0x8140), (9, 0x0002), (10, 0x5E56), (11, 0xC007)]
def langal (pc stat : Nat) (x : Langal) : State :=
  { regs [(R.SYS_STRAP, 0x20), (R.LGL_PC, pc), (R.LGL_STAT, stat)] with lgl := { x with prog := fadeProg } }
theorem witness_LangalResults :
    (let s := langal 7 2 { busy := false, waiting := false }
     s.langalOwns = true ∧ s.fld R.LGL_STAT 1 0 = 2 ∧ s.lgl.waiting = false ∧ lciDecode s.lciWord = .fade ∧ s.lgl.busy = false) ∧
    (langal 9 0 {}).fld R.LGL_STAT 1 0 = 0 ∧
    (let s := langal 0 0x11 { busy := false, arg0 := 0xFD, arg1 := 0x36, ticked := true, snapEn := 8 }
     s.fld R.LGL_STAT 1 0 = 1 ∧ s.bit R.LGL_STAT 4 = true ∧ (s.lgl.prog.map fun x => x.2.toNat).sum % 65536 = 0x36FD ∧
     s.lgl.snapEn.getLsbD 3 = true ∧ s.lgl.snapEn.getLsbD 4 = false ∧ s.fld R.KEY_LC 2 0 < 2 ∧ 2 ≤ (also [(R.KEY_LC, 2)] s).fld R.KEY_LC 2 0 ∧ s.lgl.ticked = true ∧
     0 ≤ (s.tsuNs - (s.rd R.LGL_TANCH + 0 * 25000000)).toInt) ∧
    (let e : Langal := { waiting := true, tickSeen := true, busy := true }
     (langal 9 2 e).lgl.waiting = true ∧ (langal 9 2 e).lgl.tickSeen = true ∧ (langal 9 2 e).lgl.busy = true) := by decide +kernel
/-- 12, tick 40: 255 × 32,760 shifted right by 16 is 127; STORE takes the sum 0x36FD. -/
theorem test_lci_fade : ok .lciFade (langal 7 2 { a := [0, 0, 0, 0xFF, 0, 0, 0, 0, 0, 0, 0, 0, 0, 0, 32760, 0] }) fun t =>
    t.la 1 == 127 && t.lglPc == 8 := by decide +kernel
theorem test_lgl_store : ok .lglStore (langal 0 0x11 { busy := false, arg0 := 0xFD, arg1 := 0x36 }) fun t =>
    t.lgl.pendRes == 0 && t.lgl.nvProg == fadeProg := by decide +kernel

/-- 14: window 3 as the example arms it, at levels 2 and 0, at the first byte past its rows; a burst that runs. -/
def window3 (role : Nat) : State := { regs [(R.BSH_W_CFG 3, 3), (R.BSH_W_BASE_LO 3, 0x20439400), (R.BSH_W_BASE_HI 3, 1), (R.BSH_W_ROW 3, 512),
    (R.BSH_W_STRIDE 3, 15360), (R.BSH_W_EXT 3, 16), (R.BSH_W_STAT 3, 0x80000000), (R.BSH_B_ROW 2, 2), (R.BSH_B_ROWS 2, 0x80000001)] with
  host := { sessions := [session role], bursts := [(1, some { row := 1, rows := 1 })] } }
theorem witness_HostPortResults :
    let s := window3 4
    2 ≤ s.hostLevel ∧ (window3 1).hostLevel = 1 ∧ State.reset.hostLevel = 0 ∧ s.bit (R.BSH_W_STAT 3) 31 = true ∧ s.fld (R.BSH_W_CFG 3) 1 0 = 3 ∧
    8191 / s.fld (R.BSH_W_ROW 3) 16 0 < s.fld (R.BSH_W_EXT 3) 31 0 ∧ ¬8192 / s.fld (R.BSH_W_ROW 3) 16 0 < s.fld (R.BSH_W_EXT 3) 31 0 ∧
    bushelReach 0x12045B034 = true ∧ bushelReach 0x3000000000 = false ∧ s.fld (R.BSH_W_ROW 3) 16 0 ≤ 65536 ∧
    (mget (fun _ => none) s.host.bursts 2 : Option Burst) = none ∧ s.fld (R.BSH_B_ROW 2) 16 0 ≠ 0 ∧ s.fld (R.BSH_B_ROWS 2) 15 0 ≠ 0 ∧
    s.bit (R.BSH_B_ROWS 2) 31 = true ∧ (mget (fun _ => none) s.host.bursts 1 : Option Burst) = some { row := 1, rows := 1 } ∧
    (s.target 10).dlv = none ∧ s.strict = false ∧ s.clocksRun = true ∧ (regs [(R.SYS_STRAP, 0x10)]).strict = true := by
  and_intros <;> decide +kernel
/-- 14: offset 0x1234 lands at 0x01_2045_B034; offset 8,192 stops the window with E_SPACE. -/
theorem test_window_write : ok (.bshWindowAccess 3 0x1234 (some [0xAB]) 0) (window3 4) fun t =>
    t.mem == [(0x12045B034, 0xAB)] && t.rd (R.BSH_W_COUNT 3) == 1 := by decide +kernel
theorem test_window_stops : ok (.bshWindowAccess 3 8192 (some [0xAB]) 0) (window3 4) fun t =>
    t.mem == [] && t.bit (R.BSH_W_STAT 3) 30 && t.fld (R.BSH_W_STAT 3) 7 0 == E_SPACE := by decide +kernel

/-- A well-formed STATUS request, its session, a repeated and a new alive value, a doorbell, a frame from the network and a response. -/
def statusFrame (al : Nat) : List Byte := cmdFrame 0 al 0x0004 1 7 0 0 0 []
theorem witness_SessionResults :
    (let f := statusFrame 1
     f.length = 28 ∧ leAt f 0 2 = 0x4350 ∧ leAt f 2 1 = 1 ∧ leAt f 3 1 = 0 ∧ leAt f 24 4 = (crc32c (f.take 24)).toNat ∧ leAt f 6 2 = 4 ∧ leAt f 4 2 = 1) ∧
    (let s := { State.reset with host := { sessions := [session 4], resps := [⟨{ code := 4, sid := 1 }, 0, [], none⟩] } }
     (s.boundSession { sid := 1 }).isSome = true ∧ (s.boundSession { sid := 2 }) = none ∧ (0x0004, 1, 63) ∈ cmdTable ∧ s.hostBusy = true ∧
     (takeResp false s.host.resps).isSome = true ∧ takeResp true s.host.resps = none ∧ State.reset.hostBusy = false) ∧
    (asking 0x0001 0 [4, 0, 0, 0, 0xFE, 0x0F, 0, 0] State.reset).host.reqs.length = 1 ∧ State.reset.lc = 0 ∧
    (asking 0x0004 0 [] State.reset).Asks false 0x0004 { code := 4, sid := 1 } [] ∧
    (State.reset.session? 1) = none ∧ ([] : List Byte).length % 4 = 0 :=
  by and_intros <;> first | decide +kernel | rfl
theorem test_doorbell_bad_frame : ok (.hostDoorbell 28) State.reset fun t => (t.host.resps.map (·.raw.isSome)) == [true] &&
    t.fld R.HST_CNT 31 16 == 1 := by decide +kernel

/-! ### Witnesses: keys, energy, calibration, checks, boot, chain, pair, spares, registers, reset -/

/-- A property of the n numbers from a, from its n instances. -/
theorem span {P : Nat → Prop} (a n : Nat) (h : ∀ i, i < n → P (a + i)) : ∀ m, a ≤ m → m < a + n → P m := by
  intro m h1 h2
  obtain ⟨i, rfl⟩ := Nat.exists_eq_add_of_le h1
  exact h i (by omega)

/-- A key of id k under parent p with every attribute of R409 and type t, in slot 0; the KEY block asked for an operation. -/
def keyHdr (k p t attr : Nat) : List Byte :=
  [0x4B, 0x42, 1, BitVec.ofNat 8 t] ++ leBytes 2 k ++ leBytes 2 p ++ zeros 4 ++ leBytes 4 attr ++ zeros 12 ++ leBytes 4 32
def key0 (t : Nat) : KeySlot := ⟨keyHdr 0x100 0 t 0x001F7E1F, List.replicate 32 1⟩
def keyed (op t : Nat) : State :=
  { regs [(R.KEY_OPCFG, op * 2 ^ 24 + 0x101), (R.KEY_IN_LO, 0x40000000), (R.KEY_INLEN, 3), (R.KEY_OUT_LO, 0x40001000), (R.KEY_OUTCAP, 80)] with
    mem := [(0x40000000, 0x61), (0x40000001, 0x62), (0x40000002, 0x63)], keys := { slots := [(0, key0 t)] } }
theorem witness_KeyEngineOperation : let s := keyed 0x0D 0
    s.fld R.KEY_OPCFG 31 24 = 0x0D ∧ s.fld R.KEY_OPCFG 31 24 ≠ 0x01 ∧ s.bit R.KEY_RES 31 = true ∧
    (∀ m, 0x40000000 ≤ m → m < 0x40000000 + 3 → hubReach m = true) ∧ (∀ m, 0x40001000 ≤ m → m < 0x40001000 + 32 → hubReach m = true) ∧
    hubReach 0x3000000000 = false ∧ (sha256 (s.rdBytes 0x40000000 3)).length = 32 ∧ (also [(R.KEY_RES, 0)] s).bit R.KEY_RES 31 = false :=
  by and_intros <;> first | decide +kernel | exact span _ _ (by decide +kernel)
/-- A slot that is empty, one whose key has every use and one that has none; a payload for each operation; the life cycles. -/
theorem witness_KeyEngineResults :
    let s := keyed 0 0
    let k := key0 0
    let a := attrOf (hdrAttr k.hdr)
    let none_ := attrOf (hdrAttr (keyHdr 0x100 0 0 0x00001E1F))
    s.lc = 0 ∧ (also [(R.KEY_LC, 4)] s).lc = 4 ∧ s.keySlot 63 = none ∧ s.keySlot 0 = some k ∧
    (a.lc.testBit s.lc = true ∧ a.masters.testBit 0 = true ∧ a.world = 2) ∧ none_.lc.testBit 0 = true ∧ none_.usage.testBit U_MAC = false ∧
    (∀ u, u < 5 → a.usage.testBit u = true) ∧ hdrType k.hdr = 0 ∧ hdrType (key0 2).hdr = 2 ∧ k.hdr.length = 32 ∧ k.mat.length = 32 ∧
    (s.parentKey 0x100).2.mat.length = 32 ∧ s.wrapCheck 0x100 (hdrId k.hdr) a ⟨0, 0⟩ = OK ∧ s.wrapCheck 0x200 (hdrId k.hdr) a ⟨0, 0⟩ = E_ABSENT ∧
    (zeros 27).length ≠ 28 ∧ (let inp := leBytes 4 0x100 ++ (keyHdr 0x200 0x100 0 0x001F7E1F).take 16 ++ zeros 8
      inp.length = 28 ∧ leAt inp 0 4 ≤ 65535 ∧ hdrOk (reHdr (keyHdr 0x200 0x100 0 0x001F7E1F) 0x100 0 (zeros 12)) = true ∧
        s.wrapCheck 0x100 0x200 a ⟨0, 0⟩ = OK ∧ a.within a = true ∧ (s.slotFor (keyHdr 0x200 0x100 0 0x001F7E1F)).1 = OK) ∧
    s.gen 4095 ≠ 0xFFFF ∧ s.keys.slots.length ≤ 64 ∧ { s with keys := { gens := [(4095, 0xFFFF)] } }.gen 4095 = 0xFFFF ∧ s.rootValid = false ∧
    (also [(R.SPR_TAMP_STAT, 0x80000000)] s).rootValid = true ∧ (also [(R.KEY_LC, 1)] s).lc = 1 ∧ (also [(R.KEY_LC, 2)] s).lc = 2 ∧
    (also [(R.KEY_LC, 3)] s).lc = 3 := by decide +kernel
/-- A blob whose tag is the tag of its header and body under the key of slot 0, whatever that tag's sixteen bytes are. -/
theorem witness_KeyLoad : let h := keyHdr 0x200 0x100 0 0x001F7E1F
    (keyed 0 0).slotFor h = (OK, 1) ∧ ((keyed 0 0).parentKey 0x100).1 = OK ∧ hdrPgen h = (keyed 0 0).gen 0x100 ∧ hdrParent h = 0x100 ∧
    leAt h 28 2 = 32 ∧ BitVec.ofNat 32 (leAt h 12 4) &&& 0xE0E080E0 = 0 ∧ fldOf (BitVec.ofNat 32 (leAt h 12 4)) 9 8 ≠ 3 ∧
    (attrOf (hdrAttr h)).within ((keyed 0 0).parentKey 0x100).2.attr = true := by decide +kernel
theorem witness_KeyLoad_tag (c tag : List Byte) (hc : c.length = 32) (ht : tag.length = 16) :
    let h := keyHdr 0x200 0x100 0 0x001F7E1F
    blobHdr (h ++ c ++ tag) = h ∧ blobBody (h ++ c ++ tag) = c ∧ blobTag (h ++ c ++ tag) = tag := by
  have hh : (keyHdr 0x200 0x100 0 0x001F7E1F).length = 32 := by decide +kernel
  simp [blobHdr, blobBody, blobTag, hh, hc, List.drop_append, List.take_of_length_le, ht]
theorem witness_KeyDoneAndTamper :
    let s := { regs [(R.SPR_TAMP_CFG, 0x80000009), (R.SPR_TAMP_STAT, 0x80000000)] with keys := { pend := some ⟨OK, 0, zeros 32, 0x40001000⟩ } }
    s.keys.pend = some ⟨OK, 0, zeros 32, 0x40001000⟩ ∧ (zeros 32).length < 2 ^ 16 ∧ State.reset.keys.pend = none ∧ s.bit R.SPR_TAMP_CFG 3 = true ∧
    s.bit R.SPR_TAMP_CFG 1 = false ∧ s.fld R.SPR_TAMP_STAT 6 0 = 0 ∧ (also [(R.SPR_TAMP_STAT, 0x80000001)] s).fld R.SPR_TAMP_STAT 6 0 ≠ 0 ∧
    ¬(s.pwr.hib = true ∨ s.pwr.off = true) ∧ ({ s.pwr with hib := true }).hib = true := by decide +kernel
/-- FIPS 180-4: SHA-256 of "abc"; the operation waits for its end. -/
theorem test_keySha : ok .keyOpSha256 (keyed 0x0D 0) fun t => match t.keys.pend with
  | some d => d.status == OK && d.out.take 4 == [0xBA, 0x78, 0x16, 0xBF] && d.out.drop 28 == [0xF2, 0x00, 0x15, 0xAD]
  | none => false := by decide +kernel

theorem witness_KeyCommandResults :
    let s := asking 0x0044 0 [2, 0, 0, 0] (keyed 0 0)
    let full := { s with keys := { slots := (List.range 64).map fun i => (i, key0 0) } }
    s.host.reqs.length = 1 ∧ (zeros 80).length = 80 ∧ (zeros 80).take 3 ≠ [0x4B, 0x42, 1] ∧ s.rootValid = false ∧
    (also [(R.SPR_TAMP_STAT, 0x80000000)] s).rootValid = true ∧ s.lc = 0 ∧ (also [(R.KEY_LC, 2)] s).lc ≠ 0 ∧ s.keySlotOf 0x200 = none ∧
    (0x200 : Nat) ∉ [0xFFFF, 0, 1, 4094] ∧ s.keySlotOf 0x100 = some (0, key0 0) ∧ { s with keys := { gens := [(0x100, 0xFFFF)] } }.gen 0x100 = 0xFFFF ∧
    full.keySlotOf 0x200 = none ∧ (∀ n, n < 64 → (full.keySlot n).isSome = true) ∧ s.keySlot 1 = none ∧ (∀ m, m < 1 → (s.keySlot m).isSome = true) ∧
    s.keys.evict = none ∧ { s.keys with evict := some 2 }.evict = some 2 ∧ ¬(∃ x, x ∈ s.host.resps ∧ x.req.code = 0x0044) ∧ s.keys.pend = none := by
  decide +kernel
/-- R413: a host's LIFECYCLE to PROVISIONED from FACTORY leaves a root, and its statement starts with the UID. -/
theorem test_lifecycle : ok (.lifecycleProvision false) (asking 0x0044 0 [1, 0, 0, 0] State.reset) fun t => t.lc == 1 && t.rootValid &&
    t.host.resps.map (·.status) == [OK] := by decide +kernel

def meter (ctrl stat now : Nat) (n : Nrg) : State :=
  { regs [(R.NRG_CTRL, ctrl), (R.NRG_STAT, stat), (R.NRG_PLS_CFG 7, 0xB0000000), (R.NRG_PLS_WT 7, 5), (R.NRG_ZCFG 63, 0x80000000),
          (R.NRG_ZPWR 63, 1000000)] with now := now, nrg := n }
theorem witness_EnergyResults :
    let s := meter 0xF 0 10000000 {}
    s.clocksRun = true ∧ { s with pwr := { s.pwr with hib := true } }.clocksRun = false ∧ s.bit R.NRG_CTRL 0 = true ∧ s.bit R.NRG_CTRL 3 = true ∧
    State.reset.bit R.NRG_CTRL 3 = false ∧ bitOf (s.rd (R.NRG_PLS_CFG 7)) 31 = true ∧ bitOf (s.rd (R.NRG_PLS_CFG 7)) 29 = true ∧
    bitOf (s.rd (R.NRG_PLS_CFG 7)) 28 = true ∧ bitOf (s.rd (R.NRG_PLS_CFG 6)) 31 = false ∧ s.bit R.NRG_CTRL 2 = true ∧ s.bit R.NRG_STAT 0 = false ∧
    (meter 0xB 1 0 {}).bit R.NRG_STAT 0 = true ∧ (meter 0xB 1 0 {}).bit R.NRG_CTRL 2 = false ∧
    50000000 ≤ 4 * (s.now * 5 / 2) ∧ ¬50000000 ≤ 4 * ((meter 0xF 0 0 {}).now * 5 / 2) ∧ 5 * 50000000 ≤ 12 * (s.now * 5 / 2) ∧
    12 * ((meter 0xF 0 8333333 {}).now * 5 / 2) < 5 * 50000000 ∧ 8 ≤ (meter 0xF 1 0 { good := 8 }).nrg.good ∧ (meter 0xF 1 0 {}).nrg.good < 8 ∧
    (meter 0xF 1 6666667 { lostN := 1 }).nrg.lostN * 50000000 / 3 ≤ 6666667 * 5 / 2 ∧ 6666666 * 5 / 2 < 1 * 50000000 / 3 ∧
    s.nrg.due = false ∧ (meter 0xF 0 0 { due := true }).nrg.due = true ∧ (asking 0x0061 0 [] s).host.reqs.length = 1 ∧
    (∀ i, i < 8 → R.NRG_CTRL ≠ R.NRG_PLS_IMP_LO i ∧ R.NRG_CTRL ≠ R.NRG_PLS_EXP_LO i) ∧ (∀ g, g < 64 → R.NRG_CTRL ≠ R.NRG_ZACC_LO g) := by
  decide +kernel
/-- R416: a pulse of weight 5 with its direction pin high counts as exported; R417: 1 W s accrues from 1,000,000 µW. -/
theorem test_pulse : ok (.pulseQualify 7 true) (meter 0xF 0 0 {}) fun t =>
    t.nrg.exp == [(7, 5)] && t.nrg.cntE == [(7, 1)] && t.nrg.imp == [] := by decide +kernel
theorem test_zone : ok .zoneIntegrate (meter 0xF 0 0 {}) fun t => t.nrg.zone == [(63, 1)] && t.nrg.rem == [] := by decide +kernel

/-- A calibration payload: kind, ref, tolerance, count, three addresses, and the targets. -/
def calAsk (kind ref tol n a : Nat) : List Nat :=
  [kind, ref] ++ bytes (leBytes 2 tol ++ leBytes 4 n ++ (if kind = 1 then leBytes 8 a ++ leBytes 8 (a + 0x1000) ++ leBytes 8 (a + 0x2000) else zeros 24)
    ++ zeros 12)
def calibrating (l : List Nat) (s : State) : State := { s with calib := { run := some { code := 0x0060, sid := 1, payload := l.map (BitVec.ofNat 8) } } }
def checker (cfg stat : Nat) : State :=
  { regs [(R.CHK_CFG 15, cfg), (R.CHK_STAT 15, stat), (R.CHK_POLY_LO 15, 0x1EDC6F41), (R.CHK_INIT_LO 15, 0xFFFFFFFF), (R.CHK_XOR_LO 15, 0xFFFFFFFF)] with
    chkRun := [(15, (0x40000000, 9))] }
theorem witness_CalibrationResults :
    let f (kind ref n a : Nat) := let l := (calAsk kind ref 8 n a).map (BitVec.ofNat 8)
      (l.length, leAt l 0 1, leAt l 1 1, leAt l 4 4, leAt l 8 8)
    f 1 0 4194304 0x40000000 = (44, 1, 0, 4194304, 0x40000000) ∧ f 2 1 255 0 = (44, 2, 1, 255, 0) ∧ f 3 1 0 0 = (44, 3, 1, 0, 0) ∧
    zeroBytes ((calAsk 3 1 0 0 0).map (BitVec.ofNat 8)) 4 44 = true ∧ zeroBytes ((calAsk 2 1 0 255 0).map (BitVec.ofNat 8)) 8 32 = true ∧
    inDram 0x40000000 = true ∧ inDram (0x40000000 + 12 * 4194304 - 1) = true ∧ inScratch 0x3000000000 = false ∧ inHubSram 0x3000000000 = false ∧
    State.reset.calib.run = none ∧ (calibrating (calAsk 2 1 8 255 0) State.reset).calib.run ≠ none ∧ State.reset.lc = 0 ∧
    (regs [(R.KEY_LC, 2)]).lc = 2 ∧ (asking 0x0060 0 (calAsk 1 0 8 1 0x40000000) State.reset).host.reqs.length = 1 ∧
    (regs [(R.SNS_LOCK, 1)]).bit R.SNS_LOCK 0 = true ∧ (leAt ((calAsk 2 1 8 255 0).map (BitVec.ofNat 8)) 4 4).testBit 7 = true ∧
    (regs [(R.SNS_CTRL, 0x80), (R.SNS_TEMP 7, 0x10000)]).bit R.SNS_CTRL 7 = true ∧
    (regs [(R.SNS_CTRL, 0x80), (R.SNS_TEMP 7, 0x10000)]).fld (R.SNS_TEMP 7) 17 16 ≠ 0 ∧ medianLow [3, 1, 2, 9] = 2 := by decide +kernel
theorem witness_CheckUnitResults :
    let s := checker 0x320 0
    1 ≤ s.fld (R.CHK_CFG 15) 6 0 ∧ s.fld (R.CHK_CFG 15) 6 0 ≤ 64 ∧ (checker 0x340 0).fld (R.CHK_CFG 15) 6 0 = 64 ∧
    ¬1 ≤ (checker 0 0).fld (R.CHK_CFG 15) 6 0 ∧ s.bit (R.CHK_STAT 15) 30 = false ∧ (checker 0x320 0x40000000).bit (R.CHK_STAT 15) 30 = true ∧
    mget (fun _ => (0, 0)) s.chkRun 15 = (0x40000000, 9) ∧ (∀ i, i < 9 → checkReach (0x40000000 + i) = true) ∧ checkReach 0x3000000000 = false := by
  decide +kernel
/-- R428, 16: the check value of CRC-32C over "123456789", from its nine bytes, and the start value. -/
theorem test_chk : ok (.chkStreamEnd 15) { also [(R.CHK_STATE_LO 15, 0xFFFFFFFF)] (checker 0x320 0x40000000) with
      mem := place 0x40000000 [0x31, 0x32, 0x33, 0x34, 0x35, 0x36, 0x37, 0x38, 0x39] } fun t =>
    match exec (.chkFinish 15) t with | .next u => u.rd (R.CHK_RESULT_LO 15) == 0xE3069283 | _ => false := by decide +kernel
theorem test_chkAv : ok (.chkAvIn 3 5) (regs [(R.CHK_AV_STATE 3, 0x00370002)]) fun t => t.fld (R.CHK_AV_RES 3) 1 0 == 2 &&
    t.fld (R.CHK_AV_RES 3) 23 8 == 2 && t.fld (R.CHK_AV_STATE 3) 15 0 == 5 := by decide +kernel
/-- R431: sensor 3's runs agree within 8 counts: the offset is the mean of both. -/
theorem test_calAdc : ok (.calRunDone [[2048, 2052]] [[2050, 2050]]) (calibrating (calAsk 3 1 8 0 0) State.reset) fun t =>
    t.rd R.CAL_RES == 0x80000000 && t.calib.run.isNone && t.rd R.CAL_RUNCNT == 1 := by decide +kernel

/-- Slots whose first bytes are no manifest; a staging, a ready and a pending update; a trial; recovery; the straps. -/
def update (stat bcw strap : Nat) (u : Upd) (now : Nat) : State :=
  { regs [(R.UPD_STAT, stat), (R.UPD_BCW, bcw), (R.SYS_STRAP, strap)] with upd := u, now := now }
def staging : Upd := { booted := true, block := some { code := 0x0050, sid := 1, payload := [1, 1, 191, 0] ++ leBytes 8 0x40000000 ++ zeros 8 } }
theorem witness_BootAndUpdateResults :
    let s := update 0x10 0 0 staging 0
    leAt (State.reset.rdBytes 0x1000000000 368) 0 4 ≠ 0x464D5A4E ∧ leAt (place 0 [0x4E, 0x5A, 0x4D, 0x46] |>.map (·.2)) 0 4 = 0x464D5A4E ∧
    s.fld R.UPD_STAT 5 4 = STAGING ∧ (update 0xA0 0 0 {} 0).fld R.UPD_STAT 5 4 = READY ∧ State.reset.fld R.UPD_STAT 5 4 ≠ STAGING ∧
    (update 0xA0 0 0 {} 0).bit R.UPD_STAT 7 = true ∧ s.bit R.UPD_STAT 7 = false ∧ (update 0 2 0 {} 0).bit R.UPD_BCW 1 = true ∧
    s.bit R.UPD_BCW 1 = false ∧ (asking 0x0050 0 (0 :: List.replicate 19 0) State.reset).host.reqs.length = 1 ∧ (zeros 20).length = 20 ∧
    (inDram 0x40000000 ∧ inDram (0x40000000 + 65535)) ∧ State.reset.upd.block = none ∧ s.upd.block = staging.block ∧
    (s.upd.block.map fun r => (leAt r.payload 2 2, leAt r.payload 1 1 % 2)) = some (191, 1) ∧
    (frames 0).flkEn = true ∧ ((1 : Word) - (frames 0).rd R.FLK_FRAME).toInt < 2 ∧ ¬((1002 : Word) - (frames 0).rd R.FLK_FRAME).toInt < 2 ∧
    0 ≤ ((frames 0).fnow - 1000).toInt ∧ s.upd.slot ≤ 1 ∧ State.reset.slotFails 0x1000C00000 = 1 ∧ State.reset.sealHold = none ∧
    State.reset.bit R.UPD_STAT 8 = false ∧ (regs [(R.UPD_STAT, 0x100)]).bit R.UPD_STAT 8 = true ∧ State.reset.fld R.UPD_CFG 15 0 = 30 ∧
    (update 0 2 0 {} 12000000000).upd.trialFrom + 30 * 400000000 ≤ (update 0 2 0 {} 12000000000).now ∧
    ¬(update 0 2 0 {} 11999999999).upd.trialFrom + 30 * 400000000 ≤ (update 0 2 0 {} 11999999999).now ∧
    { staging with recovery := true }.recovery = true ∧ s.upd.recovery = false ∧ State.reset.slotFails 0 = 1 ∧ s.upd.booted = true ∧
    (update 0 0 0xC {} 0).fld R.SYS_STRAP 3 2 = 3 ∧ (update 0 0 4 {} 0).fld R.SYS_STRAP 3 2 = 1 ∧ bitOf (4 : Word) 2 = true := by decide +kernel
/-- R460: with no valid slot the boot waits in recovery; R462: a trial is confirmed and its sequence number rises. -/
theorem test_boot_recovery : ok .bootComplete State.reset fun t => t.upd.recovery && !t.upd.booted && t.upd.bootCount == 1 := by decide +kernel
theorem test_confirm : ok .updConfirm (update 0 0xFFFF0003 0 {} 0) fun t => t.rd R.UPD_BCW == 0x00000005 &&
    t.fld R.UPD_STAT 5 4 == EMPTY := by decide +kernel

/-! Chain and pair: package 2 of three, its east neighbour 0 (by the ring), its partner 1. -/

def chain (en : Bool) : State :=
  regs [(R.CHN_CFG, if en then 0x83004042 else 0x03004042), (R.CHN_STAT, 0x30), (R.PAIR_CFG, 0x81330400), (R.CHN_RXQ, 0x1FF),
        (R.CHN_RXBUF_HI, 0x40000), (R.CHN_RXBUF_LO, 0x40100000), (R.CHN_TXQ, 0x1FF)]
def msg (typ src alive : Nat) (body : List Byte) : ChnMsg := ⟨typ, src, 0xFF, 2, alive, 1000, body⟩
/-- The blocks of a message with an IDLE block before and after it on each lane. -/
def onLanes (m : ChnMsg) : ChainRx :=
  let r := chainRxOf m.bytes
  ⟨idleBlock :: r.lane0 ++ [idleBlock], idleBlock :: r.lane1 ++ [idleBlock]⟩
theorem witness_ChainLinkResults :
    let s := chain true
    let user := msg 0x1F 1 65535 [1, 2, 3]
    let stat := msg 5 2 0 ([1, 3, 2, 0] ++ zeros 8 ++ List.replicate 16 7)
    let x : RxWin := ⟨65535, 5, 3⟩
    (user.typ < 256 ∧ user.src < 256 ∧ user.alive < 65536 ∧ user.body.length ≤ 4096) ∧ (rxMessage (onLanes user)).bind chnParse = some user ∧ chnParse (zeros 7) = none ∧
    rxMessage ⟨[idleBlock], [idleBlock]⟩ = none ∧ rxHeader (onLanes user) = user.bytes.take 7 ∧ s.lckRuns = true ∧
    ({ s with chnQ := [⟨true, 3, none⟩, ⟨true, 1, some user⟩] }.chnNext true = some ⟨true, 1, some user⟩) ∧ mget (fun _ => 0) s.chnTill 1 ≤ s.now ∧
    (BitVec.ofNat 16 0 - BitVec.ofNat 16 x.last).toInt = 1 ∧ (BitVec.ofNat 16 4 - BitVec.ofNat 16 x.last).toInt = 5 ∧
    (BitVec.ofNat 16 65533 - BitVec.ofNat 16 x.last).toInt = -2 ∧ x.mask.testBit 2 = true ∧ x.mask.testBit 1 = false ∧
    (BitVec.ofNat 16 65471 - BitVec.ofNat 16 x.last).toInt = -64 ∧
    (s.bit R.CHN_CFG 31 = true ∧ s.bit R.CHN_STAT 5 = true ∧ s.bit R.CHN_STAT 4 = true) ∧ (chain false).bit R.CHN_CFG 31 = false ∧
    s.fld R.CHN_CFG 3 0 = 2 ∧ s.fld R.PAIR_CFG 27 24 = 1 ∧ chnParse (msg 8 1 0 []).bytes = some (msg 8 1 0 []) ∧
    (rxCheck 4 none 0).ok = true ∧ (rxCheck 4 (some x) 65535).ok = false ∧ chnParse stat.bytes = some stat ∧ stat.src = s.fld R.CHN_CFG 3 0 ∧
    s.chnUp true = true ∧ State.reset.chnUp true = false ∧ s.strict = false ∧ leAt user.bytes 1 1 = 1 ∧ 1 < leAt user.bytes 3 1 ∧ leAt user.bytes 2 1 ≠ 2 ∧
    s.announcerId = 0 ∧ s.flkEn = false ∧ (frames 0).flkEn = true ∧ (2 : Nat) ^ max 4 (min 12 (s.fld R.CHN_RXBUF_HI 19 16)) = 16 ∧ s.bit R.CHN_RXQ 8 = true ∧
    (∀ i, i < user.body.length → hubReach (0x40100000 + i) = true) ∧ s.bit R.CHN_TXQ 8 = true := by and_intros <;> decide +kernel
/-- R474: with 65,535 accepted, counter 0 is next, 4 loses four, 65,533 was seen, 65,534 is late, and 65,471 opens a window. -/
theorem test_rx_window : let x : RxWin := ⟨65535, 5, 3⟩
    (rxCheck 8 (some x) 0).win.last = 0 ∧ (rxCheck 8 (some x) 65533).rep = true ∧ (rxCheck 8 (some x) 65534).ok = true ∧
    (rxCheck 8 (some x) 65471).gap = true ∧ (rxCheck 8 (some x) 8).gap = true ∧ (rxCheck 8 (some x) 7).gap = false := by decide +kernel
theorem test_chain_user : ok (.chainUser true (onLanes (msg 0x1F 1 9 [1, 2, 3]))) (chain true) fun t =>
    (t.mem.filter fun e => e.1 < 0x40100010) == [(0x40100000, 1), (0x40100001, 2), (0x40100002, 3)] && t.chnUsed == 1 := by decide +kernel

def pair (role : Nat) (p : PairEng) (l : List (Nat × Nat)) : State :=
  { also ([(R.PAIR_ROLE, 0x20000 + role)] ++ l) (chain true) with pair := p }
theorem witness_PairResults :
    let s := pair 1 {} []
    let sw := pair 1 { swap := some { at_ := 8 } } []
    let recd : List Byte := zeros 4 ++ leBytes 4 3 ++ zeros 392
    s.pairRole = 1 ∧ s.fld R.PAIR_ROLE 18 16 = 2 ∧ s.pair.swap = none ∧ s.bit R.PAIR_STAT 6 = false ∧ s.bit R.PAIR_CFG 31 = true ∧
    (s.chnPorts 1).length = 1 ∧ (pair 2 {} []).pairRole ≠ 1 ∧ ((4 : Word) - s.fnow).toInt = 4 ∧ ((3 : Word) - s.fnow).toInt < 4 ∧
    (asking 0x0070 0 (List.replicate 28 0) s).host.reqs.length = 1 ∧ 0x400 ≤ (0x81330400 : Nat) % 2048 ∧ (0x813303FF : Nat) % 2048 < 0x400 ∧
    (also [(R.PAIR_IVAL, 1)] { s with now := 400000000 }).pair.roleTick + 1 * 400000000 ≤ 400000000 ∧ State.reset.bit R.SPA_STAT 31 = false ∧
    (regs [(R.SPA_STAT, 0x80000000)]).bit R.SPA_STAT 31 = true ∧ sw.pair.swap = some { at_ := 8 } ∧ (sw.fnow - (8 - 2)).toInt < 0 ∧
    ¬((also [(R.FLK_FRAME, 6)] sw).fnow - (8 - 2)).toInt < 0 ∧ (pair 2 { back := true } [(R.PAIR_STAT, 0)]).pair.back = true ∧
    { s with roleAt := some (4, 5) }.roleAt = some (4, 5) ∧ (pair 2 {} [(R.PAIR_STAT, 0x40)]).bit R.PAIR_STAT 6 = true ∧
    2 * 50000000 ≤ 5 * ({ s with now := 20000000 }.now - s.pair.heard) ∧ ¬2 * 50000000 ≤ 5 * ({ s with now := 19999999 }.now - s.pair.heard) ∧
    (pair 1 { snap := some 7 } []).pair.snap = some 7 ∧ (pair 2 { lost := true } []).pair.lost = true ∧ (frames 0).bit R.PAIR_STAT 7 = false ∧
    (also [(R.PAIR_STAT, 0x80), (R.FLK_COMMITTED, 1000)] (frames 0)).rd R.FLK_COMMITTED = (frames 0).fnow ∧
    (pair 3 { ends := [(0, 1)] } []).pair.ends = [] ++ (0, 1) :: [] ∧ 0 ≤ (s.fnow - 0).toInt ∧ ¬0 ≤ (s.fnow - 1).toInt ∧
    (msg 3 1 0 recd).bytes.length % 8 = 7 ∧ leAt recd 0 4 = 0 ∧ (pair 2 { own := [(0, recd)] } []).pair.own.find? (fun e => e.1 = 0) = some (0, recd) ∧
    leAt recd 4 4 = 3 ∧ (recd.set 399 1).getD 399 0 ≠ recd.getD 399 0 ∧ (pair 2 {} [(R.PAIR_MATCH, 0x100000)]).fld R.PAIR_MATCH 31 16 = 16 ∧
    s.pair.lost = false ∧ (zeros 40).length = 40 ∧ s.snapTotal = 1024 ∧ 1024 ≤ 2 ^ (s.fld R.PAIR_INLOG 3 0 + 16) := by and_intros <;> decide +kernel
/-- R486: a PROPOSE for frame 20 at a standby with 16 matches; R485: a record that differs in its last byte. -/
theorem test_propose : ok (.rolePropose true (onLanes (msg 4 1 9 ([1, 0, 0, 0] ++ leBytes 4 20)))) (pair 2 {} [(R.PAIR_MATCH, 0x100000)]) fun t =>
    t.pairRole == 1 && t.chnOut.map (fun e => e.2.body.take 1) == [[2]] := by decide +kernel
theorem test_digest : ok (.chainDigest true (onLanes (msg 3 1 9 (leBytes 4 0 ++ leBytes 4 3 ++ zeros 3 ++ [1]))))
    (pair 2 { own := [(0, zeros 4 ++ leBytes 4 3 ++ zeros 392)] } []) fun t =>
      t.fld R.PAIR_MATCH 15 0 == 11 && t.fld R.PAIR_CNT 31 16 == 1 && t.pair.misRun == 1 := by decide +kernel

def spare (k u : Nat) (s : State) : State := asking 0x0072 0 [k, 0, u % 256, u / 256] s
theorem witness_SpareAndFaultResults :
    let s := { spare 0 1087 State.reset with failedUnits := [(0, 1087)] }
    leAt (s.host.reqs.flatMap (·.payload)) 2 2 = 1087 ∧ ¬1088 < [1088, 65536, 8192, 32, 32, 1, 8, 1, 64].getD 0 0 ∧
    s.fld (R.SPA_CR 63) 31 27 = 31 ∧ s.bit (R.SPA_CR 63) 16 = false ∧ s.slotPos 63 15 = some 15 ∧ (s.vent 1023).task = none ∧
    (s.lane 31).scanning = false ∧ (lane5 {} 2).lnState 5 = LN_RUN ∧ (lane5 {} 2).lnSpread 5 = false ∧ (lane5 {} 2).blanked 5 = true ∧ (s.core 0).run = .halted ∧ (regs [(R.LGL_STAT, LGL_STOPPED)]).lglState = LGL_STOPPED ∧ s.keySlot 63 = none ∧ (0, 1087) ∈ s.failedUnits ∧
    mget (fun _ => 0) (s.crater 63).rowSpares 15 < 8 ∧ (regs [(R.SPA_CR 63, 0)]).fld (R.SPA_CR 63) 31 27 ≠ 31 ∧
    (keyed 0 0).keySlot 0 ≠ none ∧ (asking 0x0073 0 [0, 0, 0, 0, 127, 0, 0, 0] State.reset).host.reqs.length = 1 ∧
    s.showState = IDLE ∧ s.bit R.SPA_CTRL 31 = true ∧ (0, 1087) ∈ [(0, 1087)] ∧ 1087 % 17 = 16 ∧ inDram 0x40000000 = true ∧ inDram 0x3000000000 = false ∧
    ¬1024 ≤ (s.rd R.FLT_NEXT - s.rd R.FLT_READ).toInt ∧ 1024 ≤ ((regs [(R.FLT_NEXT, 1024)]).rd R.FLT_NEXT - (regs [(R.FLT_NEXT, 1024)]).rd R.FLT_READ).toInt ∧
    s.flt = [] ∧ { s with flt := [⟨0, 0, 0, 4, 3, 0, 0x40000000, 0, 0, 0⟩] }.flt.length = 1 ∧ (s.die 3).lost = false ∧
    { s with dies := [(3, { lost := true })] }.die 3 = { lost := true } ∧
    (let f := { frames 16666666 with flkNext := some (1001, 16666666, 0, false), swapsDue := [⟨0, 1086, none, true⟩] }
     leAt ((spare 0 1086 s).host.reqs.flatMap (·.payload)) 2 2 = 1086 ∧ 1086 / 17 = 63 ∧ 1086 % 17 = 15 ∧ 1086 / 17 * 16 + 15 = 1023 ∧
     f.swapsDue = [⟨0, 1086, none, true⟩] ∧ f.flkEn = true ∧ f.bit R.PAIR_STAT 7 = false ∧ 0 ≤ (f.tsuNs - 16666666).toInt ∧
     f.slotPos 63 15 = some 15 ∧ (f.vent 1023).task = none ∧ ({ f with vents := [(1023, { task := some 0 })] }.vent 1023).task = some 0) := by
  decide +kernel
/-- R36, R492: vent 15 of crater 63 fails its test; at the next frame start it gives its place to the spare, slot 16. -/
theorem test_spare : ok (.spareSwapAuto 0 1086) { State.reset with failedUnits := [(0, 1086)] } fun t =>
    mget id (t.crater 63).slotMap 15 == 15 && t.swapsDue == [⟨0, 1086, none, false⟩] := by decide +kernel
theorem test_spare_frame : ok .frameStart { frames 16666666 with
      flkNext := some (1001, 16666666, 0, false), failedUnits := [(0, 1086)], swapsDue := [⟨0, 1086, none, false⟩] } fun t =>
    mget id (t.crater 63).slotMap 15 == 16 && t.fld (R.SPA_CR 63) 31 27 == 15 && t.fld (R.SPA_KIND 0) 15 0 == 1 &&
    t.swapsDue == [] && t.failedUnits == [] := by decide +kernel
/-- R518: a double-bit DRAM error is fatal to a running show. -/
theorem test_drm : ok (.drmUe 0x40000000) (regs [(R.HST_STATE, RUNNING)]) fun t => t.showState == FAULTED &&
    t.flt.map (·.code) == [4] && t.rd R.FLT_LAST == 0x00030004 := by decide +kernel

theorem witness_SchedulerEventWrite :
    let s := { State.reset with tasks := [(7, { desc := { tag := 0xFFFFFFFF }, st := .waiting (.event 0x7FF) })] }
    (∀ key u, (key, u) ∈ s.tasks → s.task? key = some u) ∧ 0x400 ≤ (0x7FF : Word).toNat % 2048 ∧ (0x3FF : Word).toNat % 2048 < 0x400 ∧
    s.released 0xFFFFFFFF = true := by
  refine ⟨?_, by decide, by decide, by decide +kernel⟩
  intro key u h
  simp at h
  obtain ⟨rfl, rfl⟩ := h
  rfl

theorem witness_RegisterWriteResults :
    let s := window3 4
    let x := 0x3000000000 + (R.NRG_PLS_WT 0 - 0x3000000000)
    (regDesc x).isSome = true ∧ hostWriteLevel x ≤ s.hostLevel ∧ s.langalKeeps .host x = false ∧ x % 4 = 0 ∧
    ((regDesc x).map fun d => (d.base, d.rl)) = some (R.NRG_PLS_WT 0, 0) ∧ x / 0x10000 ∈ [0x300012, 0x300013, 0x300016, 0x300017] ∧
    regDesc 0x300000FFFC = none ∧ coreReach 0 true R.SYS_RESET 1 = true ∧ coreReach 1 false R.KEY_GO 1 = false ∧
    (regDesc (R.CHK_STAT 15)).isSome = true ∧ State.reset.lglReady = false ∧ (langal 0 2 {}).strict = false ∧ (s.target 10).dlv = none ∧
    ¬hostWriteLevel x ≤ State.reset.hostLevel ∧ s.clocksRun = true ∧ s.strict = false ∧ waiting3.clocksRun = false ∧
    s.mayRead .host x = true ∧ State.reset.mayRead .host x = false ∧ (regs [(R.SYS_STRAP, 0x10)]).strict = true ∧
    (irq.core 3).run = .running ∧ (irq.core 3).stall = none ∧ { s with lgl := { s.lgl with lhbSpi := true } }.lgl.lhbSpi = true := by
  and_intros <;> decide +kernel
/-- R376: a host without a session writes nothing; with level 2 it sets a pulse weight. -/
theorem test_registerWrite : (ok (.registerWrite .host (R.NRG_PLS_WT 0 - 0x3000000000) (.write 4 9)) State.reset fun t =>
      t.rd (R.NRG_PLS_WT 0) == State.reset.rd (R.NRG_PLS_WT 0) && t.flt.map (·.code) == [2]) = true ∧
    ok (.registerWrite .host (R.NRG_PLS_WT 0 - 0x3000000000) (.write 4 9)) (window3 4) fun t => t.rd (R.NRG_PLS_WT 0) == 9 && t.flt == [] := by
  decide +kernel
theorem witness_StepKeepsMemoryCanonical : Memory.wf State.reset.mem ∧ Memory.wf (queues.mem) ∧
    (match step { (checker 0x320 0) with pending := [.chkStart 15] } with | .next t => t.pending == [] && t.mem == [] | _ => false) = true :=
  by and_intros <;> decide +kernel

/-! ### Words, kernels and links -/

/-- Words of chapter 3: ADDI g5, g1, −16; VFMADD v3, v1, v2, p2; BNZ g7, −5. -/
theorem test_words : wordOf (.addi (.vent 0) 5 1 (-16)) = some 0x10A1FFF0 ∧ wordOf (.vfmadd 0 3 1 2 2) = some 0x84C49003 ∧
    wordOf (.bnz (.vent 0) 7 (-5)) = some 0xCCFFFFFB := by decide +kernel

/-- 07, the crossfade: 16-bit intensity parameters of the square law, at frame F0 + 90, from state records at T(F0). -/
def wash (k : Nat) : List Byte := leBytes 2 0 ++ leBytes 1 0 ++ leBytes 1 1 ++ leBytes 2 1 ++ leBytes 2 1 ++ leBytes 4 k ++ zeros 244
def persWash : List Byte := leBytes 2 2 ++ leBytes 1 1 ++ zeros 61 ++ leBytes 2 0x1400 ++ leBytes 2 1 ++ zeros 956
def fadeRec (a b : Nat) : List Byte := leBytes 4 a ++ leBytes 4 b ++ leBytes 4 705032704 ++ leBytes 4 3000000
def hollowmere : State :=
  { frames 0 with
    tbl := { pers := [(0, { cur := persWash })], fix := [(4117, { cur := wash 1 })] }
    fadeFrames := [(300090, 706532704)]
    mem := place (2048 + 1024) (fadeRec 0xFFFFF 0) }
theorem test_kernel : hollowmere.wireValue (wash 1) persWash 300090 706532704 0 = 0x3FFFF3 ∧
    wireBytesOf 2 0 0x3FFFF3 = [0x3F, 0xFF] ∧ (fadeLevel (fadeRec 0 0xC0000) 706532704) = 0x60000 ∧
    wireOf ((gammaLane 0 0x60000).1) = 0x240002 ∧
    layerOpacity (zeros 68 ++ fadeRec 0 0xFFFFF ++ zeros 44) 706532704 = 0x3F000008 := by decide +kernel
/-- A show of one fixture and no canvas, and one of a canvas and no layer. -/
theorem witness_frameWork :
    let s := hollowmere
    s.canvasesOn 300090 = [] ∧ (s.tbl.fix.map (·.1)) = [4117] ∧ s.fixAt 4117 300090 ≠ [] ∧ persN persWash = 1 ∧ persFoot persWash = 2 ∧
    1 ∈ persSlots persWash 0 ∧ fixEn (wash 1) = true ∧ fixEn (fix1) = false ∧ fixProg (wash 1) 0 = none ∧
    (let c := zeros 4 ++ leBytes 2 1 ++ leBytes 2 1 ++ zeros 12 ++ leBytes 1 1 ++ zeros 43
     let w := { frames 0 with tbl := { canvas := [(0, { cur := c })] } }
     w.canvasesOn 1000 = [(0, c)] ∧ (∀ n, n < 16 → layerKind ((slotOf w.tbl.layer n).at 1000) = 0)) := by
  and_intros <;> decide +kernel

/-- R468 to R470: ALIGN and IDLE are taken out, an ABORT discards the message in progress. -/
theorem test_lanes : let m := msg 0x1F 1 9 [1, 2, 3]
    let r := chainRxOf m.bytes
    rxMessage ⟨alignBlock 0 :: r.lane0, idleBlock :: alignBlock 1 :: r.lane1⟩ = some m.bytes ∧
    rxMessage ⟨r.lane0.take 1 ++ [idleBlock], [abortBlock]⟩ = none := by decide +kernel
/-- R254: what is scrambled from any start is descrambled after 58 bits. -/
theorem test_scramble : let l := bitsLsb [0x78, 1, 2, 3, 4, 5, 6, 7, 8, 9, 10]
    ((descramble 0 (scramble 0x155 l).1).1.drop 58) = l.drop 58 := by decide +kernel
/-- R334: a frame whose first bit is 1 reads LHB register 1; one of another length is discarded. -/
theorem test_spi : let s := { langal 0 2 {} with lgl := { (langal 0 2 {}).lgl with lhbSpi := true, addrl := 9 } }
    ok (.registerWrite .lhb 0 (.spi (List.replicate 16 false |>.set 5 true |>.set 7 true |>.set 15 true))) s (fun t => t.lgl.addrl == 1) = true ∧
    ok (.registerWrite .lhb 0 (.spi (List.replicate 15 true))) s (fun t => t.lgl == s.lgl) = true := by decide +kernel
theorem wf_registerAccess : (Instr.registerWrite .host 0 (.write 3 0)).wf = false ∧ (Instr.registerWrite .host 0 (.spi [])).wf = false ∧
    (Instr.registerWrite .lhb 0 (.spi [])).wf = true := by decide +kernel

end Sys2Proof.Tests
end

section
/-!
PROOFS. Accesses of the register space (R9, R10, R39 to R41, R325, R334, R376, R377, R516): where an access leads, what a
reserved one leaves, what a write and a read of a plain register leave, and which command a register runs.
-/
namespace Sys2Proof.Machine
open Sys2Proof

/-! ### Commands that complete -/

/-- A command that completes gives what holds of the state it leaves. -/
theorem gives_iff {c : Instr} {s t : State} (h : exec c s = .next t) (P : State → Prop) : Gives c s P ↔ P t := by
  constructor
  · rintro ⟨u, hu, hP⟩
    cases h.symm.trans hu
    exact hP
  · exact fun hP => ⟨t, h, hP⟩

/-- Two commands that leave the same state give the same. -/
theorem gives_congr {c c' : Instr} {s t : State} (h : exec c s = .next t) (h' : exec c' s = .next t) (P : State → Prop) :
    Gives c s P ↔ Gives c' s P := (gives_iff h P).trans (gives_iff h' P).symm

/-! ### The record of a reserved access (R40, R495, R516) -/

/-- A reserved access of `addr` with details d1 and d2 is recorded: memory stays, and so does every register outside FLT
while the package is not on check (R488); the newest BUS_RANGE record names it. -/
def AccessRecorded (s : State) (addr d1 d2 : Nat) (t : State) : Prop :=
  SameMem s t ∧ (s.bit R.PAIR_STAT 6 = false → ∀ b, b / 0x10000 ≠ R.FLT_NEXT / 0x10000 → t.rd b = s.rd b) ∧
  ∃ r, t.flt.find? (fun r => r.code = 0x0002) = some r ∧ r.d1 = BitVec.ofNat 32 d1 ∧ r.d2 = BitVec.ofNat 32 d2 ∧
    r.d0 = BitVec.ofNat 32 addr

theorem AccessRecorded.congr {s t u : State} {addr d1 d2 : Nat} (h : AccessRecorded s addr d1 d2 t) (mem : u.mem = t.mem)
    (regs : u.regs = t.regs) (flt : u.flt = t.flt) : AccessRecorded s addr d1 d2 u := by
  unfold AccessRecorded SameMem State.rdB State.rd at *
  rwa [mem, regs, flt]

/-- A write of an FLT register leaves every register of another block. -/
theorem rd_wr_flt (s : State) (a : Nat) {b : Nat} (v : Word) (ha : a / 0x10000 = R.FLT_NEXT / 0x10000)
    (hb : b / 0x10000 ≠ R.FLT_NEXT / 0x10000) : (s.wr a v).rd b = s.rd b :=
  rd_wr_ne s v fun e => hb (by rw [e, ha])

theorem countRecord_rd (s : State) (code sev : Nat) {b : Nat} (h : b / 0x10000 ≠ R.FLT_NEXT / 0x10000) :
    (s.countRecord code sev).rd b = s.rd b := by
  unfold State.countRecord State.bump State.addF State.setF
  dsimp only
  rw [rd_wr_flt _ R.FLT_LAST _ rfl h, rd_wr_flt _ R.FLT_NEXT _ rfl h]
  split
  · rw [rd_wr_flt _ R.FLT_STAT _ rfl h, rd_wr_flt _ R.FLT_READ _ rfl h]
  · rfl

/-- No check has failed where the package is not on check. -/
theorem checkFault_off {s : State} (sev : Nat) (h : s.bit R.PAIR_STAT 6 = false) : s.checkFault sev = s := by
  simp [State.checkFault, h]

/-- A new record that is not show-fatal changes no register outside FLT, when the package is not on check. -/
theorem newFault_rd {s : State} (code : Nat) {sev : Nat} (w0 w1 w2 w3 : Word) (hc : s.bit R.PAIR_STAT 6 = false)
    (hs : sev ≠ 3) {b : Nat} (h : b / 0x10000 ≠ R.FLT_NEXT / 0x10000) : (s.newFault code sev w0 w1 w2 w3).rd b = s.rd b := by
  have counted : ∀ (r : FaultRec) (d : Word) {c : Nat}, c / 0x10000 ≠ R.FLT_NEXT / 0x10000 →
      (((s.keepRecord r).countRecord code sev).hostEvent 0x8003 0xFFFFFFFF d).rd c = s.rd c :=
    fun r _ _ hb => countRecord_rd (s.keepRecord r) code sev hb
  unfold State.newFault
  dsimp only
  rw [if_neg hs, checkFault_off]
  · exact counted _ _ h
  · unfold State.bit
    rw [counted _ _ (by decide)]
    exact hc

theorem log_rd {s : State} (code : Nat) {sev : Nat} (d0 d1 d2 d3 : Nat) (hc : s.bit R.PAIR_STAT 6 = false) (hs : sev ≠ 3) {b : Nat}
    (h : b / 0x10000 ≠ R.FLT_NEXT / 0x10000) : (s.log code sev d0 d1 d2 d3).rd b = s.rd b := by
  unfold State.log
  dsimp only
  split
  · split
    · rfl
    · exact newFault_rd code _ _ _ _ hc hs h
  · exact newFault_rd code _ _ _ _ hc hs h

theorem ofNat_mod_word (n : Nat) : Word.ofNat (n % 2 ^ 32) = BitVec.ofNat 32 n :=
  BitVec.eq_of_toNat_eq (by simp)

theorem log_accessRecorded (s : State) (addr d1 d2 : Nat) : AccessRecorded s addr d1 d2 (s.log 0x0002 2 (addr % 2 ^ 32) d1 d2) := by
  obtain ⟨r, hr, h0, h1, h2, -⟩ := log_recorded s 0x0002 2 (addr % 2 ^ 32) d1 d2 0
  exact ⟨log_sameMem s _ _ _ _ _ _, fun hc _ => log_rd _ _ _ _ _ hc (by decide), r, hr, h1, h2, h0.trans (ofNat_mod_word addr)⟩

/-! ### Refused accesses -/

/-- Core k takes an exception where it stands, with some s_tval, if it issues instructions; no other core changes. -/
def CoreFaults (s : State) (k cause : Nat) (t : State) : Prop :=
  if (s.core k).run = .running ∧ (s.core k).stall = none then ∃ (u : State) (tval : Word),
      u.cores = s.cores ∧ ExceptionTaken u k cause (s.core k).pc tval (s.core k).secure t
    else t.cores = s.cores

theorem masterProc_core {who : Master} {p : Proc} (h : masterProc who = some p) (n : VentNo) : p ≠ .vent n := by
  cases who <;> cases h <;> simp

theorem core_of_cores {s u : State} (h : u.cores = s.cores) (k : Nat) : u.core k = s.core k := by
  unfold State.core; rw [h]

/-- Entering an exception without a change to secure world is an exception in the world the core runs in (R78). -/
theorem excEnter_exceptionTaken (s : State) (k cause : Nat) (epc tval : Word) :
    ExceptionTaken s k cause epc tval (s.core k).secure (s.excEnter k cause epc tval false) := by
  have status : b2n (bitOf (s.core k).status ST_IE) * 2 + b2n (s.core k).secure * 4 =
      (if bitOf (s.core k).status 0 then 2 else 0) + if (s.core k).secure then 4 else 0 := by
    cases bitOf (s.core k).status 0 <;> cases (s.core k).secure <;> rfl
  unfold ExceptionTaken State.excEnter
  dsimp only
  rw [status, Bool.false_or]

/-- A core's fault is an exception at the instruction where it stands. -/
theorem fault_exceptionTaken (s : State) {p : Proc} (hp : ∀ n, p ≠ .vent n) (cause : Nat) (tval : Word) :
    ExceptionTaken s (coreNo p) cause (s.core (coreNo p)).pc tval (s.core (coreNo p)).secure (s.fault p cause tval) := by
  cases p with
  | vent n => exact absurd rfl (hp n)
  | svc n => exact excEnter_exceptionTaken ..
  | mgmt => exact excEnter_exceptionTaken ..

theorem canIssue_core (s : State) {p : Proc} (hp : ∀ n, p ≠ .vent n) :
    s.canIssue p = true ↔ (s.core (coreNo p)).run = .running ∧ (s.core (coreNo p)).stall = none := by
  cases p with
  | vent n => exact absurd rfl (hp n)
  | svc n => simp [State.canIssue]
  | mgmt => simp [State.canIssue]

/-- What a bus error leaves alone. -/
theorem busError_frame (s : State) {p : Proc} (hp : ∀ n, p ≠ .vent n) (cause : Nat) :
    (s.busError p cause).mem = s.mem ∧ (s.busError p cause).regs = s.regs ∧ (s.busError p cause).flt = s.flt := by
  unfold State.busError
  split
  · cases p with
    | vent n => exact absurd rfl (hp n)
    | svc n => exact ⟨rfl, rfl, rfl⟩
    | mgmt => exact ⟨rfl, rfl, rfl⟩
  · exact ⟨rfl, rfl, rfl⟩

/-- The bus error of a core (R40, R71) after a change outside the cores. -/
theorem busError_coreFaults {s u : State} (h : u.cores = s.cores) {p : Proc} (hp : ∀ n, p ≠ .vent n) (cause : Nat) :
    CoreFaults s (coreNo p) cause (u.busError p cause) := by
  unfold CoreFaults State.busError
  rw [← core_of_cores h]
  by_cases hi : (u.core (coreNo p)).run = .running ∧ (u.core (coreNo p)).stall = none
  · rw [if_pos hi, if_pos ((canIssue_core u hp).2 hi)]
    exact ⟨u.useFree, _, h, fault_exceptionTaken u.useFree hp cause _⟩
  · rw [if_neg hi, if_neg (hi ∘ (canIssue_core u hp).1)]
    exact h

theorem CoreFaults.hostRead {s t : State} {k cause : Nat} (h : CoreFaults s k cause t) (w : Word) :
    CoreFaults s k cause { t with hostRead := w } := by
  unfold CoreFaults at *
  split
  · rename_i hi
    rw [if_pos hi] at h
    obtain ⟨u, tval, hu, ht⟩ := h
    exact ⟨{ u with hostRead := w }, tval, hu, by rw [ht]; rfl⟩
  · rename_i hi
    rw [if_neg hi] at h
    exact h

/-- An access refused to a master is recorded with its address, kind and master, and faults a core (R40, R41, R516). -/
theorem refuseAccess_refused (s : State) {who : Master} (hw : who ≠ .lhb) (x : Nat) {kind : Nat} (hk : kind < 4) :
    AccessRecorded s x (x / 2 ^ 32 % 256 + (masterCode who).1 * 256 + kind * 65536) (masterCode who).2 (s.refuseAccess who x kind) ∧
    ∀ p, masterProc who = some p → CoreFaults s (coreNo p) C_RANGE (s.refuseAccess who x kind) := by
  have hm : (masterCode who).1 % 256 = (masterCode who).1 := by cases who <;> rfl
  have hr : AccessRecorded s x (x / 2 ^ 32 % 256 + (masterCode who).1 * 256 + kind * 65536) (masterCode who).2
      (s.busRange x kind (masterCode who).1 (masterCode who).2) := by
    unfold State.busRange
    rw [hm, Nat.mod_eq_of_lt hk]
    exact log_accessRecorded ..
  unfold State.refuseAccess
  rw [if_neg hw]
  dsimp only
  split
  · rename_i p hp
    obtain ⟨mem, regs, flt⟩ := busError_frame (s.busRange x kind (masterCode who).1 (masterCode who).2)
      (masterProc_core hp) C_RANGE
    refine ⟨hr.congr mem regs flt, fun q hq => ?_⟩
    cases hp.symm.trans hq
    exact busError_coreFaults (busRange_cores ..) (masterProc_core hp) C_RANGE
  · rename_i hp
    exact ⟨hr, fun q hq => by rw [hp] at hq; cases hq⟩

/-- An access with no device address is recorded as presented (R516). -/
theorem busRangeRaw_accessRecorded (s : State) (o : Nat) {kind d1 : Nat} (hk : kind < 4) (hd : d1 = 0x40000 + kind * 65536) :
    AccessRecorded s o d1 0 (s.busRangeRaw o kind 0 0) := by
  have e : 0 % 256 * 256 + kind % 4 * 65536 + 0x40000 = d1 := by omega
  unfold State.busRangeRaw
  rw [e]
  exact log_accessRecorded s o d1 0

/-! ### Where an access leads (R39, R376) -/

/-- The hub is clocked, and the host is not cut off by Langal strict mode (R4, R442). -/
def State.linked (s : State) (who : Master) : Prop := s.clocksRun = true ∧ (who = .host → s.strict = false)

/-- An access of `who` at `a` names the device address x: through BAR0 for the host, which gives an offset (R376), and
directly for a core, aligned, and the Langal engine. -/
def State.names (s : State) (who : Master) (a x : Nat) : Prop :=
  s.linked who ∧ ((masterProc who).isSome = true → a % 4 = 0) ∧
  ((who = .host ∧ a % 4 = 0 ∧ (a < 0x1E0000 ∧ x = 0x3000000000 + a ∨
      0x2000000 ≤ a ∧ a < 0x2100000 ∧ x = 0x3001000000 + (a - 0x2000000) ∨
      0x3FF0000 ≤ a ∧ a < 0x4000000 ∧ x = 0x3FFFFF0000 + (a - 0x3FF0000))) ∨ who ≠ .host ∧ who ≠ .lhb ∧ x = a)

/-- `who` may write the register at x: its reach or level (R41, R377), no Langal mode that keeps it, and alignment. -/
def State.mayWriteAt (s : State) (who : Master) (x : Nat) : Prop :=
  s.mayWrite who x = true ∧ s.langalKeeps who x = false ∧ x % 4 = 0

theorem bar0_dev {a x : Nat} (h : a < 0x1E0000 ∧ x = 0x3000000000 + a ∨
    0x2000000 ≤ a ∧ a < 0x2100000 ∧ x = 0x3001000000 + (a - 0x2000000) ∨
    0x3FF0000 ≤ a ∧ a < 0x4000000 ∧ x = 0x3FFFFF0000 + (a - 0x3FF0000)) : bar0 a = .dev x := by
  rcases h with ⟨h, hx⟩ | ⟨h, h', hx⟩ | ⟨h, h', hx⟩
  · simp [bar0, h, hx]
  · have h1 : ¬a < 0x1E0000 := by omega
    have h2 : ¬a < 0x1F00400 := by omega
    have h3 : ¬a < 0x1F01008 := by omega
    simp [bar0, h1, h2, h3, h, h', hx]
  · have h1 : ¬a < 0x1E0000 := by omega
    have h2 : ¬a < 0x1F00400 := by omega
    have h3 : ¬a < 0x1F01008 := by omega
    have h4 : ¬a < 0x2100000 := by omega
    simp [bar0, h1, h2, h3, h4, h, h', hx]

theorem exec_host {s : State} (hc : s.clocksRun = true) (o : Nat) (acc : RegAccess) :
    exec (.registerWrite .host o acc) s = .next (s.barAccess o acc) := by
  show execRegisterWrite .host o acc s = _
  simp [execRegisterWrite, hc]

theorem exec_lhb {s : State} (hc : s.clocksRun = true) (a : Nat) (acc : RegAccess) :
    exec (.registerWrite .lhb a acc) s = .next (s.lhbAccess a acc) := by
  show execRegisterWrite .lhb a acc s = _
  simp [execRegisterWrite, hc]

theorem exec_unclocked {s : State} (hc : s.clocksRun = false) (who : Master) (a : Nat) (acc : RegAccess) :
    exec (.registerWrite who a acc) s = .next s := by
  show execRegisterWrite who a acc s = _
  simp [execRegisterWrite, hc]

/-- A misaligned access of a core is a bus error and nothing else (R71). -/
theorem exec_misaligned {s : State} (hc : s.clocksRun = true) {who : Master} {p : Proc} (hp : masterProc who = some p) {a : Nat}
    {acc : RegAccess} (ha : a % accSize acc ≠ 0) : exec (.registerWrite who a acc) s = .next (s.busError p C_ALIGN) := by
  show execRegisterWrite who a acc s = _
  unfold execRegisterWrite
  cases who <;> simp_all [masterProc]

/-- A host access in BAR0 reaches the device address that R376 gives. -/
theorem exec_host_dev {s : State} {a x : Nat} (h : s.names .host a x) (acc : RegAccess) :
    exec (.registerWrite .host a acc) s = .next (s.devAccess .host x acc) := by
  obtain ⟨⟨hc, hs⟩, -, ⟨-, -, hx⟩ | ⟨hn, -⟩⟩ := h
  · rw [exec_host hc]
    unfold State.barAccess
    dsimp only
    rw [if_neg (show ¬s.strict = true by simp [hs rfl]), bar0_dev hx]
  · exact absurd rfl hn

/-- A word access that names a device address reaches it. -/
theorem exec_dev {s : State} {who : Master} {a x : Nat} (h : s.names who a x) {acc : RegAccess} (ha : accSize acc = 4) :
    exec (.registerWrite who a acc) s = .next (s.devAccess who x acc) := by
  cases who with
  | host => exact exec_host_dev h acc
  | lhb =>
    obtain ⟨-, -, ⟨hn, -⟩ | ⟨-, hn, -⟩⟩ := h
    · cases hn
    · exact absurd rfl hn
  | langal =>
    obtain ⟨⟨hc, -⟩, -, ⟨hn, -⟩ | ⟨-, -, rfl⟩⟩ := h
    · cases hn
    · show execRegisterWrite .langal x acc s = _
      simp [execRegisterWrite, hc, masterProc]
  | mgmt b =>
    obtain ⟨⟨hc, -⟩, hal, ⟨hn, -⟩ | ⟨-, -, rfl⟩⟩ := h
    · cases hn
    · show execRegisterWrite (.mgmt b) x acc s = _
      simp [execRegisterWrite, hc, masterProc, ha, hal rfl]
  | svc n b =>
    obtain ⟨⟨hc, -⟩, hal, ⟨hn, -⟩ | ⟨-, -, rfl⟩⟩ := h
    · cases hn
    · show execRegisterWrite (.svc n b) x acc s = _
      simp [execRegisterWrite, hc, masterProc, ha, hal rfl]

theorem names_not_lhb {s : State} {who : Master} {a x : Nat} (h : s.names who a x) : who ≠ .lhb := by
  obtain ⟨-, -, ⟨rfl, -⟩ | ⟨-, hn, -⟩⟩ := h
  · simp
  · exact hn

/-- A write that its master may make reaches its register. -/
theorem exec_write {s : State} {who : Master} {a x : Nat} {d : RegDesc} (h : s.names who a x) (hd : regDesc x = some d)
    (hm : s.mayWriteAt who x) (w : Word) : exec (.registerWrite who a (.write 4 w)) s = .next (s.regWrite who d x w) := by
  obtain ⟨hr, hk, hx⟩ := hm
  rw [exec_dev h rfl]
  simp [State.devAccess, State.devWrite, hd, hr, hk, hx]

/-- A write of a reserved register, or one that its master may not make, is refused. -/
theorem exec_write_refused {s : State} {who : Master} {a x : Nat} (h : s.names who a x)
    (hr : regDesc x = none ∨ ¬s.mayWriteAt who x) (w : Word) :
    exec (.registerWrite who a (.write 4 w)) s = .next (s.refuseAccess who x 1) := by
  rw [exec_dev h rfl]
  show Host.Outcome.next (s.devWrite who x w) = _
  unfold State.devWrite
  split
  · rename_i d hd
    rw [hd] at hr
    rw [if_neg]
    rintro ⟨hx, hm, hk⟩
    exact hr.elim (by simp) (fun hn => hn ⟨hm, by simpa using hk, hx⟩)
  · rfl

/-- A read of a reserved register, or one that its master may not make, is refused and answers 0 (R40). -/
theorem exec_read_refused {s : State} {who : Master} {a x : Nat} (h : s.names who a x) (hx : x % 4 = 0)
    (hr : regDesc x = none ∨ s.mayRead who x = false ∨ s.langalKeeps who x = true) :
    exec (.registerWrite who a (.read 4)) s = .next { s.refuseAccess who x 0 with hostRead := 0 } := by
  have none_read : (if s.mayRead who x = true then s.regRead who x else none) = none := by
    unfold State.regRead
    rcases hr with hd | hm | hk
    · simp [hd]
    · simp [hm]
    · cases hd : regDesc x <;> simp [hk]
  rw [exec_dev h rfl]
  simp [State.devAccess, hx, State.devRead, none_read]

/-- The word accesses of a BAR0 offset: those in no range of R376 are recorded as presented, and a read answers 0. -/
theorem exec_host_reserved {s : State} (h : s.linked .host) {o : Nat} (h1 : 0x1E0000 ≤ o) (h2 : ¬(0x1F00000 ≤ o ∧ o < 0x1F00400))
    (h3 : ¬(0x1F01000 ≤ o ∧ o < 0x1F01008)) (h4 : ¬(0x2000000 ≤ o ∧ o < 0x2100000)) (h5 : ¬(0x3FF0000 ≤ o ∧ o < 0x4000000)) (w : Word) :
    exec (.registerWrite .host o (.write 4 w)) s = .next (s.busRangeRaw o 1 0 0) ∧
    exec (.registerWrite .host o (.read 4)) s = .next { s.busRangeRaw o 0 0 0 with hostRead := 0 } := by
  obtain ⟨hc, hs⟩ := h
  have hb : bar0 o = .reserved := by
    unfold bar0
    rw [if_neg (by omega), if_neg h2, if_neg h3, if_neg h4, if_neg h5]
  constructor <;> (rw [exec_host hc]; unfold State.barAccess; dsimp only; rw [if_neg (show ¬s.strict = true by simp [hs rfl]), hb]; rfl)

/-- A word write of the pending-bit array changes nothing. -/
theorem exec_host_pba {s : State} (h : s.linked .host) {o : Nat} (ho : o % 4 = 0) (h1 : 0x1F01000 ≤ o) (h2 : o < 0x1F01008) (w : Word) :
    exec (.registerWrite .host o (.write 4 w)) s = .next s := by
  obtain ⟨hc, hs⟩ := h
  have hb : bar0 o = .pba := by
    unfold bar0
    rw [if_neg (by omega), if_neg (by omega), if_pos ⟨h1, h2⟩]
  rw [exec_host hc]
  unfold State.barAccess
  dsimp only
  rw [if_neg (show ¬s.strict = true by simp [hs rfl]), hb]
  exact congrArg Host.Outcome.next (if_neg fun hn => hn ho)

theorem barAccess_msix {s : State} (hs : s.strict = false) {o i : Nat} (hb : bar0 o = .msix i) (ho : o % 4 = 0) (w : Word) :
    s.barAccess o (.write 4 w) = s.msixWrite i w := by
  unfold State.barAccess
  dsimp only
  rw [if_neg (show ¬s.strict = true by simp [hs]), hb]
  exact if_neg fun hn => hn ho

/-- A word write of the MSI-X table. -/
theorem exec_host_msix {s : State} (h : s.linked .host) {o : Nat} (ho : o % 4 = 0) (h1 : 0x1F00000 ≤ o) (h2 : o < 0x1F00400) (w : Word) :
    exec (.registerWrite .host o (.write 4 w)) s = .next (s.msixWrite (o - 0x1F00000) w) := by
  obtain ⟨hc, hs⟩ := h
  have hb : bar0 o = .msix (o - 0x1F00000) := by
    unfold bar0
    rw [if_neg (by omega), if_pos ⟨h1, h2⟩]
  rw [exec_host hc, barAccess_msix (hs rfl) hb ho]

/-- In Langal strict mode no access of the host arrives (R4). -/
theorem exec_host_strict {s : State} (hs : s.strict = true) (o : Nat) (acc : RegAccess) :
    exec (.registerWrite .host o acc) s = .next s := by
  by_cases hc : s.clocksRun = true
  · rw [exec_host hc]
    unfold State.barAccess
    dsimp only
    rw [if_pos hs]
  · exact exec_unclocked (by simpa using hc) ..

/-- A host access of another size than a word reaches no register (R39). -/
theorem exec_host_size {s : State} {a x : Nat} (h : s.names .host a x) {n : Nat} (hn : n ≠ 4) (w : Word) :
    exec (.registerWrite .host a (.write n w)) s = .next (s.refuseAccess .host x 1) ∧
    exec (.registerWrite .host a (.read n)) s = .next { s.refuseAccess .host x 0 with hostRead := 0 } := by
  constructor <;> rw [exec_host_dev h] <;> simp [State.devAccess, hn]

/-! ### What a plain register takes and answers (R9, R10) -/

theorem shadowWr_rd (s : State) (a b : Nat) (v : Word) : (s.shadowWr a v).rd b = if b = a then v else s.rd b := by
  unfold State.shadowWr
  split <;> exact rd_wr s a b v

theorem shadowWr_frame (s : State) (a : Nat) (v : Word) : s.shadowWr a v =
    { s with regs := (s.shadowWr a v).regs, writeNo := (s.shadowWr a v).writeNo, shadowNo := (s.shadowWr a v).shadowNo } := by
  unfold State.shadowWr
  split <;> rfl

theorem noteWeight_frame (s : State) (i : Nat) (old : Word) : s.noteWeight i old = { s with nrg := (s.noteWeight i old).nrg } := by
  unfold State.noteWeight
  split <;> rfl

theorem bitOf_ofNat (n : Nat) {i : Nat} (hi : i < 32) : bitOf (Word.ofNat n) i = n.testBit i := by
  unfold bitOf
  rw [BitVec.getLsbD_ofNat, decide_eq_true hi, Bool.true_and]

/-- A write of a register without RL bits, bit by bit: a 1 sets a W1S bit and clears a W1C bit, an RW bit takes the value, and
every other bit stays. -/
theorem bitOf_written {d : RegDesc} (hrl : d.rl = 0) (locked : Bool) (old new : Word) {i : Nat} (hi : i < 32) :
    bitOf (d.written locked old new) i = if d.w1s.testBit i = true ∧ bitOf new i = true then true
      else if d.w1c.testBit i = true ∧ bitOf new i = true then false
      else if d.rw.testBit i = true then bitOf new i else bitOf old i := by
  have codes : ∀ s c r n o : Bool, ((o && !r || n && r) && !(n && c) || n && s) =
      if s = true ∧ n = true then true else if c = true ∧ n = true then false else if r = true then n else o := by decide
  have hm : Word.ofNat d.rw ||| (if locked then 0 else Word.ofNat d.rl) = Word.ofNat d.rw := by
    cases locked <;> simp [hrl]
  have hn : ∀ n : Nat, (Word.ofNat n).getLsbD i = n.testBit i := fun n => bitOf_ofNat n hi
  rw [← codes]
  unfold RegDesc.written
  rw [hm]
  simp only [bitOf, BitVec.getLsbD_or, BitVec.getLsbD_and, BitVec.getLsbD_not, hn, hi, decide_true, Bool.true_and]

/-- A write of register x of descriptor d has had the effect of its access codes and no other. -/
def PlainWritten (s : State) (d : RegDesc) (x : Nat) (w : Word) (t : State) : Prop :=
  (∀ b, b ≠ x → t.rd b = s.rd b) ∧
  ∀ i, i < 32 → t.bit x i = if d.w1s.testBit i = true ∧ bitOf (s.stored d.base w) i = true then true
    else if d.w1c.testBit i = true ∧ bitOf (s.stored d.base w) i = true then false
    else if d.rw.testBit i = true then bitOf (s.stored d.base w) i else s.bit x i

theorem plainWrite_written (s : State) {d : RegDesc} (hrl : d.rl = 0) (x : Nat) (w : Word) :
    PlainWritten s d x w (s.plainWrite d x w) := by
  unfold State.plainWrite
  refine ⟨fun b hb => ?_, fun i hi => ?_⟩
  · rw [shadowWr_rd, if_neg hb]
  · unfold State.bit
    rw [shadowWr_rd, if_pos rfl]
    exact bitOf_written hrl _ _ _ hi

/-! ### Registers without an action -/

/-- The registers that act, of the blocks whose other registers are plain. -/
def actingRegs : List Nat := [R.LGV_COMMIT, R.NRG_N, R.PAIR_SWAPGO, R.SPA_SWAPGO, R.FLK_COMMIT, R.FLK_SEAL, R.SCN_COMMIT 0,
  R.DMX_P_COMMIT 0, R.DMX_P_RDMGO 0, R.UNV_COMMIT, R.CAL_COMMIT 0]

/-- Those blocks (FLK, SCN, LGV, DMX, UNV, NRG, PAIR, SPA) and the calderas' blocks. -/
def inQuietBlock (x : Nat) : Prop := x / 0x10000 ∈ [0x30000C, 0x30000D, 0x30000E, 0x300010, 0x300012, 0x300013, 0x300016, 0x300017] ∨
  0x300100 ≤ x / 0x10000 ∧ x / 0x10000 < 0x300110

/-- Such a register takes what its access codes say; a pulse weight is noted as well (R424). -/
theorem regWrite_quiet (s : State) (who : Master) {d : RegDesc} {x : Nat} (ha : d.base ∉ actingRegs) (hb : inQuietBlock x) (w : Word) :
    s.regWrite who d x w = s.plainWrite d x w ∨
    d.base = R.NRG_PLS_WT 0 ∧ s.regWrite who d x w = (s.plainWrite d x w).noteWeight (d.i1 x) (s.rd x) := by
  simp only [actingRegs, List.mem_cons, List.not_mem_nil, or_false, not_or] at ha
  obtain ⟨lgv, nrgN, pair, spa, flk, sealed, scn, dmx, rdm, unv, cal⟩ := ha
  unfold State.regWrite
  rcases hb with hb | ⟨lo, hi⟩
  · simp only [List.mem_cons, List.not_mem_nil, or_false] at hb
    rcases hb with h | h | h | h | h | h | h | h <;> simp only [h]
    case inr.inr.inr.inr.inr.inl =>
      rw [if_neg nrgN]
      split
      · rename_i hp
        exact .inr ⟨hp, rfl⟩
      · exact .inl rfl
    all_goals simp only [lgv, pair, spa, flk, sealed, scn, dmx, rdm, unv, if_false, true_or]
  · split
    case h_27 => exact .inl (if_neg cal)
    all_goals omega

/-- A write of a register without an action has the effect of its access codes and no other (R9, R10). -/
theorem write_quiet {s : State} {who : Master} {a x : Nat} {d : RegDesc} (h : s.names who a x) (hd : regDesc x = some d)
    (hm : s.mayWriteAt who x) (ha : d.base ∉ actingRegs) (hrl : d.rl = 0) (hb : inQuietBlock x) (w : Word) :
    Gives (.registerWrite who a (.write 4 w)) s fun t =>
      t = { s with regs := t.regs, writeNo := t.writeNo, shadowNo := t.shadowNo, nrg := t.nrg } ∧
      (d.base ≠ R.NRG_PLS_WT 0 → t.nrg = s.nrg) ∧ PlainWritten s d x w t := by
  have frame : ∃ t : State, s.plainWrite d x w = { s with regs := t.regs, writeNo := t.writeNo, shadowNo := t.shadowNo } :=
    ⟨_, shadowWr_frame ..⟩
  obtain ⟨u, hu⟩ := frame
  have written := plainWrite_written s hrl x w
  rw [hu] at written
  refine (gives_iff (exec_write h hd hm w) _).2 ?_
  rcases regWrite_quiet s who ha hb w with hr | ⟨hp, hr⟩ <;> rw [hr, hu]
  · exact ⟨rfl, fun _ => rfl, written⟩
  · rw [noteWeight_frame]
    exact ⟨rfl, fun hn => absurd hp hn, written⟩

/-! ### Registers whose write is a command -/

/-- In state s, a write of w by `who` to the register at a is the command c: the table has the register, and the state that
its write leaves is `u`, of the state t that the command leaves. -/
def WriteRuns (s : State) (who : Master) (w : Word) (a : Nat) (c : Instr) (u : State → State) : Prop :=
  ∃ d t, regDesc a = some d ∧ exec c s = .next t ∧ s.regWrite who d a w = u t

theorem ran_of_next {s t : State} {f : State → Res} (h : f s = .next t) : s.ran f = t := by
  unfold State.ran; rw [h]

/-- A register whose action is to run f. -/
theorem writeRuns_ran {s t : State} {who : Master} {w : Word} {a : Nat} {c : Instr} {d : RegDesc} (f : State → Res)
    (hd : regDesc a = some d) (hc : exec c s = f s) (hf : f s = .next t) (hr : s.regWrite who d a w = s.ran f) :
    WriteRuns s who w a c id :=
  ⟨d, t, hd, hc.trans hf, hr.trans (ran_of_next hf)⟩

/-- A commit or go register, whose action is to run f when bit 0 is 1. -/
theorem writeRuns_commit {s t : State} {who : Master} {w : Word} {a : Nat} {c : Instr} {d : RegDesc} (f : State → Res)
    (hd : regDesc a = some d) (hc : exec c s = f s) (hf : f s = .next t) (hr : s.regWrite who d a w = s.commitWrite w f) :
    WriteRuns s who w a c fun t => if bitOf w 0 then t else s :=
  ⟨d, t, hd, hc.trans hf, by rw [hr, State.commitWrite, ran_of_next hf]⟩

/-- The registers whose write of w is a command, and that command. -/
def IsRunReg (who : Master) (w : Word) (e : Nat × Instr) : Prop := e ∈ [(R.SYS_RESET, .sysResetWarm who w),
  (R.PWC_WDOG, .pwcWdogEnable w), (R.PWC_WDKICK, .pwcWdkickWrite w), (R.SCH_EVENT, .schEventWrite w), (R.ICU_SWSET, .icuSwset w),
  (R.ICU_SWCLR, .icuSwclr w), (R.MBX_LOCK, .mbxLockWrite who w), (R.HST_APER, .hstAperWrite w), (R.FLK_SEAL, .flkSealWrite w),
  (R.NRG_N, .nrgNWrite w), (R.CHN_RXREL, .chnRxrelWrite w), (R.SNS_LOCK, .snsLockWrite w)]

/-- The commit and go registers, and the command of each. -/
def IsFireReg (e : Nat × Instr) : Prop := e ∈ [(R.SCH_SNAP, Instr.schSnapGo), (R.TSU_COMMIT, .tsuCommit), (R.TSU_CAP, .tsuCapGo),
  (R.FLK_COMMIT, .flkCommit), (R.LGV_COMMIT, .lgvCommit), (R.SPD_COMMIT, .spdCommit), (R.MAC_RCOMMIT, .macRcommit),
  (R.UNV_COMMIT, .unvCommit), (R.PAIR_SWAPGO, .pairSwapgo), (R.SPA_SWAPGO, .spaSwapgo)]

theorem runReg_writeRuns (s : State) {who : Master} {w : Word} {e : Nat × Instr} (h : IsRunReg who w e) :
    WriteRuns s who w e.1 e.2 id := by
  simp only [IsRunReg, List.mem_cons, List.not_mem_nil, or_false] at h
  rcases h with rfl | rfl | rfl | rfl | rfl | rfl | rfl | rfl | rfl | rfl | rfl | rfl <;> dsimp only
  · exact writeRuns_ran (execSysResetWarm who w) rfl rfl rfl rfl
  · exact writeRuns_ran (execPwcWdogEnable w) rfl rfl rfl rfl
  · exact writeRuns_ran (execPwcWdkickWrite w) rfl rfl rfl rfl
  · exact writeRuns_ran (execSchEventWrite w) rfl rfl rfl rfl
  · exact writeRuns_ran (execIcuSwset w) rfl rfl rfl rfl
  · exact writeRuns_ran (execIcuSwclr w) rfl rfl rfl rfl
  · exact writeRuns_ran (execMbxLockWrite who w) rfl rfl rfl rfl
  · exact writeRuns_ran (execHstAperWrite w) rfl rfl rfl rfl
  · exact writeRuns_ran (execFlkSealWrite w) rfl rfl rfl rfl
  · exact writeRuns_ran (execNrgNWrite w) rfl rfl rfl rfl
  · exact writeRuns_ran (execChnRxrelWrite w) rfl rfl rfl rfl
  · exact writeRuns_ran (execSnsLockWrite w) rfl rfl rfl rfl

theorem fireReg_writeRuns (s : State) (who : Master) (w : Word) {e : Nat × Instr} (h : IsFireReg e) :
    WriteRuns s who w e.1 e.2 fun t => if bitOf w 0 then t else s := by
  simp only [IsFireReg, List.mem_cons, List.not_mem_nil, or_false] at h
  rcases h with rfl | rfl | rfl | rfl | rfl | rfl | rfl | rfl | rfl | rfl <;> dsimp only
  · exact writeRuns_commit execSchSnapGo rfl rfl rfl rfl
  · exact writeRuns_commit execTsuCommit rfl rfl rfl rfl
  · exact writeRuns_commit execTsuCapGo rfl rfl rfl rfl
  · exact writeRuns_commit execFlkCommit rfl rfl rfl rfl
  · exact writeRuns_commit execLgvCommit rfl rfl rfl rfl
  · exact writeRuns_commit execSpdCommit rfl rfl rfl rfl
  · exact writeRuns_commit execMacRcommit rfl rfl rfl rfl
  · exact writeRuns_commit execUnvCommit rfl rfl rfl rfl
  · exact writeRuns_commit execPairSwapgo rfl rfl rfl rfl
  · exact writeRuns_commit execSpaSwapgo rfl rfl rfl rfl

/-- A write that its master may make leaves what the register's command leaves. -/
theorem exec_writeRuns {s : State} {who : Master} {a x : Nat} {w : Word} {c : Instr} {u : State → State} (h : s.names who a x)
    (hm : s.mayWriteAt who x) (hr : WriteRuns s who w x c u) :
    ∃ t, exec c s = .next t ∧ exec (.registerWrite who a (.write 4 w)) s = .next (u t) := by
  obtain ⟨d, t, hd, hc, ht⟩ := hr
  exact ⟨t, hc, ht ▸ exec_write h hd hm w⟩

/-! ### What a read of a plain register answers -/

/-- The blocks with no register that a read changes or the machine computes: FLK, LGV, SPD, UNV, UPD, PAIR, SPA. -/
def plainBlocks : List Nat := [0x30000C, 0x30000E, 0x30000F, 0x300012, 0x300015, 0x300016, 0x300017]

theorem regsAt_block (x : Nat) : regsAt x = regsAt (x / 0x10000 * 0x10000) := by
  unfold regsAt
  rw [Nat.mul_div_cancel _ (by decide)]

/-- None of the registers that a read pops or samples lies in those blocks. -/
theorem plain_not_popped {x : Nat} {d : RegDesc} (hd : regDesc x = some d) (hb : x / 0x10000 ∈ plainBlocks) :
    d.base ∉ [R.KEY_TRNG, R.TSU_NS, R.QUE_Q_POP 0, R.MBX_C_DATA 0] := by
  have blocks : ∀ k ∈ plainBlocks, ∀ d ∈ regsAt (k * 0x10000), d.base ∉ [R.KEY_TRNG, R.TSU_NS, R.QUE_Q_POP 0, R.MBX_C_DATA 0] := by
    decide
  refine blocks _ hb d ?_
  rw [← regsAt_block]
  exact List.mem_of_find?_eq_some hd

theorem find_none_of_block {f : Nat → Nat} {k n x : Nat} (hf : ∀ i, i < n → f i / 0x10000 = k) (hx : x / 0x10000 ≠ k) :
    (List.range n).find? (fun i => x = f i) = none := by
  refine List.find?_eq_none.2 fun i hi => ?_
  rw [decide_eq_true_eq]
  rintro rfl
  exact hx (hf i (List.mem_range.1 hi))

/-- The live accounts are NRG registers. -/
theorem liveAcct_none (s : State) {x : Nat} (hb : x / 0x10000 ≠ 0x300013) : s.liveAcct x = none := by
  unfold State.liveAcct
  rw [find_none_of_block (f := R.NRG_PLS_IMP_LO) (fun i hi => by unfold R.NRG_PLS_IMP_LO; omega) hb,
    find_none_of_block (f := R.NRG_PLS_EXP_LO) (fun i hi => by unfold R.NRG_PLS_EXP_LO; omega) hb,
    find_none_of_block (f := R.NRG_ZACC_LO) (fun i hi => by unfold R.NRG_ZACC_LO; omega) hb]

/-- A register of those blocks reads as what it holds, without its write-only bits. -/
theorem regValue_plain (s : State) (d : RegDesc) {x : Nat} (hb : x / 0x10000 ∈ plainBlocks) :
    s.regValue d x = s.rd x &&& ~~~(Word.ofNat d.wo) := by
  simp only [plainBlocks, List.mem_cons, List.not_mem_nil, or_false] at hb
  unfold State.regValue
  rcases hb with h | h | h | h | h | h | h <;> simp only [h] <;> rfl

/-- A read of such a register by a master that may read it answers that and changes nothing. -/
theorem exec_read_plain {s : State} {who : Master} {a x : Nat} {d : RegDesc} (h : s.names who a x) (hd : regDesc x = some d)
    (hr : s.mayRead who x = true) (hk : s.langalKeeps who x = false) (hx : x % 4 = 0) (hb : x / 0x10000 ∈ plainBlocks) :
    exec (.registerWrite who a (.read 4)) s = .next { s with hostRead := s.rd x &&& ~~~(Word.ofNat d.wo) } := by
  have hp := plain_not_popped hd hb
  simp only [List.mem_cons, List.not_mem_nil, or_false, not_or] at hp
  obtain ⟨key, tsu, que, mbx⟩ := hp
  have hn : x / 0x10000 ≠ 0x300013 ∧ x / 0x10000 ≠ 0x300003 := by
    constructor <;> (intro e; rw [e] at hb; revert hb; decide)
  have port : ¬(R.SCH_P_DESC 0 0 ≤ x ∧ x < R.SCH_P_DESC 10 0 ∧ portOwner who ≠ d.i1 x) := by
    unfold R.SCH_P_DESC; omega
  have pop : s.regPop d x = (s.rd x &&& ~~~(Word.ofNat d.wo), s) := by
    unfold State.regPop
    rw [if_neg key, if_neg tsu, liveAcct_none s hn.1, regValue_plain s d hb]
    rfl
  have read : s.regRead who x = some (s.rd x &&& ~~~(Word.ofNat d.wo), s) := by
    unfold State.regRead
    rw [hd]
    dsimp only
    rw [if_neg (by simp [hk]), if_neg (by simp [que, mbx]), if_neg port, pop]
  rw [exec_dev h rfl]
  show Host.Outcome.next (if x % 4 = 0 then s.devRead who x else _) = _
  rw [if_pos hx, State.devRead, if_pos hr, read]

theorem bitOf_readable (v : Word) (wo : Nat) {i : Nat} (hi : i < 32) :
    bitOf (v &&& ~~~(Word.ofNat wo)) i = (bitOf v i && !wo.testBit i) := by
  rw [← bitOf_ofNat wo hi]
  simp [bitOf, hi]

/-! ### The LHB (R325, R334, R335) -/

theorem foldl_bits_lt (l : List Bool) (n : Nat) : l.foldl (fun n b => 2 * n + b2n b) n < (n + 1) * 2 ^ l.length := by
  induction l generalizing n with
  | nil => simp
  | cons b l ih =>
    refine Nat.lt_of_lt_of_le (ih (2 * n + b2n b)) ?_
    have hb : b2n b ≤ 1 := by cases b <;> decide
    rw [List.length_cons, Nat.pow_succ', ← Nat.mul_assoc]
    exact Nat.mul_le_mul_right _ (by omega)

/-- A frame of 16 bits spells a number below 2^16. -/
theorem bitsMsb_lt {l : List Bool} (h : l.length = 16) : bitsMsb l < 2 ^ 16 := by
  have := foldl_bits_lt l 0
  rwa [h, Nat.zero_add, Nat.one_mul] at this

theorem lhbAccess_spi {s : State} (h : s.lgl.lhbSpi = true) (a : Nat) {l : List Bool} (hl : l.length = 16) :
    s.lhbAccess a (.spi l) = if 2 ^ 15 ≤ bitsMsb l then s.lhbRegRead (bitsMsb l / 256 % 16)
      else s.lhbWriteReg (bitsMsb l / 256 % 16) (BitVec.ofNat 8 (bitsMsb l)) := by
  have hlt := bitsMsb_lt hl
  unfold State.lhbAccess
  dsimp only
  rw [if_neg (by simp [h, hl])]
  by_cases hf : 2 ^ 15 ≤ bitsMsb l
  · rw [if_pos hf, if_pos (by omega)]
  · rw [if_neg hf, if_neg (by omega)]

theorem lhbAccess_spi_discarded (s : State) (a : Nat) {l : List Bool} (hl : l.length ≠ 16) : s.lhbAccess a (.spi l) = s := by
  simp [State.lhbAccess, hl]

/-- With the SPI form selected a parallel access gets no answer. -/
theorem lhbAccess_deselected {s : State} (h : s.lgl.lhbSpi = true) (a : Nat) {acc : RegAccess} (ha : ∀ l, acc ≠ .spi l) :
    s.lhbAccess a acc = s := by
  cases acc with
  | write n w => simp [State.lhbAccess, h]
  | read n => simp [State.lhbAccess, h]
  | spi l => exact absurd rfl (ha l)

/-- With the parallel form selected, a write of the LHB writes the byte to the register its address names. -/
theorem exec_lhb_write {s : State} (hc : s.clocksRun = true) (h : s.lgl.lhbSpi = false) {a r : Nat} (ha : a % 16 = r) (n : Nat) (w : Word) :
    exec (.registerWrite .lhb a (.write n w)) s = .next (s.lhbWriteReg r (BitVec.ofNat 8 w.toNat)) := by
  rw [exec_lhb hc]
  simp [State.lhbAccess, h, ha]

/-- A register of the LHB without an action takes the byte once the engine is ready. -/
theorem lhbRegWrite_ready {s : State} (h : s.lglReady = true) (b : Byte) :
    s.lhbWriteReg 2 b = s.setLgl { s.lgl with arg0 := b } ∧ s.lhbWriteReg 3 b = s.setLgl { s.lgl with arg1 := b } ∧
    s.lhbWriteReg 5 b = s.setLgl { s.lgl with addrl := b } ∧ s.lhbWriteReg 9 b = s.setLgl { s.lgl with irq := s.lgl.irq &&& ~~~b } ∧
    s.lhbWriteReg 10 b = s.setLgl { s.lgl with irqEn := b &&& 0x0F } ∧ s.lhbWriteReg 11 b = s.setLgl { s.lgl with h2e := b } := by
  simp [State.lhbWriteReg, State.lhbRegWrite, h]

/-! ### MSI-X (R373, R376) -/

/-- A write of a word of the table that is no mask takes that word and nothing else. -/
theorem msixWrite_word (s : State) {i : Nat} (hi : i % 16 ≠ 12) (w : Word) :
    s.msixWrite i w = { s with host := { s.host with msixWords := mset (fun _ => 0) s.host.msixWords (i / 4) w } } := by
  unfold State.msixWrite
  rw [if_neg hi]
  rfl

/-- A write of a vector's mask takes bit 0, and nothing else when no delivery to the host waits. -/
theorem msixWrite_mask (s : State) {i : Nat} (hi : i % 16 = 12) (hd : (s.target 10).dlv = none) (w : Word) :
    s.msixWrite i w = { s with host := { s.host with msixMask := mset (fun _ => true) s.host.msixMask (i / 16) (bitOf w 0) } } := by
  unfold State.msixWrite
  rw [if_pos hi]
  show (match (s.target 10).dlv with
    | some n => State.claimHost _ n
    | none => _) = _
  rw [hd]
  rfl

/-! ### What each access gives -/

/-- A write that is refused is recorded and faults a core (R40, R41, R377, R516). -/
theorem write_refused {s : State} {who : Master} {a x : Nat} (h : s.names who a x)
    (hr : regDesc x = none ∨ ¬s.mayWriteAt who x) (w : Word) : Gives (.registerWrite who a (.write 4 w)) s fun t =>
      AccessRecorded s x (x / 2 ^ 32 % 256 + (masterCode who).1 * 256 + 0x10000) (masterCode who).2 t ∧
      ∀ p, masterProc who = some p → CoreFaults s (coreNo p) C_RANGE t :=
  ⟨_, exec_write_refused h hr w, refuseAccess_refused s (names_not_lhb h) x (kind := 1) (by decide)⟩

/-- What a refused read leaves, with the 0 that it answers. -/
theorem answered_zero {s t : State} {who : Master} {x : Nat}
    (h : AccessRecorded s x (x / 2 ^ 32 % 256 + (masterCode who).1 * 256 + 0 * 65536) (masterCode who).2 t ∧
      ∀ p, masterProc who = some p → CoreFaults s (coreNo p) C_RANGE t) :
    AccessRecorded s x (x / 2 ^ 32 % 256 + (masterCode who).1 * 256) (masterCode who).2 { t with hostRead := 0 } ∧
    ({ t with hostRead := 0 } : State).hostRead = 0 ∧
    ∀ p, masterProc who = some p → CoreFaults s (coreNo p) C_RANGE { t with hostRead := 0 } :=
  ⟨h.1.congr rfl rfl rfl, rfl, fun p hp => (h.2 p hp).hostRead 0⟩

/-- A read that is refused is recorded, answers 0 and faults a core. -/
theorem read_refused {s : State} {who : Master} {a x : Nat} (h : s.names who a x)
    (hr : regDesc x = none ∨ s.mayRead who x = false ∨ s.langalKeeps who x = true) (hx : x % 4 = 0) :
    Gives (.registerWrite who a (.read 4)) s fun t =>
      AccessRecorded s x (x / 2 ^ 32 % 256 + (masterCode who).1 * 256) (masterCode who).2 t ∧ t.hostRead = 0 ∧
      ∀ p, masterProc who = some p → CoreFaults s (coreNo p) C_RANGE t :=
  ⟨_, exec_read_refused h hx hr, answered_zero (refuseAccess_refused s (names_not_lhb h) x (kind := 0) (by decide))⟩

/-- A misaligned access of a core is an ALIGN exception of it and changes no memory and no register (R71). -/
theorem misaligned_faults {s : State} (hc : s.clocksRun = true) {who : Master} {p : Proc} (hp : masterProc who = some p) {a : Nat}
    {acc : RegAccess} (hs : accSize acc = 4) (ha : a % 4 ≠ 0) : Gives (.registerWrite who a acc) s fun t =>
      SameMem s t ∧ t.regs = s.regs ∧ CoreFaults s (coreNo p) C_ALIGN t := by
  obtain ⟨mem, regs, -⟩ := busError_frame s (masterProc_core hp) C_ALIGN
  refine ⟨_, exec_misaligned hc hp (by rwa [hs]), fun b => ?_, regs, busError_coreFaults rfl (masterProc_core hp) _⟩
  unfold State.rdB
  rw [mem]

/-- A plain read answers the register's bits but the write-only ones (R9). -/
theorem read_plain {s : State} {who : Master} {a x : Nat} {d : RegDesc} (h : s.names who a x) (hd : regDesc x = some d)
    (hr : s.mayRead who x = true) (hk : s.langalKeeps who x = false) (hx : x % 4 = 0) (hb : x / 0x10000 ∈ plainBlocks) :
    Gives (.registerWrite who a (.read 4)) s fun t => t = { s with hostRead := t.hostRead } ∧
      ∀ i, i < 32 → bitOf t.hostRead i = (s.bit x i && !d.wo.testBit i) :=
  ⟨_, exec_read_plain h hd hr hk hx hb, rfl, fun _ hi => bitOf_readable _ _ hi⟩

/-- A host access of another size is recorded as a reserved one. -/
theorem host_size_recorded {s : State} {a x : Nat} (h : s.names .host a x) {n : Nat} (hn : n ≠ 4) (w : Word) :
    Gives (.registerWrite .host a (.write n w)) s (AccessRecorded s x (x / 2 ^ 32 % 256 + 0x10000) 0) ∧
    Gives (.registerWrite .host a (.read n)) s fun t => AccessRecorded s x (x / 2 ^ 32 % 256) 0 t ∧ t.hostRead = 0 := by
  obtain ⟨hw, hr⟩ := exec_host_size h hn w
  obtain ⟨written, -⟩ := refuseAccess_refused s (who := .host) (by decide) x (kind := 1) (by decide)
  obtain ⟨read, zero, -⟩ := answered_zero (refuseAccess_refused s (who := .host) (by decide) x (kind := 0) (by decide))
  exact ⟨⟨_, hw, written⟩, _, hr, read, zero⟩

/-- A host access outside the ranges of R376 is recorded as presented. -/
theorem host_reserved_recorded {s : State} (h : s.linked .host) {o : Nat} (h1 : 0x1E0000 ≤ o) (h2 : ¬(0x1F00000 ≤ o ∧ o < 0x1F00400))
    (h3 : ¬(0x1F01000 ≤ o ∧ o < 0x1F01008)) (h4 : ¬(0x2000000 ≤ o ∧ o < 0x2100000)) (h5 : ¬(0x3FF0000 ≤ o ∧ o < 0x4000000)) (w : Word) :
    Gives (.registerWrite .host o (.write 4 w)) s (AccessRecorded s o (0x40000 + 0x10000) 0) ∧
    Gives (.registerWrite .host o (.read 4)) s fun t => AccessRecorded s o 0x40000 0 t ∧ t.hostRead = 0 := by
  obtain ⟨hw, hr⟩ := exec_host_reserved h h1 h2 h3 h4 h5 w
  exact ⟨⟨_, hw, busRangeRaw_accessRecorded s o (by decide) rfl⟩, _, hr,
    (busRangeRaw_accessRecorded s o (kind := 0) (by decide) rfl).congr rfl rfl rfl, rfl⟩

/-- A write of a word of the MSI-X table that is no mask. -/
theorem host_msix_word {s : State} (h : s.linked .host) {o : Nat} (ho : o % 4 = 0) (hn : o % 16 ≠ 12) (h1 : 0x1F00000 ≤ o)
    (h2 : o < 0x1F00400) (w : Word) : Gives (.registerWrite .host o (.write 4 w)) s fun t =>
      t = { s with host := { s.host with msixWords := t.host.msixWords } } ∧
      ∀ k, mget (fun _ => 0) t.host.msixWords k = if k = (o - 0x1F00000) / 4 then w else mget (fun _ => 0) s.host.msixWords k := by
  refine ⟨_, exec_host_msix h ho h1 h2 w, ?_⟩
  generalize hi : o - 0x1F00000 = i
  rw [msixWrite_word s (by omega)]
  exact ⟨rfl, fun k => mget_mset _ _ _ _ _⟩

/-- A write of a vector's mask, with no delivery to the host waiting. -/
theorem host_msix_mask {s : State} (h : s.linked .host) {o : Nat} (ho : o % 16 = 12) (h1 : 0x1F00000 ≤ o) (h2 : o < 0x1F00400)
    (hd : (s.target 10).dlv = none) (w : Word) : Gives (.registerWrite .host o (.write 4 w)) s fun t =>
      t = { s with host := { s.host with msixMask := t.host.msixMask } } ∧
      ∀ k, mget (fun _ => true) t.host.msixMask k =
        if k = (o - 0x1F00000) / 16 then bitOf w 0 else mget (fun _ => true) s.host.msixMask k := by
  refine ⟨_, exec_host_msix h (by omega) h1 h2 w, ?_⟩
  generalize hi : o - 0x1F00000 = i
  rw [msixWrite_mask s (by omega) hd]
  exact ⟨rfl, fun k => mget_mset _ _ _ _ _⟩

/-! ### The statement -/

/-- Settles O58: each clause says where the access leads and what it leaves there. -/
theorem registerWriteResults : Obligations.RegisterWriteResults := by
  unfold Obligations.RegisterWriteResults
  intro s who a x w names₀ reaches may go read link aligned names acting plain faults quiet stored runs fires recorded master
  have hreach : reaches ↔ s.mayWrite who x = true := by
    cases who <;> simp [reaches, State.mayWrite]
  have hmay : may ↔ s.mayWriteAt who x := and_congr_left' hreach
  have hmaster : master = masterCode who := by
    cases who <;> rfl
  have hsize : x / 2 ^ 32 % 256 + 0x10000 < 0x40000 := by omega
  have hcode : x / 2 ^ 32 % 256 + (masterCode who).1 * 256 + 0x10000 < 0x40000 := by
    have : (masterCode who).1 ≤ 0x12 := by cases who <;> simp [masterCode]
    omega
  have at_x {d1 d2 : Nat} {t : State} (h : AccessRecorded s x d1 d2 t) (hd : d1 < 0x40000) : recorded d1 d2 t := by
    obtain ⟨mem, regs, r, hr, h1, h2, h0⟩ := h
    exact ⟨mem, regs, r, hr, h1, h2, by rwa [if_pos hd]⟩
  have at_a {d1 d2 : Nat} {t : State} (h : AccessRecorded s a d1 d2 t) (hd : ¬d1 < 0x40000) : recorded d1 d2 t := by
    obtain ⟨mem, regs, r, hr, h1, h2, h0⟩ := h
    exact ⟨mem, regs, r, hr, h1, h2, by rwa [if_neg hd]⟩
  rw [hmaster]
  refine ⟨?quiet, ?runs, ?fires, ?refusedWrite, ?misaligned, ?unclocked, ?plainRead, ?refusedRead, ?sizes, ?strict, ?bar0, ?spi,
    ?parallel⟩
  case quiet =>
    rintro d hn hd hm ⟨ha, hrl, hb⟩
    exact write_quiet hn hd (hmay.1 hm) ha hrl hb w
  case runs =>
    rintro e he rfl hn hm P
    obtain ⟨t, hc, hw⟩ := exec_writeRuns hn (hmay.1 hm) (runReg_writeRuns s he)
    exact gives_congr hw hc P
  case fires =>
    rintro e he rfl hn hm P
    obtain ⟨t, hc, hw⟩ := exec_writeRuns hn (hmay.1 hm) (fireReg_writeRuns s who w he)
    rw [gives_iff hw, gives_iff hc]
    split <;> rfl
  case refusedWrite =>
    intro hn hr
    obtain ⟨t, ht, hrec, hf⟩ := write_refused hn (hr.imp_right (mt hmay.2)) w
    exact ⟨t, ht, at_x hrec hcode, hf⟩
  case misaligned =>
    intro p hc hp ha i hi
    simp only [List.mem_cons, List.not_mem_nil, or_false] at hi
    rcases hi with rfl | rfl <;> exact misaligned_faults hc hp rfl ha
  case unclocked => exact fun hc acc => ⟨s, exec_unclocked hc who a acc, rfl⟩
  case plainRead => exact fun d hn hd hr hk hx hb => read_plain hn hd hr hk hx hb
  case refusedRead =>
    intro hn hr hx
    obtain ⟨t, ht, hrec, h0, hf⟩ := read_refused hn hr hx
    exact ⟨t, ht, at_x hrec (by omega), h0, hf⟩
  case sizes =>
    rintro rfl hn n h4
    obtain ⟨⟨t, ht, hw⟩, u, hu, hr, h0⟩ := host_size_recorded hn h4 w
    exact ⟨⟨t, ht, at_x hw hsize⟩, u, hu, at_x hr (by omega), h0⟩
  case strict =>
    rintro rfl hs acc
    exact ⟨s, exec_host_strict hs a acc, rfl⟩
  case bar0 =>
    rintro rfl hl
    refine ⟨?_, fun h4 h1 h2 => ⟨s, exec_host_pba hl h4 h1 h2 w, rfl⟩, fun h4 hi h1 h2 => host_msix_word hl h4 hi h1 h2 w,
      fun hi h1 h2 hd => host_msix_mask hl hi h1 h2 hd w⟩
    rintro o rfl h1 h2 h3 h4 h5
    obtain ⟨⟨t, ht, hw⟩, u, hu, hr, h0⟩ := host_reserved_recorded hl h1 h2 h3 h4 h5 w
    exact ⟨⟨t, ht, at_a hw (by decide)⟩, u, hu, at_a hr (by decide), h0⟩
  case spi =>
    rintro rfl ⟨hc, -⟩ hs
    refine ⟨fun acc ha => ⟨s, ?_, rfl⟩, fun l => ⟨fun hl => ⟨s, ?_, rfl⟩, fun hl hf => ⟨_, ?_, rfl⟩, fun hl hf => ⟨_, ?_, rfl⟩⟩⟩
    · rw [exec_lhb hc, lhbAccess_deselected hs a ha]
    · rw [exec_lhb hc, lhbAccess_spi_discarded s a hl]
    · rw [exec_lhb hc, lhbAccess_spi hs a hl, if_pos hf]
    · rw [exec_lhb hc, lhbAccess_spi hs a hl, if_neg (by omega)]
  case parallel =>
    rintro rfl ⟨hc, -⟩ hs b
    have hw {r : Nat} (hr : a % 16 = r) := exec_lhb_write hc hs hr 4 w
    refine ⟨fun hr => gives_congr (hw hr) rfl, fun hr => gives_congr (hw hr) rfl, fun hr => gives_congr (hw hr) rfl, fun hl => ?_⟩
    obtain ⟨w2, w3, w5, w9, w10, w11⟩ := lhbRegWrite_ready hl b
    exact ⟨fun hr => ⟨_, hw hr, w2⟩, fun hr => ⟨_, hw hr, w3⟩, fun hr => ⟨_, hw hr, w5⟩, fun hr => ⟨_, hw hr, w9⟩,
      fun hr => ⟨_, hw hr, w10⟩, fun hr => ⟨_, hw hr, w11⟩⟩

end Sys2Proof.Machine
end
